-- ==== Sys2Proof/Word.lean ====
section
/-!
DEFINITION. The word types of the module: bytes, register words, and the fixed-size things that the commands carry.
-/
namespace Sys2Proof

/-- One byte. -/
abbrev Byte := BitVec 8

/-- A 32-bit word. -/
abbrev W32 := BitVec 32

/-- A 64-bit word, the width of scalar registers, of the FTC and of register accesses. -/
abbrev W64 := BitVec 64

/-- The 256-byte payload of a cell (R184). -/
abbrev Payload := BitVec 2048

/-- A cell: payload in bits [2047:0], 8-byte tag above it (R184 to R186). -/
abbrev Cell := BitVec 2112

/-- A vector register: 256 lanes of 32 bits, lane i in bits [32i+31:32i] (R78). -/
abbrev Vec := BitVec 8192

/-- A newt: 64 bytes (R338). -/
abbrev Newt := BitVec 512

/-- A submission ring descriptor: 64 bytes (R379). -/
abbrev Desc := BitVec 512

/-- The interfaces that reach registers (R578), in the order of REG_FAULT.IFACE (R590). -/
inductive Iface where
  | sa | pf | i3cSa | i3cSb
deriving DecidableEq, Repr

/-- IFACE code of R590. -/
def Iface.code : Iface → Nat
  | .sa => 0
  | .pf => 1
  | .i3cSa => 2
  | .i3cSb => 3

/-- What a register access names (R35, R375, R41): an offset of the register space, an offset of the ring pages of a function, or
a module-local address outside both, which SA firmware alone can name. -/
inductive Space where
  | regs
  | page (f : Fin 17)
  | map
deriving DecidableEq, Repr

/-- Width of an access: 32 bits, 64 bits, or another (R10); SA firmware's other accesses to memory are of one byte (log 75). -/
inductive Width where
  | w32 | w64 | other
deriving DecidableEq, Repr

/-- How the read of a codeword of HBM came out (R361): clean, corrected, miscorrected (wrong data returned as corrected), or uncorrectable,
first at one of its 64-bit words. -/
inductive Cw where
  | ok | ce | mc
  | ue (word : BitVec 4)
deriving DecidableEq, Repr

/-- How a read of protected memory came out (R81, R85, R361): clean, corrected, miscorrected (wrong data returned as corrected), or
uncorrectable at a 64-bit word of what was read, counted from 0; of HBM also codeword by codeword, from that of the first byte on. -/
inductive Ecc where
  | ok | ce | mc
  | ue (word : BitVec 20)
  | words (xs : List Cw)
deriving DecidableEq, Repr

/-- An error in the multipliers or the block accumulator: output element, block, and by how much N is wrong (R121, R122). -/
abbrev SumFault := Fin 9216 × Fin 1024 × Int

/-- How a codeword reached a port (R272): its number since training ended, and its symbols in error. -/
structure CodewordErr where
  num : Nat
  errs : List (Fin 544)
deriving DecidableEq, Repr

/-- What a phase of training brings (R298): phase 2, the lanes locked; phase 3, the lanes whose receiver has finished, the precoding
asked of the peer and applied here, and the tap requests and states of the control words; phase 4, how many ticks after the earliest
each lane's marker comes, the lanes that the peer will use, whether the peer permits half width, and the deskew of R55. -/
inductive TrainStep where
  | broughtUp
  | locked (lanes : BitVec 34)
  | adapted (lanes precReq precOn : BitVec 34) (coefReq coefStat : List Byte)
  | deskewed (skew : List Byte) (peer : BitVec 34) (peerHalf : Bool) (deskew : BitVec 16)
deriving DecidableEq, Repr

/-- What a die's ageing monitors read (R520): its canaries' delay increases in ppm of their fused baselines, and the frequencies of the
stressed oscillator and of the one at rest in each of its pairs. -/
structure AgeingRead where
  canaries : List (BitVec 24)
  pairs : List (BitVec 32 × BitVec 32)
deriving DecidableEq, Repr

/-- What a PCIe configuration write to a function sets (R371): NumVFs; Relaxed Ordering and the payload limit of Device Control, 128 bytes
times a power of two; MSI-X Enable and Function Mask; ATS Enable; D3hot or D0; or nothing that acts here. -/
inductive CfgWrite where
  | vfs (n : Fin 17)
  | control (relaxed : Bool) (payload : Fin 8)
  | msix (enable mask : Bool)
  | ats (on : Bool)
  | power (d3 : Bool)
  | other
deriving DecidableEq, Repr

/-- What the receiver of a lane sees (R292): signal and clock lock, or at a period's start its marker's lane number and period index,
none where it is missing; or nothing new, where its corrected symbols are judged. -/
inductive LaneReport where
  | signal (ok : Bool)
  | marker (m : Option (BitVec 6 × BitVec 16))
  | symbols
deriving DecidableEq, Repr

/-- What a root measures of its 10 MHz input (R51, R57, R71): the offset of its count in 1/256 tick, and the input's frequency as FTC_INCR
gives one. -/
structure RefMeasure where
  offset : BitVec 32
  freq : BitVec 48
deriving DecidableEq, Repr

/-- The read is uncorrectable. -/
def Ecc.bad : Ecc → Bool
  | .ue _ => true
  | .words xs => xs.any fun x => match x with
    | .ue _ => true
    | _ => false
  | _ => false

/-- The read was corrected, rightly or not. -/
def Ecc.corrected : Ecc → Bool
  | .ce => true
  | .mc => true
  | _ => false

end Sys2Proof
end

