-- ==== Sys2Proof/Syntax.lean ====
section
/-!
DEFINITION. The commands of the module, one constructor per row of the opcode table, in the table's order.

Operands that recur: `t` a tile by its fabric number, `w` the word of the instruction that the tile issues, `i` the
interface a register access comes through, `v` the value written, `ecc` how a read of protected memory comes out, `f` a
PCIe function (0 the PF, n virtual function n), `r` a submission ring, `p` a port or a partition, `c` a C-die, `k` a stack
or an index, `d` a die, `differ` whether the duplicate of a computation disagrees.  The other operands are inputs from
outside the block that the spec gives no rule for (what a host read returns, what a sensor measures, whether a
verification passes), and each meaning's docstring says which.
-/
namespace Sys2Proof

/-- A command to the module. -/
inductive Instr where
  /-- TICK (R45): The FTC advances by one on every 320 ps tick, and every die's replica advances with it. -/
  | tick
  /-- FRAME_START (R46): At every FTC multiple of 4,096, SB sends its full count down the tick tree, each die checks
  its replica, and each C-die latches LCT and FTC. -/
  | frameStart (bad : List (Fin 32 × W64))
  /-- FTC_READ (R47): A read of SB.FTC returns the count, and a 32-bit read of the low word latches the high word
  for the next read. -/
  | ftcRead (i : Iface) (wide high : Bool)
  /-- FTC_INCR_WRITE (R48): SA firmware writes the tick clock ratio, which is range-checked and takes effect within
  32 ticks. -/
  | ftcIncrWrite (i : Iface) (v : W64)
  /-- FTC_STEP_WRITE (R49): SA firmware writes a signed step, which is accepted only in FREE or ACQUIRE with no
  launch armed or job running. -/
  | ftcStepWrite (i : Iface) (v : W64)
  /-- FTC_STEP_ACT (R49): At the next frame start an accepted step is judged again and added to the FTC, or refused
  with FTC_STEP_REFUSED. -/
  | ftcStepAct
  /-- TIME_CTRL_WRITE (R51): A write of SB.TIME_CTRL selects root or upstream ports and may move the time state from
  FREE or LOST to ACQUIRE. -/
  | timeCtrlWrite (i : Iface) (v : W32)
  /-- TIME_RESTART (R51): A write of RESTART as 1 enters ACQUIRE, unless a launch is armed or a job runs. -/
  | timeRestart (i : Iface) (v : W32)
  /-- TIME_XFER_SEND (R53): In the signal slot of every sixteenth frame each port sends a TIME_XFER newt stamped on
  the fly. -/
  | timeXferSend (p : Fin 6) (plane : BitVec 80)
  /-- TIME_XFER_RECEIVE (R56): A received TIME_XFER newt completes an exchange, the L-die computes offset and delay
  or discards the exchange, and the servo acts on the upstream's offset. -/
  | timeXferReceive (p : Fin 6) (n : Newt) (plane : BitVec 80) (freq : BitVec 48)
  /-- TIME_XFER_MISSING (R51): An expected time-transfer newt that has not taken effect by its due tick counts as
  missing, and four in a row move LOCKED to HOLDOVER. -/
  | timeXferMissing (p : Fin 6)
  /-- HOLDOVER_EXPIRY (R61): After 100 ms in HOLDOVER the state becomes LOST, TIME_LOST is recorded and new launches
  are refused. -/
  | holdoverExpiry
  /-- REF10M_LOSS (R71): A root that sees no 10 MHz input for ten reference periods enters HOLDOVER. -/
  | ref10mLoss
  /-- REF10M_PRESENT (R51): The return of the 10 MHz input or of an eligible upstream moves HOLDOVER or LOST back to
  LOCKED without a step. -/
  | ref10mPresent (locked : Bool) (near : RefMeasure)
  /-- WTB_LOAD_GO (R66): A write of SB.WTB_LOAD_NS with GO arms a wall-time load or adjustment for the next frame
  start. -/
  | wtbLoadGo (i : Iface) (v : W64)
  /-- WTB_LOADED (R66): At the frame start the WTB is set or adjusted and the old and new values are logged. -/
  | wtbLoaded
  /-- WTB_SEC_READ (R75): A 64-bit read of SB.WTB_SEC latches SB.WTB_NS for the next read. -/
  | wtbSecRead (i : Iface)
  /-- PTP_FRAME_RX (R67): A PTP event frame on the management Ethernet is stamped in WTB format, and peer delay
  messages are dropped and counted. -/
  | ptpFrameRx (frame : List Byte)
  /-- PTP_FRAME_TX (R68): A departing PTP frame is stamped, with one-step insertion or a two-step stamp queued in
  departure order. -/
  | ptpFrameTx (oneStep : Bool) (frame : List Byte)
  /-- PTP_TX_STAMP_READ (R75): A read of SB.PTP_TX_STAMP pops the next two-step transmit stamp. -/
  | ptpTxStampRead (i : Iface)
  /-- PPS_IN_EDGE (R70): A rising edge of the 1PPS input is stamped in FTC and WTB, and PPS_COUNT advances. -/
  | ppsInEdge
  /-- PPS_OUT_EDGE (R69): At the tick where the WTB nanoseconds pass through 0 the 1PPS output rises and stays high
  for 100 µs. -/
  | ppsOutEdge
  /-- LAUNCH_AT (R63): The host's LAUNCH_AT command is checked against the count and the time state and, if
  accepted, arms a launch at L. -/
  | launchAt (f : Fin 17) (r : Fin 4)
  /-- CHANGEOVER (R392): The host's CHANGEOVER command is checked under R245 and arms a bank changeover at X. -/
  | changeover (f : Fin 17) (r : Fin 4)
  /-- CANCEL (R393): The host's CANCEL command withdraws an armed launch or changeover at a named tick. -/
  | cancel (f : Fin 17) (r : Fin 4)
  /-- CHANGEOVER_TICK (R247): At an armed tick the armed banks become active, restarting owners restart their
  walkers and tiles, and a launch starts. -/
  | changeoverTick
  /-- BANK_DRAIN_END (R249): When the last release and dispatched entry of a former bank have passed, the DRAINING
  bank becomes EMPTY. -/
  | bankDrainEnd (u : Fin 26)
  /-- INSTRUCTION_FETCH (R81): The sequencer fetches the next word from the active instruction bank and corrects or
  faults on an ECC error. -/
  | instructionFetch (t : Fin 768) (ecc : Ecc)
  /-- SALU (R147): Scalar register-register operation selected by FN. -/
  | salu (t : Fin 768) (w : W64)
  /-- SALUI (R147): Scalar register-immediate operation selected by FN. -/
  | salui (t : Fin 768) (w : W64)
  /-- SCMP (R148): Compares two scalar registers into a predicate. -/
  | scmp (t : Fin 768) (w : W64)
  /-- SCMPI (R148): Compares a scalar register with an immediate into a predicate. -/
  | scmpi (t : Fin 768) (w : W64)
  /-- PLOG (R148): Combines two predicates into a third. -/
  | plog (t : Fin 768) (w : W64)
  /-- LI (R146): Loads a sign-extended immediate into a scalar register. -/
  | li (t : Fin 768) (w : W64)
  /-- LUI (R146): Loads an immediate into the upper half of a scalar register. -/
  | lui (t : Fin 768) (w : W64)
  /-- BR (R149): Branches to an immediate target, conditionally through its guard predicate. -/
  | br (t : Fin 768) (w : W64)
  /-- JAL (R149): Saves the return address and jumps to an immediate target. -/
  | jal (t : Fin 768) (w : W64)
  /-- JR (R149): Jumps to the target held in a scalar register. -/
  | jr (t : Fin 768) (w : W64)
  /-- END (R149): Once earlier instructions retire, the tile becomes IDLE. -/
  | endCmd (t : Fin 768) (w : W64)
  /-- NOP (R146): Takes an issue cycle and does nothing. -/
  | nop (t : Fin 768) (w : W64)
  /-- MFCR (R151): Reads a tile control register after earlier matrix and vector instructions retire. -/
  | mfcr (t : Fin 768) (w : W64)
  /-- MTCR (R151): Writes a tile control register after earlier matrix and vector instructions retire. -/
  | mtcr (t : Fin 768) (w : W64)
  /-- SLD (R150): Loads 8 bytes of the tile's own data SRAM into a scalar register. -/
  | sld (t : Fin 768) (w : W64) (ecc : Ecc)
  /-- SST (R150): Stores a scalar register to 8 bytes of the tile's data SRAM. -/
  | sst (t : Fin 768) (w : W64)
  /-- VFP (R154): FP32 lane operation selected by FN, with b from a vector register. -/
  | vfp (t : Fin 768) (w : W64) (differ : Bool)
  /-- VFPS (R154): FP32 lane operation with b taken from a scalar register. -/
  | vfps (t : Fin 768) (w : W64) (differ : Bool)
  /-- VINT (R155): 32-bit integer lane operation with b from a vector register. -/
  | vint (t : Fin 768) (w : W64) (differ : Bool)
  /-- VINTS (R155): 32-bit integer lane operation with b from a scalar register. -/
  | vints (t : Fin 768) (w : W64) (differ : Bool)
  /-- VMOV (R156): Moves, splats, writes lane indices or permutes lanes. -/
  | vmov (t : Fin 768) (w : W64) (differ : Bool)
  /-- VCVT (R158): Converts between FP32 and another format under the named rounding. -/
  | vcvt (t : Fin 768) (w : W64) (differ : Bool)
  /-- VRED (R159): Reduces the active lanes of a vector register to one scalar result. -/
  | vred (t : Fin 768) (w : W64) (differ : Bool)
  /-- VLACC (R160): Clears, adds to, reads, exports or merges the long accumulators. -/
  | vlacc (t : Fin 768) (w : W64) (differ : Bool)
  /-- VLD (R161): Loads 1,024 bytes of data SRAM into a vector register. -/
  | vld (t : Fin 768) (w : W64) (ecc : Ecc)
  /-- VST (R161): Stores the active lanes of a vector register to data SRAM. -/
  | vst (t : Fin 768) (w : W64)
  /-- GATHER (R162): Loads one 32-bit word per active lane from computed addresses. -/
  | gather (t : Fin 768) (w : W64) (ecc : Ecc) (differ : Bool)
  /-- SCATTER (R162): Stores one 32-bit word per active lane to computed addresses. -/
  | scatter (t : Fin 768) (w : W64) (differ : Bool)
  /-- SCATADDI (R162): Adds each active lane to a 32-bit integer in memory. -/
  | scataddi (t : Fin 768) (w : W64) (ecc : Ecc) (differ : Bool)
  /-- LEXP (R163): Exports long accumulator records to data SRAM. -/
  | lexp (t : Fin 768) (w : W64) (differ : Bool)
  /-- LMRG (R163): Merges long accumulator records from data SRAM. -/
  | lmrg (t : Fin 768) (w : W64) (ecc : Ecc) (differ : Bool)
  /-- VSORT (R164): Sorts 256 keys with their payloads. -/
  | vsort (t : Fin 768) (w : W64) (differ : Bool)
  /-- VTOPK (R165): Writes the largest k active keys and their payloads. -/
  | vtopk (t : Fin 768) (w : W64) (differ : Bool)
  /-- VRAND (R166): Fills a vector register from Philox4x32-10 by logical position. -/
  | vrand (t : Fin 768) (w : W64) (differ : Bool)
  /-- MMA (R167): Starts a matrix multiply-accumulate into an accumulator over KBLK blocks. -/
  | mma (t : Fin 768) (w : W64) (ecc : Ecc) (fs : List SumFault)
  /-- MMA_COMPLETE (R122): At the end of an MMA's occupancy the accumulator holds the result and the residue and
  duplicate checks are judged. -/
  | mmaComplete (t : Fin 768) (differ : Bool)
  /-- DRAIN (R169): Writes an accumulator to data SRAM. -/
  | drain (t : Fin 768) (w : W64)
  /-- DRAINV (R169): Writes one accumulator slice to a vector register. -/
  | drainv (t : Fin 768) (w : W64)
  /-- LSEND (R171): Queues a 256-byte local-line send for a named line cycle. -/
  | lsend (t : Fin 768) (w : W64) (ecc : Ecc)
  /-- LINE_SEND_DEPART (R87): At line cycle T the send leaves the queue and the cell enters the source stop at T +
  2. -/
  | lineSendDepart (t : Fin 768)
  /-- LINE_CELL_HOP (R86): A line cell crosses one link of its fixed route in one core cycle, or is held one cycle
  at its destination stop. -/
  | lineCellHop (c : Fin 4)
  /-- LINE_EJECT (R87): At its delivery cycle D the cell enters the destination's eject buffer. -/
  | lineEject (t : Fin 768)
  /-- EXTERNAL_CYCLE (R83): In the last cycle of each window of eight all SRAM banks serve the external port, booked
  movers first. -/
  | externalCycle (t : Fin 768) (eccs : List Ecc)
  /-- ARRIVE (R172): Tile instruction that adds an operand to a token. -/
  | arrive (t : Fin 768) (w : W64)
  /-- SET (R172): Tile instruction that sets a token to an operand. -/
  | setCmd (t : Fin 768) (w : W64)
  /-- MSEND (R176): Posts a 64-byte unscheduled message descriptor to the C-die's injection unit. -/
  | msend (t : Fin 768) (w : W64) (ecc : Ecc)
  /-- WAITT (R173): Stalls the tile until a token reaches a threshold, with a timeout. -/
  | waitt (t : Fin 768) (w : W64)
  /-- WAITF (R173): Stalls the tile until the FTC reaches a count. -/
  | waitf (t : Fin 768) (w : W64)
  /-- FTC_WAIT_COMPLETE (R99): On the first core cycle at or after the awaited count the FTC wait completes. -/
  | ftcWaitComplete (t : Fin 768)
  /-- WAITPS (R174): Puts the tile to sleep in the mode of TILE_PMODE until a token, FTC or timeout condition. -/
  | waitps (t : Fin 768) (w : W64)
  /-- TILE_WAKE (R102): When a wake condition holds the sleeping tile wakes after its mode's latency and resumes
  after WAITPS. -/
  | tileWake (t : Fin 768)
  /-- RDTIME (R175): Writes the FTC, LCT or line cycle of the issue cycle to a scalar register. -/
  | rdtime (t : Fin 768) (w : W64)
  /-- TMARK (R177): Writes a trace record carrying an immediate and a scalar register. -/
  | tmark (t : Fin 768) (w : W64)
  /-- TOKEN_UPDATE_CYCLE (R96): Each core cycle a C-die applies at most one set, then all arrives, then each
  waiter's comparison. -/
  | tokenUpdateCycle (c : Fin 4)
  /-- TOKEN_WAIT_RESUME (R96): A tile whose threshold was met resumes issue three core cycles later. -/
  | tokenWaitResume (t : Fin 768)
  /-- TOKEN_WAIT_TIMEOUT (R99): A token wait that reaches its timeout in frames stops the tile. -/
  | tokenWaitTimeout (t : Fin 768)
  /-- SEQ_WATCHDOG (R103): A running tile that retires nothing for 100 µs stops. -/
  | seqWatchdog (t : Fin 768)
  /-- TOKEN_SLOT_ARRIVE (R95): A 32-bit write to a token's ARRIVE offset adds the written amount. -/
  | tokenSlotArrive (k : Fin 16384) (w : Width) (v : W32)
  /-- TOKEN_SLOT_SET (R95): A 32-bit write to a token's SET offset sets its value. -/
  | tokenSlotSet (k : Fin 16384) (w : Width) (v : W32)
  /-- TILE_SRAM_SCRUB (R85): The patrol scrubber reads tile and staging SRAM words in idle external capacity and
  writes back corrections. -/
  | tileSramScrub (a : BitVec 48) (ecc : Ecc)
  /-- WALKER_READ (R224): A timetable, junction or stream walker reads one entry per tick within its horizon and
  dispatches it or runs its control entry. -/
  | walkerRead (u : Fin 26) (o : Fin 32) (arr pre : Bool) (ecc : Ecc)
  /-- CHANGEOVER_ENTRY (R225): A CHANGEOVER entry parks the walker or marks a tick at which a restart may take
  place. -/
  | changeoverEntry (u : Fin 26) (o : Fin 32) (arr : Bool)
  /-- MARK_ENTRY (R226): At its tick a MARK writes a trace record and may arrive on a token. -/
  | markEntry (u : Fin 26) (o : Fin 32) (arr : Bool)
  /-- DEPART_ENTRY (R189): At D − 512 a DEPART sends the train's read request to the source tile's C-die. -/
  | departEntry (p : Fin 6) (o : Fin 32)
  /-- DEPART_READY_TEST (R189): At D − 480 the C-die tests the ready token and reads the train's cells toward the
  departure buffer. -/
  | departReadyTest (p : Fin 6) (o : Fin 32)
  /-- PASS_OUTBOUND_TAKE (R235): At t_i − 16 an outbound PASS half takes the oldest forward-queue element for its
  inbound port and owner. -/
  | passOutboundTake (p : Fin 6) (o : Fin 32)
  /-- REDUCE_ENTRY (R256): At r_0 − 512 a REDUCE sends the operand request to the operand tile's C-die. -/
  | reduceEntry (p : Fin 6) (o : Fin 32)
  /-- REDUCE_READY_TEST (R256): At r_0 − 480 the C-die tests the operand token and reads the operand cells toward
  the passing loop. -/
  | reduceReadyTest (p : Fin 6) (o : Fin 32)
  /-- JUNCTION_SLOT (R237): In each 2-tick junction slot each J-die crosses the cells of its CONNECT entries and
  fills unbooked lanes with other traffic. -/
  | junctionSlot (j : Fin 4)
  /-- PORT_TX_TICK (R184): In each tick a port sends exactly one cell chosen by the tick's role: newts, a timetabled
  cell, a replay, an unscheduled cell or an idle cell. -/
  | portTxTick (p : Fin 6)
  /-- CELL_RECEIVE (R280): A received cell passes FEC and CRC, its LSEQ is judged, and an accepted timetabled or
  packet cell goes to the arrival or unscheduled logic. -/
  | cellReceive (p : Fin 6) (c : Cell) (frac : Byte) (cws : List CodewordErr)
  /-- DUE_WINDOW_CLOSE (R200): An expected cell whose due window closes without a match becomes pending. -/
  | dueWindowClose (p : Fin 6)
  /-- CELL_RELEASE (R202): At its release tick a matched cell leaves the hold for its platform, forward queue or
  passing loop, or the train is reported late. -/
  | cellRelease (p : Fin 6) (agree : Bool)
  /-- PLATFORM_WRITE (R202): A released or dropped-off cell reaching its C-die is written to the platform in an
  external cycle, and the train's token arrive follows the last cell. -/
  | platformWrite (t : Fin 768)
  /-- REDUCE_WRITE_BACK (R259): A final REDUCE sum is written over its operand cell, and after the last cell TOKEN
  receives 1. -/
  | reduceWriteBack (t : Fin 768)
  /-- SIGNAL_CELL_RECEIVE (R283): A received signal cell's acknowledgement, NAK and newts take effect 48 ticks after
  arrival. -/
  | signalCellReceive (p : Fin 6) (c : Cell) (cws : List CodewordErr)
  /-- REPLAY_TIMEOUT (R286): When the replay timer for the oldest outstanding cell expires the cell is replayed. -/
  | replayTimeout (p : Fin 6)
  /-- LINK_UP (R301): At the first frame start after both verdicts are ACCEPTED the port enters UP and its send
  state is reset. -/
  | linkUp (p : Fin 6)
  /-- ENTER_SIDING (R301): At the next frame start after a non-ACCEPTED verdict the port enters SIDING and the
  verdict is logged. -/
  | enterSiding (p : Fin 6)
  /-- SILENT_TIMEOUT (R289): After 32 signal slots with no good signal cell the port goes DOWN with cause SILENT. -/
  | silentTimeout (p : Fin 6)
  /-- ERROR_WINDOW_END (R289): At each half-window end lost cells are summed and too many take the port down with
  ERROR_RATE. -/
  | errorWindowEnd (p : Fin 6)
  /-- CABLE_REMOVED (R606): ModPrsL going high takes the port to DOWN within 1 µs. -/
  | cableRemoved (p : Fin 6)
  /-- CABLE_INSERTED (R303): A cable insertion reads CMIS identity, updates the cable record, brings the cable up
  and starts training. -/
  | cableInserted (p : Fin 6) (r : BitVec 1024) (flat writeOk isReady : Bool)
  /-- CMIS_POLL (R303): Every 1 ms the L-die polls the cable's lane flags and state. -/
  | cmisPoll (p : Fin 6) (flags : BitVec 34) (isReady : Bool)
  /-- TRAINING_START (R298): A port begins training its lanes through the phases of R298. -/
  | trainingStart (p : Fin 6) (step : Option TrainStep)
  /-- TRAINING_COMPLETE (R298): Training ends with the width chosen and the port in IDENTIFY, or fails with
  TRAIN_FAILED. -/
  | trainingComplete (p : Fin 6) (clean : Bool)
  /-- RETRAIN_TIMER (R291): 1 ms after entry to DOWN, or 10 ms after a failed attempt, the port starts training
  again. -/
  | retrainTimer (p : Fin 6)
  /-- LANE_FAILING (R292): A lane meeting a failure condition is declared failing and its symbols become erasures.
  -/
  | laneFailing (p : Fin 6) (l : Fin 34) (x : LaneReport)
  /-- LANE_SWITCH (R293): At the agreed period both ends move the failing lane's symbols to the spare. -/
  | laneSwitch (p : Fin 6)
  /-- CABLE_HOURS_UPDATE (R307): At each 8 h of transmitter time the cable's on-hours are added and the record
  rewritten. -/
  | cableHoursUpdate (p : Fin 6) (writeOk : Bool)
  /-- PORT_RESET (R311): A write of PORT_RESET clears the port's link state, counters and banks and retrains it. -/
  | portReset (i : Iface) (p : Fin 6) (v : W32)
  /-- RETRAIN (R291): A write of RETRAIN clears HOLD_DOWN and TRAIN_FAILS and starts training at once. -/
  | retrain (i : Iface) (p : Fin 6) (v : W32)
  /-- RECHECK (R302): A write of RECHECK re-evaluates the verdict on the next IDENTITY without retraining. -/
  | recheck (i : Iface) (p : Fin 6) (v : W32)
  /-- HOLD_DOWN (R289): A write of HOLD_DOWN as 1 holds the port in DOWN. -/
  | holdDown (i : Iface) (p : Fin 6) (v : W32)
  /-- HOLD_PEAK_READ (R215): A read of Ln.HOLD_PEAK returns the peak and resets it to the present occupancy. -/
  | holdPeakRead (i : Iface) (p : Fin 6)
  /-- MESSAGE_INJECTED (R318): When the last packet of a message leaves the injection queue the unit arrives on
  LOCAL_TOKEN. -/
  | messageInjected (u : Fin 5)
  /-- PACKET_FORWARD (R326): At each hop a packet is routed in dimension order, sprayed at turn points, reversed or
  discarded, with VC and credits applied. -/
  | packetForward (src : Fin 11) (list : Fin 3) (k : BitVec 12) (ecc : Ecc)
  /-- WRITE (R314): A WRITE packet's data are written at ADDR after the key and address checks, with its completion
  arrive. -/
  | write (src : Fin 11) (list : Fin 3) (k : BitVec 12)
  /-- MAILBOX (R324): A MAILBOX packet writes its whole cell to the slot chosen by its sequence number. -/
  | mailbox (src : Fin 11) (list : Fin 3) (k : BitVec 12)
  /-- READ_REQ (R323): A READ_REQ is queued at the owning C-die, which reads the range and injects READ_RESP
  messages. -/
  | readReq (src : Fin 11) (list : Fin 3) (k : BitVec 12) (eccs : List Ecc)
  /-- READ_RESP (R314): A READ_RESP packet's data are written at ADDR as for WRITE. -/
  | readResp (src : Fin 11) (list : Fin 3) (k : BitVec 12)
  /-- TOKEN_ARRIVE (R314): A TOKEN_ARRIVE packet adds its amount to the named token. -/
  | tokenArrive (src : Fin 11) (list : Fin 3) (k : BitVec 12)
  /-- UNSCHED_STALL (R337): A VC or injection unit with a waiting cell and no progress for the limit is logged. -/
  | unschedStall (x : Fin 11) (v : Fin 4)
  /-- ROUTED_NEWT (R343): A routed newt is forwarded one hop or delivered to SA. -/
  | routedNewt (p : Fin 6) (n : Newt)
  /-- BROADCAST_NEWT (R343): A new broadcast newt is forwarded on every other port in UP and duplicates are
  discarded. -/
  | broadcastNewt (p : Fin 6) (n : Newt)
  /-- EPOCH_SET (R345): A received EPOCH_SET newt is checked and, if accepted, arms a routing flip. -/
  | epochSet (p : Fin 6) (n : Newt)
  /-- EPOCH_FLIP (R345): At FLIP_FTC the injection epoch changes to the new version. -/
  | epochFlip
  /-- EPOCH_CMD (R346): A write of SA.EPOCH_CMD with GO originates an EPOCH_SET and applies it locally. -/
  | epochCmd (i : Iface) (v : W32)
  /-- ALL_STOP_NEWT (R472): An accepted ALL_STOP newt is relayed by the L-die and stops the matching partitions and
  grants. -/
  | allStopNewt (p : Fin 6) (n : Newt)
  /-- ALLSTOP_CMD (R469): A write of SA.ALLSTOP_CMD with GO stops a partition and may originate a job or fabric
  ALL_STOP. -/
  | allstopCmd (i : Iface) (v : W32)
  /-- STREAM_ENTRY (R356): 64 ticks before S a STREAM entry is dispatched to the stream engine. -/
  | streamEntry (m : Fin 16) (o : Fin 32)
  /-- STREAM_READY_TEST (R356): At S the engine tests the ready token and begins moving the stream's granules. -/
  | streamReadyTest (m : Fin 16) (o : Fin 32)
  /-- STREAM_COMPLETE (R356): When the last granule is complete the completion token receives its amount. -/
  | streamComplete (m : Fin 16) (o : Fin 32) (idx : BitVec 14) (gs : List (BitVec 24 × Ecc))
  /-- STREAM_DEADLINE (R357): At S + W an incomplete stream is abandoned and its partition stops. -/
  | streamDeadline (m : Fin 16) (o : Fin 32) (idx : BitVec 14)
  /-- HBM_REFRESH (R362): Each controller issues per-bank refresh at the rate its stack's temperature requires. -/
  | hbmRefresh (k : Fin 32) (temp : Byte)
  /-- HBM_SCRUB (R363): The patrol scrubber reads HBM codewords in spare capacity and corrects them. -/
  | hbmScrub (k : Fin 32) (ecc : Ecc)
  /-- STACK_RETIRED (R366): A stack is retired, its partitions stop and it enters self-refresh. -/
  | stackRetired (k : Fin 32) (requested responds : Bool)
  /-- DOORBELL (R377): A write of SQ_DOORBELL moves the ring's TAIL, or puts the ring in ERROR if invalid. -/
  | doorbell (f : Fin 17) (r : Fin 4) (v : W32)
  /-- SHADOW_POLL (R377): Every POLL_US the module reads the shadow tail from host memory. -/
  | shadowPoll (f : Fin 17) (r : Fin 4) (v : Option W32)
  /-- RING_ENABLE (R378): A write of ENABLE as 1 checks the ring's configuration and resets its indices. -/
  | ringEnable (f : Fin 17) (which : Fin 9) (v : W32)
  /-- RING_DISABLE (R378): A write of ENABLE as 0 drains the ring and disables it when INFLIGHT reaches 0. -/
  | ringDisable (f : Fin 17) (which : Fin 9) (v : W32)
  /-- DESCRIPTOR_DISPATCH (R379): The module reads the descriptor at HEAD, applies the common and command checks and
  starts it. -/
  | descriptorDispatch (f : Fin 17) (r : Fin 4) (d : Option Desc)
  /-- COMPLETION_WRITE (R380): A finished descriptor applies its token operation and its completion is written when
  the ring has room. -/
  | completionWrite (f : Fin 17) (r : Fin 4) (ok : Bool)
  /-- CQ_HEAD_WRITE (R380): A write of CQ_HEAD frees completion ring entries. -/
  | cqHeadWrite (f : Fin 17) (which : Fin 5) (v : W32)
  /-- IRQ_DELAY_EXPIRY (R380): When IRQ_USEC passes after the first pending completion the MSI-X vector is
  signalled. -/
  | irqDelayExpiry (f : Fin 17) (r : Fin 4)
  /-- NOTIFY_ENTRY (R381): An event, CTRL newt or record is written to the notify rings or counted as lost. -/
  | notifyEntry (pf vf : Bool)
  /-- PING (R386): Completes at once with the FTC and the ring's INFLIGHT. -/
  | ping (f : Fin 17) (r : Fin 4)
  /-- LOAD (R388): Checks an image, copies weights, writes the standby banks and hashes the weight regions. -/
  | load (f : Fin 17) (r : Fin 4) (image wlist : List Byte) (data : List (List Byte)) (root : BitVec 256) (bad : Option (Option (Fin 4096) × W64)) (hash : Option (Fin 4096 × BitVec 36)) (fixed : List (W64 × Bool))
  /-- MIRROR (R389): Copies the active banks' segments into the named standby banks. -/
  | mirror (f : Fin 17) (r : Fin 4)
  /-- BIND (R390): Forms the input digest of a submission and registers it for a provenance record. -/
  | bind (f : Fin 17) (r : Fin 4) (list : Option (List Byte)) (bad : Option W64) (fixed : List (W64 × Bool))
  /-- BIND_DONE (R391): When DONE_TOKEN meets its threshold the output digest is formed and a signed record written.
  -/
  | bindDone (p : Fin 16) (i : Fin 16) (bad : Option W64) (fixed : List (W64 × Bool)) (ok : Bool)
  /-- DMA (R394): Moves data between host, local and remote addresses. -/
  | dma (f : Fin 17) (r : Fin 4) (n : Fin 64) (i : BitVec 24) (data : List Byte) (bad : Option W32) (eccs : List Ecc)
  /-- WAIT (R395): Holds the ring until a token threshold or FTC count, or its timeout. -/
  | wait (f : Fin 17) (r : Fin 4)
  /-- NEWT (R396): Queues a routed CTRL newt. -/
  | newt (f : Fin 17) (r : Fin 4)
  /-- CHECKPOINT (R397): Saves or restores a stopped partition's tokens and tile SRAM. -/
  | checkpoint (f : Fin 17) (r : Fin 4) (data : List Byte) (hostBad bad : Option W64) (fixed : List (W64 × Bool))
  /-- STOP (R398): Performs all-stop on the partition and completes when every tile has stopped. -/
  | stop (f : Fin 17) (r : Fin 4)
  /-- QUERY (R399): Writes a 256-byte status block. -/
  | query (f : Fin 17) (r : Fin 4) (ok : Bool)
  /-- REHASH (R400): Hashes the last LOAD's weight regions again and compares the root. -/
  | rehash (f : Fin 17) (r : Fin 4) (hash : Option (Fin 4096 × BitVec 36)) (fixed : List (W64 × Bool))
  /-- FLR_VF (R401): A function level reset of a VF stops its partition and disables its rings. -/
  | flrVf (n : Fin 16)
  /-- FLR_PF (R401): A function level reset of the PF disables the PF's rings. -/
  | flrPf
  /-- HOT_RESET (R401): A PCIe hot reset disables every ring of every function. -/
  | hotReset
  /-- PCIE_LINK_DOWN (R401): Loss of the PCIe link or PERST# disables every ring without resetting the module. -/
  | pcieLinkDown
  /-- PART_SCRUBBED (R404): The scrub of reassigned quarters completes and is logged. -/
  | partScrubbed
  /-- ROTA_SWAP_START (R412): At S_k in full-static mode the M-dies save the outgoing context and restore the
  incoming one. -/
  | rotaSwapStart (p : Fin 16)
  /-- ROTA_FILL_DONE (R414): When the next context's fill and the mirror are complete the rota arms the next
  changeover. -/
  | rotaFillDone (p : Fin 16)
  /-- ROTA_FILL_LATE (R415): A fill still incomplete at X − 8,192 arms nothing and stops the partition. -/
  | rotaFillLate (p : Fin 16)
  /-- ROTA_HALT (R417): A write of HALT stops the rota arming further slices. -/
  | rotaHalt (i : Iface) (p : Fin 16) (v : W32)
  /-- EVENT_REPORT (R461): The event arbiter accepts a die's report, gives it the next log index and FTC stamp and
  enters it in the log. -/
  | eventReport (d : Fin 32)
  /-- CLEAR_FIRST (R484): A write of CLEAR_FIRST clears SA.FIRST_ERROR. -/
  | clearFirst (i : Iface) (v : W32)
  /-- DIE_POLL (R474): Every 256 ticks SA polls each die and declares a silent or faulty die failed. -/
  | diePoll (d : Fin 32) (answered fault : Bool)
  /-- SA_HEARTBEAT (R475): A write of SB.SA_HEARTBEAT restarts SB's watch of SA. -/
  | saHeartbeat (i : Iface) (v : W32)
  /-- SA_WATCHDOG_FIRED (R475): With no heartbeat for the limit, SB stops every die, holds ports down and asserts
  FAULT_N. -/
  | saWatchdogFired (fatal : Bool)
  /-- PL_REQUEST_WRITE (R487): A write of SA.PL_REQUEST changes the requested level and target level. -/
  | plRequestWrite (i : Iface) (v : W32)
  /-- LEVEL_SWITCH (R488): At a tick that is a multiple of 61,440 the C-die clocks switch to the new level. -/
  | levelSwitch
  /-- POWER_SAMPLE (R491): Every 100 µs SB samples rail power and moves the power step, starts the grace timer or
  stops partitions. -/
  | powerSample
  /-- THERMAL_SAMPLE (R516): Every 10 µs SB samples the temperature sensors and moves the thermal step. -/
  | thermalSample (rs : List (Fin 32 × List (BitVec 12)))
  /-- VOLTAGE_SENSE (R517): Every 1 µs SB reads each rail's sense point and logs low voltage. -/
  | voltageSense (rail : Fin 128) (half : BitVec 13)
  /-- DROOP_FIRE (R518): A droop detector fires and the C-die removes 1 to 4 core cycles. -/
  | droopFire (c : Fin 4) (margin : BitVec 8)
  /-- DROOP_SUSTAINED (R519): Too many cycles removed in a 100 µs window is logged and requests a re-plan. -/
  | droopSustained (c : Fin 4)
  /-- AVS_RESPONSE (R494): An AVSBus slave's response completes a request or fails it. -/
  | avsResponse (m : Fin 8) (code : BitVec 2) (data : BitVec 16) (lost : Option (Fin 128))
  /-- AVS_TIMEOUT (R494): An AVSBus request with no response in 50 µs is retried once or logged as
  REGULATOR_TIMEOUT. -/
  | avsTimeout (m : Fin 8)
  /-- PM_REQUEST_WRITE (R497): A write of SA.PM_REQUEST requests a module state, and 0 during sleep is a wake
  source. -/
  | pmRequestWrite (i : Iface) (v : W32)
  /-- WAITM (R497): SA firmware's WAITM checks the preconditions and enters the state of SA.MODULE_PMODE. -/
  | waitm
  /-- PM_ENTERED (R498): Entry into M1, M2, M3 or Off completes after saving retention banks and powering down dies.
  -/
  | pmEntered (writeOk : BitVec 6)
  /-- MODULE_WAKE (R498): A wake source ends a sleep state, dies are powered up and retention banks restored. -/
  | moduleWake (reads : List (Fin 64 × List Byte)) (boot : BitVec 4)
  /-- WAKE_ALARM (R499): The FTC reaching SA.WAKE_ALARM_FTC is a wake source. -/
  | wakeAlarm
  /-- WAKE_PIN (R604): WAKE_N low for 1 µs is a wake source. -/
  | wakePin
  /-- ETH_WAKE_FRAME (R499): A wake frame on the management Ethernet is a wake source. -/
  | ethWakeFrame
  /-- READY_CHAIN_STEP (R506): A die completes or fails a step of its ready chain, and SB moves to the next
  sequencing entry. -/
  | readyChainStep (d : Fin 32) (ok pg : Bool) (bad : BitVec 4) (ring : BitVec 16) (stops : List (Fin 24))
  /-- COLD_RESET (R508): RESET_CMD kind 1 or RESET_N resets the whole module from the sequencing table. -/
  | coldReset (pin : Bool) (i : Iface) (v : W32) (boot : BitVec 4)
  /-- WARM_RESET (R508): RESET_CMD kind 2 resets every die and keeps the retained items. -/
  | warmReset (i : Iface) (v : W32) (boot : BitVec 4)
  /-- COMPUTE_RESET (R508): RESET_CMD kind 3 resets the C- and M-dies while forwarding continues. -/
  | computeReset (i : Iface) (v : W32)
  /-- PARTITION_RESET (R508): RESET_CMD kind 4 resets one partition's tiles, tokens, walkers and rota. -/
  | partitionReset (i : Iface) (v : W32)
  /-- TILE_RESET (R508): RESET_CMD kind 5 resets one idle, stopped or faulted tile. -/
  | tileReset (i : Iface) (v : W32)
  /-- RESET_CMD_PORT (R508): RESET_CMD kind 6 performs a port reset. -/
  | resetCmdPort (i : Iface) (v : W32)
  /-- RESET_DONE (R508): A reset completes and is logged. -/
  | resetDone
  /-- POWER_ON (R507): POWER_ON rising brings up SA and SB and starts the sequencing walk. -/
  | powerOn (boot : BitVec 4)
  /-- POWER_ON_FALL (R605): POWER_ON falling powers every die down in reverse order. -/
  | powerOnFall
  /-- AUX_POWER_LOST (R605): Loss of standby power stops everything at once. -/
  | auxPowerLost (back : Bool) (boot : BitVec 4)
  /-- REFCLK_LOST (R602): 1 µs without REFCLK edges is a fatal SB fault. -/
  | refclkLost
  /-- REPLAN (R522): A write of REPLAN, or each 1,000 operating hours, starts a margin re-plan. -/
  | replan (byHours : Bool) (i : Iface) (v : W32)
  /-- MARGIN_PLAN_READY (R522): A re-plan finishes, withdraws levels above their limits and leaves a pending plan.
  -/
  | marginPlanReady (reads : List AgeingRead)
  /-- TXN_BEGIN (R527): OP BEGIN opens an empty configuration transaction. -/
  | txnBegin (i : Iface) (v : W32)
  /-- TXN_APPEND (R528): A write of SA.TXN_ENTRY_DATA appends a checked entry to the open transaction. -/
  | txnAppend (i : Iface) (wide hi : Bool) (v : W64)
  /-- TXN_SEAL (R527): OP SEAL fixes the mode and tick, computes the digest and nonce and starts the signing window.
  -/
  | txnSeal (i : Iface) (v : W32)
  /-- TXN_COMMIT (R530): OP COMMIT checks signatures, timing and resulting state, then applies or arms the
  transaction. -/
  | txnCommit (i : Iface) (v : W32) (full : BitVec 16)
  /-- TXN_ROLLBACK (R527): OP ROLLBACK discards the open transaction or cancels an armed one. -/
  | txnRollback (i : Iface) (v : W32)
  /-- TXN_APPLY (R531): At its tick an armed transaction is checked again and its entries apply on one tick. -/
  | txnApply (full : BitVec 16)
  /-- TXN_TIMEOUT (R532): An idle or unsigned transaction is discarded after 60 s. -/
  | txnTimeout
  /-- FUSE_BURN (R537): After application SA burns the fuse requests in order and verifies them. -/
  | fuseBurn (ok : Bool)
  /-- STAGE_WRITE (R539): A write of SA.STAGE_DATA writes 64 bits to the stage and advances the address. -/
  | stageWrite (i : Iface) (wide hi : Bool) (v : W64)
  /-- STAGE_ERASE (R541): A write of ERASE erases the staged target. -/
  | stageErase (i : Iface) (v : W32) (cause : Fin 3) (version : BitVec 16)
  /-- STAGE_VERIFY (R539): A write of VERIFY checks the staged firmware's signature and SVN. -/
  | stageVerify (i : Iface) (v : W32) (cause : Fin 3) (version : BitVec 16)
  /-- ID_CERT_READ (R540): A read of SA.ID_CERT_DATA returns 64 bits of the chain and advances the address. -/
  | idCertRead (i : Iface) (wide hi : Bool)
  /-- LOCKSTEP_FRAME_SEND (R456): At each frame end SA sends its frame digests to the twin and judges frames whose
  twin digest is overdue. -/
  | lockstepFrameSend (p : Fin 16)
  /-- LOCKSTEP_NEWT (R457): A LOCKSTEP newt starts, compares or narrows the comparison with the twin. -/
  | lockstepNewt (n : Newt)
  /-- LOCKSTEP_NO_PARTNER (R457): No START by the end of frame 255 turns lock-step off. -/
  | lockstepNoPartner (p : Fin 16)
  /-- CTR_SNAP_GO (R545): A write of SA.CTR_SNAP_CMD.GO arms a counter snapshot. -/
  | ctrSnapGo (i : Iface) (v : W32)
  /-- CTR_SNAPSHOT (R545): At the armed frame start every snapshot copy takes its counter's value. -/
  | ctrSnapshot
  /-- TRACE_ENABLE (R555): A write of ENABLE from 0 to 1 clears and starts the trace unit. -/
  | traceEnable (i : Iface) (c : Fin 4) (v : W32)
  /-- TRACE_DISABLE (R555): A write of ENABLE from 1 to 0 stops accepting records and flushes the queue. -/
  | traceDisable (i : Iface) (c : Fin 4) (v : W32)
  /-- TRACE_TRIGGER (R552): A write of TRIGGER makes a manual trigger. -/
  | traceTrigger (i : Iface) (c : Fin 4) (v : W32)
  /-- TRACE_RECORD_WRITE (R550): Each tick the trace unit writes one merged record and judges trigger conditions. -/
  | traceRecordWrite (c : Fin 4) (src : Option (Fin 32))
  /-- TRACE_SPILL (R554): The unit writes staged records to the spill region at its frame rate. -/
  | traceSpill (c : Fin 4)
  /-- TRACE_READ (R555): A read of TRACE_RD_DATA[3] returns the last word of a record and advances the index. -/
  | traceRead (i : Iface) (c : Fin 4) (wide hi : Bool) (ecc : Ecc)
  /-- STOP_DUMP (R558): A write of SA.DUMP_CTRL.GO checks and starts a dump of a stopped partition. -/
  | stopDump (i : Iface) (v : W32)
  /-- DUMP_DONE (R561): A dump completes, fails or is abandoned. -/
  | dumpDone (bad : Option (Fin 1024))
  /-- WFG_BUILD (R562): A write of BUILD, or an automatic trigger, starts building a wait-for graph. -/
  | wfgBuild (auto : Bool) (i : Iface) (v : W32)
  /-- WFG_BUILT (R562): The wait-for graph build completes and is held. -/
  | wfgBuilt
  /-- WFG_RELEASE (R564): A write of RELEASE releases the held graph. -/
  | wfgRelease (i : Iface) (v : W32)
  /-- WFG_READ (R564): A read of SA.WFG_RD_DATA returns a graph word and advances the index. -/
  | wfgRead (i : Iface) (wide hi : Bool)
  /-- ST_IND_DATA_ACCESS (R370): An access to Mn.ST_IND_DATA reaches the standby stream bank and advances the
  address. -/
  | stIndDataAccess (i : Iface) (m : Fin 16) (wide hi write : Bool) (v : W64)
  /-- REG_FAULT_REARM (R591): A write of 1 to SA.REG_FAULT.VALID re-arms register fault capture. -/
  | regFaultRearm (i : Iface) (wide : Bool)
  /-- I3C_WRITE (R586): An I3C private write carries a register write to the module. -/
  | i3cWrite (sb : Bool) (bs : List Byte) (boot : BitVec 4) (full : BitVec 16) (cause : Fin 3) (version : BitVec 16) (quiet : Fin 3)
  /-- I3C_READ_SETUP (R586): An I3C private write with READ_SETUP names the register to read. -/
  | i3cReadSetup (sb : Bool) (hi : BitVec 6) (wide : Bool) (a : BitVec 48) (extra : List Byte)
  /-- I3C_READ (R586): An I3C private read returns the set-up register's value once ready. -/
  | i3cRead (sb : Bool) (ecc : Ecc) (silent : Bool)
  /-- REGISTER_WRITE (R579): A write to a register with no behaviour of its own is checked by access class and
  applied or refused. -/
  | registerWrite (i : Iface) (space : Space) (key : BitVec 48) (width : Width) (v : W64) (boot : BitVec 4) (full : BitVec 16) (cause : Fin 3) (version : BitVec 16) (quiet : Fin 3)
  /-- REGISTER_READ (R582): A register read through PF BAR0 or by SA firmware returns the value, or all ones, or 0,
  and may record ADDR_UNMAPPED, REG_ACCESS_ALIGN or a REG_FAULT capture. -/
  | registerRead (i : Iface) (space : Space) (key : BitVec 48) (width : Width) (ecc : Ecc) (silent : Bool)
  /-- LINE_STOP_FAILED (R93): A line stop that reports a parity error on its state at run time marks its row's
  quarter failed and sets EXHAUSTED. -/
  | lineStopFailed (c : Fin 4) (r : Fin 24)
  /-- PCIE_CONFIGURATION_WRITE (R499): A PCIe configuration write to any function is a HOST wake source, and during
  warm reset it is answered with Configuration Request Retry Status. -/
  | pcieConfigurationWrite (f : Fin 17) (w : CfgWrite)
  /-- ATS_INVALIDATION (R371): An ATS invalidation request from the host removes cached translations of the function
  and is answered. -/
  | atsInvalidation (f : Fin 17) (a n : W64)
  /-- AVS_STATUS_POLL (R495): Once every 1 ms SB polls the status of each AVSBus master marked unresponsive, so that
  the mark can clear. -/
  | avsStatusPoll (m : Fin 8)
  /-- MARGIN_PLAN_PENDING (R523): While a plan stays pending beyond 168 h, the module records MARGIN_PLAN_PENDING
  once every 24 h. -/
  | marginPlanPending
  /-- PPS_OUT_FALL (R69): 100 µs after each rise, the 1PPS output falls. -/
  | ppsOutFall
  /-- DYNAMIC_ADDRESS (R585): An ENTDAA or SETDASA command on the I3C bus assigns the SA or SB target its dynamic
  address. -/
  | dynamicAddress (sb : Bool) (a : BitVec 7)
deriving DecidableEq, Repr

end Sys2Proof
end

