-- ==== Sys2Proof/Machine/Bits.lean ====
section
/-!
DEFINITION. Bit fields, byte order, sign extension and saturating counts: the helpers that every other file of the
machine reads words with.
-/
namespace Sys2Proof.Machine
open Sys2Proof

/-- Field of `w` bits at bit `lo`, as a number. -/
def fld (v : BitVec n) (lo w : Nat) : Nat := v.toNat / 2 ^ lo % 2 ^ w

/-- One bit as a Bool. -/
def bitAt (v : BitVec n) (i : Nat) : Bool := v.toNat / 2 ^ i % 2 == 1

/-- `v` with the field of `w` bits at bit `lo` set to `x` (modulo 2^w). -/
def setFld (v : BitVec n) (lo w x : Nat) : BitVec n :=
  BitVec.ofNat n (v.toNat % 2 ^ lo + (x % 2 ^ w) * 2 ^ lo + v.toNat / 2 ^ (lo + w) * 2 ^ (lo + w))

/-- A Bool as a bit. -/
def b2n (b : Bool) : Nat := if b then 1 else 0

/-- Signed value of a field of `w` bits. -/
def sgn (w x : Nat) : Int := if x % 2 ^ w < 2 ^ (w - 1) then (x % 2 ^ w : Nat) else (x % 2 ^ w : Nat) - (2 ^ w : Nat)

/-- Two's complement encoding of an integer in `w` bits. -/
def enc (w : Nat) (x : Int) : Nat := (x % (2 ^ w : Nat)).toNat

/-- A saturating 32-bit count. -/
def satInc32 (x : Nat) : Nat := if x < 0xFFFFFFFF then x + 1 else 0xFFFFFFFF

/-- The bytes of a number, the lowest first. -/
def bytesLE : Nat → Nat → List Byte
  | 0, _ => []
  | k + 1, v => BitVec.ofNat 8 v :: bytesLE k (v / 256)

/-- The number whose bytes these are, the lowest first. -/
def ofBytesLE : List Byte → Nat
  | [] => 0
  | b :: bs => b.toNat + 256 * ofBytesLE bs

/-- Bits of a list of numbers of `w` bits each, the first lowest. -/
def packLE (w : Nat) : List Nat → Nat
  | [] => 0
  | x :: xs => x % 2 ^ w + 2 ^ w * packLE w xs

/-- `n` numbers of `w` bits each, the lowest first. -/
def unpackLE (w : Nat) : Nat → Nat → List Nat
  | 0, _ => []
  | k + 1, v => v % 2 ^ w :: unpackLE w k (v / 2 ^ w)

/-- `xs` in ascending order of `f`, equal ones in their order. -/
def sortBy (f : α → Nat) : List α → List α
  | [] => []
  | x :: xs =>
    let rec put (x : α) : List α → List α
      | [] => [x]
      | y :: ys => if f x ≤ f y then x :: y :: ys else y :: put x ys
    put x (sortBy f xs)

end Sys2Proof.Machine
end

