-- ==== Sys2Proof/Machine/Fec.lean ====
section
/-!
DEFINITION. The line code of a port: the scrambler, the RS(544,514) code, the lanes of a codeword's symbols and what the decoder can
correct (R272, R273).  Of IEEE 802.3 the model takes the field polynomial x^10 + x^3 + 1, the generator polynomial with roots
α^0 to α^29, and the order of bits: PRESUMED (log 60).
-/
namespace Sys2Proof.Machine
open Sys2Proof

/-! ## Scrambler 1 + x^39 + x^58 -/

/-- One bit through the scrambler: the bit sent, and the last 58 bits sent, the latest lowest. -/
def scrambleBit (r : BitVec 58) (b : Bool) : Bool × BitVec 58 :=
  let y := b ^^ r.getLsbD 38 ^^ r.getLsbD 57
  (y, (r <<< 1) ||| BitVec.ofNat 58 (b2n y))

/-- One bit through the descrambler. -/
def descrambleBit (r : BitVec 58) (y : Bool) : Bool × BitVec 58 :=
  (y ^^ r.getLsbD 38 ^^ r.getLsbD 57, (r <<< 1) ||| BitVec.ofNat 58 (b2n y))

/-- A stream of bits through the scrambler. -/
def scramble (r : BitVec 58) : List Bool → List Bool × BitVec 58
  | [] => ([], r)
  | b :: bs =>
    let (y, r) := scrambleBit r b
    let (ys, r) := scramble r bs
    (y :: ys, r)

/-- A stream of bits through the descrambler. -/
def descramble (r : BitVec 58) : List Bool → List Bool × BitVec 58
  | [] => ([], r)
  | y :: ys =>
    let (b, r) := descrambleBit r y
    let (bs, r) := descramble r ys
    (b :: bs, r)

/-! ## GF(2^10) and the code -/

/-- A product by α. -/
def gfTwice (a : Nat) : Nat := if a < 512 then 2 * a else (2 * a - 1024) ^^^ 9

/-- Partial products of `a` with the low `k` bits of `b`, Horner from the highest. -/
def gfHorner (a b : Nat) : Nat → Nat → Nat
  | 0, acc => acc
  | k + 1, acc => gfHorner a b k (gfTwice acc ^^^ (if b / 2 ^ k % 2 = 1 then a else 0))

/-- The product of two elements of GF(2^10). -/
def gfMul (a b : Nat) : Nat := gfHorner a b 10 0

/-- A polynomial, its highest coefficient first, times (x − c). -/
def polyTimes (c : Nat) (p : List Nat) : List Nat := List.zipWith (· ^^^ ·) (p ++ [0]) (0 :: p.map (gfMul c))

/-- The generator polynomial of `n` roots from α^i on. -/
def genPoly : Nat → Nat → List Nat
  | 0, _ => [1]
  | n + 1, root => polyTimes root (genPoly n (gfTwice root))

/-- The check symbols of a code whose generator, without its leading 1, is `g`: the division of the data by it. -/
def checkSymbols (g : List Nat) : List Nat → List Nat → List Nat
  | rem, [] => rem
  | rem, d :: ds =>
    let f := d ^^^ rem.headD 0
    checkSymbols g (List.zipWith (· ^^^ ·) (rem.tail ++ [0]) (g.map (gfMul f))) ds

/-- A codeword of 544 symbols from 514 data symbols. -/
def rsEncode (data : List Nat) : List Nat := data ++ checkSymbols (genPoly 30 1).tail (List.replicate 30 0) data

/-- Data bits of a codeword, and codewords of a period. -/
def cwDataBits : Nat := 5140
def cwPerPeriod : Nat := 52

/-- Symbols of ten bits, the first bits lowest. -/
def symbolsOf (n bits : Nat) : List Nat := unpackLE 10 n bits

/-! ## Lanes -/

/-- The logical data lane of symbol `s` of a codeword, of `w` lanes, and its position there (R272). -/
def laneOfSymbol (w s : Nat) : Nat := s % w
def placeOfSymbol (w s : Nat) : Nat := s / w

/-- The decoder corrects `e` symbol errors and `f` erasures (R272). -/
def decodes (e f : Nat) : Bool := decide (2 * e + f ≤ 30)

end Sys2Proof.Machine
end

