-- ==== Sys2Proof/Machine/Fp.lean ====
section
/-!
DEFINITION. Floating-point arithmetic (R108, R109, R123, R129, R130, R157): every operation computes its exact value as a
fraction of naturals and rounds it once.
-/
namespace Sys2Proof.Machine
open Sys2Proof

/-! ## FP_FLAGS bits (R138) -/

def fInvalid : Nat := 1
def fDivzero : Nat := 2
def fOverflow : Nat := 4
def fUnderflow : Nat := 8
def fInexact : Nat := 16
def fCvtSat : Nat := 32
def fIntOver : Nat := 64

/-! ## Formats (R108) -/

/-- A floating-point format: exponent and fraction widths, bias, whether an all-ones exponent means infinity or NaN. -/
structure FFmt where
  ew : Nat
  fw : Nat
  bias : Nat
  special : Bool
deriving DecidableEq, Repr

def fp32 : FFmt := ⟨8, 23, 127, true⟩
def bf16 : FFmt := ⟨8, 7, 127, true⟩
def fp16 : FFmt := ⟨5, 10, 15, true⟩
def e4m3 : FFmt := ⟨4, 3, 7, false⟩
def e5m2 : FFmt := ⟨5, 2, 15, true⟩
def e3m2 : FFmt := ⟨3, 2, 3, false⟩
def e2m3 : FFmt := ⟨2, 3, 1, false⟩
def e2m1 : FFmt := ⟨2, 1, 1, false⟩

/-- A decoded value: (−1)^neg × m × 2^e where finite. -/
inductive FVal where
  | nan
  | inf (neg : Bool)
  | fin (neg : Bool) (m : Nat) (e : Int)
deriving DecidableEq, Repr

/-- The exponent of a format's smallest subnormal. -/
def FFmt.emin (f : FFmt) : Int := 1 - (f.bias : Int) - f.fw

/-- Bits of +infinity. -/
def FFmt.infBits (f : FFmt) : Nat := (2 ^ f.ew - 1) * 2 ^ f.fw

/-- Width of a code of the format. -/
def FFmt.width (f : FFmt) : Nat := 1 + f.ew + f.fw

/-- The value of a code (R108, R109). -/
def FFmt.decode (f : FFmt) (x : Nat) : FVal :=
  let neg := x / 2 ^ (f.ew + f.fw) % 2 == 1
  let e := x / 2 ^ f.fw % 2 ^ f.ew
  let m := x % 2 ^ f.fw
  if f.special && e == 2 ^ f.ew - 1 then (if m = 0 then .inf neg else .nan)
  else if f == e4m3 && e == 15 && m == 7 then .nan
  else if e = 0 then .fin neg m f.emin
  else .fin neg (m + 2 ^ f.fw) (f.emin + (e - 1))

/-- The canonical NaN (R109). -/
def FFmt.nanBits (f : FFmt) : Nat :=
  if f = fp32 ∨ f = bf16 ∨ f = fp16 then f.infBits + 2 ^ (f.fw - 1) else 0x7F

/-- A code with its sign. -/
def FFmt.signed (f : FFmt) (neg : Bool) (mag : Nat) : Nat := mag + b2n neg * 2 ^ (f.ew + f.fw)

/-! ## Rounding (R129, R134) -/

/-- floor(log2(n / d)) for n, d > 0. -/
def flog2 (n d : Nat) : Int :=
  let e : Int := (Nat.log2 n : Int) - Nat.log2 d
  if (if 0 ≤ e then n < d * 2 ^ e.toNat else n * 2 ^ (-e).toNat < d) then e - 1 else e

/-- n/d in units of 2^k, as a fraction. -/
def inUnits (n d : Nat) (k : Int) : Nat × Nat :=
  if 0 ≤ k then (n, d * 2 ^ k.toNat) else (n * 2 ^ (-k).toNat, d)

/-- Round the fraction n/d of magnitudes to an integer under a mode of R129, `r` the random word of SR. -/
def roundInt (mode r : Nat) (neg : Bool) (n d : Nat) : Nat :=
  let q := n / d
  let m := n % d
  let up : Bool :=
    match mode with
    | 0 => decide (d < 2 * m) || (decide (2 * m = d) && decide (q % 2 = 1))
    | 1 => false
    | 2 => decide (m ≠ 0) && !neg
    | 3 => decide (m ≠ 0) && neg
    | _ => decide (r < m * 2 ^ 32 / d)
  if up then q + 1 else q

/-- The magnitude n/d rounded to a format: significand and unit exponent, unbounded above. -/
def FFmt.roundMag (f : FFmt) (mode r : Nat) (neg : Bool) (n d : Nat) : Nat × Int :=
  let k0 := flog2 n d - f.fw
  let k := if k0 < f.emin then f.emin else k0
  let u := inUnits n d k
  (roundInt mode r neg u.1 u.2, k)

/-- Code of the magnitude q × 2^k, where k is its unit (R108). -/
def FFmt.codeOf (f : FFmt) (q : Nat) (k : Int) : Nat := if q = 0 then 0 else (k - f.emin).toNat * 2 ^ f.fw + q

/-- q × 2^k as a fraction. -/
def fracOf (q : Nat) (k : Int) : Nat × Nat := if 0 ≤ k then (q * 2 ^ k.toNat, 1) else (q, 2 ^ (-k).toNat)

/-- Round n/d to a format with infinities: the code and OVERFLOW, UNDERFLOW and INEXACT (R130, R138). DESIGN CHOICE: a stochastic rounding
(mode 4) that overflows gives infinity, as R130 says of RNE (log 111). -/
def FFmt.round (f : FFmt) (mode r : Nat) (neg : Bool) (n d : Nat) : Nat × Nat :=
  if n = 0 then (f.signed neg 0, 0)
  else
    let (q, k) := f.roundMag mode r neg n d
    let c := f.codeOf q k
    let v := fracOf q k
    let inexact := if v.1 * d = n * v.2 then 0 else fInexact
    if f.infBits ≤ c then
      let toInf := mode = 0 ∨ mode = 4 ∨ (mode = 2 ∧ neg = false) ∨ (mode = 3 ∧ neg = true)
      (f.signed neg (if toInf then f.infBits else f.infBits - 1), fOverflow + fInexact)
    else (f.signed neg c, inexact + (if c < 2 ^ f.fw then fUnderflow else 0))

/-! ## Exact values as fractions -/

/-- A signed fraction: value ±num/den, den > 0. -/
structure Frac where
  neg : Bool
  num : Nat
  den : Nat
deriving DecidableEq, Repr

def Frac.ofFin (neg : Bool) (m : Nat) (e : Int) : Frac := let v := fracOf m e; ⟨neg, v.1, v.2⟩

def Frac.add (a b : Frac) : Frac :=
  let x : Int := (if a.neg then -1 else 1) * (a.num * b.den : Nat)
  let y : Int := (if b.neg then -1 else 1) * (b.num * a.den : Nat)
  ⟨decide (x + y < 0), (x + y).natAbs, a.den * b.den⟩

def Frac.mul (a b : Frac) : Frac := ⟨a.neg != b.neg, a.num * b.num, a.den * b.den⟩

/-- Round a fraction to FP32, nearest even; a zero keeps the given sign. -/
def Frac.toFp32 (x : Frac) (zeroNeg : Bool) : Nat × Nat :=
  if x.num = 0 then (fp32.signed zeroNeg 0, 0) else fp32.round 0 0 x.neg x.num x.den

def nan32 : Nat := 0x7FC00000

/-! ## FP32 operations (R123) -/

/-- a + b on decoded values. -/
def addVal (a b : FVal) : Nat × Nat :=
  match a, b with
  | .nan, _ => (nan32, 0)
  | _, .nan => (nan32, 0)
  | .inf s, .inf t => if s = t then (fp32.signed s fp32.infBits, 0) else (nan32, fInvalid)
  | .inf s, _ => (fp32.signed s fp32.infBits, 0)
  | _, .inf t => (fp32.signed t fp32.infBits, 0)
  | .fin s m e, .fin t n g =>
    (Frac.add (Frac.ofFin s m e) (Frac.ofFin t n g)).toFp32 (s && t && decide (m = 0) && decide (n = 0))

def fAdd (a b : Nat) : Nat × Nat := addVal (fp32.decode a) (fp32.decode b)

/-- The sign bit of a non-NaN code inverted. -/
def fFlip (a : Nat) : Nat := if a / 2 ^ 31 % 2 = 1 then a % 2 ^ 31 else a % 2 ^ 31 + 2 ^ 31

def fSub (a b : Nat) : Nat × Nat :=
  match fp32.decode b with
  | .nan => (nan32, 0)
  | _ => fAdd a (fFlip b)

def fMul (a b : Nat) : Nat × Nat :=
  match fp32.decode a, fp32.decode b with
  | .nan, _ => (nan32, 0)
  | _, .nan => (nan32, 0)
  | .inf s, .inf t => (fp32.signed (s != t) fp32.infBits, 0)
  | .inf s, .fin t n _ => if n = 0 then (nan32, fInvalid) else (fp32.signed (s != t) fp32.infBits, 0)
  | .fin s m _, .inf t => if m = 0 then (nan32, fInvalid) else (fp32.signed (s != t) fp32.infBits, 0)
  | .fin s m e, .fin t n g => (Frac.mul (Frac.ofFin s m e) (Frac.ofFin t n g)).toFp32 (s != t)

/-- a × b + c, rounded once. -/
def fFma (a b c : Nat) : Nat × Nat :=
  match fp32.decode a, fp32.decode b, fp32.decode c with
  | .fin s m e, .fin t n g, .fin u k h =>
    (Frac.add (Frac.mul (Frac.ofFin s m e) (Frac.ofFin t n g)) (Frac.ofFin u k h)).toFp32
      ((s != t) && u && (decide (m = 0) || decide (n = 0)) && decide (k = 0))
  | .fin _ _ _, .fin _ _ _, .inf u => (fp32.signed u fp32.infBits, 0)
  | .fin _ _ _, .fin _ _ _, .nan => (nan32, 0)
  | va, vb, vc =>
    -- an infinity or a NaN among the factors: the product is exact, so the sum follows from it
    let p := fMul a b
    if va = .nan ∨ vb = .nan ∨ vc = .nan then (nan32, 0)
    else if p.2 = fInvalid then (nan32, fInvalid)
    else let q := addVal (fp32.decode p.1) vc; (q.1, q.2)

def fDiv (a b : Nat) : Nat × Nat :=
  match fp32.decode a, fp32.decode b with
  | .nan, _ => (nan32, 0)
  | _, .nan => (nan32, 0)
  | .inf _, .inf _ => (nan32, fInvalid)
  | .inf s, .fin t _ _ => (fp32.signed (s != t) fp32.infBits, 0)
  | .fin s _ _, .inf t => (fp32.signed (s != t) 0, 0)
  | .fin s m e, .fin t n g =>
    if n = 0 then (if m = 0 then (nan32, fInvalid) else (fp32.signed (s != t) fp32.infBits, fDivzero))
    else
      let x := Frac.ofFin s m e
      let y := Frac.ofFin t n g
      (⟨s != t, x.num * y.den, x.den * y.num⟩ : Frac).toFp32 (s != t)

/-- Integer square root, `k` bits. -/
def isqrt : Nat → Nat → Nat
  | 0, _ => 0
  | k + 1, n =>
    let r := 2 * isqrt k (n / 4)
    if (r + 1) * (r + 1) ≤ n then r + 1 else r

/-- √(num/den) as a fraction whose last bit is sticky: enough bits for any rounding here. -/
def sqrtFrac (num den : Nat) : Nat × Nat :=
  -- √(num/den) = √(num·den)/den, scaled by 2^64
  let n := num * den * 2 ^ 128
  let r := isqrt ((Nat.log2 n) / 2 + 1) n
  if r * r = n then (r, den * 2 ^ 64) else (2 * r + 1, den * 2 ^ 65)

def fSqrt (a : Nat) : Nat × Nat :=
  match fp32.decode a with
  | .nan => (nan32, 0)
  | .inf s => if s then (nan32, fInvalid) else (fp32.infBits, 0)
  | .fin s m e =>
    if m = 0 then (fp32.signed s 0, 0)
    else if s then (nan32, fInvalid)
    else let x := fracOf m e; let q := sqrtFrac x.1 x.2; fp32.round 0 0 false q.1 q.2

/-- Order of non-NaN codes with −0 below +0. -/
def fKey (a : Nat) : Int := if a / 2 ^ 31 % 2 = 1 then -((a % 2 ^ 31 : Nat) : Int) - 1 else (a % 2 ^ 31 : Nat)

def isNan32 (a : Nat) : Bool := decide (fp32.decode a = .nan)

def fMin (a b : Nat) : Nat := if isNan32 a || isNan32 b then nan32 else if fKey b < fKey a then b else a
def fMax (a b : Nat) : Nat := if isNan32 a || isNan32 b then nan32 else if fKey a < fKey b then b else a

/-- Comparison with −0 equal to +0; false with a NaN. -/
def fLt (a b : Nat) : Bool :=
  let z := fun x => if x % 2 ^ 31 = 0 then 0 else x
  !(isNan32 a || isNan32 b) && decide (fKey (z a) < fKey (z b))
def fEq (a b : Nat) : Bool :=
  let z := fun x => if x % 2 ^ 31 = 0 then 0 else x
  !(isNan32 a || isNan32 b) && z a == z b

/-! ## Estimates (R157) -/

/-- RNE12 of a positive fraction, as a fraction. -/
def rne12 (n d : Nat) : Nat × Nat :=
  let k := flog2 n d - 11
  let u := inUnits n d k
  fracOf (roundInt 0 0 false u.1 u.2) k

/-- Normalised significand f (23 bits) and exponent of a finite nonzero FP32 value m × 2^e. -/
def normal32 (m : Nat) (e : Int) : Nat × Int :=
  let l := Nat.log2 m
  (m * 2 ^ (23 - l) - 2 ^ 23, e + l)

/-- t = 1 + (floor(f / 2^12) + 0.5) × 2^-11, over 2^12. -/
def tNum (f : Nat) : Nat := 2 ^ 12 + 2 * (f / 2 ^ 12) + 1

/-- n/d × 2^k rounded to FP32 nearest even. -/
def scaled32 (neg : Bool) (n d : Nat) (k : Int) : Nat × Nat :=
  let p := fracOf 1 k
  fp32.round 0 0 neg (n * p.1) (d * p.2)

/-- Flags with INEXACT set exactly where `exact` fails. -/
def estFlags (flags : Nat) (exact_ : Bool) : Nat := (if fInexact ≤ flags % 32 then flags - fInexact else flags) +
  (if exact_ then 0 else fInexact)

def fRcpe (a : Nat) : Nat × Nat :=
  match fp32.decode a with
  | .nan => (nan32, 0)
  | .inf s => (fp32.signed s 0, 0)
  | .fin s m e =>
    if m = 0 then (fp32.signed s fp32.infBits, fDivzero)
    else
      let (f, x) := normal32 m e
      let q := rne12 (2 ^ 12) (tNum f)
      let p := scaled32 s q.1 q.2 (-x)
      let exact_ := match fp32.decode p.1 with
        | .fin _ k g => let v := fracOf (k * m) (g + e); decide (v.1 = v.2)
        | _ => false
      (p.1, estFlags p.2 exact_)

def fRsqe (a : Nat) : Nat × Nat :=
  match fp32.decode a with
  | .nan => (nan32, 0)
  | .inf s => if s then (nan32, fInvalid) else (0, 0)
  | .fin s m e =>
    if m = 0 then (fp32.signed s fp32.infBits, fDivzero)
    else if s then (nan32, fInvalid)
    else
      let (f, x) := normal32 m e
      let odd := x % 2 ≠ 0
      let t := if odd then 2 * tNum f else tNum f
      let x := if odd then x - 1 else x
      let r := sqrtFrac (2 ^ 12) t
      let q := rne12 r.1 r.2
      let p := scaled32 false q.1 q.2 (-x / 2)
      let exact_ := match fp32.decode p.1 with
        | .fin _ k g => let v := fracOf (k * k * m) (2 * g + e); decide (v.1 = v.2)
        | _ => false
      (p.1, estFlags p.2 exact_)

/-- The largest m below `lo + 2^k` with (2m − 1)^4096 ≤ 2^(j + 12·4096): 2^(j/4096) × 2^11 to the nearest integer. -/
def exp2Search (j : Nat) : Nat → Nat → Nat
  | 0, lo => lo
  | k + 1, lo =>
    let m := lo + 2 ^ k
    if (2 * m - 1) ^ 4096 ≤ 2 ^ (j + 12 * 4096) then exp2Search j k m else exp2Search j k lo

def fExp2e (a : Nat) : Nat × Nat :=
  match fp32.decode a with
  | .nan => (nan32, 0)
  | .inf s => if s then (0, 0) else (fp32.infBits, 0)
  | .fin s m e =>
    let v := fracOf m e
    let den := v.2
    let num : Int := if s then -(v.1 : Int) else v.1
    if (128 * den : Nat) ≤ num then (fp32.infBits, fOverflow + fInexact)
    else if num < -((150 * den : Nat) : Int) then (0, fUnderflow + fInexact)
    else
      let n := num / (den : Int)
      let r := (num % (den : Int)).toNat
      let j := roundInt 0 0 false (r * 4096) den
      let n := if j = 4096 then n + 1 else n
      let j := if j = 4096 then 0 else j
      let q := exp2Search j 11 2048
      let p := scaled32 false q (2 ^ 11) n
      let exact_ := r = 0 ∧ p.2 % 32 < fInexact
      (p.1, estFlags p.2 (decide exact_))

/-- `k` fraction bits of log2 of x/2^256 for x in [2^256, 2^257), by repeated squaring. -/
def log2Bits : Nat → Nat → Nat
  | 0, _ => 0
  | k + 1, x =>
    let y := x * x / 2 ^ 256
    if 2 ^ 257 ≤ y then 2 ^ k + log2Bits k (y / 2) else log2Bits k y

/-- RNE12(log2(1 + i/2^11)) as a fraction, i > 0. -/
def log2Frac (i : Nat) : Nat × Nat :=
  let b := log2Bits 48 (2 ^ 256 + i * 2 ^ 245)
  rne12 (2 * b + 1) (2 ^ 49)

def fLog2e (a : Nat) : Nat × Nat :=
  match fp32.decode a with
  | .nan => (nan32, 0)
  | .inf s => if s then (nan32, fInvalid) else (fp32.infBits, 0)
  | .fin s m e =>
    if m = 0 then (fp32.signed true fp32.infBits, fDivzero)
    else if s then (nan32, fInvalid)
    else
      let (f, x) := normal32 m e
      let i := f / 2 ^ 12
      let l := if i = 0 then (0, 1) else log2Frac i
      let y := Frac.add ⟨decide (x < 0), x.natAbs, 1⟩ ⟨false, l.1, l.2⟩
      let p := y.toFp32 false
      (p.1, estFlags p.2 (decide (f = 0)))

end Sys2Proof.Machine
end

