-- ==== Sys2Proof/Config.lean ====
section
/-!
DEFINITION. What an implementation fixes and the free values: constants with no body, so nothing can be proved of them
but what holds for every value.  Each is applied to the plain counter State.freeCtr, or to the operands its value
depends on, and is named in the assumption log (log 4).
-/
namespace Sys2Proof.Config
open Sys2Proof

/-- A value the spec leaves open, 64 bits at a time (R42 and the other rules named in log 4). -/
opaque freeWord : Nat → BitVec 64

/-- A 256-bit value from SA's random source: a transaction nonce (R534). -/
opaque freeNonce : Nat → BitVec 256

/-- The identity key SA derives from its fused secret (R540): word i of X ‖ Y. -/
opaque identityKey : Nat → BitVec 64

/-- BOOT_ID, the 16 random bytes that SA draws at each cold reset (R447). -/
opaque bootId : Nat → BitVec 128

/-- ECDSA P-384 verification (R535, R539): public key, message digest and signature, as numbers. -/
opaque verifyP384 : BitVec 768 → List Byte → BitVec 768 → Bool

/-- The signature that SA's identity key makes over a message (R448). -/
opaque signP384 : List Byte → BitVec 768

/-- The certificate chain SA stores, as 64-bit words (R540). -/
opaque certWord : Nat → BitVec 64

/-- The fused base margin plan (R521, R522): the voltages of die `d` at the four levels in steps of 5 mV, 8 bits each. -/
opaque fusedPlan : Nat → BitVec 64

/-- The 120-bit marker of a training frame (R298), by its lane and period index: its layout is not stated (log 60). -/
opaque marker : Nat → Nat → BitVec 120

/-- The register of the PRBS31 generator of lane `l` where the pattern of training frame `k` begins (R298; log 60). -/
opaque prbsSeed : Nat → Nat → BitVec 31

/-- CODE of a WAIT that the disabling of its ring ended: no condition of the event code table is that (R378, R383, R384; log 106). -/
opaque disableCode : BitVec 16

/-- The fused process code of a die other than a C-die (R520). -/
opaque processCode : Nat → BitVec 16

end Sys2Proof.Config
end

