-- ==== Sys2Proof/Machine/Events.lean ====
section
/-!
DEFINITION. The event codes, numbered as R462 says: class in bits [15:8]; errors from 0xCC00, notices and refusals from
0xCC80, in the order of R462's table and of the code tables of the chapters on power (R513), monitors (R525), protection
(R541's chapter) and debug.
-/
namespace Sys2Proof.Machine

def Ev.addrOutsidePartition : Nat := 0x0100
def Ev.addrUnmapped : Nat := 0x0101
def Ev.addrAccessClass : Nat := 0x0102
def Ev.addrReservedBits : Nat := 0x0103
def Ev.addrModuleUnknown : Nat := 0x0104
def Ev.moduleNumberUnset : Nat := 0x0105
def Ev.addrStackRetired : Nat := 0x0106
def Ev.regAccessAlign : Nat := 0x0180
def Ev.rowMapRange : Nat := 0x0181
def Ev.positionDirectWrite : Nat := 0x0182
def Ev.partitionDirectWrite : Nat := 0x0183
def Ev.ttActiveWrite : Nat := 0x0184
def Ev.configDirectWrite : Nat := 0x0185
def Ev.ftcReplicaMismatch : Nat := 0x0200
def Ev.timeLost : Nat := 0x0201
def Ev.launchTimeLost : Nat := 0x0202
def Ev.timeStateChange : Nat := 0x0280
def Ev.timeUpstreamIneligible : Nat := 0x0281
def Ev.timeNeighbourSkew : Nat := 0x0282
def Ev.ftcIncrRange : Nat := 0x0283
def Ev.ftcStepRefused : Nat := 0x0284
def Ev.timeCtrlRange : Nat := 0x0285
def Ev.wtbIncrRange : Nat := 0x0286
def Ev.wtbLoaded : Nat := 0x0287
def Ev.launchMisaligned : Nat := 0x0288
def Ev.launchNoTime : Nat := 0x0289
def Ev.launchLate : Nat := 0x028A
def Ev.launchTooFar : Nat := 0x028B
def Ev.pcRange : Nat := 0x0300
def Ev.instrUncorrectable : Nat := 0x0301
def Ev.sramUncorrectable : Nat := 0x0302
def Ev.tokenWaitRemote : Nat := 0x0303
def Ev.tokenWaitTimeout : Nat := 0x0304
def Ev.pmodeRange : Nat := 0x0305
def Ev.seqWatchdog : Nat := 0x0306
def Ev.matrixResidue : Nat := 0x0307
def Ev.vectorCheck : Nat := 0x0308
def Ev.lineLate : Nat := 0x0309
def Ev.lineCollision : Nat := 0x030A
def Ev.lineBoundary : Nat := 0x030B
def Ev.lineStopFailed : Nat := 0x030C
def Ev.changeoverTileBusy : Nat := 0x030D
def Ev.tokenSetConflict : Nat := 0x030E
def Ev.tokenSaturated : Nat := 0x030F
def Ev.platformUnarrived : Nat := 0x0310
def Ev.departNotReady : Nat := 0x0400
def Ev.departNotPermitted : Nat := 0x0401
def Ev.trainCheckMismatch : Nat := 0x0402
def Ev.holdOverflow : Nat := 0x0403
def Ev.trainLate : Nat := 0x0404
def Ev.ttChangeoverBusy : Nat := 0x0405
def Ev.ttEntryUncorrectable : Nat := 0x0406
def Ev.jnEntryUncorrectable : Nat := 0x0407
def Ev.reduceNotReady : Nat := 0x0408
def Ev.reduceDatapath : Nat := 0x0409
def Ev.reduceExpMismatch : Nat := 0x040A
def Ev.foreignCell : Nat := 0x0480
def Ev.lineClassShort : Nat := 0x0481
def Ev.lineClassBusy : Nat := 0x0482
def Ev.lineClassRange : Nat := 0x0483
def Ev.rightsInUse : Nat := 0x0484
def Ev.ttStandbyBusy : Nat := 0x0485
def Ev.ttArmMisaligned : Nat := 0x0486
def Ev.ttArmLate : Nat := 0x0487
def Ev.ttSegmentDiffers : Nat := 0x0488
def Ev.ttContextRange : Nat := 0x0489
def Ev.imageProfileMismatch : Nat := 0x0580
def Ev.imageFormat : Nat := 0x0581
def Ev.imageSectionDigest : Nat := 0x0582
def Ev.imageShape : Nat := 0x0583
def Ev.imageFloorUnavailable : Nat := 0x0584
def Ev.imageRowExhausted : Nat := 0x0585
def Ev.imageStackRetired : Nat := 0x0586
def Ev.imageJunctionFailed : Nat := 0x0587
def Ev.imagePortFailed : Nat := 0x0588
def Ev.imageTileRange : Nat := 0x0589
def Ev.imageInstrReserved : Nat := 0x058A
def Ev.imageInvalidated : Nat := 0x058B
def Ev.lineRouteRange : Nat := 0x058C
def Ev.tokenMapOutside : Nat := 0x058D
def Ev.tokenMapMissing : Nat := 0x058E
def Ev.tokenMapBusy : Nat := 0x058F
def Ev.loadDigestMismatch : Nat := 0x0590
def Ev.ttFormat : Nat := 0x0591
def Ev.ttSegmentLayout : Nat := 0x0592
def Ev.ttEntryReserved : Nat := 0x0593
def Ev.ttWrongProgram : Nat := 0x0594
def Ev.ttOwner : Nat := 0x0595
def Ev.ttLoopNest : Nat := 0x0596
def Ev.ttLoopPeriod : Nat := 0x0597
def Ev.ttNoEnd : Nat := 0x0598
def Ev.ttWalkDensity : Nat := 0x0599
def Ev.ttWidthMismatch : Nat := 0x059A
def Ev.ttSlotReserved : Nat := 0x059B
def Ev.ttOverbooked : Nat := 0x059C
def Ev.ttCheckAlias : Nat := 0x059D
def Ev.ttClassMismatch : Nat := 0x059E
def Ev.ttNoClass : Nat := 0x059F
def Ev.ttSlotNotPermitted : Nat := 0x05A0
def Ev.ttPlatformRange : Nat := 0x05A1
def Ev.ttOutsidePartition : Nat := 0x05A2
def Ev.ttTokenRemote : Nat := 0x05A3
def Ev.ttPassUnpaired : Nat := 0x05A4
def Ev.ttPassTooSoon : Nat := 0x05A5
def Ev.ttForwardOverflow : Nat := 0x05A6
def Ev.ttJunctionUnbooked : Nat := 0x05A7
def Ev.ttReadUnreachable : Nat := 0x05A8
def Ev.jnConflict : Nat := 0x05A9
def Ev.sramPortOverbooked : Nat := 0x05AA
def Ev.stOwner : Nat := 0x05AB
def Ev.stPcOverbooked : Nat := 0x05AC
def Ev.stEngineOverbooked : Nat := 0x05AD
def Ev.stWindowShort : Nat := 0x05AE
def Ev.stRemoteMemory : Nat := 0x05AF
def Ev.stOutsidePartition : Nat := 0x05B0
def Ev.stTokenRemote : Nat := 0x05B1
def Ev.stEntryReserved : Nat := 0x05B2
def Ev.rotaSramOverlap : Nat := 0x05B3
def Ev.rotaTokenOverlap : Nat := 0x05B4
def Ev.rotaRegion : Nat := 0x05B5
def Ev.rotaQuiesceLong : Nat := 0x05B6
def Ev.rotaSwapOverlap : Nat := 0x05B7
def Ev.rotaSliceShort : Nat := 0x05B8
def Ev.rotaStart : Nat := 0x05B9
def Ev.stJunctionUnbooked : Nat := 0x05BA
def Ev.linkDown : Nat := 0x0600
def Ev.lanesExhausted : Nat := 0x0601
def Ev.replayBufFull : Nat := 0x0602
def Ev.linkWindow : Nat := 0x0603
def Ev.laneSpared : Nat := 0x0680
def Ev.fabricDiffers : Nat := 0x0681
def Ev.noCommonLevel : Nat := 0x0682
def Ev.ttFormatDiffers : Nat := 0x0683
def Ev.unexpected : Nat := 0x0684
def Ev.miscabled : Nat := 0x0685
def Ev.cableMismatch : Nat := 0x0686
def Ev.cableRecordInvalid : Nat := 0x0687
def Ev.cableRecordWrite : Nat := 0x0688
def Ev.cableLifeWarn : Nat := 0x0689
def Ev.cableLifeExceeded : Nat := 0x068A
def Ev.cableChanged : Nat := 0x068B
def Ev.msgRefused : Nat := 0x0700
def Ev.pktKeyMismatch : Nat := 0x0701
def Ev.pktDestOff : Nat := 0x0702
def Ev.pktExpired : Nat := 0x0703
def Ev.poolOverrun : Nat := 0x0704
def Ev.unschedStall : Nat := 0x0705
def Ev.newtDrop : Nat := 0x0780
def Ev.routeVersionBusy : Nat := 0x0781
def Ev.epochFabricDiffers : Nat := 0x0782
def Ev.epochLate : Nat := 0x0783
def Ev.epochBusy : Nat := 0x0784
def Ev.epochNoTable : Nat := 0x0785
def Ev.hbmUncorrectable : Nat := 0x0800
def Ev.streamLate : Nat := 0x0801
def Ev.stackRetired : Nat := 0x0802
def Ev.stackInitFailed : Nat := 0x0803
def Ev.hashReadError : Nat := 0x0804
def Ev.weightsChanged : Nat := 0x0805
def Ev.scrubLate : Nat := 0x0880
def Ev.repairTrackerFull : Nat := 0x0881
def Ev.repairExhausted : Nat := 0x0882
def Ev.hostAccessError : Nat := 0x0900
def Ev.rotaSwapBusy : Nat := 0x0901
def Ev.rotaFillLate : Nat := 0x0902
def Ev.ringTailInvalid : Nat := 0x0980
def Ev.ringCfgRange : Nat := 0x0981
def Ev.ringBusy : Nat := 0x0982
def Ev.ringFetchError : Nat := 0x0983
def Ev.descReserved : Nat := 0x0984
def Ev.descNotPermitted : Nat := 0x0985
def Ev.partEmpty : Nat := 0x0986
def Ev.bindFull : Nat := 0x0987
def Ev.cancelledByHost : Nat := 0x0988
def Ev.nothingArmed : Nat := 0x0989
def Ev.dmaSpace : Nat := 0x098A
def Ev.ckptShape : Nat := 0x098B
def Ev.ckptState : Nat := 0x098C
def Ev.partInconsistent : Nat := 0x098D
def Ev.partBusy : Nat := 0x098E
def Ev.partScrubbing : Nat := 0x098F
def Ev.partScrubbed : Nat := 0x0990
def Ev.rotaActive : Nat := 0x0991
def Ev.grantUndefined : Nat := 0x0992
def Ev.grantPort : Nat := 0x0993
def Ev.waitTimeout : Nat := 0x0994
def Ev.dmaReadTimeout : Nat := 0x0995
def Ev.allStop : Nat := 0x0A00
def Ev.dieFailed : Nat := 0x0A01
def Ev.eventsDropped : Nat := 0x0A02
def Ev.allStopQueueFull : Nat := 0x0A80
def Ev.hostStop : Nat := 0x0A81
def Ev.allstopCommand : Nat := 0x0A82
def Ev.powerEmergencyStop : Nat := 0x0C00
def Ev.plChanged : Nat := 0x0C80
def Ev.thermalEmergencyStop : Nat := 0x0C01
def Ev.plRequestClamped : Nat := 0x0C81
def Ev.levelEmergencyStop : Nat := 0x0C02
def Ev.floorAboveLevel : Nat := 0x0C82
def Ev.thermalTrip : Nat := 0x0C03
def Ev.powerLimited : Nat := 0x0C83
def Ev.regulatorTimeout : Nat := 0x0C04
def Ev.powerAtFloor : Nat := 0x0C84
def Ev.regulatorFault : Nat := 0x0C05
def Ev.thermalLimited : Nat := 0x0C85
def Ev.retentionBankFailed : Nat := 0x0C06
def Ev.pmEntered : Nat := 0x0C86
def Ev.pmWoken : Nat := 0x0C87
def Ev.pmEntryRefused : Nat := 0x0C88
def Ev.resetStarted : Nat := 0x0C89
def Ev.resetDone : Nat := 0x0C8A
def Ev.resetRefused : Nat := 0x0C8B
def Ev.partContextLost : Nat := 0x0C8C
def Ev.sensorFailed : Nat := 0x0D00
def Ev.thermalWarn : Nat := 0x0D80
def Ev.voltageLow : Nat := 0x0D01
def Ev.droopSustained : Nat := 0x0D81
def Ev.marginDieLimit : Nat := 0x0D02
def Ev.processDrift : Nat := 0x0D82
def Ev.marginPlanReset : Nat := 0x0D03
def Ev.ageingMonitorDisagree : Nat := 0x0D83
def Ev.marginPlanReady : Nat := 0x0D84
def Ev.marginPlanPending : Nat := 0x0D85
def Ev.marginPlanBusy : Nat := 0x0D86
def Ev.thermLimitsRange : Nat := 0x0D87
def Ev.fuseBurnFailed : Nat := 0x0E00
def Ev.txnBusy : Nat := 0x0E80
def Ev.fwBootFallback : Nat := 0x0E01
def Ev.txnNotOwner : Nat := 0x0E81
def Ev.fwVerifyFailed : Nat := 0x0E02
def Ev.txnSealed : Nat := 0x0E82
def Ev.identityKeyFault : Nat := 0x0E03
def Ev.txnFull : Nat := 0x0E83
def Ev.txnEntryRefused : Nat := 0x0E84
def Ev.txnLate : Nat := 0x0E85
def Ev.txnArmedFull : Nat := 0x0E86
def Ev.txnKeysUnset : Nat := 0x0E87
def Ev.txnSigInvalid : Nat := 0x0E88
def Ev.txnSigExpired : Nat := 0x0E89
def Ev.txnApplyRefused : Nat := 0x0E8A
def Ev.txnCommitted : Nat := 0x0E8B
def Ev.txnDiscarded : Nat := 0x0E8C
def Ev.protectedDirectWrite : Nat := 0x0E8D
def Ev.fieldLocked : Nat := 0x0E8E
def Ev.fuseBusy : Nat := 0x0E8F
def Ev.fuseRange : Nat := 0x0E90
def Ev.fuseBurned : Nat := 0x0E91
def Ev.fwStaged : Nat := 0x0E92
def Ev.stageChanged : Nat := 0x0E93
def Ev.stageActivated : Nat := 0x0E94
def Ev.lockstepDiverged : Nat := 0x0B00
def Ev.lockstepImageDiffers : Nat := 0x0B80
def Ev.dumpFailed : Nat := 0x0B01
def Ev.lockstepNoPartner : Nat := 0x0B81
def Ev.dumpAbandoned : Nat := 0x0B02
def Ev.lockstepGap : Nat := 0x0B82
def Ev.traceTriggered : Nat := 0x0B83
def Ev.traceBusy : Nat := 0x0B84
def Ev.traceSpillRange : Nat := 0x0B85
def Ev.dumpDisabled : Nat := 0x0B86
def Ev.dumpNotStopped : Nat := 0x0B87
def Ev.dumpBusy : Nat := 0x0B88
def Ev.dumpDone : Nat := 0x0B89
def Ev.wfgBuilt : Nat := 0x0B8A
def Ev.wfgBusy : Nat := 0x0B8B

/-- An event code whose index is below 0x80 is an error (R462). -/
def Ev.isError (c : Nat) : Bool := c % 256 < 128

/-- The class of a code (R462). -/
def Ev.cls (c : Nat) : Nat := c / 256

end Sys2Proof.Machine
end

