-- ==== Sys2Proof/Machine/Regs.lean ====
section
/-!
DEFINITION. The registers of the module: one name per register of the spec's register tables, as its key in the
register file, and one row per register (offset, stride, count, width, access class of R579 and R587 to R595, the
fields' access codes of R7 as bit masks, reset value).

A register of window w at offset o has the key w · 0x100_0000 + o, which is its module-local address less
0x3000_0000_0000 (R35, R39) and its offset in the PF's BAR0 (R375).  A ring page register (R376) of function f and
ring r has a key above the windows: 0x4000_0000 + f · 0x1_0000 + its offset in the function's ring pages.
-/
namespace Sys2Proof.Machine
open Sys2Proof

/-- `SA.DEVICE_ID` (R2). -/
def Reg.saDeviceId : Nat := 0x0

/-- `Cn.ROW_MAP` (R22). -/
def Reg.cnRowMap (d i : Nat) : Nat := (4 + d) * 0x1000000 + 4 * i + 0x100

/-- `SA.MODNUM_MAP` (R30). -/
def Reg.saModnumMap (i : Nat) : Nat := 4 * i + 0x100000

/-- `SA.FABRIC_POSITION` (R32). -/
def Reg.saFabricPosition : Nat := 0x8

/-- `SA.DIE_READY` (R43). -/
def Reg.saDieReady : Nat := 0x10

/-- `SA.DIE_FAILED` (R43). -/
def Reg.saDieFailed : Nat := 0x14

/-- `SA.STACK_ACTIVE` (R43). -/
def Reg.saStackActive : Nat := 0x18

/-- `SB.TIME_CTRL` (R75). -/
def Reg.sbTimeCtrl : Nat := 0x1000000 + 0x1000

/-- `SB.TIME_STATUS` (R75). -/
def Reg.sbTimeStatus : Nat := 0x1000000 + 0x1004

/-- `SB.HOLDOVER_TICKS` (R75). -/
def Reg.sbHoldoverTicks : Nat := 0x1000000 + 0x1008

/-- `SB.FTC` (R75). -/
def Reg.sbFtc : Nat := 0x1000000 + 0x1010

/-- `SB.FTC_INCR` (R75). -/
def Reg.sbFtcIncr : Nat := 0x1000000 + 0x1018

/-- `SB.FTC_STEP` (R75). -/
def Reg.sbFtcStep : Nat := 0x1000000 + 0x1020

/-- `SB.WTB_SEC` (R75). -/
def Reg.sbWtbSec : Nat := 0x1000000 + 0x1030

/-- `SB.WTB_NS` (R75). -/
def Reg.sbWtbNs : Nat := 0x1000000 + 0x1038

/-- `SB.WTB_INCR` (R75). -/
def Reg.sbWtbIncr : Nat := 0x1000000 + 0x1040

/-- `SB.WTB_LOAD_SEC` (R75). -/
def Reg.sbWtbLoadSec : Nat := 0x1000000 + 0x1048

/-- `SB.WTB_LOAD_NS` (R75). -/
def Reg.sbWtbLoadNs : Nat := 0x1000000 + 0x1050

/-- `SB.PPS_IN_FTC` (R75). -/
def Reg.sbPpsInFtc : Nat := 0x1000000 + 0x1060

/-- `SB.PPS_IN_WTB` (R75). -/
def Reg.sbPpsInWtb : Nat := 0x1000000 + 0x1068

/-- `SB.PPS_COUNT` (R75). -/
def Reg.sbPpsCount : Nat := 0x1000000 + 0x1070

/-- `SB.PTP_PDELAY_DROPPED` (R75). -/
def Reg.sbPtpPdelayDropped : Nat := 0x1000000 + 0x1078

/-- `SB.PTP_TX_STAMP` (R75). -/
def Reg.sbPtpTxStamp : Nat := 0x1000000 + 0x1080

/-- `Ln.TS_TX_COMP` (R76). -/
def Reg.lnTsTxComp (d : Nat) : Nat := (16 + d) * 0x1000000 + 0x2000

/-- `Ln.TS_RX_COMP` (R76). -/
def Reg.lnTsRxComp (d : Nat) : Nat := (16 + d) * 0x1000000 + 0x2004

/-- `Ln.TS_DESKEW` (R76). -/
def Reg.lnTsDeskew (d : Nat) : Nat := (16 + d) * 0x1000000 + 0x2008

/-- `Ln.CABLE_ASYM` (R76). -/
def Reg.lnCableAsym (d : Nat) : Nat := (16 + d) * 0x1000000 + 0x200c

/-- `Ln.TIME_OFFSET` (R76). -/
def Reg.lnTimeOffset (d : Nat) : Nat := (16 + d) * 0x1000000 + 0x2010

/-- `Ln.TIME_DELAY` (R76). -/
def Reg.lnTimeDelay (d : Nat) : Nat := (16 + d) * 0x1000000 + 0x2014

/-- `Ln.TIME_DISCARD` (R76). -/
def Reg.lnTimeDiscard (d : Nat) : Nat := (16 + d) * 0x1000000 + 0x2018

/-- `Ln.TIME_OFFSET_TICKS` (R76). -/
def Reg.lnTimeOffsetTicks (d : Nat) : Nat := (16 + d) * 0x1000000 + 0x2020

/-- `Cn.LCT` (R77). -/
def Reg.cnLct (d : Nat) : Nat := (4 + d) * 0x1000000 + 0x40

/-- `Cn.LCT_AT_FRAME` (R77). -/
def Reg.cnLctAtFrame (d : Nat) : Nat := (4 + d) * 0x1000000 + 0x48

/-- `Cn.FTC_AT_FRAME` (R77). -/
def Reg.cnFtcAtFrame (d : Nat) : Nat := (4 + d) * 0x1000000 + 0x50

/-- `Cn.STRETCH_COUNT` (R77). -/
def Reg.cnStretchCount (d : Nat) : Nat := (4 + d) * 0x1000000 + 0x58

/-- `Cn.LINE_BOUNDARY` (R105). -/
def Reg.cnLineBoundary (d : Nat) : Nat := (4 + d) * 0x1000000 + 0x200

/-- `Cn.WAIT_LIMIT` (R105). -/
def Reg.cnWaitLimit (d i : Nat) : Nat := (4 + d) * 0x1000000 + 4 * i + 0x220

/-- `Cn.LINE_BASE` (R105). -/
def Reg.cnLineBase (d i : Nat) : Nat := (4 + d) * 0x1000000 + 8 * i + 0x240

/-- `Cn.TOKEN_BLOCK` (R105). -/
def Reg.cnTokenBlock (d i : Nat) : Nat := (4 + d) * 0x1000000 + 4 * i + 0x300

/-- `Cn.TILE_STATUS` (R105). -/
def Reg.cnTileStatus (d i : Nat) : Nat := (4 + d) * 0x1000000 + 4 * i + 0x4000

/-- `Cn.TILE_ERR` (R105). -/
def Reg.cnTileErr (d i : Nat) : Nat := (4 + d) * 0x1000000 + 4 * i + 0x4400

/-- `Ln.LINE_CLASS` (R215). -/
def Reg.lnLineClass (d : Nat) : Nat := (16 + d) * 0x1000000 + 0x3000

/-- `Ln.LINE_CLASS_STATUS` (R215). -/
def Reg.lnLineClassStatus (d : Nat) : Nat := (16 + d) * 0x1000000 + 0x3004

/-- `Ln.HOLD_PEAK` (R215). -/
def Reg.lnHoldPeak (d : Nat) : Nat := (16 + d) * 0x1000000 + 0x3008

/-- `Ln.DEPART_NOT_READY` (R215). -/
def Reg.lnDepartNotReady (d : Nat) : Nat := (16 + d) * 0x1000000 + 0x3010

/-- `Ln.DEPART_DENIED` (R215). -/
def Reg.lnDepartDenied (d : Nat) : Nat := (16 + d) * 0x1000000 + 0x3014

/-- `Ln.ARRIVAL_MISMATCH` (R215). -/
def Reg.lnArrivalMismatch (d : Nat) : Nat := (16 + d) * 0x1000000 + 0x3018

/-- `Ln.TRAIN_LATE` (R215). -/
def Reg.lnTrainLate (d : Nat) : Nat := (16 + d) * 0x1000000 + 0x301c

/-- `Ln.LATE_CELL_DROP` (R215). -/
def Reg.lnLateCellDrop (d : Nat) : Nat := (16 + d) * 0x1000000 + 0x3020

/-- `Ln.FOREIGN_DROP` (R215). -/
def Reg.lnForeignDrop (d : Nat) : Nat := (16 + d) * 0x1000000 + 0x3024

/-- `Ln.REPLAY_FILL` (R215). -/
def Reg.lnReplayFill (d : Nat) : Nat := (16 + d) * 0x1000000 + 0x3028

/-- `Ln.HOLD_OVERFLOW` (R215). -/
def Reg.lnHoldOverflow (d : Nat) : Nat := (16 + d) * 0x1000000 + 0x302c

/-- `Ln.PERMIT_DEP` (R215). -/
def Reg.lnPermitDep (d i : Nat) : Nat := (16 + d) * 0x1000000 + 4 * i + 0x8000

/-- `Ln.PERMIT_ARR` (R215). -/
def Reg.lnPermitArr (d i : Nat) : Nat := (16 + d) * 0x1000000 + 4 * i + 0x9000

/-- `Ln.TT_BANK` (R253). -/
def Reg.lnTtBank (d : Nat) : Nat := (16 + d) * 0x1000000 + 0x3100

/-- `Ln.TT_ARM_FTC` (R253). -/
def Reg.lnTtArmFtc (d : Nat) : Nat := (16 + d) * 0x1000000 + 0x3108

/-- `Ln.TT_ARM_OWNERS` (R253). -/
def Reg.lnTtArmOwners (d : Nat) : Nat := (16 + d) * 0x1000000 + 0x3110

/-- `Ln.TT_LOAD_STATUS` (R253). -/
def Reg.lnTtLoadStatus (d : Nat) : Nat := (16 + d) * 0x1000000 + 0x3118

/-- `Ln.PASS_VOID` (R253). -/
def Reg.lnPassVoid (d : Nat) : Nat := (16 + d) * 0x1000000 + 0x3120

/-- `Ln.TT_ECC` (R253). -/
def Reg.lnTtEcc (d : Nat) : Nat := (16 + d) * 0x1000000 + 0x3124

/-- `Ln.TT_WALK` (R253). -/
def Reg.lnTtWalk (d i : Nat) : Nat := (16 + d) * 0x1000000 + 8 * i + 0x3200

/-- `Jn.JN_BANK` (R254). -/
def Reg.jnJnBank (d : Nat) : Nat := (8 + d) * 0x1000000 + 0x100

/-- `Jn.JN_ARM_FTC` (R254). -/
def Reg.jnJnArmFtc (d : Nat) : Nat := (8 + d) * 0x1000000 + 0x108

/-- `Jn.JN_ARM_OWNERS` (R254). -/
def Reg.jnJnArmOwners (d : Nat) : Nat := (8 + d) * 0x1000000 + 0x110

/-- `Jn.JN_LOAD_STATUS` (R254). -/
def Reg.jnJnLoadStatus (d : Nat) : Nat := (8 + d) * 0x1000000 + 0x118

/-- `Jn.JN_ECC` (R254). -/
def Reg.jnJnEcc (d : Nat) : Nat := (8 + d) * 0x1000000 + 0x120

/-- `Jn.JN_WALK` (R254). -/
def Reg.jnJnWalk (d i : Nat) : Nat := (8 + d) * 0x1000000 + 8 * i + 0x200

/-- `Ln.REDUCE_CELLS` (R270). -/
def Reg.lnReduceCells (d : Nat) : Nat := (16 + d) * 0x1000000 + 0x3400

/-- `Ln.REDUCE_NOT_READY` (R270). -/
def Reg.lnReduceNotReady (d : Nat) : Nat := (16 + d) * 0x1000000 + 0x3408

/-- `Ln.REDUCE_EXP_MISMATCH` (R270). -/
def Reg.lnReduceExpMismatch (d : Nat) : Nat := (16 + d) * 0x1000000 + 0x340c

/-- `Ln.REDUCE_DATAPATH` (R270). -/
def Reg.lnReduceDatapath (d : Nat) : Nat := (16 + d) * 0x1000000 + 0x3410

/-- `Ln.DROP_COPIES` (R270). -/
def Reg.lnDropCopies (d : Nat) : Nat := (16 + d) * 0x1000000 + 0x3414

/-- `Ln.REDUCE_FLAGS` (R270). -/
def Reg.lnReduceFlags (d i : Nat) : Nat := (16 + d) * 0x1000000 + 4 * i + 0x3480

/-- `Ln.LINK_CTRL` (R310). -/
def Reg.lnLinkCtrl (d : Nat) : Nat := (16 + d) * 0x1000000 + 0x1000

/-- `Ln.LINK_STATUS` (R310). -/
def Reg.lnLinkStatus (d : Nat) : Nat := (16 + d) * 0x1000000 + 0x1004

/-- `Ln.ERR_WINDOW` (R310). -/
def Reg.lnErrWindow (d : Nat) : Nat := (16 + d) * 0x1000000 + 0x1008

/-- `Ln.ERR_COUNT` (R310). -/
def Reg.lnErrCount (d : Nat) : Nat := (16 + d) * 0x1000000 + 0x100c

/-- `Ln.EXPECT` (R310). -/
def Reg.lnExpect (d : Nat) : Nat := (16 + d) * 0x1000000 + 0x1010

/-- `Ln.FABRIC_ID` (R310). -/
def Reg.lnFabricId (d : Nat) : Nat := (16 + d) * 0x1000000 + 0x1014

/-- `Ln.LEVELS` (R310). -/
def Reg.lnLevels (d : Nat) : Nat := (16 + d) * 0x1000000 + 0x1018

/-- `Ln.PEER_IDENT` (R310). -/
def Reg.lnPeerIdent (d i : Nat) : Nat := (16 + d) * 0x1000000 + 4 * i + 0x1020

/-- `Ln.LANE_RX_ACTIVE` (R310). -/
def Reg.lnLaneRxActive (d : Nat) : Nat := (16 + d) * 0x1000000 + 0x1050

/-- `Ln.LANE_RX_FAILED` (R310). -/
def Reg.lnLaneRxFailed (d : Nat) : Nat := (16 + d) * 0x1000000 + 0x1058

/-- `Ln.LANE_TX_ACTIVE` (R310). -/
def Reg.lnLaneTxActive (d : Nat) : Nat := (16 + d) * 0x1000000 + 0x1060

/-- `Ln.LANE_TX_FAILED` (R310). -/
def Reg.lnLaneTxFailed (d : Nat) : Nat := (16 + d) * 0x1000000 + 0x1068

/-- `Ln.REPLAY_STATE` (R310). -/
def Reg.lnReplayState (d : Nat) : Nat := (16 + d) * 0x1000000 + 0x1070

/-- `Ln.FEC_CORRECTED` (R310). -/
def Reg.lnFecCorrected (d : Nat) : Nat := (16 + d) * 0x1000000 + 0x1080

/-- `Ln.FEC_UNCORRECTABLE` (R310). -/
def Reg.lnFecUncorrectable (d : Nat) : Nat := (16 + d) * 0x1000000 + 0x1088

/-- `Ln.CRC_FAIL` (R310). -/
def Reg.lnCrcFail (d : Nat) : Nat := (16 + d) * 0x1000000 + 0x108c

/-- `Ln.DUP_DROP` (R310). -/
def Reg.lnDupDrop (d : Nat) : Nat := (16 + d) * 0x1000000 + 0x1090

/-- `Ln.WINDOW_DROP` (R310). -/
def Reg.lnWindowDrop (d : Nat) : Nat := (16 + d) * 0x1000000 + 0x1094

/-- `Ln.NAK_SENT` (R310). -/
def Reg.lnNakSent (d : Nat) : Nat := (16 + d) * 0x1000000 + 0x1098

/-- `Ln.REPLAYS` (R310). -/
def Reg.lnReplays (d : Nat) : Nat := (16 + d) * 0x1000000 + 0x109c

/-- `Ln.REPLAY_TIMEOUTS` (R310). -/
def Reg.lnReplayTimeouts (d : Nat) : Nat := (16 + d) * 0x1000000 + 0x10a0

/-- `Ln.REPLAY_BUF_FULL` (R310). -/
def Reg.lnReplayBufFull (d : Nat) : Nat := (16 + d) * 0x1000000 + 0x10a4

/-- `Ln.REPLAY_DISCARD` (R310). -/
def Reg.lnReplayDiscard (d : Nat) : Nat := (16 + d) * 0x1000000 + 0x10a8

/-- `Ln.ACK_RANGE` (R310). -/
def Reg.lnAckRange (d : Nat) : Nat := (16 + d) * 0x1000000 + 0x10ac

/-- `Ln.LINK_UPS` (R310). -/
def Reg.lnLinkUps (d : Nat) : Nat := (16 + d) * 0x1000000 + 0x10b0

/-- `Ln.LANE_CE` (R310). -/
def Reg.lnLaneCe (d i : Nat) : Nat := (16 + d) * 0x1000000 + 4 * i + 0x1100

/-- `Ln.CABLE_ID` (R310). -/
def Reg.lnCableId (d : Nat) : Nat := (16 + d) * 0x1000000 + 0x1200

/-- `Ln.CABLE_INFO` (R310). -/
def Reg.lnCableInfo (d : Nat) : Nat := (16 + d) * 0x1000000 + 0x1208

/-- `Ln.CABLE_MATING` (R310). -/
def Reg.lnCableMating (d : Nat) : Nat := (16 + d) * 0x1000000 + 0x120c

/-- `Ln.CABLE_HOURS` (R310). -/
def Reg.lnCableHours (d : Nat) : Nat := (16 + d) * 0x1000000 + 0x1210

/-- `Ln.CABLE_DELAY_AB` (R310). -/
def Reg.lnCableDelayAb (d : Nat) : Nat := (16 + d) * 0x1000000 + 0x1214

/-- `Ln.CABLE_DELAY_BA` (R310). -/
def Reg.lnCableDelayBa (d : Nat) : Nat := (16 + d) * 0x1000000 + 0x1218

/-- `SA.ROUTE` (R347). -/
def Reg.saRoute (v i : Nat) : Nat := 0x80 * v + 4 * i + 0x200000

/-- `SA.ROUTE_EXT` (R347). -/
def Reg.saRouteExt (i : Nat) : Nat := 128 * i + 0x200060

/-- `SA.ROUTE_CTRL` (R347). -/
def Reg.saRouteCtrl : Nat := 0x201000

/-- `SA.ROUTE_FLIP_FTC` (R347). -/
def Reg.saRouteFlipFtc : Nat := 0x201008

/-- `SA.EPOCH_CMD_FTC` (R347). -/
def Reg.saEpochCmdFtc : Nat := 0x201010

/-- `SA.EPOCH_CMD` (R347). -/
def Reg.saEpochCmd : Nat := 0x201018

/-- `SA.PART_JOB_KEY` (R347). -/
def Reg.saPartJobKey (i : Nat) : Nat := 4 * i + 0x201100

/-- `Ln.USCHED_STATUS` (R348). -/
def Reg.lnUschedStatus (d : Nat) : Nat := (16 + d) * 0x1000000 + 0x5000

/-- `Ln.POOL_OCC` (R348). -/
def Reg.lnPoolOcc (d : Nat) : Nat := (16 + d) * 0x1000000 + 0x5004

/-- `Ln.CREDIT` (R348). -/
def Reg.lnCredit (d i : Nat) : Nat := (16 + d) * 0x1000000 + 4 * i + 0x5010

/-- `Ln.PKT_EXPIRED` (R348). -/
def Reg.lnPktExpired (d : Nat) : Nat := (16 + d) * 0x1000000 + 0x5040

/-- `Ln.PKT_NO_ROUTE` (R348). -/
def Reg.lnPktNoRoute (d : Nat) : Nat := (16 + d) * 0x1000000 + 0x5044

/-- `Ln.TURNBACKS` (R348). -/
def Reg.lnTurnbacks (d : Nat) : Nat := (16 + d) * 0x1000000 + 0x5048

/-- `Ln.TURNBACK_DROP` (R348). -/
def Reg.lnTurnbackDrop (d : Nat) : Nat := (16 + d) * 0x1000000 + 0x504c

/-- `Ln.POOL_OVERRUN` (R348). -/
def Reg.lnPoolOverrun (d : Nat) : Nat := (16 + d) * 0x1000000 + 0x5050

/-- `Ln.PKT_BAD` (R348). -/
def Reg.lnPktBad (d : Nat) : Nat := (16 + d) * 0x1000000 + 0x5054

/-- `Ln.PKT_DEST_OFF` (R348). -/
def Reg.lnPktDestOff (d : Nat) : Nat := (16 + d) * 0x1000000 + 0x5058

/-- `Ln.NEWT_DROP` (R348). -/
def Reg.lnNewtDrop (d : Nat) : Nat := (16 + d) * 0x1000000 + 0x505c

/-- `Ln.NEWT_DUP` (R348). -/
def Reg.lnNewtDup (d : Nat) : Nat := (16 + d) * 0x1000000 + 0x5060

/-- `Ln.UNSCHED_STALLS` (R348). -/
def Reg.lnUnschedStalls (d : Nat) : Nat := (16 + d) * 0x1000000 + 0x5064

/-- `Ln.PROGRESS_LIMIT` (R348). -/
def Reg.lnProgressLimit (d : Nat) : Nat := (16 + d) * 0x1000000 + 0x5068

/-- `Cn.INJ_STATUS` (R349). -/
def Reg.cnInjStatus (d : Nat) : Nat := (4 + d) * 0x1000000 + 0x500

/-- `Cn.INJ_THROTTLE` (R349). -/
def Reg.cnInjThrottle (d : Nat) : Nat := (4 + d) * 0x1000000 + 0x504

/-- `Cn.INJ_REFUSED` (R349). -/
def Reg.cnInjRefused (d : Nat) : Nat := (4 + d) * 0x1000000 + 0x508

/-- `Mn.ST_BANK` (R370). -/
def Reg.mnStBank (d : Nat) : Nat := (32 + d) * 0x1000000 + 0x100

/-- `Mn.ST_ARM_FTC` (R370). -/
def Reg.mnStArmFtc (d : Nat) : Nat := (32 + d) * 0x1000000 + 0x108

/-- `Mn.ST_ARM_OWNERS` (R370). -/
def Reg.mnStArmOwners (d : Nat) : Nat := (32 + d) * 0x1000000 + 0x110

/-- `Mn.ST_LOAD_STATUS` (R370). -/
def Reg.mnStLoadStatus (d : Nat) : Nat := (32 + d) * 0x1000000 + 0x118

/-- `Mn.STREAM_LATE` (R370). -/
def Reg.mnStreamLate (d : Nat) : Nat := (32 + d) * 0x1000000 + 0x120

/-- `Mn.STREAMS_DONE` (R370). -/
def Reg.mnStreamsDone (d : Nat) : Nat := (32 + d) * 0x1000000 + 0x124

/-- `Mn.STACK_STATUS` (R370). -/
def Reg.mnStackStatus (d i : Nat) : Nat := (32 + d) * 0x1000000 + 64 * i + 0x200

/-- `Mn.HBM_CE` (R370). -/
def Reg.mnHbmCe (d i : Nat) : Nat := (32 + d) * 0x1000000 + 64 * i + 0x204

/-- `Mn.HBM_UE` (R370). -/
def Reg.mnHbmUe (d i : Nat) : Nat := (32 + d) * 0x1000000 + 64 * i + 0x208

/-- `Mn.REPAIR` (R370). -/
def Reg.mnRepair (d i : Nat) : Nat := (32 + d) * 0x1000000 + 64 * i + 0x20c

/-- `Mn.SCRUB_DONE` (R370). -/
def Reg.mnScrubDone (d i : Nat) : Nat := (32 + d) * 0x1000000 + 64 * i + 0x210

/-- `Mn.SCRUB_CTRL` (R370). -/
def Reg.mnScrubCtrl (d : Nat) : Nat := (32 + d) * 0x1000000 + 0x300

/-- `Mn.REPAIR_CTRL` (R370). -/
def Reg.mnRepairCtrl (d : Nat) : Nat := (32 + d) * 0x1000000 + 0x304

/-- `Mn.HASH_STATUS` (R370). -/
def Reg.mnHashStatus (d : Nat) : Nat := (32 + d) * 0x1000000 + 0x310

/-- `Mn.ST_WALK` (R370). -/
def Reg.mnStWalk (d i : Nat) : Nat := (32 + d) * 0x1000000 + 8 * i + 0x400

/-- `Mn.ST_IND_ADDR` (R370). -/
def Reg.mnStIndAddr (d : Nat) : Nat := (32 + d) * 0x1000000 + 0x1000

/-- `Mn.ST_IND_DATA` (R370). -/
def Reg.mnStIndData (d : Nat) : Nat := (32 + d) * 0x1000000 + 0x1008

/-- `SQ_BASE` (R376). -/
def Reg.rgSqBase (f r : Nat) : Nat := 0x40000000 + f * 0x10000 + r * 0x1000 + 0x0

/-- `SQ_CTRL` (R376). -/
def Reg.rgSqCtrl (f r : Nat) : Nat := 0x40000000 + f * 0x10000 + r * 0x1000 + 0x8

/-- `SQ_DOORBELL` (R376). -/
def Reg.rgSqDoorbell (f r : Nat) : Nat := 0x40000000 + f * 0x10000 + r * 0x1000 + 0xc

/-- `SQ_HEAD` (R376). -/
def Reg.rgSqHead (f r : Nat) : Nat := 0x40000000 + f * 0x10000 + r * 0x1000 + 0x10

/-- `SQ_STATUS` (R376). -/
def Reg.rgSqStatus (f r : Nat) : Nat := 0x40000000 + f * 0x10000 + r * 0x1000 + 0x14

/-- `SQ_SHADOW` (R376). -/
def Reg.rgSqShadow (f r : Nat) : Nat := 0x40000000 + f * 0x10000 + r * 0x1000 + 0x18

/-- `CQ_BASE` (R376). -/
def Reg.rgCqBase (f r : Nat) : Nat := 0x40000000 + f * 0x10000 + r * 0x1000 + 0x20

/-- `CQ_CTRL` (R376). -/
def Reg.rgCqCtrl (f r : Nat) : Nat := 0x40000000 + f * 0x10000 + r * 0x1000 + 0x28

/-- `CQ_HEAD` (R376). -/
def Reg.rgCqHead (f r : Nat) : Nat := 0x40000000 + f * 0x10000 + r * 0x1000 + 0x2c

/-- `CQ_TAIL` (R376). -/
def Reg.rgCqTail (f r : Nat) : Nat := 0x40000000 + f * 0x10000 + r * 0x1000 + 0x30

/-- `SA.PART_QUARTERS` (R423). -/
def Reg.saPartQuarters (i : Nat) : Nat := 4 * i + 0x300000

/-- `SA.PART_STATUS` (R423). -/
def Reg.saPartStatus (i : Nat) : Nat := 4 * i + 0x300040

/-- `SA.GRANT` (R423). -/
def Reg.saGrant (i : Nat) : Nat := 4 * i + 0x300080

/-- `SA.ROTA_CTRL` (R423). -/
def Reg.saRotaCtrl (i : Nat) : Nat := 8 * i + 0x300100

/-- `SA.ROTA_MASK` (R423). -/
def Reg.saRotaMask (i : Nat) : Nat := 8 * i + 0x300200

/-- `SA.ROTA_STATUS` (R423). -/
def Reg.saRotaStatus (i : Nat) : Nat := 16 * i + 0x300300

/-- `SA.ROTA_NEXT_X` (R423). -/
def Reg.saRotaNextX (i : Nat) : Nat := 16 * i + 0x300308

/-- `SA.LS_CTRL` (R459). -/
def Reg.saLsCtrl (i : Nat) : Nat := 64 * i + 0x400000

/-- `SA.LS_STATUS` (R459). -/
def Reg.saLsStatus (i : Nat) : Nat := 64 * i + 0x400008

/-- `SA.LS_GAPS` (R459). -/
def Reg.saLsGaps (i : Nat) : Nat := 64 * i + 0x400010

/-- `SA.LS_DIV_FRAME` (R459). -/
def Reg.saLsDivFrame (i : Nat) : Nat := 64 * i + 0x400018

/-- `SA.LS_DIV_INFO` (R459). -/
def Reg.saLsDivInfo (i : Nat) : Nat := 64 * i + 0x400020

/-- `SA.LS_DIV_CRC` (R459). -/
def Reg.saLsDivCrc (i : Nat) : Nat := 64 * i + 0x400028

/-- `SA.PROV_SEQ` (R459). -/
def Reg.saProvSeq : Nat := 0x401000

/-- `SA.PROV_KEY_ID` (R459). -/
def Reg.saProvKeyId (i : Nat) : Nat := 8 * i + 0x401008

/-- `SA.EVLOG_HEAD` (R484). -/
def Reg.saEvlogHead : Nat := 0x500000

/-- `SA.EVLOG_DROPPED` (R484). -/
def Reg.saEvlogDropped : Nat := 0x500004

/-- `SA.FIRST_ERROR` (R484). -/
def Reg.saFirstError : Nat := 0x500008

/-- `SA.EVLOG_CTRL` (R484). -/
def Reg.saEvlogCtrl : Nat := 0x500010

/-- `SA.ALLSTOP_CMD` (R484). -/
def Reg.saAllstopCmd : Nat := 0x500020

/-- `SA.STOP_CTRL` (R484). -/
def Reg.saStopCtrl (i : Nat) : Nat := 8 * i + 0x500100

/-- `SA.STOP_STATUS` (R484). -/
def Reg.saStopStatus (i : Nat) : Nat := 8 * i + 0x500200

/-- `SB.SA_HEARTBEAT` (R485). -/
def Reg.sbSaHeartbeat : Nat := 0x1000000 + 0x3000

/-- `SB.SA_WATCHDOG` (R485). -/
def Reg.sbSaWatchdog : Nat := 0x1000000 + 0x3004

/-- `SA.PL_REQUEST` (R511). -/
def Reg.saPlRequest : Nat := 0x600000

/-- `SA.PM_REQUEST` (R511). -/
def Reg.saPmRequest : Nat := 0x600004

/-- `SA.MODULE_PMODE` (R511). -/
def Reg.saModulePmode : Nat := 0x600008

/-- `SA.PM_CTRL` (R511). -/
def Reg.saPmCtrl : Nat := 0x60000c

/-- `SA.LAST_WAKE_SOURCE` (R511). -/
def Reg.saLastWakeSource : Nat := 0x600010

/-- `SA.WAKE_ALARM_FTC` (R511). -/
def Reg.saWakeAlarmFtc : Nat := 0x600018

/-- `SA.WAKE_RECORD` (R511). -/
def Reg.saWakeRecord : Nat := 0x600020

/-- `SA.WAKE_FTC` (R511). -/
def Reg.saWakeFtc : Nat := 0x600028

/-- `SA.RESET_CMD` (R511). -/
def Reg.saResetCmd : Nat := 0x600030

/-- `SA.RESET_STATUS` (R511). -/
def Reg.saResetStatus : Nat := 0x600034

/-- `SB.PL_STATUS` (R512). -/
def Reg.sbPlStatus : Nat := 0x1000000 + 0x4000

/-- `SB.POWER_LIMIT` (R512). -/
def Reg.sbPowerLimit : Nat := 0x1000000 + 0x4004

/-- `SB.POWER_NOW` (R512). -/
def Reg.sbPowerNow : Nat := 0x1000000 + 0x4008

/-- `SB.POWER_CTRL` (R512). -/
def Reg.sbPowerCtrl : Nat := 0x1000000 + 0x400c

/-- `SB.AVS_STATUS` (R512). -/
def Reg.sbAvsStatus : Nat := 0x1000000 + 0x4010

/-- `SB.SEQ_STEP` (R512). -/
def Reg.sbSeqStep (i : Nat) : Nat := 0x1000000 + 4 * i + 0x4020

/-- `SB.SEQ_TABLE` (R512). -/
def Reg.sbSeqTable (i : Nat) : Nat := 0x1000000 + 4 * i + 0x4100

/-- `SB.THERM_LIMITS` (R524). -/
def Reg.sbThermLimits (i : Nat) : Nat := 0x1000000 + 4 * i + 0x5000

/-- `SB.TEMP` (R524). -/
def Reg.sbTemp (i : Nat) : Nat := 0x1000000 + 4 * i + 0x5020

/-- `SB.TEMP_SENSOR_FAILED` (R524). -/
def Reg.sbTempSensorFailed (i : Nat) : Nat := 0x1000000 + 8 * i + 0x5100

/-- `Cn.DROOP_CTRL` (R524). -/
def Reg.cnDroopCtrl (d : Nat) : Nat := (4 + d) * 0x1000000 + 0x600

/-- `Cn.PROCESS_CODE` (R524). -/
def Reg.cnProcessCode (d : Nat) : Nat := (4 + d) * 0x1000000 + 0x604

/-- `Cn.AGEING` (R524). -/
def Reg.cnAgeing (d : Nat) : Nat := (4 + d) * 0x1000000 + 0x608

/-- `SA.MARGIN_CTRL` (R524). -/
def Reg.saMarginCtrl : Nat := 0x700000

/-- `SA.OPER_HOURS` (R524). -/
def Reg.saOperHours : Nat := 0x700008

/-- `SA.MARGIN_PLAN` (R524). -/
def Reg.saMarginPlan (i : Nat) : Nat := 8 * i + 0x700100

/-- `SA.TXN_CTRL` (R541). -/
def Reg.saTxnCtrl : Nat := 0x800000

/-- `SA.TXN_STATUS` (R541). -/
def Reg.saTxnStatus : Nat := 0x800008

/-- `SA.TXN_COMMIT_FTC` (R541). -/
def Reg.saTxnCommitFtc : Nat := 0x800010

/-- `SA.TXN_ENTRY_ADDR` (R541). -/
def Reg.saTxnEntryAddr : Nat := 0x800018

/-- `SA.TXN_ENTRY_DATA` (R541). -/
def Reg.saTxnEntryData : Nat := 0x800020

/-- `SA.TXN_DIGEST` (R541). -/
def Reg.saTxnDigest (i : Nat) : Nat := 8 * i + 0x800040

/-- `SA.TXN_NONCE` (R541). -/
def Reg.saTxnNonce (i : Nat) : Nat := 8 * i + 0x800080

/-- `SA.TXN_SIG_OWNER` (R541). -/
def Reg.saTxnSigOwner (i : Nat) : Nat := 8 * i + 0x800100

/-- `SA.TXN_SIG_OPER` (R541). -/
def Reg.saTxnSigOper (i : Nat) : Nat := 8 * i + 0x800180

/-- `SA.TXN_ARMED` (R541). -/
def Reg.saTxnArmed (i : Nat) : Nat := 16 * i + 0x800200

/-- `SA.TXN_ARMED_FTC` (R541). -/
def Reg.saTxnArmedFtc (i : Nat) : Nat := 16 * i + 0x800208

/-- `SA.DEBUG_EN` (R541). -/
def Reg.saDebugEn : Nat := 0x810000

/-- `SA.FUSE_STATUS` (R541). -/
def Reg.saFuseStatus : Nat := 0x810008

/-- `SA.STACK_RETIRE_REQ` (R541). -/
def Reg.saStackRetireReq : Nat := 0x810010

/-- `SA.FUSE_REQ` (R541). -/
def Reg.saFuseReq (i : Nat) : Nat := 8 * i + 0x810100

/-- `SA.STAGE_CTRL` (R541). -/
def Reg.saStageCtrl : Nat := 0x810200

/-- `SA.STAGE_ADDR` (R541). -/
def Reg.saStageAddr : Nat := 0x810208

/-- `SA.STAGE_DATA` (R541). -/
def Reg.saStageData : Nat := 0x810210

/-- `SA.STAGE_ACTIVATE` (R541). -/
def Reg.saStageActivate : Nat := 0x810218

/-- `SA.FW_STATUS` (R541). -/
def Reg.saFwStatus : Nat := 0x810220

/-- `SA.AUTH_KEY_OWNER` (R541). -/
def Reg.saAuthKeyOwner (i : Nat) : Nat := 8 * i + 0x810300

/-- `SA.AUTH_KEY_OPER` (R541). -/
def Reg.saAuthKeyOper (i : Nat) : Nat := 8 * i + 0x810380

/-- `SA.AUTH_KEY_STATUS` (R541). -/
def Reg.saAuthKeyStatus : Nat := 0x810400

/-- `SA.ID_PUBKEY` (R541). -/
def Reg.saIdPubkey (i : Nat) : Nat := 8 * i + 0x810500

/-- `SA.ID_CERT_ADDR` (R541). -/
def Reg.saIdCertAddr : Nat := 0x810600

/-- `SA.ID_CERT_DATA` (R541). -/
def Reg.saIdCertData : Nat := 0x810608

/-- `Cn.TILE_BUSY` (R564). -/
def Reg.cnTileBusy (d i : Nat) : Nat := (4 + d) * 0x1000000 + 32 * i + 0x8000

/-- `Cn.TILE_MMA` (R564). -/
def Reg.cnTileMma (d i : Nat) : Nat := (4 + d) * 0x1000000 + 32 * i + 0x8010

/-- `Cn.TRACE_CTRL` (R564). -/
def Reg.cnTraceCtrl (d : Nat) : Nat := (4 + d) * 0x1000000 + 0x9800

/-- `Cn.TRACE_SRC` (R564). -/
def Reg.cnTraceSrc (d : Nat) : Nat := (4 + d) * 0x1000000 + 0x9808

/-- `Cn.TRACE_TRIG` (R564). -/
def Reg.cnTraceTrig (d : Nat) : Nat := (4 + d) * 0x1000000 + 0x9810

/-- `Cn.TRACE_POST` (R564). -/
def Reg.cnTracePost (d : Nat) : Nat := (4 + d) * 0x1000000 + 0x9818

/-- `Cn.TRACE_SPILL_BASE` (R564). -/
def Reg.cnTraceSpillBase (d : Nat) : Nat := (4 + d) * 0x1000000 + 0x9820

/-- `Cn.TRACE_SPILL_LEN` (R564). -/
def Reg.cnTraceSpillLen (d : Nat) : Nat := (4 + d) * 0x1000000 + 0x9828

/-- `Cn.TRACE_SPILL_RATE` (R564). -/
def Reg.cnTraceSpillRate (d : Nat) : Nat := (4 + d) * 0x1000000 + 0x9830

/-- `Cn.TRACE_STATUS` (R564). -/
def Reg.cnTraceStatus (d : Nat) : Nat := (4 + d) * 0x1000000 + 0x9840

/-- `Cn.TRACE_DROPPED` (R564). -/
def Reg.cnTraceDropped (d : Nat) : Nat := (4 + d) * 0x1000000 + 0x9848

/-- `Cn.TRACE_LOST` (R564). -/
def Reg.cnTraceLost (d : Nat) : Nat := (4 + d) * 0x1000000 + 0x9850

/-- `Cn.TRACE_TRIG_INFO` (R564). -/
def Reg.cnTraceTrigInfo (d : Nat) : Nat := (4 + d) * 0x1000000 + 0x9858

/-- `Cn.TRACE_TRIG_REC` (R564). -/
def Reg.cnTraceTrigRec (d i : Nat) : Nat := (4 + d) * 0x1000000 + 8 * i + 0x9860

/-- `Cn.TRACE_RD_INDEX` (R564). -/
def Reg.cnTraceRdIndex (d : Nat) : Nat := (4 + d) * 0x1000000 + 0x9880

/-- `Cn.TRACE_RD_DATA` (R564). -/
def Reg.cnTraceRdData (d i : Nat) : Nat := (4 + d) * 0x1000000 + 8 * i + 0x9888

/-- `Cn.TRACE_RD_STATUS` (R564). -/
def Reg.cnTraceRdStatus (d : Nat) : Nat := (4 + d) * 0x1000000 + 0x98a8

/-- `Ln.TX_CELLS` (R564). -/
def Reg.lnTxCells (d i : Nat) : Nat := (16 + d) * 0x1000000 + 16 * i + 0x6000

/-- `Ln.RX_CELLS` (R564). -/
def Reg.lnRxCells (d i : Nat) : Nat := (16 + d) * 0x1000000 + 16 * i + 0x6040

/-- `Ln.TRACE_CTRL` (R564). -/
def Reg.lnTraceCtrl (d : Nat) : Nat := (16 + d) * 0x1000000 + 0x6100

/-- `Ln.TRACE_DROP` (R564). -/
def Reg.lnTraceDrop (d : Nat) : Nat := (16 + d) * 0x1000000 + 0x6108

/-- `Jn.JN_CELLS_BOOKED` (R564). -/
def Reg.jnJnCellsBooked (d : Nat) : Nat := (8 + d) * 0x1000000 + 0x400

/-- `Jn.JN_CELLS_OTHER` (R564). -/
def Reg.jnJnCellsOther (d : Nat) : Nat := (8 + d) * 0x1000000 + 0x410

/-- `Jn.TRACE_CTRL` (R564). -/
def Reg.jnTraceCtrl (d : Nat) : Nat := (8 + d) * 0x1000000 + 0x500

/-- `Jn.TRACE_DROP` (R564). -/
def Reg.jnTraceDrop (d : Nat) : Nat := (8 + d) * 0x1000000 + 0x508

/-- `Mn.HBM_RD_BYTES` (R564). -/
def Reg.mnHbmRdBytes (d i : Nat) : Nat := (32 + d) * 0x1000000 + 32 * i + 0x500

/-- `Mn.HBM_WR_BYTES` (R564). -/
def Reg.mnHbmWrBytes (d i : Nat) : Nat := (32 + d) * 0x1000000 + 32 * i + 0x510

/-- `Mn.TRACE_DROP` (R564). -/
def Reg.mnTraceDrop (d : Nat) : Nat := (32 + d) * 0x1000000 + 0x540

/-- `SA.CTR_SNAP_FTC` (R564). -/
def Reg.saCtrSnapFtc : Nat := 0x900000

/-- `SA.CTR_SNAP_CMD` (R564). -/
def Reg.saCtrSnapCmd : Nat := 0x900008

/-- `SA.CTR_SNAP_STATUS` (R564). -/
def Reg.saCtrSnapStatus : Nat := 0x900010

/-- `SA.CTR_SNAP_AT` (R564). -/
def Reg.saCtrSnapAt : Nat := 0x900018

/-- `SA.ERR_COUNT` (R564). -/
def Reg.saErrCount (i : Nat) : Nat := 16 * i + 0x900100

/-- `SA.DUMP_CTRL` (R564). -/
def Reg.saDumpCtrl : Nat := 0x910000

/-- `SA.DUMP_ADDR` (R564). -/
def Reg.saDumpAddr : Nat := 0x910008

/-- `SA.DUMP_STATUS` (R564). -/
def Reg.saDumpStatus : Nat := 0x910010

/-- `SA.DUMP_BYTES` (R564). -/
def Reg.saDumpBytes : Nat := 0x910018

/-- `SA.WFG_CTRL` (R564). -/
def Reg.saWfgCtrl : Nat := 0x920000

/-- `SA.WFG_STATUS` (R564). -/
def Reg.saWfgStatus : Nat := 0x920008

/-- `SA.WFG_RD_INDEX` (R564). -/
def Reg.saWfgRdIndex : Nat := 0x920010

/-- `SA.WFG_RD_DATA` (R564). -/
def Reg.saWfgRdData : Nat := 0x920018

/-- `SA.FABRIC_ID` (R574). -/
def Reg.saFabricId : Nat := 0xa00000

/-- `SA.ASSEMBLY_STATUS` (R574). -/
def Reg.saAssemblyStatus : Nat := 0xa00008

/-- `x.DIE_INFO` (R589). -/
def Reg.xDieInfo (d : Nat) : Nat := d * 0x1000000 + 0x0

/-- `x.SPINE_STATUS` (R589). -/
def Reg.xSpineStatus (d : Nat) : Nat := d * 0x1000000 + 0x8

/-- `x.DIE_SCRATCH` (R589). -/
def Reg.xDieScratch (d : Nat) : Nat := d * 0x1000000 + 0x10

/-- `SA.MODULE_SERIAL` (R590). -/
def Reg.saModuleSerial : Nat := 0x20

/-- `SA.FW_VERSION` (R590). -/
def Reg.saFwVersion : Nat := 0x28

/-- `SA.REG_FAULT` (R590). -/
def Reg.saRegFault : Nat := 0x30

/-- `SA.REG_FAULT_COUNT` (R590). -/
def Reg.saRegFaultCount : Nat := 0x38

/-- `NR_BASE` (R376). -/
def Reg.rgNrBase (f : Nat) : Nat := 0x40000000 + f * 0x10000 + 0x4000 + 0x20

/-- `NR_CTRL` (R376). -/
def Reg.rgNrCtrl (f : Nat) : Nat := 0x40000000 + f * 0x10000 + 0x4000 + 0x28

/-- `NR_HEAD` (R376). -/
def Reg.rgNrHead (f : Nat) : Nat := 0x40000000 + f * 0x10000 + 0x4000 + 0x2c

/-- `NR_TAIL` (R376). -/
def Reg.rgNrTail (f : Nat) : Nat := 0x40000000 + f * 0x10000 + 0x4000 + 0x30

/-- `NR_LOST` (R376). -/
def Reg.rgNrLost (f : Nat) : Nat := 0x40000000 + f * 0x10000 + 0x4000 + 0x34

/-- SA injection unit's status, laid out as R349 (R347). -/
def Reg.saInjStatus : Nat := 0x201200

/-- SA injection unit's throttle level (R347, R349). -/
def Reg.saInjThrottle : Nat := 0x201204

/-- SA injection unit's refused count (R347, R349). -/
def Reg.saInjRefused : Nat := 0x201208

/-- Access classes of R579. -/
inductive RegClass where
  | a | d | f | s | x | k | o
deriving DecidableEq, Repr

/-- One register, or an array of like registers, of a window's layout. -/
structure RegRow where
  base : Nat
  stride : Nat
  count : Nat
  width : Nat
  cls : RegClass
  rw : Nat
  w1c : Nat
  w1s : Nat
  wo : Nat
  reset : Nat
deriving DecidableEq, Repr

def regRowsSa0 : List RegRow :=
  [⟨0x0, 0, 1, 32, .o, 0x0, 0x0, 0x0, 0x0, 0x47680000⟩,
   ⟨0x100000, 4, 4096, 32, .a, 0x80007fff, 0x0, 0x0, 0x0, 0x0⟩,
   ⟨0x8, 0, 1, 32, .x, 0x87ffffff, 0x0, 0x0, 0x0, 0x0⟩,
   ⟨0x10, 0, 1, 32, .o, 0x0, 0x0, 0x0, 0x0, 0x1⟩,
   ⟨0x14, 0, 1, 32, .o, 0x0, 0x0, 0x0, 0x0, 0x0⟩,
   ⟨0x18, 0, 1, 32, .o, 0x0, 0x0, 0x0, 0x0, 0x0⟩,
   ⟨0x200000, 4, 24, 32, .a, 0xffffffff, 0x0, 0x0, 0x0, 0x0⟩,
   ⟨0x200080, 4, 24, 32, .a, 0xffffffff, 0x0, 0x0, 0x0, 0x0⟩,
   ⟨0x200060, 128, 2, 32, .a, 0x8003ffff, 0x0, 0x0, 0x0, 0x0⟩,
   ⟨0x201000, 0, 1, 32, .a, 0xffff0000, 0x0, 0x0, 0x0, 0x990000⟩,
   ⟨0x201008, 0, 1, 64, .o, 0x0, 0x0, 0x0, 0x0, 0x0⟩,
   ⟨0x201010, 0, 1, 64, .a, 0xffffffffffffffff, 0x0, 0x0, 0x0, 0x0⟩,
   ⟨0x201018, 0, 1, 32, .a, 0x1, 0x0, 0x0, 0x2, 0x0⟩,
   ⟨0x201100, 4, 16, 32, .k, 0xffff, 0x0, 0x0, 0x0, 0x0⟩,
   ⟨0x300000, 4, 16, 32, .k, 0xffff, 0x0, 0x0, 0x0, 0x0⟩,
   ⟨0x300040, 4, 16, 32, .o, 0x0, 0x0, 0x0, 0x0, 0x0⟩,
   ⟨0x300084, 4, 15, 32, .k, 0xffff007f, 0x0, 0x0, 0x0, 0x0⟩,
   ⟨0x300100, 8, 16, 32, .a, 0x0, 0x0, 0x1, 0x0, 0x0⟩,
   ⟨0x300200, 8, 16, 64, .a, 0xffffffffffffffff, 0x0, 0x0, 0x0, 0xffffffffffffffff⟩,
   ⟨0x300300, 16, 16, 64, .o, 0x0, 0x0, 0x0, 0x0, 0x0⟩,
   ⟨0x300308, 16, 16, 64, .o, 0x0, 0x0, 0x0, 0x0, 0x0⟩,
   ⟨0x400000, 64, 16, 64, .a, 0xffffffff0003, 0x0, 0x0, 0x0, 0x0⟩,
   ⟨0x400008, 64, 16, 64, .o, 0x0, 0x0, 0x0, 0x0, 0x0⟩,
   ⟨0x400010, 64, 16, 64, .o, 0x0, 0x0, 0x0, 0x0, 0x0⟩]

def regRowsSa1 : List RegRow :=
  [⟨0x400018, 64, 16, 64, .o, 0x0, 0x0, 0x0, 0x0, 0x0⟩,
   ⟨0x400020, 64, 16, 64, .o, 0x0, 0x0, 0x0, 0x0, 0x0⟩,
   ⟨0x400028, 64, 16, 64, .o, 0x0, 0x0, 0x0, 0x0, 0x0⟩,
   ⟨0x401000, 0, 1, 64, .o, 0x0, 0x0, 0x0, 0x0, 0x0⟩,
   ⟨0x401008, 8, 4, 64, .o, 0x0, 0x0, 0x0, 0x0, 0x0⟩,
   ⟨0x500000, 0, 1, 32, .o, 0x0, 0x0, 0x0, 0x0, 0x0⟩,
   ⟨0x500004, 0, 1, 32, .o, 0x0, 0x0, 0x0, 0x0, 0x0⟩,
   ⟨0x500008, 0, 1, 64, .o, 0x0, 0x0, 0x0, 0x0, 0x0⟩,
   ⟨0x500010, 0, 1, 32, .a, 0x2, 0x0, 0x0, 0x1, 0x2⟩,
   ⟨0x500020, 0, 1, 32, .a, 0xf3, 0x0, 0x0, 0x4, 0x0⟩,
   ⟨0x500100, 8, 16, 32, .a, 0x1, 0x0, 0x0, 0x0, 0x1⟩,
   ⟨0x500200, 8, 16, 64, .o, 0x0, 0x0, 0x0, 0x0, 0x0⟩,
   ⟨0x600000, 0, 1, 32, .a, 0x3, 0x0, 0x0, 0x0, 0x3⟩,
   ⟨0x600004, 0, 1, 32, .a, 0x7, 0x0, 0x0, 0x0, 0x0⟩,
   ⟨0x600008, 0, 1, 32, .s, 0x7, 0x0, 0x0, 0x0, 0x0⟩,
   ⟨0x60000c, 0, 1, 32, .a, 0x3, 0x0, 0x0, 0x0, 0x2⟩,
   ⟨0x600010, 0, 1, 32, .o, 0x0, 0x0, 0x0, 0x0, 0x0⟩,
   ⟨0x600018, 0, 1, 64, .a, 0xffffffffffffffff, 0x0, 0x0, 0x0, 0x0⟩,
   ⟨0x600020, 0, 1, 64, .o, 0x0, 0x0, 0x0, 0x0, 0x0⟩,
   ⟨0x600028, 0, 1, 64, .o, 0x0, 0x0, 0x0, 0x0, 0x0⟩,
   ⟨0x600030, 0, 1, 32, .a, 0x3ff7, 0x0, 0x0, 0x8, 0x0⟩,
   ⟨0x600034, 0, 1, 32, .o, 0x0, 0x0, 0x0, 0x0, 0x0⟩,
   ⟨0x700000, 0, 1, 32, .a, 0x8, 0x2, 0x0, 0x1, 0x0⟩,
   ⟨0x700008, 0, 1, 32, .o, 0x0, 0x0, 0x0, 0x0, 0x0⟩]

def regRowsSa2 : List RegRow :=
  [⟨0x700100, 8, 32, 64, .o, 0x0, 0x0, 0x0, 0x0, 0x0⟩,
   ⟨0x800000, 0, 1, 32, .a, 0xffff0018, 0x0, 0x0, 0x7, 0x0⟩,
   ⟨0x800008, 0, 1, 64, .o, 0x0, 0x0, 0x0, 0x0, 0x0⟩,
   ⟨0x800010, 0, 1, 64, .a, 0xffffffffffffffff, 0x0, 0x0, 0x0, 0x0⟩,
   ⟨0x800018, 0, 1, 64, .a, 0x1ffffffffffff, 0x0, 0x0, 0x0, 0x0⟩,
   ⟨0x800020, 0, 1, 64, .a, 0xffffffffffffffff, 0x0, 0x0, 0x0, 0x0⟩,
   ⟨0x800040, 8, 6, 64, .o, 0x0, 0x0, 0x0, 0x0, 0x0⟩,
   ⟨0x800080, 8, 4, 64, .o, 0x0, 0x0, 0x0, 0x0, 0x0⟩,
   ⟨0x800100, 8, 12, 64, .a, 0xffffffffffffffff, 0x0, 0x0, 0x0, 0x0⟩,
   ⟨0x800180, 8, 12, 64, .a, 0xffffffffffffffff, 0x0, 0x0, 0x0, 0x0⟩,
   ⟨0x800200, 16, 4, 64, .o, 0x0, 0x0, 0x0, 0x0, 0x0⟩,
   ⟨0x800208, 16, 4, 64, .o, 0x0, 0x0, 0x0, 0x0, 0x0⟩,
   ⟨0x810000, 0, 1, 32, .k, 0xf, 0x0, 0x0, 0x0, 0x0⟩,
   ⟨0x810008, 0, 1, 32, .o, 0x0, 0x0, 0x0, 0x0, 0x0⟩,
   ⟨0x810010, 0, 1, 32, .k, 0xffffffff, 0x0, 0x0, 0x0, 0x0⟩,
   ⟨0x810100, 8, 16, 64, .k, 0xffffffffffffffff, 0x0, 0x0, 0x0, 0x0⟩,
   ⟨0x810200, 0, 1, 32, .a, 0x1, 0x0, 0x0, 0x6, 0x0⟩,
   ⟨0x810208, 0, 1, 32, .a, 0x7fffff, 0x0, 0x0, 0x0, 0x0⟩,
   ⟨0x810210, 0, 1, 64, .a, 0x0, 0x0, 0x0, 0xffffffffffffffff, 0x0⟩,
   ⟨0x810218, 0, 1, 32, .k, 0x3, 0x0, 0x0, 0x0, 0x0⟩,
   ⟨0x810220, 0, 1, 64, .o, 0x0, 0x0, 0x0, 0x0, 0x0⟩,
   ⟨0x810300, 8, 12, 64, .k, 0xffffffffffffffff, 0x0, 0x0, 0x0, 0x0⟩,
   ⟨0x810380, 8, 12, 64, .k, 0xffffffffffffffff, 0x0, 0x0, 0x0, 0x0⟩,
   ⟨0x810400, 0, 1, 32, .o, 0x0, 0x0, 0x0, 0x0, 0x0⟩]

def regRowsSa3 : List RegRow :=
  [⟨0x810500, 8, 12, 64, .o, 0x0, 0x0, 0x0, 0x0, 0x0⟩,
   ⟨0x810600, 0, 1, 32, .a, 0x3fff, 0x0, 0x0, 0x0, 0x0⟩,
   ⟨0x810608, 0, 1, 64, .o, 0x0, 0x0, 0x0, 0x0, 0x0⟩,
   ⟨0x900000, 0, 1, 64, .a, 0xffffffffffffffff, 0x0, 0x0, 0x0, 0x0⟩,
   ⟨0x900008, 0, 1, 32, .a, 0x0, 0x0, 0x0, 0x1, 0x0⟩,
   ⟨0x900010, 0, 1, 64, .o, 0x0, 0x0, 0x0, 0x0, 0x0⟩,
   ⟨0x900018, 0, 1, 64, .o, 0x0, 0x0, 0x0, 0x0, 0x0⟩,
   ⟨0x900110, 16, 14, 64, .o, 0x0, 0x0, 0x0, 0x0, 0x0⟩,
   ⟨0x900118, 16, 14, 64, .o, 0x0, 0x0, 0x0, 0x0, 0x0⟩,
   ⟨0x910000, 0, 1, 32, .d, 0xf6, 0x0, 0x0, 0x1, 0x0⟩,
   ⟨0x910008, 0, 1, 64, .d, 0xffffffffffffffff, 0x0, 0x0, 0x0, 0x0⟩,
   ⟨0x910010, 0, 1, 64, .d, 0x0, 0x0, 0x0, 0x0, 0x0⟩,
   ⟨0x910018, 0, 1, 64, .d, 0x0, 0x0, 0x0, 0x0, 0x0⟩,
   ⟨0x920000, 0, 1, 32, .a, 0x2, 0x0, 0x0, 0x5, 0x2⟩,
   ⟨0x920008, 0, 1, 64, .o, 0x0, 0x0, 0x0, 0x0, 0x0⟩,
   ⟨0x920010, 0, 1, 32, .a, 0xffff, 0x0, 0x0, 0x0, 0x0⟩,
   ⟨0x920018, 0, 1, 64, .o, 0x0, 0x0, 0x0, 0x0, 0x0⟩,
   ⟨0xa00000, 0, 1, 32, .x, 0xffffffff, 0x0, 0x0, 0x0, 0x0⟩,
   ⟨0xa00008, 0, 1, 32, .o, 0x0, 0x0, 0x0, 0x0, 0x0⟩,
   ⟨0x20, 0, 1, 64, .o, 0x0, 0x0, 0x0, 0x0, 0x0⟩,
   ⟨0x28, 0, 1, 32, .o, 0x0, 0x0, 0x0, 0x0, 0x0⟩,
   ⟨0x30, 0, 1, 64, .a, 0x0, 0x8000000000000000, 0x0, 0x0, 0x0⟩,
   ⟨0x38, 0, 1, 32, .o, 0x0, 0x0, 0x0, 0x0, 0x0⟩,
   ⟨0x201200, 0, 1, 32, .o, 0x0, 0x0, 0x0, 0x0, 0x0⟩]

def regRowsSa4 : List RegRow :=
  [⟨0x201204, 0, 1, 32, .a, 0x7ff, 0x0, 0x0, 0x0, 0x300⟩,
   ⟨0x201208, 0, 1, 32, .o, 0x0, 0x0, 0x0, 0x0, 0x0⟩]

/-- Window of SA (R587). -/
def regRowsSa : List RegRow := regRowsSa0 ++ regRowsSa1 ++ regRowsSa2 ++ regRowsSa3 ++ regRowsSa4

def regRowsSb0 : List RegRow :=
  [⟨0x1000, 0, 1, 32, .a, 0xfff, 0x0, 0x0, 0x1000, 0x0⟩,
   ⟨0x1004, 0, 1, 32, .o, 0x0, 0x0, 0x0, 0x0, 0x3f00⟩,
   ⟨0x1008, 0, 1, 32, .o, 0x0, 0x0, 0x0, 0x0, 0x0⟩,
   ⟨0x1010, 0, 1, 64, .o, 0x0, 0x0, 0x0, 0x0, 0x0⟩,
   ⟨0x1018, 0, 1, 64, .f, 0xffffffffffff, 0x0, 0x0, 0x0, 0x10000000000⟩,
   ⟨0x1020, 0, 1, 64, .f, 0x0, 0x0, 0x0, 0xffffffffffffffff, 0x0⟩,
   ⟨0x1030, 0, 1, 64, .o, 0x0, 0x0, 0x0, 0x0, 0x0⟩,
   ⟨0x1038, 0, 1, 64, .o, 0x0, 0x0, 0x0, 0x0, 0x0⟩,
   ⟨0x1040, 0, 1, 64, .f, 0xffffffffffff, 0x0, 0x0, 0x0, 0x51eb851eb8⟩,
   ⟨0x1048, 0, 1, 64, .a, 0xffffffffffffffff, 0x0, 0x0, 0x0, 0x0⟩,
   ⟨0x1050, 0, 1, 64, .a, 0x4000ffffffffffff, 0x0, 0x0, 0x8000000000000000, 0x0⟩,
   ⟨0x1060, 0, 1, 64, .o, 0x0, 0x0, 0x0, 0x0, 0x0⟩,
   ⟨0x1068, 0, 1, 64, .o, 0x0, 0x0, 0x0, 0x0, 0x0⟩,
   ⟨0x1070, 0, 1, 32, .o, 0x0, 0x0, 0x0, 0x0, 0x0⟩,
   ⟨0x1078, 0, 1, 32, .o, 0x0, 0x0, 0x0, 0x0, 0x0⟩,
   ⟨0x1080, 0, 1, 64, .s, 0x0, 0x0, 0x0, 0x0, 0x0⟩,
   ⟨0x3000, 0, 1, 32, .f, 0xffffffff, 0x0, 0x0, 0x0, 0x0⟩,
   ⟨0x3004, 0, 1, 32, .f, 0xffff0000, 0x0, 0x0, 0x0, 0xc80000⟩,
   ⟨0x4000, 0, 1, 32, .o, 0x0, 0x0, 0x0, 0x0, 0x6f⟩,
   ⟨0x4004, 0, 1, 32, .a, 0xffff, 0x0, 0x0, 0x0, 0xbb8⟩,
   ⟨0x4008, 0, 1, 32, .o, 0x0, 0x0, 0x0, 0x0, 0x0⟩,
   ⟨0x400c, 0, 1, 32, .f, 0xffff, 0x0, 0x0, 0x0, 0xa0a⟩,
   ⟨0x4010, 0, 1, 32, .o, 0x0, 0x0, 0x0, 0x0, 0x0⟩,
   ⟨0x4020, 4, 4, 32, .o, 0x0, 0x0, 0x0, 0x0, 0x0⟩]

def regRowsSb1 : List RegRow :=
  [⟨0x4100, 4, 32, 32, .o, 0x0, 0x0, 0x0, 0x0, 0x0⟩,
   ⟨0x5000, 4, 6, 32, .f, 0xffffff, 0x0, 0x0, 0x0, 0x0⟩,
   ⟨0x5020, 4, 32, 32, .o, 0x0, 0x0, 0x0, 0x0, 0x0⟩,
   ⟨0x5100, 8, 32, 64, .o, 0x0, 0x0, 0x0, 0x0, 0x0⟩]

/-- Window of SB (R588), after its common block. -/
def regRowsSb : List RegRow := regRowsSb0 ++ regRowsSb1

def regRowsC0 : List RegRow :=
  [⟨0x100, 4, 24, 32, .a, 0xf0, 0x0, 0x0, 0x0, 0x0⟩,
   ⟨0x40, 0, 1, 64, .o, 0x0, 0x0, 0x0, 0x0, 0x0⟩,
   ⟨0x48, 0, 1, 64, .o, 0x0, 0x0, 0x0, 0x0, 0x0⟩,
   ⟨0x50, 0, 1, 64, .o, 0x0, 0x0, 0x0, 0x0, 0x0⟩,
   ⟨0x58, 0, 1, 64, .o, 0x0, 0x0, 0x0, 0x0, 0x0⟩,
   ⟨0x200, 0, 1, 32, .k, 0x7, 0x0, 0x0, 0x0, 0x0⟩,
   ⟨0x220, 4, 4, 32, .a, 0xffff, 0x0, 0x0, 0x0, 0x40⟩,
   ⟨0x240, 8, 4, 64, .o, 0x0, 0x0, 0x0, 0x0, 0x0⟩,
   ⟨0x300, 4, 16, 32, .k, 0x8000000f, 0x0, 0x0, 0x0, 0x0⟩,
   ⟨0x4000, 4, 192, 32, .o, 0x0, 0x0, 0x0, 0x0, 0x0⟩,
   ⟨0x4400, 4, 192, 32, .a, 0x0, 0xffff, 0x0, 0x0, 0x0⟩,
   ⟨0x500, 0, 1, 32, .o, 0x0, 0x0, 0x0, 0x0, 0x0⟩,
   ⟨0x504, 0, 1, 32, .a, 0x7ff, 0x0, 0x0, 0x0, 0x300⟩,
   ⟨0x508, 0, 1, 32, .o, 0x0, 0x0, 0x0, 0x0, 0x0⟩,
   ⟨0x600, 0, 1, 32, .f, 0xff, 0x0, 0x0, 0x0, 0x20⟩,
   ⟨0x604, 0, 1, 32, .o, 0x0, 0x0, 0x0, 0x0, 0x0⟩,
   ⟨0x608, 0, 1, 32, .o, 0x0, 0x0, 0x0, 0x0, 0x0⟩,
   ⟨0x8000, 32, 192, 64, .o, 0x0, 0x0, 0x0, 0x0, 0x0⟩,
   ⟨0x8008, 32, 192, 64, .o, 0x0, 0x0, 0x0, 0x0, 0x0⟩,
   ⟨0x8010, 32, 192, 64, .o, 0x0, 0x0, 0x0, 0x0, 0x0⟩,
   ⟨0x8018, 32, 192, 64, .o, 0x0, 0x0, 0x0, 0x0, 0x0⟩,
   ⟨0x9800, 0, 1, 32, .d, 0x1ef, 0x0, 0x0, 0x10, 0x0⟩,
   ⟨0x9808, 0, 1, 32, .d, 0xf3, 0x0, 0x0, 0x0, 0x0⟩,
   ⟨0x9810, 0, 1, 64, .d, 0xffffffffffff00ff, 0x0, 0x0, 0x0, 0x0⟩]

def regRowsC1 : List RegRow :=
  [⟨0x9818, 0, 1, 32, .d, 0xffffffff, 0x0, 0x0, 0x0, 0x0⟩,
   ⟨0x9820, 0, 1, 64, .d, 0xffffffffffff, 0x0, 0x0, 0x0, 0x0⟩,
   ⟨0x9828, 0, 1, 64, .d, 0xffffffffffff, 0x0, 0x0, 0x0, 0x0⟩,
   ⟨0x9830, 0, 1, 32, .d, 0x3ff, 0x0, 0x0, 0x0, 0x40⟩,
   ⟨0x9840, 0, 1, 64, .d, 0x0, 0x0, 0x0, 0x0, 0x0⟩,
   ⟨0x9848, 0, 1, 64, .d, 0x0, 0x0, 0x0, 0x0, 0x0⟩,
   ⟨0x9850, 0, 1, 64, .d, 0x0, 0x0, 0x0, 0x0, 0x0⟩,
   ⟨0x9858, 0, 1, 64, .d, 0x0, 0x0, 0x0, 0x0, 0x0⟩,
   ⟨0x9860, 8, 4, 64, .d, 0x0, 0x0, 0x0, 0x0, 0x0⟩,
   ⟨0x9880, 0, 1, 32, .d, 0xffffffff, 0x0, 0x0, 0x0, 0x0⟩,
   ⟨0x9888, 8, 4, 64, .d, 0x0, 0x0, 0x0, 0x0, 0x0⟩,
   ⟨0x98a8, 0, 1, 32, .d, 0x0, 0x0, 0x0, 0x0, 0x0⟩]

/-- Window of a C-die (R592), after its common block. -/
def regRowsC : List RegRow := regRowsC0 ++ regRowsC1

def regRowsJ0 : List RegRow :=
  [⟨0x100, 0, 1, 32, .o, 0x0, 0x0, 0x0, 0x0, 0x0⟩,
   ⟨0x108, 0, 1, 64, .o, 0x0, 0x0, 0x0, 0x0, 0x0⟩,
   ⟨0x110, 0, 1, 32, .o, 0x0, 0x0, 0x0, 0x0, 0x0⟩,
   ⟨0x118, 0, 1, 32, .o, 0x0, 0x0, 0x0, 0x0, 0x0⟩,
   ⟨0x120, 0, 1, 32, .o, 0x0, 0x0, 0x0, 0x0, 0x0⟩,
   ⟨0x208, 8, 31, 64, .o, 0x0, 0x0, 0x0, 0x0, 0x0⟩,
   ⟨0x400, 0, 1, 64, .o, 0x0, 0x0, 0x0, 0x0, 0x0⟩,
   ⟨0x408, 0, 1, 64, .o, 0x0, 0x0, 0x0, 0x0, 0x0⟩,
   ⟨0x410, 0, 1, 64, .o, 0x0, 0x0, 0x0, 0x0, 0x0⟩,
   ⟨0x418, 0, 1, 64, .o, 0x0, 0x0, 0x0, 0x0, 0x0⟩,
   ⟨0x500, 0, 1, 64, .d, 0xfffffffe0000001c, 0x0, 0x0, 0x0, 0x0⟩,
   ⟨0x508, 0, 1, 32, .d, 0x0, 0x0, 0x0, 0x0, 0x0⟩]

/-- Window of a J-die (R593), after its common block. -/
def regRowsJ : List RegRow := regRowsJ0

def regRowsL0 : List RegRow :=
  [⟨0x2000, 0, 1, 32, .f, 0xffffff, 0x0, 0x0, 0x0, 0x0⟩,
   ⟨0x2004, 0, 1, 32, .f, 0xffffff, 0x0, 0x0, 0x0, 0x0⟩,
   ⟨0x2008, 0, 1, 32, .o, 0x0, 0x0, 0x0, 0x0, 0x0⟩,
   ⟨0x200c, 0, 1, 32, .f, 0xffff, 0x0, 0x0, 0x0, 0x0⟩,
   ⟨0x2010, 0, 1, 32, .o, 0x0, 0x0, 0x0, 0x0, 0x0⟩,
   ⟨0x2014, 0, 1, 32, .o, 0x0, 0x0, 0x0, 0x0, 0x0⟩,
   ⟨0x2018, 0, 1, 32, .o, 0x0, 0x0, 0x0, 0x0, 0x0⟩,
   ⟨0x2020, 0, 1, 64, .o, 0x0, 0x0, 0x0, 0x0, 0x0⟩,
   ⟨0x3000, 0, 1, 32, .x, 0xfffc3ff, 0x0, 0x0, 0x0, 0x61a8000⟩,
   ⟨0x3004, 0, 1, 32, .o, 0x0, 0x0, 0x0, 0x0, 0x0⟩,
   ⟨0x3008, 0, 1, 32, .o, 0x0, 0x0, 0x0, 0x0, 0x0⟩,
   ⟨0x3010, 0, 1, 32, .o, 0x0, 0x0, 0x0, 0x0, 0x0⟩,
   ⟨0x3014, 0, 1, 32, .o, 0x0, 0x0, 0x0, 0x0, 0x0⟩,
   ⟨0x3018, 0, 1, 32, .o, 0x0, 0x0, 0x0, 0x0, 0x0⟩,
   ⟨0x301c, 0, 1, 32, .o, 0x0, 0x0, 0x0, 0x0, 0x0⟩,
   ⟨0x3020, 0, 1, 32, .o, 0x0, 0x0, 0x0, 0x0, 0x0⟩,
   ⟨0x3024, 0, 1, 32, .o, 0x0, 0x0, 0x0, 0x0, 0x0⟩,
   ⟨0x3028, 0, 1, 32, .o, 0x0, 0x0, 0x0, 0x0, 0x0⟩,
   ⟨0x302c, 0, 1, 32, .o, 0x0, 0x0, 0x0, 0x0, 0x0⟩,
   ⟨0x8000, 4, 1024, 32, .k, 0x1f1f1f1f, 0x0, 0x0, 0x0, 0x0⟩,
   ⟨0x9000, 4, 1024, 32, .k, 0x1f1f1f1f, 0x0, 0x0, 0x0, 0x0⟩,
   ⟨0x3100, 0, 1, 32, .o, 0x0, 0x0, 0x0, 0x0, 0x0⟩,
   ⟨0x3108, 0, 1, 64, .o, 0x0, 0x0, 0x0, 0x0, 0x0⟩,
   ⟨0x3110, 0, 1, 32, .o, 0x0, 0x0, 0x0, 0x0, 0x0⟩]

def regRowsL1 : List RegRow :=
  [⟨0x3118, 0, 1, 32, .o, 0x0, 0x0, 0x0, 0x0, 0x0⟩,
   ⟨0x3120, 0, 1, 32, .o, 0x0, 0x0, 0x0, 0x0, 0x0⟩,
   ⟨0x3124, 0, 1, 32, .o, 0x0, 0x0, 0x0, 0x0, 0x0⟩,
   ⟨0x3208, 8, 31, 64, .o, 0x0, 0x0, 0x0, 0x0, 0x0⟩,
   ⟨0x3400, 0, 1, 64, .o, 0x0, 0x0, 0x0, 0x0, 0x0⟩,
   ⟨0x3408, 0, 1, 32, .o, 0x0, 0x0, 0x0, 0x0, 0x0⟩,
   ⟨0x340c, 0, 1, 32, .o, 0x0, 0x0, 0x0, 0x0, 0x0⟩,
   ⟨0x3410, 0, 1, 32, .o, 0x0, 0x0, 0x0, 0x0, 0x0⟩,
   ⟨0x3414, 0, 1, 32, .o, 0x0, 0x0, 0x0, 0x0, 0x0⟩,
   ⟨0x3484, 4, 16, 32, .a, 0x0, 0x1f, 0x0, 0x0, 0x0⟩,
   ⟨0x1000, 0, 1, 32, .a, 0xff18, 0x0, 0x0, 0x7, 0x1010⟩,
   ⟨0x1004, 0, 1, 32, .o, 0x0, 0x0, 0x0, 0x0, 0x0⟩,
   ⟨0x1008, 0, 1, 32, .a, 0xffffffff, 0x0, 0x0, 0x0, 0x2faf08⟩,
   ⟨0x100c, 0, 1, 32, .o, 0x0, 0x0, 0x0, 0x0, 0x0⟩,
   ⟨0x1010, 0, 1, 32, .a, 0x8007ffff, 0x0, 0x0, 0x0, 0x0⟩,
   ⟨0x1014, 0, 1, 32, .f, 0xffffffff, 0x0, 0x0, 0x0, 0x0⟩,
   ⟨0x1018, 0, 1, 32, .a, 0xffff, 0x0, 0x0, 0x0, 0x2⟩,
   ⟨0x1020, 4, 12, 32, .o, 0x0, 0x0, 0x0, 0x0, 0x0⟩,
   ⟨0x1050, 0, 1, 64, .o, 0x0, 0x0, 0x0, 0x0, 0xffffffff⟩,
   ⟨0x1058, 0, 1, 64, .o, 0x0, 0x0, 0x0, 0x0, 0x0⟩,
   ⟨0x1060, 0, 1, 64, .o, 0x0, 0x0, 0x0, 0x0, 0xffffffff⟩,
   ⟨0x1068, 0, 1, 64, .o, 0x0, 0x0, 0x0, 0x0, 0x0⟩,
   ⟨0x1070, 0, 1, 32, .o, 0x0, 0x0, 0x0, 0x0, 0x20000000⟩,
   ⟨0x1080, 0, 1, 64, .o, 0x0, 0x0, 0x0, 0x0, 0x0⟩]

def regRowsL2 : List RegRow :=
  [⟨0x1088, 0, 1, 32, .o, 0x0, 0x0, 0x0, 0x0, 0x0⟩,
   ⟨0x108c, 0, 1, 32, .o, 0x0, 0x0, 0x0, 0x0, 0x0⟩,
   ⟨0x1090, 0, 1, 32, .o, 0x0, 0x0, 0x0, 0x0, 0x0⟩,
   ⟨0x1094, 0, 1, 32, .o, 0x0, 0x0, 0x0, 0x0, 0x0⟩,
   ⟨0x1098, 0, 1, 32, .o, 0x0, 0x0, 0x0, 0x0, 0x0⟩,
   ⟨0x109c, 0, 1, 32, .o, 0x0, 0x0, 0x0, 0x0, 0x0⟩,
   ⟨0x10a0, 0, 1, 32, .o, 0x0, 0x0, 0x0, 0x0, 0x0⟩,
   ⟨0x10a4, 0, 1, 32, .o, 0x0, 0x0, 0x0, 0x0, 0x0⟩,
   ⟨0x10a8, 0, 1, 32, .o, 0x0, 0x0, 0x0, 0x0, 0x0⟩,
   ⟨0x10ac, 0, 1, 32, .o, 0x0, 0x0, 0x0, 0x0, 0x0⟩,
   ⟨0x10b0, 0, 1, 32, .o, 0x0, 0x0, 0x0, 0x0, 0x0⟩,
   ⟨0x1100, 4, 34, 32, .o, 0x0, 0x0, 0x0, 0x0, 0x0⟩,
   ⟨0x1200, 0, 1, 64, .o, 0x0, 0x0, 0x0, 0x0, 0x0⟩,
   ⟨0x1208, 0, 1, 32, .o, 0x0, 0x0, 0x0, 0x0, 0x0⟩,
   ⟨0x120c, 0, 1, 32, .o, 0x0, 0x0, 0x0, 0x0, 0x0⟩,
   ⟨0x1210, 0, 1, 32, .o, 0x0, 0x0, 0x0, 0x0, 0x0⟩,
   ⟨0x1214, 0, 1, 32, .o, 0x0, 0x0, 0x0, 0x0, 0x0⟩,
   ⟨0x1218, 0, 1, 32, .o, 0x0, 0x0, 0x0, 0x0, 0x0⟩,
   ⟨0x5000, 0, 1, 32, .o, 0x0, 0x0, 0x0, 0x0, 0x6⟩,
   ⟨0x5004, 0, 1, 32, .o, 0x0, 0x0, 0x0, 0x0, 0x0⟩,
   ⟨0x5010, 4, 4, 32, .o, 0x0, 0x0, 0x0, 0x0, 0x0⟩,
   ⟨0x5040, 0, 1, 32, .o, 0x0, 0x0, 0x0, 0x0, 0x0⟩,
   ⟨0x5044, 0, 1, 32, .o, 0x0, 0x0, 0x0, 0x0, 0x0⟩,
   ⟨0x5048, 0, 1, 32, .o, 0x0, 0x0, 0x0, 0x0, 0x0⟩]

def regRowsL3 : List RegRow :=
  [⟨0x504c, 0, 1, 32, .o, 0x0, 0x0, 0x0, 0x0, 0x0⟩,
   ⟨0x5050, 0, 1, 32, .o, 0x0, 0x0, 0x0, 0x0, 0x0⟩,
   ⟨0x5054, 0, 1, 32, .o, 0x0, 0x0, 0x0, 0x0, 0x0⟩,
   ⟨0x5058, 0, 1, 32, .o, 0x0, 0x0, 0x0, 0x0, 0x0⟩,
   ⟨0x505c, 0, 1, 32, .o, 0x0, 0x0, 0x0, 0x0, 0x0⟩,
   ⟨0x5060, 0, 1, 32, .o, 0x0, 0x0, 0x0, 0x0, 0x0⟩,
   ⟨0x5064, 0, 1, 32, .o, 0x0, 0x0, 0x0, 0x0, 0x0⟩,
   ⟨0x5068, 0, 1, 32, .a, 0xffffffff, 0x0, 0x0, 0x0, 0x17d784⟩,
   ⟨0x6000, 16, 4, 64, .o, 0x0, 0x0, 0x0, 0x0, 0x0⟩,
   ⟨0x6008, 16, 4, 64, .o, 0x0, 0x0, 0x0, 0x0, 0x0⟩,
   ⟨0x6040, 16, 4, 64, .o, 0x0, 0x0, 0x0, 0x0, 0x0⟩,
   ⟨0x6048, 16, 4, 64, .o, 0x0, 0x0, 0x0, 0x0, 0x0⟩,
   ⟨0x6100, 0, 1, 64, .d, 0xfffffffe0000001f, 0x0, 0x0, 0x0, 0x0⟩,
   ⟨0x6108, 0, 1, 32, .d, 0x0, 0x0, 0x0, 0x0, 0x0⟩]

/-- Window of an L-die (R594), after its common block. -/
def regRowsL : List RegRow := regRowsL0 ++ regRowsL1 ++ regRowsL2 ++ regRowsL3

def regRowsM0 : List RegRow :=
  [⟨0x100, 0, 1, 32, .o, 0x0, 0x0, 0x0, 0x0, 0x0⟩,
   ⟨0x108, 0, 1, 64, .o, 0x0, 0x0, 0x0, 0x0, 0x0⟩,
   ⟨0x110, 0, 1, 32, .o, 0x0, 0x0, 0x0, 0x0, 0x0⟩,
   ⟨0x118, 0, 1, 32, .o, 0x0, 0x0, 0x0, 0x0, 0x0⟩,
   ⟨0x120, 0, 1, 32, .o, 0x0, 0x0, 0x0, 0x0, 0x0⟩,
   ⟨0x124, 0, 1, 32, .o, 0x0, 0x0, 0x0, 0x0, 0x0⟩,
   ⟨0x200, 64, 2, 32, .o, 0x0, 0x0, 0x0, 0x0, 0x0⟩,
   ⟨0x204, 64, 2, 32, .o, 0x0, 0x0, 0x0, 0x0, 0x0⟩,
   ⟨0x208, 64, 2, 32, .o, 0x0, 0x0, 0x0, 0x0, 0x0⟩,
   ⟨0x20c, 64, 2, 32, .o, 0x0, 0x0, 0x0, 0x0, 0x0⟩,
   ⟨0x210, 64, 2, 32, .o, 0x0, 0x0, 0x0, 0x0, 0x0⟩,
   ⟨0x300, 0, 1, 32, .a, 0x1ffff, 0x0, 0x0, 0x0, 0x10018⟩,
   ⟨0x304, 0, 1, 32, .a, 0xff, 0x0, 0x0, 0x0, 0x8⟩,
   ⟨0x310, 0, 1, 32, .o, 0x0, 0x0, 0x0, 0x0, 0x0⟩,
   ⟨0x408, 8, 16, 64, .o, 0x0, 0x0, 0x0, 0x0, 0x0⟩,
   ⟨0x1000, 0, 1, 32, .s, 0x3ffff, 0x0, 0x0, 0x0, 0x0⟩,
   ⟨0x1008, 0, 1, 64, .s, 0xffffffffffffffff, 0x0, 0x0, 0x0, 0x0⟩,
   ⟨0x500, 32, 2, 64, .o, 0x0, 0x0, 0x0, 0x0, 0x0⟩,
   ⟨0x508, 32, 2, 64, .o, 0x0, 0x0, 0x0, 0x0, 0x0⟩,
   ⟨0x510, 32, 2, 64, .o, 0x0, 0x0, 0x0, 0x0, 0x0⟩,
   ⟨0x518, 32, 2, 64, .o, 0x0, 0x0, 0x0, 0x0, 0x0⟩,
   ⟨0x540, 0, 1, 32, .d, 0x0, 0x0, 0x0, 0x0, 0x0⟩]

/-- Window of an M-die (R595), after its common block. -/
def regRowsM : List RegRow := regRowsM0

def regRowsCommon0 : List RegRow :=
  [⟨0x0, 0, 1, 32, .o, 0x0, 0x0, 0x0, 0x0, 0x0⟩,
   ⟨0x8, 0, 1, 32, .o, 0x0, 0x0, 0x0, 0x0, 0x0⟩,
   ⟨0x10, 0, 1, 64, .a, 0xffffffffffffffff, 0x0, 0x0, 0x0, 0x0⟩]

/-- Common die block (R589). -/
def regRowsCommon : List RegRow := regRowsCommon0

/-- A submission ring's page (R376). -/
def regRowsRing : List RegRow :=
  [⟨0x0, 0, 1, 64, .a, 0xffffffffffffffff, 0x0, 0x0, 0x0, 0x0⟩,
   ⟨0x8, 0, 1, 32, .a, 0xff7f, 0x0, 0x0, 0x0, 0x100⟩,
   ⟨0xc, 0, 1, 32, .a, 0x0, 0x0, 0x0, 0xffffffff, 0x0⟩,
   ⟨0x10, 0, 1, 32, .o, 0x0, 0x0, 0x0, 0x0, 0x0⟩,
   ⟨0x14, 0, 1, 32, .o, 0x0, 0x0, 0x0, 0x0, 0x0⟩,
   ⟨0x18, 0, 1, 64, .a, 0xffffffffffffffff, 0x0, 0x0, 0x0, 0x0⟩,
   ⟨0x20, 0, 1, 64, .a, 0xffffffffffffffff, 0x0, 0x0, 0x0, 0x0⟩,
   ⟨0x28, 0, 1, 32, .a, 0xffffff3f, 0x0, 0x0, 0x0, 0x10000⟩,
   ⟨0x2c, 0, 1, 32, .a, 0xffff, 0x0, 0x0, 0x0, 0x0⟩,
   ⟨0x30, 0, 1, 32, .o, 0x0, 0x0, 0x0, 0x0, 0x10000⟩]

/-- The notify ring's page (R376). -/
def regRowsNotify : List RegRow :=
  [⟨0x20, 0, 1, 64, .a, 0xffffffffffffffff, 0x0, 0x0, 0x0, 0x0⟩,
   ⟨0x28, 0, 1, 32, .a, 0xffffff3f, 0x0, 0x0, 0x0, 0x10000⟩,
   ⟨0x2c, 0, 1, 32, .a, 0xffff, 0x0, 0x0, 0x0, 0x0⟩,
   ⟨0x30, 0, 1, 32, .o, 0x0, 0x0, 0x0, 0x0, 0x10000⟩,
   ⟨0x34, 0, 1, 32, .o, 0x0, 0x0, 0x0, 0x0, 0x0⟩]

/-- The row that covers an offset, if any. -/
def findRow (off : Nat) : List RegRow → Option RegRow
  | [] => none
  | r :: rs =>
    if r.base ≤ off ∧ (if r.stride = 0 then off = r.base
        else (off - r.base) % r.stride = 0 ∧ (off - r.base) / r.stride < r.count) then some r
    else findRow off rs

/-- The layout of a window (R587 to R595); no window, no rows. -/
def windowRows (w : Nat) : List RegRow :=
  if w = 0 then regRowsSa
  else if w = 1 then regRowsCommon ++ regRowsSb
  else if 4 ≤ w ∧ w ≤ 7 then regRowsCommon ++ regRowsC
  else if 8 ≤ w ∧ w ≤ 11 then regRowsCommon ++ regRowsJ
  else if 16 ≤ w ∧ w ≤ 21 then regRowsCommon ++ regRowsL
  else if 32 ≤ w ∧ w ≤ 47 then regRowsCommon ++ regRowsM
  else []

/-- The row of a register file key. -/
def regRow (key : Nat) : Option RegRow :=
  if key < 0x40000000 then findRow (key % 0x1000000) (windowRows (key / 0x1000000))
  else
    let o := (key - 0x40000000) % 0x10000
    if o < 0x4000 then findRow (o % 0x1000) regRowsRing else findRow (o - 0x4000) regRowsNotify

/-- Die index of a window (R12, R39): SA 0, SB 1, C 2 to 5, J 6 to 9, L 10 to 15, M 16 to 31. -/
def dieOfWindow (w : Nat) : Nat :=
  if w ≤ 1 then w else if w ≤ 7 then w - 2 else if w ≤ 11 then w - 2 else if w ≤ 21 then w - 6 else w - 16

/-- KIND of `x.DIE_INFO` (R589): 1 SB, 2 C-die, 3 J-die, 4 L-die, 5 M-die. -/
def kindOfWindow (w : Nat) : Nat :=
  if w ≤ 1 then 1 else if w ≤ 7 then 2 else if w ≤ 11 then 3 else if w ≤ 21 then 4 else 5

/-- Reset value of a register file key: the spec's, where its tables give one.  Values the spec calls fused, stored or
derived are DESIGN CHOICE values (log 3): stepping B0, spare site 8 in every row, zero elsewhere. -/
def Reg.resetNat (key : Nat) : Nat :=
  if key < 0x40000000 then
    let w := key / 0x1000000
    let o := key % 0x1000000
    if w = 0 ∧ o = 0 then 0x4768B020
    else if w = 1 ∧ 0x5000 ≤ o ∧ o < 0x5018 ∧ o % 4 = 0 then
      -- R524: WARN, THROTTLE, TRIP of C-, M-, L-, J-, S-dies and stacks
      match (o - 0x5000) / 4 with
      | 0 => 0x73645F | 1 => 0x73645F | 2 => 0x6E645A | 3 => 0x73645F | 4 => 0x6E645A | _ => 0x695F55
    else if w = 1 ∧ 0x4100 ≤ o ∧ o < 0x4180 ∧ o % 4 = 0 then
      -- R507: DIE, RAIL and DELAY_US of entry e
      let e := (o - 0x4100) / 4
      let (die, us) := if e ≤ 1 then (e, 0) else if e ≤ 27 then (e + 4, 50) else (e - 26, 400)
      die + e * 256 + us * 65536
    else if 4 ≤ w ∧ w ≤ 7 ∧ 0x100 ≤ o ∧ o < 0x160 ∧ o % 4 = 0 then 0x88
    else if o = 0 ∧ 1 ≤ w then
      match regRow key with
      | none => 0
      | some _ => 0xB000 + kindOfWindow w * 32 + dieOfWindow w
    else match regRow key with
      | none => 0
      | some r => r.reset
  else match regRow key with
    | none => 0
    | some r => r.reset

/-- Reset value of a register as a 64-bit word. -/
def Reg.resetVal (key : Nat) : BitVec 64 := BitVec.ofNat 64 (Reg.resetNat key)

end Sys2Proof.Machine
end

