-- ==== Sys2Proof/Machine/SMap.lean ====
section
/-!
DEFINITION. Sparse maps in one canonical form: a list of (key, value) pairs, keys strictly rising, no pair equal to
what an unlisted key reads as.  Memory (keys are byte addresses, Host.Cell pairs), the register file and every array of
like units (tiles, tokens, ports, rings, partitions) are held in this form, so equal contents are equal data.
-/
namespace Sys2Proof.Machine

/-- A sparse map: what an unlisted key reads as is given by the default of the map's accessors. -/
abbrev SMap (α : Type) := List (Nat × α)

/-- Read key `k`; an unlisted key reads as `d k`. -/
def SMap.get (d : Nat → α) : SMap α → Nat → α
  | [], k => d k
  | p :: m, k => if p.1 = k then p.2 else SMap.get d m k

/-- The map without key `k`. -/
def SMap.erase : SMap α → Nat → SMap α
  | [], _ => []
  | p :: m, k => if p.1 = k then SMap.erase m k else p :: SMap.erase m k

/-- Insert a pair before the first greater key. -/
def SMap.insert : SMap α → Nat → α → SMap α
  | [], k, v => [(k, v)]
  | p :: m, k, v => if k < p.1 then (k, v) :: p :: m else p :: SMap.insert m k v

/-- Write key `k`; writing what an unlisted key reads as removes the pair. -/
def SMap.set [DecidableEq α] (d : Nat → α) (m : SMap α) (k : Nat) (v : α) : SMap α :=
  if v = d k then SMap.erase m k else SMap.insert (SMap.erase m k) k v

/-- Every key of the map is at least `b`. -/
def SMap.above (b : Nat) : SMap α → Bool
  | [] => true
  | p :: m => decide (b ≤ p.1) && SMap.above b m

/-- The canonical form. -/
def SMap.wf [DecidableEq α] (d : Nat → α) : SMap α → Bool
  | [] => true
  | p :: m => decide (p.2 ≠ d p.1) && SMap.above (p.1 + 1) m && SMap.wf d m

/-- Keep the pairs whose key satisfies `f`; every other key returns to its default. -/
def SMap.keep (f : Nat → Bool) : SMap α → SMap α
  | [] => []
  | p :: m => if f p.1 then p :: SMap.keep f m else SMap.keep f m

end Sys2Proof.Machine
end

