-- ==== Sys2Proof/Machine/State.lean ====
section
/-!
DEFINITION. The state of the module as plain data: the register file, the byte memory, and a typed record for every
unit whose state the spec names but gives no register for.  Ticks, indexes and counts are Nat; what the spec treats as
bits is a BitVec.  Every array of like units is a sparse map in canonical form.
-/
namespace Sys2Proof.Machine
open Sys2Proof

/-! ## Events (R460 to R465) -/

/-- How an event's report stops a partition once it is logged (R398, R469, R508): a fault, with propagation; a host STOP; ALLSTOP_CMD by
its scope; or a reset, which has stopped it already and whose ALL_STOP is recorded now. -/
inductive StopHow where
  | fault | host | part | job | fabric | done
deriving DecidableEq, Repr

/-- A stop that a report carries: its partition and the code that is its reason. -/
structure StopReq where
  part : Nat
  code : Nat
  how : StopHow := .fault
deriving DecidableEq, Repr

/-- A report on its way to the event arbiter (R460, R463). `part` 255: no partition. `every` 0: no interval (R465).
`stop`: the event's rule stops its partition (R104, R469); `stops`: what else it stops; `flags`: FLAGS beside STOPPED for these. -/
structure Report where
  code : Nat
  die : Nat
  part : Nat := 255
  items : List Nat := []
  stop : Bool := false
  unit : Nat := 0
  every : Nat := 0
  stops : List StopReq := []
  flags : Nat := 0
deriving DecidableEq, Repr

/-- Withholding of a code from one die and unit (R465). -/
structure Rate where
  code : Nat
  die : Nat
  unit : Nat
  last : Nat
  held : Nat
deriving DecidableEq, Repr

/-- Per die: its event queue, its drop count and the stops that dropped reports carry (R460), its missed polls (R474), whether its core
clock root is stopped by a compute reset (R72), whether it is powered, whether its isolation is released (R502), the tick at which its
ready chain came to its present step (R506) and whether its ring oscillators have been read since cold reset (R520). A powered die's FTC replica equals SB's count (R46), so SB.FTC is its one
home; FRAME_START carries the replicas found to differ. -/
structure Die where
  queue : List Report := []
  dropped : Nat := 0
  stops : List StopReq := []
  missed : Nat := 0
  stopped : Bool := false
  powered : Bool := false
  released : Bool := false
  stepAt : Nat := 0
  ringRead : Bool := false
deriving DecidableEq, Repr

/-! ## Time (R45 to R77) -/

/-- A frame of the management port (R67, R68): its bytes without the frame check sequence, that sequence, and the WTB at its first
symbol: seconds, and nanoseconds over 16 bits of fraction. -/
structure PtpFrame where
  bytes : List Byte
  fcs : BitVec 32
  sec : W64
  ns : W64
deriving DecidableEq, Repr

/-- SB's time state beside its registers: the fraction bits of the WTB below WTB_NS (R65), the latches of R47 and R75,
an accepted step (R49), an armed load (R66), whether this tick the WTB nanoseconds passed through 0, the 1PPS output (R69) and input
(R70), the two-step stamp queue and the frames received (R67, R68), the servo's run of good exchanges and of missing newts (R51),
the tick since cold reset at which a step last acted (R56) and the sum of all steps (R49), the increments of the last 1 ms (R61), the frequency the servo has trimmed to and the
tick at which its slew ends (R57, R58). -/
structure Time where
  wtbFrac : BitVec 40 := 0
  wtbNs : BitVec 32 := 0
  nsLatch : Option W64 := none
  ftcHigh : Option W32 := none
  step : Option W64 := none
  load : Bool := false
  ppsDue : Bool := false
  ppsOut : Bool := false
  ppsRise : Nat := 0
  ppsLast : Option Nat := none
  stamps : List W64 := []
  goodRun : Nat := 0
  missRun : Nat := 0
  stepTick : Option Nat := none
  stepped : W64 := 0
  incrs : List (Int × Nat) := []
  acqStepped : Bool := false
  trim : Nat := 0x10000000000
  slewEnd : Option Nat := none
  ptpRx : List PtpFrame := []
  frameSec : W64 := 0
  frameNs : BitVec 32 := 0
deriving DecidableEq, Repr

/-- A port's time transfer (R53 to R60): stamps are 80 bits, 64 of ticks over 16 of fraction; a sent newt is held with the tick since
cold reset at which it left. -/
structure PortTime where
  seq : BitVec 16 := 0
  sent : List (BitVec 16 × BitVec 80 × Nat) := []
  rx : Option (BitVec 16 × BitVec 80 × BitVec 80) := none
  nbState : Nat := 0
  nbRoot : Bool := false
  nbHops : Nat := 255
  nbUp : BitVec 16 := 0x8000
  rxAt : Option Nat := none
  missAt : Option Nat := none
  skewLog : Option Nat := none
deriving DecidableEq, Repr

/-! ## Tiles (R78 to R104), the local lines and tokens -/

/-- A long accumulator: 160 bits and its flags (R127). -/
structure Lacc where
  val : BitVec 160 := 0
  ovf : Bool := false
  unf : Bool := false
  nan : Bool := false
deriving DecidableEq, Repr

/-- A queued line send (R87, R90): its line cycle, destination, address, token and the data read at issue. -/
structure LineSend where
  cycle : Nat
  dst : Nat
  addr : Nat
  token : Option Nat
  data : Payload
deriving DecidableEq, Repr

/-- A line cell (R86 to R88): the row and site of the stop that holds it, the LCT at which it came there, and the LCT of its
delivery cycle. -/
structure LineCell where
  src : Nat
  dst : Nat
  row : Nat
  site : Nat
  at_ : Int
  due : Int
  addr : Nat
  token : Option Nat
  data : Payload
deriving DecidableEq, Repr

/-- A wait in progress (R99, R102). `deadline` is the FTC of its timeout; `met` the LCT and the FTC at which the token's
comparison held; `outside` a token outside the partition, which reads as 0 (R173). -/
structure Wait where
  token : Option Nat := none
  thresh : Nat := 0
  ftc : Option Nat := none
  deadline : Option Nat := none
  met : Option (Nat × Nat) := none
  outside : Bool := false
deriving DecidableEq, Repr

/-- A matrix instruction in the matrix engine (R122, R167, R170): its accumulator, the LCT at which its occupancy ends, the
flags it raises, its result, and whether a residue of its block sums did not match (R121). -/
structure MmaRun where
  acc : Nat
  done : Nat
  flags : Nat
  result : BitVec 294912
  bad : Bool := false
deriving DecidableEq, Repr

/-- A logical tile. `state`: 0 IDLE, 1 RUN, 2 WAIT_TOKEN, 3 WAIT_FTC, 4 SLEEP, 5 STOPPED, 6 FAULT (R105). `fetchAt`: the
LCT of the last fetch; `extUsed` cells have moved through the external port in the external cycle of LCT `extAt` (R83). -/
structure Tile where
  sregs : SMap W64 := []
  preds : BitVec 8 := 1
  vregs : SMap Vec := []
  laccs : SMap Lacc := []
  accs : SMap (BitVec 294912) := []
  sendQ : List LineSend := []
  eject : List LineCell := []
  pc : Nat := 0
  state : Nat := 0
  pmode : Nat := 0
  fpCtrl : W32 := 0
  fpFlags : W32 := 0
  seed : W64 := 0
  bank : Bool := false
  progLen : Nat := 0
  stbyLen : Nat := 0
  wait : Option Wait := none
  mma : List MmaRun := []
  fetched : Option W64 := none
  fetchAt : Option Nat := none
  absent : SMap Nat := []
  extAt : Nat := 0
  extUsed : Nat := 0
  retired : Nat := 0
  fault : Nat := 0
  stoppedAt : Nat := 0
deriving DecidableEq, Repr

/-- A token (R94 to R97). -/
structure Token where
  val : W32 := 0
  sat : Bool := false
  logged : Bool := false
deriving DecidableEq, Repr

/-- A write of `len` bytes of tile SRAM or HBM at `at_` by writer `who` (R42). -/
structure Wrote where
  at_ : Nat
  len : Nat
  who : Nat
deriving DecidableEq, Repr

/-- A token update on its way to its C-die (R96). -/
structure TokOp where
  token : Nat
  set : Bool
  amount : W32
  /-- The C-die it comes from; 4 for another die. -/
  src : Nat := 4
deriving DecidableEq, Repr

/-! ## Timetable, junction and stream programs (R216 to R254, R350 to R360) -/

/-- An entry a walker has dispatched (R224): its bits (256 for a stream), its tick, the iteration counters and the
bank it came from. `stage` counts the acts already done; `after`: the POINT it was read beyond (R225). -/
structure Disp where
  owner : Nat
  idx : Nat
  entry : BitVec 256
  tick : Nat
  iters : List Nat
  bank : Bool
  stage : Nat := 0
  done : Nat := 0
  after : Option Nat := none
deriving DecidableEq, Repr

/-- A walker (R221). `state`: 0 idle, 1 running, 2 parked, 3 stopped. The entry index counts from its program's base. `points`: ticks of POINTs read and not yet passed. -/
structure Walker where
  state : Nat := 0
  idx : Nat := 0
  base : Nat := 0
  loops : List (Nat × Nat) := []
  iters : List Nat := [0, 0, 0, 0]
  parkAt : Option Nat := none
  points : List Nat := []
  readAt : Option Nat := none
  start : Nat := 0
  dispatched : List Disp := []
deriving DecidableEq, Repr

/-! ## Cells, holds and ports (R181 to R215, R271 to R311) -/

/-- A cell an ARRIVE, PASS or REDUCE expects (R197 to R206): cell `i` of the train of `entry` whose cell 0 departs at
`d0`. `waits`: its due window has closed without a match (pending, R200). `lost`: matched and discarded with the hold
full (R204). `clash`: a cell entered the hold in its window and matched nothing (R206). `fill`: matched by a FILL cell.
`entered`: its hold entry in 1/256 tick. -/
structure Expect where
  owner : Nat
  entry : BitVec 128
  idx : Nat
  i : Nat
  d0 : Nat
  depart : Nat
  release : Nat
  bank : Bool
  check : BitVec 16
  cell : Option Payload := none
  waits : Bool := false
  lost : Bool := false
  clash : Bool := false
  fill : Bool := false
  entered : Nat := 0
deriving DecidableEq, Repr

/-- A cell of a replay buffer (R279 to R287): its latest transmission, its replays, the tick from which a triggered
replay may be sent, and whether its timer has expired since its latest transmission. -/
structure Sent where
  lseq : Nat
  cell : Cell
  last : Nat
  replays : Nat := 0
  due : Option Nat := none
  timed : Bool := false
deriving DecidableEq, Repr

/-- A packet cell in a receive buffer, an injection queue or an outbound queue (R315, R332, R336): its VC, where it came
from (inbound port 0 to 5, 6 for injection; in an injection queue its message), since when it waits, and whether a multicast
cell's copy has been delivered and passed on (R338). -/
structure Queued where
  cell : Cell
  vc : Nat
  src : Nat
  since : Nat
  copied : Bool := false
  passed : Bool := false
deriving DecidableEq, Repr

/-- An element of a forward queue (R235): no data is a void element, or one that has not yet crossed its junction. -/
structure Fwd where
  inPort : Nat
  owner : Nat
  release : Nat
  data : Option Payload
deriving DecidableEq, Repr

/-- A cell booked to depart at `tick` (R184, R189); no data until the cell stands in the departure buffer. -/
structure Depart where
  tick : Nat
  owner : Nat
  train : Nat
  i : Nat
  d0 : Nat
  nm1 : Nat
  bank : Bool
  data : Option Payload
deriving DecidableEq, Repr

/-- An operand cell of a REDUCE (R256), by the release tick it is needed at; no data until it has crossed, or where it
cannot be used (R258, R260). -/
structure Operand where
  owner : Nat
  release : Nat
  data : Option Payload
deriving DecidableEq, Repr

/-- A platform cell, drop copy or final sum on its way to its tile (R202, R259, R268): it reaches the C-die at `due`.
`key` names its train on its port; `token` is the arrive that follows the write, where this is the last cell of a train that lost none. -/
structure ToTile where
  owner : Nat
  key : Nat × Nat × Nat
  tile : Nat
  addr : Nat
  data : Payload
  due : Nat
  token : Option (Nat × Nat)
  sum : Bool := false
  copy : Bool := false
deriving DecidableEq, Repr

/-- What a movement through a junction delivers (R240). -/
inductive Cargo where
  /-- A departing cell, to the departure buffer of `port` for tick `tick`. -/
  | depart (port tick : Nat)
  /-- A platform cell, drop copy or final sum. -/
  | toTile (port : Nat) (x : ToTile)
  /-- A forwarded cell or sum, released at `release` on `inPort`, to the forward queue of `port`. -/
  | forward (port inPort release : Nat)
  /-- A REDUCE operand, needed by the passing loop of `port` at `release`. -/
  | operand (port release : Nat)
deriving DecidableEq, Repr

/-- A cell that is to cross a J-die in a CONNECT slot whose start lies in `[lo, hi]` (R240). Endpoints: 0 to 3 C-dies,
4 + p L-dies. -/
structure Transit where
  owner : Nat
  src : Nat
  dst : Nat
  lo : Nat
  hi : Nat
  cell : Payload
  cargo : Cargo
deriving DecidableEq, Repr

/-- A cell that is to be read from a tile's SRAM in an external cycle of its C-die (R189, R256): where, for which partition and train,
from which tick on, and the movement that it then makes. -/
structure SramRead where
  tile : Nat
  addr : Nat
  move : Transit
  /-- What the cell held when it was asked for (R42, R440). -/
  held : Payload
deriving DecidableEq, Repr

/-- What has crossed a J-die in the junction slot that began at `at_` (R237): the lanes the cells came from and went to. `saIn` and
`saOut`: the quarter ticks of `State.clk` from which SA's link is free again, toward the J-die and from it (R15). -/
structure JnSlot where
  at_ : Nat := 0
  ins : List Nat := []
  outs : List Nat := []
  saIn : Nat := 0
  saOut : Nat := 0
deriving DecidableEq, Repr

/-- The transmit line of a port (R271 to R273): the scrambler's register, the scrambled bits that wait for a codeword and their
number, the codewords sent in the present period, those of the period before, the markers (physical lane to logical lane and period index) at its
start, and the training frames (R298) of the lanes that send them: marker, control word, and the PRBS31 register where the pattern begins. -/
structure Line where
  scr : BitVec 58 := 0
  acc : Nat := 0
  len : Nat := 0
  words : List (BitVec 5440) := []
  last : List (BitVec 5440) := []
  marks : SMap (Nat × Nat) := []
  train : SMap (BitVec 120 × W64 × BitVec 31) := []
deriving DecidableEq, Repr

/-- A training in progress (R298): its phase 1 to 5, the ticks at which phase 2 and this phase began, the lanes locked and finished,
precoding, the tap fields of the control words, and from phase 4 the good receive lanes, the lanes the peer will use, whether it permits
half width, and the deskew. -/
structure Train where
  phase : Nat := 2
  begun : Nat := 0
  at_ : Nat := 0
  locked : BitVec 34 := 0
  ready : BitVec 34 := 0
  precReq : BitVec 34 := 0
  precOn : BitVec 34 := 0
  coefReq : List Byte := []
  coefStat : List Byte := []
  rx : BitVec 34 := 0
  tx : BitVec 34 := 0
  peerHalf : Bool := false
  deskew : BitVec 16 := 0
deriving DecidableEq, Repr

/-- What a receiver has seen of a lane (R292): since when signal or lock is lost, the index of its last good marker and the markers
missed since, the window of 3,125 ticks in which it last corrected symbols, how many there, and the consecutive windows before with
more than 64. -/
structure LaneWatch where
  lost : Option Nat := none
  mark : Option Nat := none
  missed : Nat := 0
  win : Nat := 0
  ce : Nat := 0
  bad : Nat := 0
deriving DecidableEq, Repr

/-- A port's cable end (R303 to R309): whether it is in and has been brought up, its record (page 03h bytes 128 to 255), since when its transmitters count hours and the ticks counted before, the
identities of the previous link-up, the life events already recorded, and whether CABLE_ASYM has been set from the record (R306). -/
structure Cable where
  present : Bool := false
  up : Bool := false
  asym : Bool := false
  record : Option (BitVec 1024) := none
  txOnSince : Option Nat := none
  onTicks : Nat := 0
  prev : Option (W64 × Bool × W64 × Bool) := none
  warned : Bool := false
  exceeded : Bool := false
deriving DecidableEq, Repr

/-- A lane swap (R293): its lanes, the tick its period starts, whether it has been asked for and agreed, its SEQ. -/
structure Swap where
  lane : Nat
  spare : Nat
  at_ : Nat := 0
  asked : Bool := false
  agreed : Bool := false
  seq : Nat := 0
deriving DecidableEq, Repr

/-- A port and its L-die beside its registers. `took`: the tick of the last take for an inbound port and owner, 32 · port + owner (R235). `lateOf`: the partition owners whose cells the L-die discards since a late train
(R206). `credAt`: when each VC last came to have credit (R336). `judged`: the verdicts other than ACCEPTED that it has come to since the last
frame start, with their items (R301). `rxWord`: codewords counted (R275). `rxGood`, `txGood`: the lanes training found good; `rxMap`,
`txMap`: the physical lanes of the logical ones, in order (R273, R293); `failing`: the lanes declared failing since (R292). `echoLost`: the peer's verdict has ceased to be ACCEPTED (R301). `expectLost`: the retention bank with EXPECT has failed, and EXPECT
has not been rewritten since (R505). -/
structure Port where
  departs : List Depart := []
  fwd : List Fwd := []
  took : SMap Nat := []
  expects : List Expect := []
  operands : List Operand := []
  toTile : List ToTile := []
  failed : List (Nat × Nat × Nat) := []
  expLogged : List (Nat × Nat × Nat) := []
  lateChecks : List (BitVec 16 × Nat) := []
  lateOf : List Nat := []
  newtsLocal : List Newt := []
  laneAnswers : List Newt := []
  newtsStop : List Newt := []
  newtsBcast : List Newt := []
  newtsRouted : List Newt := []
  oldest : Nat := 0
  nextTx : Nat := 0
  replay : List Sent := []
  next : Nat := 0
  high : Nat := 0
  got : List Nat := []
  named : List (Nat × Nat) := []
  nextAt : Nat := 0
  missAt : List Nat := []
  freedAt : List Nat := [0, 0, 0, 0]
  entered : Nat := 0
  lastGood : Nat := 0
  halfStart : Nat := 0
  retrainAt : Option Nat := none
  judged : List (Nat × List Nat) := []
  recheck : Bool := false
  line : Line := {}
  train : Option Train := none
  rxWord : Nat := 0
  rxGood : BitVec 34 := 0
  txGood : BitVec 34 := 0
  rxMap : List Nat := []
  txMap : List Nat := []
  failing : BitVec 34 := 0
  watch : SMap LaneWatch := []
  echoLost : Bool := false
  expectLost : Bool := false
  rxSwap : Option Swap := none
  txSwap : Option Swap := none
  laneSeq : Nat := 0
  txLast : Option Cell := none
  cable : Cable := {}
  vcs : List Queued := []
  pool : List Queued := []
  uout : List Queued := []
  back : List Queued := []
  localFreed : List Nat := [0, 0, 0, 0]
  lastSent : List Nat := [0, 0, 0, 0]
  credAt : List Nat := [0, 0, 0, 0]
  stalled : List Bool := [false, false, false, false]
  turn : List Nat := [6, 6, 6, 6]
  poolOn : Bool := false
deriving DecidableEq, Repr

/-! ## Host rings (R371 to R401) -/

/-- What a LOAD holds while its regions are being hashed (R388): the image, the regions, the expected root if there is one, the units whose
standby banks are LOADING, and the partition or grant. -/
structure LoadHeld where
  img : List Byte
  regions : List (Nat × Nat)
  root : Option (BitVec 256)
  units : List Nat
  part : Nat
deriving DecidableEq, Repr

/-- A dispatched descriptor. `phase`: 0 dispatched, 1 in progress (a WAIT, an armed command, a movement), 2 finished, 3 its token
operation sent. `before`: a movement's destination as it stood when the movement began (R42); `moved`: the cells of 256 bytes that it
has moved. -/
structure Job where
  id : Nat
  desc : Desc
  phase : Nat := 0
  cls : Nat := 0
  code : Nat := 0
  d0 : Nat := 0
  result : Nat := 0
  d1 : Nat := 0
  begun : Nat := 0
  before : List Host.Cell := []
  moved : List Nat := []
  /-- A LOAD whose regions are being hashed. -/
  load : Option LoadHeld := none
deriving DecidableEq, Repr

/-- A submission ring and its completion ring beside their registers (R376 to R380). -/
structure Ring where
  tail : Nat := 0
  nextId : Nat := 0
  jobs : List Job := []
  irqPend : Nat := 0
  irqFirst : Option Nat := none
  polled : Nat := 0
deriving DecidableEq, Repr

/-- A write request to host memory (R371 to R374): function, IOVA, bytes; its Relaxed Ordering attribute, and whether its address is a
translated one. -/
structure HostWrite where
  fn : Nat
  addr : Nat
  bytes : List Byte
  relaxed : Bool := false
  translated : Bool := false
deriving DecidableEq, Repr

/-- A function's PCIe control (R371, R375): Device Control, ATS, D3hot, MSI-X with its table, by 32-bit word, and pending bits (log 105). -/
structure PcieFn where
  relaxed : Bool := true
  payload : Nat := 0
  ats : Bool := false
  d3 : Bool := false
  msixOn : Bool := false
  msixMask : Bool := false
  table : SMap W32 := []
  pend : W64 := 0
deriving DecidableEq, Repr

/-- Something to be written to the notify rings (R381): TYPE, ORIGIN, partition (255 none), PAYLOAD. -/
structure Note where
  type : Nat
  origin : Nat
  part : Nat
  payload : Nat
deriving DecidableEq, Repr

/-- A notify ring's counts (R381). -/
structure Notify where
  lostSince : Nat := 0
deriving DecidableEq, Repr

/-! ## Partitions and images (R402 to R441) -/

/-- What the module keeps of an image: its header (512 bytes), its digest, the weights root of its LOAD, the ports (0 to 5), J-dies (6 to 9) and M-dies (10
to 25) it holds segments for, and the sections it consults later. `ctxs`: SAVE_BYTES and QUIESCE. -/
structure Image where
  header : BitVec 4096
  digest : BitVec 256
  root : BitVec 256 := 0
  units : List Nat := []
  tokens : List W64 := []
  rotaMode : Bool := false
  ctxs : List (Nat × Nat) := []
  rota : List W64 := []
deriving DecidableEq, Repr

/-- A program of one tile in one context (R410's program store, and LOAD's standby banks). -/
structure TileProg where
  ctx : Nat
  tile : Nat
  words : List W64
deriving DecidableEq, Repr

/-- An armed launch or changeover (R245, R392) and the units whose banks it armed. -/
structure Armed where
  tick : Nat
  units : List Nat := []
  launch : Bool
  restart : Bool
  ctx : Nat
  grants : Nat
  ports : Nat
  byRota : Bool := false
  prev : Nat := 1
  ring : Option (Nat × Nat × Nat) := none
deriving DecidableEq, Repr

/-- What a bind's record says of the run in which its token met its threshold, whatever then becomes of the partition (R447, R450,
R451): the context, the active image, the launch tick, the error entries since that launch, bits 1 and 2 of RECORD_FLAGS. -/
structure BindMet where
  ctx : Nat
  image : Option Image
  launch : Nat
  errors : Nat
  lock : Nat
deriving DecidableEq, Repr

/-- A bind that has not yet produced a record (R390, R391): FTC of its input digest, the slowest level since (R447),
whether a trace was enabled, and, once its token has met its threshold, the run that is recorded (R451). -/
structure Bind where
  sub : Nat
  ins : List (Nat × Nat)
  outs : List (Nat × Nat)
  token : Nat
  thresh : Nat
  rec_ : Nat
  inDigest : BitVec 256
  fn : Nat
  begun : Nat := 0
  level : Nat := 0
  traced : Bool := false
  met : Option BindMet := none
deriving DecidableEq, Repr

/-- A rota's progress (R410 to R417): slice `k` began at `x`; whether its context and the next one are enabled; contexts saved. -/
structure Rota where
  k : Nat := 0
  x : Nat := 0
  filled : Bool := false
  mirrored : Bool := false
  on : Bool := true
  nextOn : Bool := true
  halted : Bool := false
  swapped : Bool := false
  saved : List Nat := []
deriving DecidableEq, Repr

/-- A stop that follows a changeover (R398, R467): the stop's reason, origin, log index and REMOTE; `done`: the partition was all-stopped
and that is recorded. -/
structure StopDue where
  reason : Nat
  origin : Nat
  index : Nat
  remote : Bool
  done : Bool
deriving DecidableEq, Repr

/-- Partition p, or grant owner p + 0x10, beside its registers. -/
structure Part where
  active : Option Image := none
  standby : Option Image := none
  tileStandby : Nat := 0
  progs : List TileProg := []
  armed : List Armed := []
  lastLaunch : Nat := 0
  discardBefore : Option Nat := none
  root : BitVec 256 := 0
  regions : List (Nat × Nat) := []
  firstStop : Nat := 0
  binds : List Bind := []
  rota : Option Rota := none
  scrubMask : Nat := 0
  stopAfter : Option StopDue := none
  errors : Nat := 0
deriving DecidableEq, Repr

/-! ## Lock-step (R454 to R459) -/

/-- The digests of a frame: one per port, and the ports with any departure (R455, R456). -/
structure LsFrame where
  f : Nat
  digs : BitVec 192
  ports : BitVec 6
deriving DecidableEq, Repr

/-- A train of the train log (R455). -/
structure LsTrain where
  port : Nat
  f : Nat
  train : Nat
  crc : Nat
  nm1 : Nat
deriving DecidableEq, Repr

/-- Lock-step of a partition beside its registers: the LS_CTRL in effect since the launch (R454); the running CRC-32 of each
port's frame and train (register + 1, 0 for none begun); own frames and twin frames not yet compared; the train log;
the frame, port and own trains not yet matched of a divergence being narrowed (R458). -/
structure LockStep where
  ctrl : W64 := 0
  cur : SMap Nat := []
  curTrain : SMap Nat := []
  own : List LsFrame := []
  twin : List LsFrame := []
  trains : List LsTrain := []
  narrowing : Option (Nat × Nat) := none
  left : List LsTrain := []
  /-- The partition ran in the frame that goes on (R456). -/
  ran : Bool := false
deriving DecidableEq, Repr

/-! ## Power, reset and monitors (R486 to R525) -/

/-- An AVSBus request (R494): its kind (0 raise in a level change, 1 lower after one, 2 any other voltage write, 3 a ready chain's write,
4 a power-down, 5 a voltage read, 6 a current read, 7 a status read, 8 the write of the transition rate), rail, target in mV or rate in
mV/µs, the tick it was sent, whether it has been retried, and when a write was acknowledged. -/
structure AvsReq where
  kind : Nat
  rail : Nat
  mv : Nat
  sent : Nat
  retried : Bool := false
  acked : Option Nat := none
deriving DecidableEq, Repr

/-- A level change in progress (R488). `left` rails have not completed; `switched` once the clocks run at the new level. -/
structure LevelChange where
  level : Nat
  left : List Nat
  moved : List (Nat × Nat) := []
  switched : Bool := false
deriving DecidableEq, Repr

/-- A bank of the retention store (R504): its contents and its signature. -/
structure Bank where
  data : List Byte := []
  sig : BitVec 32 := 0
deriving DecidableEq, Repr

/-- SB's power and thermal controllers and SA's module state machine beside their registers. `mode`: 0 M0, 1 M1, 2 M2, 3 M3, 4
Off. `wake`: the source that ends the state, and whether it came during entry (R498, R499). `retain`: the retention store
(R504). `resets` in progress and `heldResets` that a wake performs (R508, R509). `volts`: rail voltages other than
nominal. `railMv`, `railCa`: the last good telemetry of each rail, in mV and units of 10 mA, `railFail` its failed reads in a row
(R490, R495). `slew`: the transition rates written, in mV/µs (R494). `offWalk`: dies still to be powered down, in order, `offAt`: when the
last one was, `begun`: an entry has come to the powering down (R498, R503, R507). -/
structure Power where
  samples : List Nat := []
  railMv : SMap Nat := []
  railCa : SMap Nat := []
  railFail : SMap Nat := []
  slew : SMap Nat := []
  offWalk : List Nat := []
  offAt : Nat := 0
  begun : Bool := false
  underRun : Nat := 0
  grace : Option Nat := none
  thermUnder : Nat := 0
  thermGrace : Option Nat := none
  tripLast : List Nat := []
  lastChange : Option Nat := none
  change : Option LevelChange := none
  volts : SMap Nat := []
  avs : SMap (List AvsReq) := []
  avsPolled : SMap Nat := []
  mode : Nat := 0
  entering : Option Nat := none
  wake : Option (Nat × Bool) := none
  retain : SMap Bank := []
  resets : List (Nat × Nat) := []
  heldResets : List (Nat × Nat) := []
  trip : Bool := false
  heartbeat : Nat := 0
  pgAt : Nat := 0
  down : Bool := false
deriving DecidableEq, Repr

/-- Pins and rails (R597 to R606): inputs POWER_ON, standby power, REFCLK; outputs FAULT_N, RAIL_EN, HBM_EN and the cages'
ResetL. -/
structure Pins where
  powerOn : Bool := true
  aux : Bool := true
  refclk : Bool := true
  faultN : Bool := true
  railEn : BitVec 32 := 3
  hbmEn : BitVec 4 := 0
  resetL : BitVec 6 := 0
deriving DecidableEq, Repr

/-- A temperature sensor (R515): its last reading, how many samples it has stayed so, the least and the greatest reading of each sensor of
its die since it began to, in quarter degrees, and whether another one has moved by 2 °C since. -/
structure Sensor where
  last : Nat := 0
  run : Nat := 0
  span : List (Int × Int) := []
  moved : Bool := false
deriving DecidableEq, Repr

/-- Monitors beside their registers (R514 to R523). `owed` core cycles a C-die has yet to remove, of `total` (R518); `removed` of the
`cycles` in the window of R519; the pending plan and withdrawals, its transaction number where one has been armed for it; `planDue`: a
re-plan by hours waits for the one that runs. -/
structure Mon where
  sensors : SMap Sensor := []
  lowRun : SMap Nat := []
  lostRun : SMap Nat := []
  owed : SMap Nat := []
  total : SMap Nat := []
  removed : SMap Nat := []
  cycles : SMap Nat := []
  planBusy : Bool := false
  planAt : Nat := 0
  planDue : Bool := false
  pending : Option (List W64 × Nat) := none
  pendingSince : Nat := 0
  pendLogged : Nat := 0
  planTxn : Option Nat := none
deriving DecidableEq, Repr

/-! ## Transactions and protection (R526 to R541) -/

/-- One appended entry. -/
structure TxnEntry where
  addr : Nat
  wide : Bool
  data : W64
deriving DecidableEq, Repr

/-- A configuration transaction, open or armed. `touched`: its last append; `hashes`: of the staged objects it activates, in entry
order (R534). -/
structure Txn where
  id : Nat
  owner : Nat
  entries : List TxnEntry := []
  sealed : Bool := false
  mode : Nat := 0
  tick : Nat := 0
  nonce : BitVec 256 := 0
  digest : BitVec 384 := 0
  touched : Nat := 0
  sealedAt : Nat := 0
  protected_ : Bool := false
  hashes : List (BitVec 384) := []
deriving DecidableEq, Repr

/-- What SA keeps in fuses and management flash beside the registers (R535 to R540), and the fuse requests still to be
burned. `stageLen`: bytes staged in slot A, slot B and the certificate stage since its last erase. `rowFuses`: fused skip sites by C-die and row, 8 where none was burned; `cert`: length of a chain activated in the
field; `idFault`: R540; `txnId`: the last TXN_ID given (R527); `bootId`: which BOOT_ID was drawn (R447); `planCrc`: the CRC-32 of the
stored margin plan, none where none is stored (R521); `planHours`: the operating hours at the last re-plan by hours (R522); `nonces`: those
drawn (R534). -/
structure Prot where
  burning : List Nat := []
  rowFuses : SMap Nat := []
  hbmRows : List (Nat × Nat) := []
  stackFuses : BitVec 32 := 0
  stageLen : SMap Nat := []
  cert : Option Nat := none
  idFault : Bool := false
  txnId : Nat := 0
  bootId : Nat := 0
  planCrc : Option (BitVec 32) := none
  nonces : List (BitVec 256) := []
  planHours : Nat := 0
deriving DecidableEq, Repr

/-! ## Trace, dump and wait-for graph (R546 to R564) -/

/-- A C-die's trace unit beside its registers: its queue, its SRAM by record index, the next index, records staged for the spill
region and the index of the first of them, records dropped by source, records left after the trigger, STRETCH_COUNT at each
source's last record, and triggers not yet judged (R552): their place in its list, log index and code. -/
structure Trace where
  queue : List (BitVec 256) := []
  sram : SMap (BitVec 256) := []
  writeIdx : Nat := 0
  staged : List (BitVec 256) := []
  spillIdx : Nat := 0
  dropSince : SMap Nat := []
  postLeft : Option Nat := none
  stretchAt : SMap Nat := []
  trigs : List (Nat × Nat × Nat) := []
  wroteAt : Option Nat := none
  spillAt : Option Nat := none
deriving DecidableEq, Repr

/-- A stop-dump in progress. -/
structure Dump where
  part : Nat
  sram : Bool
  skip : Bool
  addr : Nat
  start : Nat
deriving DecidableEq, Repr

/-- The wait-for graph (R562): the graph held and since when; FTC and REASON of a build in progress; codes of automatic triggers
not yet acted on. -/
structure Wfg where
  words : List W64 := []
  heldAt : Option Nat := none
  building : Option (Nat × Nat) := none
  due : List Nat := []
deriving DecidableEq, Repr

/-- An I3C target (R585, R586). -/
structure I3c where
  dyn : Option (BitVec 7) := none
  readAddr : Option (Nat × Bool) := none
  ibi : Bool := false
deriving DecidableEq, Repr

/-! ## Unscheduled traffic and streams -/

/-- A message of an injection unit (R316, R323): its parts, its source partition and key, the next packet to enter the
queue. `data` is the module-local address of its bytes; `resp` a READ_RESP message; `job` the host descriptor it belongs to, `base` its
offset in that movement, `last` its last message (R394). -/
structure Msg where
  id : Nat
  op : Nat
  dest : Nat
  data : Nat
  len : Nat
  token : Nat
  msgId : Nat
  mcast : Nat := 0
  hops : Nat := 0
  mbLog2 : Nat := 0
  amount : Nat := 0
  retAddr : Nat := 0
  retToken : Nat := 0
  retMsg : Nat := 0
  localToken : Option Nat := none
  part : Nat
  key : Nat
  resp : Bool := false
  next : Nat := 0
  job : Option (Nat × Nat × Nat) := none
  base : Nat := 0
  /-- Of a read response, the bytes read so far (R323). -/
  got : List Byte := []
deriving DecidableEq, Repr

/-- An injection unit: 0 SA, 1 to 4 the C-dies (R315 to R319, R323, R324, R337). `level` is the throttle level in effect
(R349). -/
structure Inject where
  msgs : List Msg := []
  nextId : Nat := 0
  cells : List Queued := []
  level : Nat := 768
  sseq : SMap Nat := []
  progress : Nat := 0
  stalled : Bool := false
deriving DecidableEq, Repr

/-- A granule that a stream engine has read and not yet written, and the J-die crossings it has behind it (R359). -/
structure Granule where
  g : Nat
  data : Payload
  leg : Nat := 0
deriving DecidableEq, Repr

/-- A memory stream dispatched at an M-die (R350 to R357): `moving` once its ready test has passed, `done` the granules complete,
`bufs` those read and not yet written, `bad` those that met an uncorrectable read (R361) or may not be moved (R26, R41). `before`: its destination as it stood
when the movement began (R42). -/
structure Stream where
  owner : Nat
  entry : BitVec 256
  idx : Nat
  iters : List Nat
  start : Nat
  bank : Bool
  moving : Bool := false
  done : List Nat := []
  bufs : List Granule := []
  bad : List Nat := []
  before : List Host.Cell := []
  /-- Booked cells so far assigned to its crossings, the first and the second (R359). -/
  given : Nat × Nat := (0, 0)
deriving DecidableEq, Repr

/-- An HBM stack beside its registers (R361 to R366): corrected codewords by row, repair candidates and soft repairs, the
patrol pass: the codeword it reads next, when it began, whether its lateness is recorded. -/
structure Stack where
  rows : SMap Nat := []
  cands : List Nat := []
  soft : List Nat := []
  refreshes : Nat := 0
  scrubAt : Nat := 0
  scrubStart : Nat := 0
  scrubLogged : Bool := false
deriving DecidableEq, Repr

/-! ## The state -/

/-- The module. -/
structure State where
  /-- Commands waiting, the first to be taken at the head. -/
  pending : List Instr := []
  /-- The model's own: how many free values have been drawn. -/
  freeCtr : Nat := 0
  /-- Registers by model index (Regs.lean) that differ from their reset value. -/
  regs : SMap W64 := []
  /-- Byte memory of the module: SRAM, banks, staging, stacks, stages (R10); 0 where nothing is listed. -/
  mem : List Host.Cell := []
  /-- Dies by fabric die number (R9, R506). -/
  dies : SMap Die := []
  /-- The event log by slot (R461, R463). -/
  evlog : SMap (BitVec 512) := []
  /-- The tick in which the arbiter accepted the last report (R461). -/
  acceptAt : Option Nat := none
  /-- Report counts of the event rate limits (R462). -/
  rates : List Rate := []
  /-- SB's fabric time, servo, wall time, PTP and PPS (R45 to R75). -/
  time : Time := {}
  /-- Time transfer state of each port (R53 to R57). -/
  ptime : SMap PortTime := []
  /-- Tiles by fabric tile number (R76 to R179). -/
  tiles : SMap Tile := []
  /-- Cells travelling the local lines (R86, R87). -/
  lineCells : List LineCell := []
  /-- Tokens by C-die and number (R94 to R99). -/
  tokens : SMap Token := []
  /-- Token operations waiting for their C-die's update cycle (R96). -/
  tokOps : List TokOp := []
  /-- Crossing streams that are complete, by M-die, whose booked cells stay assigned to them (R359). -/
  spent : List (Nat × Stream) := []
  /-- Writes of tile SRAM and HBM since the last token operation took effect, the last first (R42). -/
  recent : List Wrote := []
  /-- Walkers of the active banks, by unit: ports, J-dies, M-dies (R224). -/
  walkers : SMap Walker := []
  /-- Walkers prefetching ahead of a changeover (R247). -/
  preWalkers : SMap Walker := []
  /-- Cells between L-, J- and C-dies (R187 to R203). -/
  transits : List Transit := []
  /-- Departure and operand cells to be read from tile SRAM, in the order of their junction slots (R189, R256). -/
  sramReads : List SramRead := []
  /-- What the present junction slot of each J-die carries (R237). -/
  jn : SMap JnSlot := []
  /-- Link layer of each port (R184 to R312). -/
  ports : SMap Port := []
  /-- Submission and completion rings by function and ring (R375 to R385). -/
  rings : SMap Ring := []
  /-- The submission ring that dispatched last (R379). -/
  turn : Nat := 67
  /-- Notify ring counts by function (R381). -/
  notify : SMap Notify := []
  /-- Entries waiting for the notify rings (R381). -/
  notes : List Note := []
  /-- Writes to host memory, oldest first (R373, R380, R381). -/
  hostOut : List HostWrite := []
  /-- MSI-X vectors signalled, function and vector, oldest first (R380, R381). -/
  irqs : List (Nat × Nat) := []
  /-- NumVFs of the PF's SR-IOV capability (R371). -/
  vfs : Nat := 0
  /-- Whether PCIe configuration has begun since the link came up (R499). -/
  pcieUp : Bool := false
  /-- PCIe control by function (R371, R375). -/
  pcie : SMap PcieFn := []
  /-- Page translations cached by function (R371, R374). -/
  ats : SMap (List Nat) := []
  /-- Functions whose invalidation requests were answered, oldest first (R371). -/
  atsDone : List Nat := []
  /-- Partitions (p) and grant owners (p + 0x10) beside their registers (R402 to R441). -/
  parts : SMap Part := []
  /-- Lock-step by partition (R454 to R459). -/
  lock : SMap LockStep := []
  /-- Power, thermal and module state controllers (R486 to R509). -/
  power : Power := {}
  /-- Pins and rails (R597 to R606). -/
  pins : Pins := {}
  /-- Monitors (R514 to R523). -/
  mon : Mon := {}
  /-- The open configuration transaction (R527). -/
  txn : Option Txn := none
  /-- Armed transactions (R531). -/
  armedTxns : List Txn := []
  /-- Fuses, stages and identity (R535 to R540). -/
  prot : Prot := {}
  /-- Frame start at which a counter snapshot is armed (R545). -/
  snapAt : Option Nat := none
  /-- Trace units by C-die (R546 to R556). -/
  trace : SMap Trace := []
  /-- Records offered to each C-die's trace unit this tick (R550). -/
  traceQ : SMap (List (BitVec 256)) := []
  /-- The stop-dump in progress (R558). -/
  dump : Option Dump := none
  /-- The wait-for graph (R562). -/
  wfg : Wfg := {}
  /-- The I3C targets: 0 SA, 1 SB (R585). -/
  i3c : SMap I3c := []
  /-- What the last read through each interface returned (R578). -/
  readData : SMap W64 := []
  /-- Injection units: 0 SA, 1 to 4 the C-dies (R315). -/
  inject : SMap Inject := []
  /-- Streams dispatched at each M-die (R350). -/
  streams : SMap (List Stream) := []
  /-- Granules moved in a tick: the tick and their number, by place: M-die m's stream engine m, its staging SRAM 16 + m (R350). -/
  engine : SMap (Nat × Nat) := []
  /-- Source and tick of the last junction slot granted to packets, by end and VC (R336). -/
  grants : SMap (Nat × Nat) := []
  /-- Memory stacks beside their registers (R361). -/
  hbm : SMap Stack := []
  /-- Spray counters of the routing points (R331). -/
  spray : SMap Nat := []
  /-- The last NSEQ given to an originated broadcast (R343). -/
  nseq : BitVec 16 := 0
  /-- The last NSEQ accepted from each module (R343). -/
  lastNseq : SMap Nat := []
  /-- Tick of the last routing flip (R345). -/
  flipPrev : Option Nat := none
  /-- Rows whose tiles a skip rewrite leaves to be zeroed (R93, R404). -/
  skipScrub : List Nat := []
  /-- Quarters with a failed line stop (R93). -/
  failedQuarters : BitVec 16 := 0
  /-- PTP frames sent, oldest first (R68). -/
  ethOut : List PtpFrame := []
  /-- W1C bits that a hardware event has set in the present tick, by register (R9). -/
  setNow : SMap W64 := []
  /-- Bits that a transaction has written in the present tick, by register (R529). -/
  txnNow : SMap W64 := []
  /-- C-dies whose core clock delivered a cycle in the present tick (R72, R73). -/
  cycleNow : BitVec 4 := 0
deriving DecidableEq, Repr

/-- Why a run stops with a fault. The spec gives every command of the table an effect or a refusal of its own, which
is a next state, so no meaning raises a fault; the constructor stands for a state no meaning reaches (safe). -/
inductive Fault where
  /-- Raised by no meaning (safe). -/
  | unreachable
deriving DecidableEq, Repr

/-- Why a command is refused by the model. -/
inductive Refusal where
  /-- A command that has no meaning yet, raised by exec alone (safe: the run stops). -/
  | notModelled (mnemonic : String)
deriving DecidableEq, Repr

/-- The module right after cold reset: every register at its reset value, nothing listed in memory, SA alone ready. -/
def State.reset : State := {}

end Sys2Proof.Machine
end

