-- ==== Sys2Proof/Machine/Ops.lean ====
section
/-!
DEFINITION. The named operations on the state: registers, memory, units, event reports and register accesses as the
interfaces make them (R578 to R591).
-/
namespace Sys2Proof.Machine
open Sys2Proof

/-! ## Fields: the state with one field replaced -/

def State.withPending (s : State) (x : List Instr) : State := { s with pending := x }
def State.withFreeCtr (s : State) (x : Nat) : State := { s with freeCtr := x }
def State.withRegs (s : State) (x : SMap W64) : State := { s with regs := x }
def State.withMem (s : State) (x : List Host.Cell) : State := { s with mem := x }
def State.withDies (s : State) (x : SMap Die) : State := { s with dies := x }
def State.withEvlog (s : State) (x : SMap (BitVec 512)) : State := { s with evlog := x }
def State.withAcceptAt (s : State) (x : Option Nat) : State := { s with acceptAt := x }
def State.withRates (s : State) (x : List Rate) : State := { s with rates := x }
def State.withTime (s : State) (x : Time) : State := { s with time := x }
def State.withPtime (s : State) (x : SMap PortTime) : State := { s with ptime := x }
def State.withTiles (s : State) (x : SMap Tile) : State := { s with tiles := x }
def State.withLineCells (s : State) (x : List LineCell) : State := { s with lineCells := x }
def State.withTokens (s : State) (x : SMap Token) : State := { s with tokens := x }
def State.withTokOps (s : State) (x : List TokOp) : State := { s with tokOps := x }
def State.withSpent (s : State) (x : List (Nat × Stream)) : State := { s with spent := x }
def State.withRecent (s : State) (x : List Wrote) : State := { s with recent := x }
def State.withWalkers (s : State) (x : SMap Walker) : State := { s with walkers := x }
def State.withPreWalkers (s : State) (x : SMap Walker) : State := { s with preWalkers := x }
def State.withTransits (s : State) (x : List Transit) : State := { s with transits := x }
def State.withSramReads (s : State) (x : List SramRead) : State := { s with sramReads := x }
def State.withJn (s : State) (x : SMap JnSlot) : State := { s with jn := x }
def State.withPorts (s : State) (x : SMap Port) : State := { s with ports := x }
def State.withRings (s : State) (x : SMap Ring) : State := { s with rings := x }
def State.withTurn (s : State) (x : Nat) : State := { s with turn := x }
def State.withNotify (s : State) (x : SMap Notify) : State := { s with notify := x }
def State.withNotes (s : State) (x : List Note) : State := { s with notes := x }
def State.withHostOut (s : State) (x : List HostWrite) : State := { s with hostOut := x }
def State.withIrqs (s : State) (x : List (Nat × Nat)) : State := { s with irqs := x }
def State.withVfs (s : State) (x : Nat) : State := { s with vfs := x }
def State.withPcieUp (s : State) (x : Bool) : State := { s with pcieUp := x }
def State.withPcie (s : State) (x : SMap PcieFn) : State := { s with pcie := x }
def State.withAts (s : State) (x : SMap (List Nat)) : State := { s with ats := x }
def State.withAtsDone (s : State) (x : List Nat) : State := { s with atsDone := x }
def State.withParts (s : State) (x : SMap Part) : State := { s with parts := x }
def State.withLock (s : State) (x : SMap LockStep) : State := { s with lock := x }
def State.withPower (s : State) (x : Power) : State := { s with power := x }
def State.withPins (s : State) (x : Pins) : State := { s with pins := x }
def State.withMon (s : State) (x : Mon) : State := { s with mon := x }
def State.withTxn (s : State) (x : Option Txn) : State := { s with txn := x }
def State.withArmedTxns (s : State) (x : List Txn) : State := { s with armedTxns := x }
def State.withProt (s : State) (x : Prot) : State := { s with prot := x }
def State.withSnapAt (s : State) (x : Option Nat) : State := { s with snapAt := x }
def State.withTrace (s : State) (x : SMap Trace) : State := { s with trace := x }
def State.withTraceQ (s : State) (x : SMap (List (BitVec 256))) : State := { s with traceQ := x }
def State.withDump (s : State) (x : Option Dump) : State := { s with dump := x }
def State.withWfg (s : State) (x : Wfg) : State := { s with wfg := x }
def State.withI3c (s : State) (x : SMap I3c) : State := { s with i3c := x }
def State.withReadData (s : State) (x : SMap W64) : State := { s with readData := x }
def State.withInject (s : State) (x : SMap Inject) : State := { s with inject := x }
def State.withStreams (s : State) (x : SMap (List Stream)) : State := { s with streams := x }
def State.withGrants (s : State) (x : SMap (Nat × Nat)) : State := { s with grants := x }
def State.withEngine (s : State) (x : SMap (Nat × Nat)) : State := { s with engine := x }
def State.withHbm (s : State) (x : SMap Stack) : State := { s with hbm := x }
def State.withSpray (s : State) (x : SMap Nat) : State := { s with spray := x }
def State.withNseq (s : State) (x : BitVec 16) : State := { s with nseq := x }
def State.withLastNseq (s : State) (x : SMap Nat) : State := { s with lastNseq := x }
def State.withFlipPrev (s : State) (x : Option Nat) : State := { s with flipPrev := x }
def State.withSkipScrub (s : State) (x : List Nat) : State := { s with skipScrub := x }
def State.withFailedQuarters (s : State) (x : BitVec 16) : State := { s with failedQuarters := x }
def State.withEthOut (s : State) (x : List PtpFrame) : State := { s with ethOut := x }
def State.withSetNow (s : State) (x : SMap W64) : State := { s with setNow := x }
def State.withTxnNow (s : State) (x : SMap W64) : State := { s with txnNow := x }
def State.withCycleNow (s : State) (x : BitVec 4) : State := { s with cycleNow := x }

/-- What a meaning answers. -/
abbrev Res := Host.Outcome State Fault Refusal

/-- The step a command makes: the machine goes on with what `t` holds, and the commands that wait stay as they were. -/
def State.act (s t : State) : Res := .next (t.withPending s.pending)

/-! ## Registers -/

/-- Register `k` of the register file. -/
def State.r (s : State) (k : Nat) : W64 := SMap.get Reg.resetVal s.regs k

/-- Register `k` set to `v`. -/
def State.w (s : State) (k : Nat) (v : W64) : State := s.withRegs (SMap.set Reg.resetVal s.regs k v)

/-- Field of `w` bits at bit `lo` of register `k`. -/
def State.rf (s : State) (k lo w : Nat) : Nat := fld (s.r k) lo w

/-- Register `k` with the field of `w` bits at bit `lo` set to `x`. -/
def State.wf (s : State) (k lo w x : Nat) : State := s.w k (setFld (s.r k) lo w x)

/-- W1C bits `m` of register `k` that a hardware event has set in the present tick (R9). -/
def State.setBits (s : State) (k : Nat) : W64 := SMap.get (fun _ => (0 : W64)) s.setNow k

/-- A hardware event sets the W1C bits `m` of register `k`: they stand against a write of the same tick that clears them (R9). -/
def State.hwSet (s : State) (k : Nat) (m : W64) : State :=
  (s.w k (s.r k ||| m)).withSetNow (SMap.set (fun _ => (0 : W64)) s.setNow k (s.setBits k ||| m))

/-- One more on a saturating 32-bit count in bits [31:0]. -/
def State.inc (s : State) (k : Nat) : State := s.wf k 0 32 (satInc32 (s.rf k 0 32))

/-- `n` more on a saturating 32-bit count. -/
def State.incBy (s : State) (k n : Nat) : State :=
  s.wf k 0 32 (if s.rf k 0 32 + n < 2 ^ 32 then s.rf k 0 32 + n else 2 ^ 32 - 1)

/-- One more on a saturating 64-bit count. -/
def State.inc64 (s : State) (k : Nat) : State := if (s.r k).toNat = 2 ^ 64 - 1 then s else s.w k (s.r k + 1)

/-- `n` more on a 64-bit counter that wraps (R544). -/
def State.add64 (s : State) (k n : Nat) : State := s.w k (s.r k + BitVec.ofNat 64 n)

/-- The FTC (R45). -/
def State.now (s : State) : Nat := (s.r Reg.sbFtc).toNat

/-- The ticks since cold reset, which a step of the FTC does not move (R45, R49): what every duration is measured in. -/
def State.clk (s : State) : Nat := (s.r Reg.sbFtc - s.time.stepped).toNat

/-- The time state (R50): 0 FREE, 1 ACQUIRE, 2 LOCKED, 3 HOLDOVER, 4 LOST. -/
def State.timeState (s : State) : Nat := s.rf Reg.sbTimeStatus 0 3

/-- Die `d` has completed its ready chain (R43). -/
def State.ready (s : State) (d : Nat) : Bool := bitAt (s.r Reg.saDieReady) d

/-- A free value, and the counter advanced. -/
def State.free (s : State) : W64 × State := (Config.freeWord s.freeCtr, (s.withFreeCtr (s.freeCtr + 1)))

/-! ## Units -/

/-- Die `k` of `dies`. -/
def State.die (s : State) (k : Nat) : Die := SMap.get (fun _ => ({} : Die)) s.dies k

def State.setDie (s : State) (k : Nat) (x : Die) : State := s.withDies (SMap.set (fun _ => ({} : Die)) s.dies k x)

def State.updDie (s : State) (k : Nat) (f : Die → Die) : State := s.setDie k (f (s.die k))

/-- Port `k` of `ptime`. -/
def State.pt (s : State) (k : Nat) : PortTime := SMap.get (fun _ => ({} : PortTime)) s.ptime k

def State.setPt (s : State) (k : Nat) (x : PortTime) : State := s.withPtime (SMap.set (fun _ => ({} : PortTime)) s.ptime k x)

def State.updPt (s : State) (k : Nat) (f : PortTime → PortTime) : State := s.setPt k (f (s.pt k))

/-- Logical tile `k` of `tiles`. -/
def State.tile (s : State) (k : Nat) : Tile := SMap.get (fun _ => ({} : Tile)) s.tiles k

def State.setTile (s : State) (k : Nat) (x : Tile) : State := s.withTiles (SMap.set (fun _ => ({} : Tile)) s.tiles k x)

def State.updTile (s : State) (k : Nat) (f : Tile → Tile) : State := s.setTile k (f (s.tile k))

/-- Token `k` of `tokens`. -/
def State.token (s : State) (k : Nat) : Token := SMap.get (fun _ => ({} : Token)) s.tokens k

def State.setToken (s : State) (k : Nat) (x : Token) : State := s.withTokens (SMap.set (fun _ => ({} : Token)) s.tokens k x)

def State.updToken (s : State) (k : Nat) (f : Token → Token) : State := s.setToken k (f (s.token k))

/-- Walker key `k` of `walkers`. -/
def State.walker (s : State) (k : Nat) : Walker := SMap.get (fun _ => ({} : Walker)) s.walkers k

def State.setWalker (s : State) (k : Nat) (x : Walker) : State := s.withWalkers (SMap.set (fun _ => ({} : Walker)) s.walkers k x)

def State.updWalker (s : State) (k : Nat) (f : Walker → Walker) : State := s.setWalker k (f (s.walker k))

/-- Walker key `k` of `preWalkers`: the walkers of a restarting owner, from X - 4,096 (R224). -/
def State.preWalker (s : State) (k : Nat) : Walker := SMap.get (fun _ => ({} : Walker)) s.preWalkers k

def State.setPreWalker (s : State) (k : Nat) (x : Walker) : State := s.withPreWalkers (SMap.set (fun _ => ({} : Walker)) s.preWalkers k x)

/-- Port `k` of `ports`. -/
def State.port (s : State) (k : Nat) : Port := SMap.get (fun _ => ({} : Port)) s.ports k

def State.setPort (s : State) (k : Nat) (x : Port) : State := s.withPorts (SMap.set (fun _ => ({} : Port)) s.ports k x)

def State.updPort (s : State) (k : Nat) (f : Port → Port) : State := s.setPort k (f (s.port k))

/-- Ring key `k` of `rings`. -/
def State.ring (s : State) (k : Nat) : Ring := SMap.get (fun _ => ({} : Ring)) s.rings k

def State.setRing (s : State) (k : Nat) (x : Ring) : State := s.withRings (SMap.set (fun _ => ({} : Ring)) s.rings k x)

def State.updRing (s : State) (k : Nat) (f : Ring → Ring) : State := s.setRing k (f (s.ring k))

/-- Function `k` of `pcie`. -/
def State.pcieFn (s : State) (k : Nat) : PcieFn := SMap.get (fun _ => ({} : PcieFn)) s.pcie k
/-- Set function `k` of `pcie`. -/
def State.setPcieFn (s : State) (k : Nat) (x : PcieFn) : State := s.withPcie (SMap.set (fun _ => ({} : PcieFn)) s.pcie k x)
/-- Update function `k` of `pcie`. -/
def State.updPcieFn (s : State) (k : Nat) (f : PcieFn → PcieFn) : State := s.setPcieFn k (f (s.pcieFn k))

/-- Function `k` of `notify`. -/
def State.notif (s : State) (k : Nat) : Notify := SMap.get (fun _ => ({} : Notify)) s.notify k

def State.setNotif (s : State) (k : Nat) (x : Notify) : State := s.withNotify (SMap.set (fun _ => ({} : Notify)) s.notify k x)

def State.updNotif (s : State) (k : Nat) (f : Notify → Notify) : State := s.setNotif k (f (s.notif k))

/-- Partition `k` of `parts`. -/
def State.part (s : State) (k : Nat) : Part := SMap.get (fun _ => ({} : Part)) s.parts k

def State.setPart (s : State) (k : Nat) (x : Part) : State := s.withParts (SMap.set (fun _ => ({} : Part)) s.parts k x)

def State.updPart (s : State) (k : Nat) (f : Part → Part) : State := s.setPart k (f (s.part k))

/-- Partition `k` of `lock`. -/
def State.ls (s : State) (k : Nat) : LockStep := SMap.get (fun _ => ({} : LockStep)) s.lock k

def State.setLs (s : State) (k : Nat) (x : LockStep) : State := s.withLock (SMap.set (fun _ => ({} : LockStep)) s.lock k x)

def State.updLs (s : State) (k : Nat) (f : LockStep → LockStep) : State := s.setLs k (f (s.ls k))

/-- C-die `k` of `trace`. -/
def State.tr (s : State) (k : Nat) : Trace := SMap.get (fun _ => ({} : Trace)) s.trace k

def State.setTr (s : State) (k : Nat) (x : Trace) : State := s.withTrace (SMap.set (fun _ => ({} : Trace)) s.trace k x)

def State.updTr (s : State) (k : Nat) (f : Trace → Trace) : State := s.setTr k (f (s.tr k))

/-- Die `k` of `traceQ`. -/
def State.trq (s : State) (k : Nat) : List (BitVec 256) := SMap.get (fun _ => []) s.traceQ k

def State.setTrq (s : State) (k : Nat) (x : List (BitVec 256)) : State := s.withTraceQ (SMap.set (fun _ => []) s.traceQ k x)

def State.updTrq (s : State) (k : Nat) (f : List (BitVec 256) → List (BitVec 256)) : State := s.setTrq k (f (s.trq k))

/-- Target `k` of `i3c`. -/
def State.i3cT (s : State) (k : Nat) : I3c := SMap.get (fun _ => ({} : I3c)) s.i3c k

def State.setI3cT (s : State) (k : Nat) (x : I3c) : State := s.withI3c (SMap.set (fun _ => ({} : I3c)) s.i3c k x)

def State.updI3cT (s : State) (k : Nat) (f : I3c → I3c) : State := s.setI3cT k (f (s.i3cT k))

/-- Injection unit `k` of `inject`. -/
def State.inj (s : State) (k : Nat) : Inject := SMap.get (fun _ => ({} : Inject)) s.inject k

def State.setInj (s : State) (k : Nat) (x : Inject) : State := s.withInject (SMap.set (fun _ => ({} : Inject)) s.inject k x)

def State.updInj (s : State) (k : Nat) (f : Inject → Inject) : State := s.setInj k (f (s.inj k))

/-- M-die `k` of `streams`. -/
def State.strm (s : State) (k : Nat) : List Stream := SMap.get (fun _ => []) s.streams k

def State.setStrm (s : State) (k : Nat) (x : List Stream) : State := s.withStreams (SMap.set (fun _ => []) s.streams k x)

def State.updStrm (s : State) (k : Nat) (f : List Stream → List Stream) : State := s.setStrm k (f (s.strm k))

/-- Stack `k` of `hbm`. -/
def State.stack (s : State) (k : Nat) : Stack := SMap.get (fun _ => ({} : Stack)) s.hbm k

def State.setStack (s : State) (k : Nat) (x : Stack) : State := s.withHbm (SMap.set (fun _ => ({} : Stack)) s.hbm k x)

def State.updStack (s : State) (k : Nat) (f : Stack → Stack) : State := s.setStack k (f (s.stack k))

/-- Apply `f` to the state once for each element, in order. -/
def State.each (s : State) (f : α → State → State) : List α → State
  | [] => s
  | x :: xs => (f x s).each f xs

/-! ## Memory -/

/-- What an unlisted byte reads as: 0 (log 2). -/
def memDefault : Nat → Byte := fun _ => 0

/-- The memory's canonical form. -/
def Memory.wf (m : List Host.Cell) : Bool := SMap.wf memDefault m

/-- Byte at `a`. -/
def State.byte (s : State) (a : Nat) : Byte := SMap.get memDefault s.mem a

/-- Byte at `a` set to `b`. -/
def State.setByte (s : State) (a : Nat) (b : Byte) : State := s.withMem (SMap.set memDefault s.mem a b)

/-- The bytes at `a` and up, as many as the list holds, set to it. -/
def State.setBytes (s : State) (a : Nat) : List Byte → State
  | [] => s
  | b :: bs => (s.setByte a b).setBytes (a + 1) bs

/-- `n` bytes from `a`. -/
def State.bytes (s : State) (a : Nat) : Nat → List Byte
  | 0 => []
  | n + 1 => s.byte a :: s.bytes (a + 1) n

/-- The little-endian number in `n` bytes from `a` (R6). -/
def State.load (s : State) (a n : Nat) : Nat := ofBytesLE (s.bytes a n)

/-- Store the low `n` bytes of `v` at `a` (R6). -/
def State.store (s : State) (a n v : Nat) : State := s.setBytes a (bytesLE n v)

/-- Every byte of `[a, a + n)` set to 0. -/
def State.zeroMem (s : State) (a n : Nat) : State :=
  (s.withMem (SMap.keep (fun k => decide (k < a) || decide (a + n ≤ k)) s.mem))

/-- Set each listed byte, moved from `src` to `dst`. -/
def State.putCells (s : State) (src dst : Nat) : List Host.Cell → State
  | [] => s
  | c :: cs => (s.setByte (c.1 - src + dst) c.2).putCells src dst cs

/-- The `n` bytes from `src` copied to `dst`. -/
def State.copyMem (s : State) (src dst n : Nat) : State :=
  (s.zeroMem dst n).putCells src dst (SMap.keep (fun k => decide (src ≤ k) && decide (k < src + n)) s.mem)

/-! ## Unordered writers (R42)

DESIGN CHOICE (log 109): two writes are unordered where no token operation, launch or reset took effect between them, or where a mover was
under way from before the other's write. -/

/-- The first and last aligned 32-byte words that `[a, a + n)` touches, and the words. -/
def wordSpan (a n : Nat) : Nat × Nat := (a / 32, (a + n - 1) / 32)
def wordsFrom (lo hi : Nat) : List Nat := (List.range (hi + 1 - lo)).map (lo + ·)

/-- Who wrote word `w` last since a token operation last took effect. -/
def State.lastWriter (s : State) (w : Nat) : Option Nat :=
  (s.recent.find? fun x => decide ((wordSpan x.at_ x.len).1 ≤ w) && decide (w ≤ (wordSpan x.at_ x.len).2)).map (·.who)

/-- The words of `[a, a + n)` that a writer other than `who` wrote last. -/
def State.rivals (s : State) (who a n : Nat) : List Nat :=
  if n = 0 then []
  else
    ((s.recent.flatMap fun x =>
      wordsFrom (Nat.max (wordSpan a n).1 (wordSpan x.at_ x.len).1) (Nat.min (wordSpan a n).2 (wordSpan x.at_ x.len).2)).eraseDups).filter
      fun w => s.lastWriter w != some who

/-- Words `ws` of `[a, a + n)` hold what they now do or what they did in `old`: which is a free value for each. -/
def State.mixWords (s old : State) (a n : Nat) (ws : List Nat) : State :=
  s.each (fun (w : Nat) s =>
    let lo := Nat.max a (32 * w)
    let hi := Nat.min (a + n) (32 * w + 32)
    let (f, s) := s.free
    if bitAt f 0 then s else s.setBytes lo (old.bytes lo (hi - lo))) ws

/-- A write of `[a, a + n)` is kept in mind. -/
def State.noteWrite (s : State) (who a n : Nat) : State := if n = 0 then s else s.withRecent (⟨a, n, who⟩ :: s.recent)

/-- `put` writes `[a, a + n)` for writer `who`: each word that an unordered writer wrote before has one writer's value (R42). -/
def State.writeBy (s : State) (who a n : Nat) (put : State → State) : State :=
  ((put s).mixWords s a n (s.rivals who a n)).noteWrite who a n

/-- The writers of R42: a tile, by its stores and sends; a port's trains; SA; a ring's movement; a packet's message; a stream. -/
def whoTile (t : Nat) : Nat := t
def whoPort (p : Nat) : Nat := 0x400 + p
def whoSa : Nat := 0x410
def whoTrace (c : Nat) : Nat := 0x420 + c
def whoJob (f r id : Nat) : Nat := 0x1000 + (id * 17 + f) * 4 + r
def whoStream (m o idx : Nat) : Nat := 2 ^ 80 + (m * 32 + o) * 16384 + idx

/-- Address of byte `a` of logical tile `t`'s data SRAM (R35). -/
def tileAddr (t a : Nat) : Nat := 0x100000000000 + t * 0x800000 + a

/-- Base of M-die `m`'s staging SRAM (R35). -/
def stagingAddr (m : Nat) : Nat := 0x180000000000 + m * 0x2000000

/-- Base of bank `b` of port `p`'s timetable (R35). -/
def portBank (p : Nat) (b : Bool) : Nat := 0x200000000000 + p * 0x1000000 + b2n b * 0x400000

/-- Base of bank `b` of J-die `j`'s schedule (R35). -/
def junctionBank (j : Nat) (b : Bool) : Nat := 0x200010000000 + j * 0x1000000 + b2n b * 0x100000

/-- Key of bank `b` of M-die `m`'s stream programs: outside the 48-bit map, since R354 reaches it only indirectly. -/
def streamBank (m : Nat) (b : Bool) : Nat := 0x1000000000000 + m * 0x1000000 + b2n b * 0x800000

/-- Key of bank `b` of tile `t`'s instructions: outside the 48-bit map (R81). -/
def instrBank (t : Nat) (b : Bool) : Nat := 0x2000000000000 + t * 0x100000 + b2n b * 0x80000

/-- Key of the full-static save area of context `c`, tile `t` (R412; its place in HBM is the loader's). -/
def saveArea (c t : Nat) : Nat := 0x4000000000000 + (c * 768 + t) * 0x800000

/-- The staged object's bytes (R539). -/
def stageArea : Nat := 0x8000000000000

/-- Regions of the module-local map (R35). -/
inductive Region where
  | hbm | sram | staging | bank | regs | tokens | unmapped
deriving DecidableEq, Repr

/-- The region that holds a module-local address (R35). -/
def regionOf (a : Nat) : Region :=
  if a < 0x20000000000 then .hbm
  else if 0x100000000000 ≤ a ∧ a < 0x100180000000 then .sram
  else if 0x180000000000 ≤ a ∧ a < 0x180020000000 then .staging
  else if 0x200000000000 ≤ a ∧ a < 0x200006000000 then
    (if a % 0x1000000 < 0x800000 then .bank else .unmapped)
  else if 0x200010000000 ≤ a ∧ a < 0x200014000000 then
    (if a % 0x1000000 < 0x200000 then .bank else .unmapped)
  else if 0x300000000000 ≤ a ∧ a < 0x300100000000 then .regs
  else if 0x3F0000000000 ≤ a ∧ a < 0x3F0000040000 then .tokens
  else .unmapped

/-! ## Event reports -/

/-- A die's report enters its event queue (R460): with 48 entries held notices are dropped, with 64 errors as well. What a dropped
report stops is kept for the EVENTS_DROPPED report that counts it (R104; log 92). -/
def State.report (s : State) (x : Report) : State :=
  s.updDie x.die fun d =>
    let n := d.queue.length
    if 64 ≤ n ∨ (48 ≤ n ∧ !Ev.isError x.code) then
      { d with dropped := d.dropped + 1, stops := d.stops ++ (if x.stop then [⟨x.part, x.code, .fault⟩] else []) ++ x.stops }
    else { d with queue := d.queue ++ [x] }

/-- A report with no partition. -/
def State.note (s : State) (die code : Nat) (items : List Nat) : State :=
  s.report { code := code, die := die, items := items }

/-- A report that concerns partition `p`. -/
def State.noteP (s : State) (die p code : Nat) (items : List Nat) : State :=
  s.report { code := code, die := die, part := p, items := items }

/-- A report whose rule stops partition `p` (R104, R469). -/
def State.fail (s : State) (die p code : Nat) (items : List Nat) : State :=
  s.report { code := code, die := die, part := p, items := items, stop := true }

/-- Die indexes (R12). -/
def cDie (c : Nat) : Nat := 2 + c
def jDie (j : Nat) : Nat := 6 + j

/-- A J-die is ready, so that the C-dies reach one another and the other dies (R15). -/
def State.someJunction (s : State) : Bool := (List.range 4).any fun j => s.ready (jDie j)
def lDie (p : Nat) : Nat := 10 + p
def mDie (m : Nat) : Nat := 16 + m

/-- Bytes of a number of `8·n` bits placed at byte `k`. -/
def atByte (k n v : Nat) : Nat := (v % 2 ^ (8 * n)) * 2 ^ (8 * k)

/-- The items of a log entry, five at most (R463). -/
def itemsNat : Nat → List Nat → Nat
  | 0, _ => 0
  | _, [] => 0
  | k + 1, x :: xs => x % 2 ^ 64 + 2 ^ 64 * itemsNat k xs

/-- A log entry (R463). -/
def logEntry (idx code die part ftc : Nat) (items : List Nat) (held flags : Nat) : BitVec 512 :=
  BitVec.ofNat 512 (atByte 0 4 idx + atByte 4 2 code + atByte 6 1 die + atByte 7 1 part + atByte 8 8 ftc +
    itemsNat 5 items * 2 ^ 128 + atByte 56 4 held + atByte 60 1 flags)

/-- A wake condition (R498, R499): the first one that occurs in M1 to M3, or during an entry, is held. -/
def State.wakeBy (s : State) (code : Nat) : State :=
  let st := match s.power.entering with
    | some k => k
    | none => s.power.mode
  if s.power.wake = none ∧ 1 ≤ st ∧ st ≤ 3 ∧ (code ≠ 5 ∨ st ≤ 2) then
    (s.withPower { s.power with wake := some (code, s.power.entering ≠ none), pgAt := s.clk })
  else s

/-- Something is due on the notify rings (R381): TYPE, ORIGIN, partition, PAYLOAD. -/
def State.addNote (s : State) (type origin part payload : Nat) : State :=
  (s.withNotes (s.notes ++ [⟨type, origin, part, payload⟩]))

/-- The unit of a die that programs stand on: 0 to 5 ports, 6 to 9 J-dies, 10 to 25 M-dies. -/
def dieUnit (d : Nat) : Option Nat :=
  if d < 6 then none else if d < 10 then some d else if d < 16 then some (d - 10) else some (d - 6)

/-- The dies that an entry names: the one it comes from, and of DIE_FAILED the failed one (R474). -/
def entryDies (code die : Nat) (items : List Nat) : List Nat := if code = Ev.dieFailed then [die, items.headD 0] else [die]

/-- An error entry that names a partition, or a die on which its image holds a segment, counts for it (R450). -/
def countsFor (dies : List Nat) (named : Bool) (im : Option Image) : Bool :=
  named || dies.any fun die => match im, dieUnit die with
    | some im, some u => im.units.contains u
    | _, _ => false

/-- ERROR_EVENTS of a bind whose token has met its threshold goes on for the run it records (R450, R451). -/
def Bind.countError (dies : List Nat) (named : Bool) (b : Bind) : Bind :=
  { b with met := b.met.map fun m =>
      if countsFor dies named m.image then { m with errors := Nat.min (m.errors + 1) 0xFFFFFFFF } else m }

/-- ERROR_EVENTS of each partition that an error entry names or whose segments stand on its die, and of its binds (R450). -/
def State.countError (s : State) (dies : List Nat) (part : Nat) : State :=
  (List.range 16).foldl (fun s p => s.updPart p fun x => { x with
    errors := if countsFor dies (part == p) x.active then Nat.min (x.errors + 1) 0xFFFFFFFF else x.errors
    binds := x.binds.map (Bind.countError dies (part == p)) }) s

/-- Place of trigger condition `k` of TRIG_SEL: 0 MATCH, 1 EVENT, 2 STOP. A trigger reaches unit `c` where its condition is
selected (R552): `o` its place in the list, `n` its log index, `code` its code. -/
def State.triggerUnit (s : State) (c o n code : Nat) : State := s.updTr c fun t => { t with trigs := t.trigs ++ [(o, n, code)] }

/-- An error entry triggers the trace units that watch for it (R552). -/
def State.traceEvent (s : State) (n code : Nat) : State :=
  (List.range 4).foldl (fun s c =>
    let x := s.r (Reg.cnTraceCtrl c)
    let want := s.rf (Reg.cnTraceTrig c) 48 16
    if bitAt x 0 && bitAt x 7 && (want == 0 || want == code) then s.triggerUnit c 1 n code else s) s

/-- An all-stop triggers the trace units that watch for one (R552). -/
def State.traceStop (s : State) (n : Nat) : State :=
  (List.range 4).foldl (fun s c =>
    let x := s.r (Reg.cnTraceCtrl c)
    if bitAt x 0 && bitAt x 8 then s.triggerUnit c 2 n Ev.allStop else s) s

/-- A logged event that starts a wait-for graph where AUTO is 1 (R562). -/
def State.autoGraph (s : State) (code : Nat) : State :=
  if bitAt (s.r Reg.saWfgCtrl) 1 && (code == Ev.unschedStall || code == Ev.tokenWaitTimeout || code == Ev.seqWatchdog ||
      code == Ev.streamLate) then
    (s.withWfg { s.wfg with due := s.wfg.due ++ [code] })
  else s

/-- The arbiter gives an event its place in the log (R461, R464): its index, FIRST_ERROR, the class's count (R543), the
controller's interrupt (R466). -/
def State.logEvent (s : State) (code die part : Nat) (items : List Nat) (held flags : Nat) : State :=
  let n := s.rf Reg.saEvlogHead 0 32
  let e := logEntry n code die part s.now items held flags
  let s := s.withEvlog (SMap.set (fun _ => (0 : BitVec 512)) s.evlog (n % 4096) e)
  let s := s.wf Reg.saEvlogHead 0 32 (n + 1)
  let body := n % 2 ^ 32 + code % 65536 * 2 ^ 32 + die * 2 ^ 48 + part * 2 ^ 56 + e.toNat % 2 ^ 320 * 2 ^ 64
  let s := (s.addNote 1 0 part body).autoGraph code
  if Ev.isError code then
    let s := s.traceEvent n code
    let s := (s.add64 (Reg.saErrCount (Ev.cls code)) 1).countError (entryDies code die items) part
    let s := if bitAt (s.r Reg.saFirstError) 32 then s else s.w Reg.saFirstError (BitVec.ofNat 64 (n + 2 ^ 32))
    let s := if bitAt (s.r Reg.saPmCtrl) 0 then s.wakeBy 8 else s
    if bitAt (s.r Reg.saEvlogCtrl) 1 then s.updI3cT 0 fun t => { t with ibi := true } else s
  else s

/-! ## Register accesses -/

/-- The code a direct write of a class X or K register is recorded with (R33, R423, R533, R574, R579). -/
def directWriteCode (key : Nat) (c : RegClass) : Nat :=
  let w := key / 0x1000000
  let o := key % 0x1000000
  if w = 0 ∧ (o = 8 ∨ o = 0xA00000) then Ev.positionDirectWrite
  else if c = .x then Ev.configDirectWrite
  else if w = 0 ∧ 0x810000 ≤ o then Ev.protectedDirectWrite
  else Ev.partitionDirectWrite

/-- The register a 4-byte-aligned key falls in, its row, and whether the key names its high half. -/
def coverRow (key : Nat) : Option (Nat × RegRow × Bool) :=
  match regRow key with
  | some r => some (key, r, false)
  | none =>
    if key % 8 = 4 then
      match regRow (key - 4) with
      | some r => if r.width = 64 then some (key - 4, r, true) else none
      | none => none
    else none

/-- What a class does not permit an interface (R579): the cause of R591 and the code recorded. -/
def classDenies (key : Nat) (c : RegClass) (i : Iface) (write : Bool) : Option (Nat × Nat) :=
  match c with
  | .a => none
  | .o => none
  | .d => if i = .i3cSa ∨ i = .i3cSb then some (3, Ev.addrAccessClass) else none
  | .f =>
    if write = true ∧ i ≠ .sa then
      (if 16 ≤ key / 0x1000000 ∧ key / 0x1000000 ≤ 21 ∧ key % 0x1000000 = 0x200C then some (7, Ev.configDirectWrite)
       else some (3, Ev.addrAccessClass))
    else none
  | .s => if i ≠ .sa then some (3, Ev.addrAccessClass) else none
  | .x => if write then some (7, directWriteCode key c) else none
  | .k => if write then some (7, directWriteCode key c) else none

/-- A warm reset is in progress (R510). -/
def State.warmBusy (s : State) : Bool :=
  s.power.resets.any fun r => r.1 == 2

/-- Why no part of an access is carried out: cause of R591, code recorded (0 for none), value a read returns. The die's state is
judged before the offset (R582); alignment (R10) before both. -/
def State.barred (s : State) (i : Iface) (key : Nat) (wide : Bool) : Option (Nat × Nat × W64) :=
  let w := key / 0x1000000
  let d := dieOfWindow w
  let ones : W64 := if wide then BitVec.ofNat 64 (2 ^ 64 - 1) else 0xFFFFFFFF
  if key % (if wide then 8 else 4) ≠ 0 then some (1, Ev.regAccessAlign, 0)
  else if i = .i3cSb ∧ w ≠ 1 then some (3, Ev.addrAccessClass, 0)
  else if windowRows w = [] then some (2, Ev.addrUnmapped, 0)
  else if s.warmBusy ∧ i = .pf then some (8, 0, 0)
  else if d ≠ 0 ∧ !(i = .i3cSb) ∧ !s.ready d then some (4, 0, ones)
  else if w = 0 ∧ 0x508000 ≤ key ∧ key < 0x548000 then none
  else if coverRow key = none ∧ (wide = false ∨ coverRow (key + 4) = none) then some (2, Ev.addrUnmapped, 0)
  else none

/-- Why an access is not carried out: `barred`, or the class of the first register it covers. -/
def State.regDenied (s : State) (i : Iface) (key : Nat) (write wide : Bool) : Option (Nat × Nat × W64) :=
  match s.barred i key wide with
  | some x => some x
  | none =>
    match coverRow key, (if wide then coverRow (key + 4) else none) with
    | some (k, r, _), _ => (classDenies k r.cls i write).map fun p => (p.1, p.2, 0)
    | none, some (k, r, _) => (classDenies k r.cls i write).map fun p => (p.1, p.2, 0)
    | none, none => none

/-- Capture of a register fault (R590, R591). -/
def State.capture (s : State) (i : Iface) (key cause : Nat) (write wide : Bool) : State :=
  if s.power.down then s
  else
    let s := s.inc Reg.saRegFaultCount
    if bitAt (s.r Reg.saRegFault) 63 then s
    else (s.w Reg.saRegFault (BitVec.ofNat 64 ((0x300000000000 + key) % 2 ^ 48 + i.code * 2 ^ 48 + cause * 2 ^ 50 +
      b2n write * 2 ^ 54 + b2n wide * 2 ^ 55))).hwSet Reg.saRegFault (BitVec.ofNat 64 (2 ^ 63))

/-- An access not carried out: its capture and its event. -/
def State.denyReg (s : State) (i : Iface) (key : Nat) (write wide : Bool) (cause code : Nat) : State :=
  let s := s.capture i key cause write wide
  if code = 0 then s else s.note 0 code [(0x300000000000 + key) % 2 ^ 48]

/-- Nothing answers interface `i`: the module is off, or SA is down and the access is not through SB's own target (R475, R501,
R585). -/
def State.offline (s : State) (i : Iface) : Bool := s.power.mode == 4 || (s.power.down && !(i == .i3cSb))

/-- A write by interface `i`: `act` is what the register does with it. A BAR write is a wake source (R499). -/
def State.regWrite (s : State) (i : Iface) (key : Nat) (wide : Bool) (act : State → State) : State :=
  if s.offline i then s
  else
    let s := if i = .pf then s.wakeBy 1 else s
    match s.regDenied i key true wide with
    | some (cause, code, _) => s.denyReg i key true wide cause code
    | none => act s

/-- The value an interface's last read returned. -/
def State.answer (s : State) (i : Iface) (v : W64) : State :=
  (s.withReadData (SMap.set (fun _ => (0 : W64)) s.readData i.code v))

/-- A read by interface `i`: `act` returns the value and the state after its effect. -/
def State.regRead (s : State) (i : Iface) (key : Nat) (wide : Bool) (act : State → W64 × State) : State :=
  if s.offline i then s
  else
    match s.regDenied i key false wide with
    | some (cause, code, v) => (s.denyReg i key false wide cause code).answer i v
    | none => let (v, s) := act s; s.answer i v

/-- A register after a write of `v` where `m` marks the bits the access covers (R7); `keep`: W1C bits that an event set in the
same tick, which stay 1 (R9). -/
def RegRow.after (r : RegRow) (m : Nat) (keep old v : W64) : W64 :=
  let rw := BitVec.ofNat 64 r.rw &&& BitVec.ofNat 64 m
  let c := BitVec.ofNat 64 r.w1c &&& BitVec.ofNat 64 m
  let t := BitVec.ofNat 64 r.w1s &&& BitVec.ofNat 64 m
  (((old &&& ~~~rw) ||| (v &&& rw)) &&& ~~~(v &&& c &&& ~~~keep)) ||| (v &&& t)

/-- A direct write of `v` to register `k`, under a transaction that has applied in this tick: its bits stand (R529). -/
def State.under (s : State) (k : Nat) (v : W64) : W64 :=
  let m := SMap.get (fun _ => (0 : W64)) s.txnNow k
  (v &&& ~~~m) ||| (s.r k &&& m)

/-- A 32-bit write of one register or one half of it (R580). -/
def State.write32 (s : State) (key : Nat) (v : W32) : State :=
  match coverRow key with
  | none => s
  | some (k, r, hi) =>
    if r.cls = .o then s
    else if hi then s.w k (r.after 0xFFFFFFFF00000000 (s.setBits k) (s.r k) (s.under k (v.zeroExtend 64 <<< 32)))
    else s.w k (r.after 0xFFFFFFFF (s.setBits k) (s.r k) (s.under k (v.zeroExtend 64)))

/-- A write of a register with no behaviour of its own (R7, R580): the lower register first. -/
def State.writeReg (s : State) (key : Nat) (wide : Bool) (v : W64) : State :=
  if wide then
    match coverRow key with
    | some (k, r, false) =>
      if r.width = 64 then (if r.cls = .o then s else s.w k (r.after (2 ^ 64 - 1) (s.setBits k) (s.r k) (s.under k v)))
      else (s.write32 key (v.setWidth 32)).write32 (key + 4) ((v >>> 32).setWidth 32)
    | _ => (s.write32 key (v.setWidth 32)).write32 (key + 4) ((v >>> 32).setWidth 32)
  else s.write32 key (v.setWidth 32)

end Sys2Proof.Machine
end

