-- ==== Sys2Proof/Machine/PartOps.lean ====
section
/-!
DEFINITION. Operations on partitions as wholes: who owns what, finishing a descriptor, arming and disarming, originating
newts, and all-stop as ONE shared operation (R467 to R470).
-/
namespace Sys2Proof.Machine
open Sys2Proof

/-! ## Ownership (R25, R26, R94, R402) -/

/-- Partition state of R399: 0 no image, 1 loaded, 2 armed, 3 running, 4 parked, 5 stopped. -/
def State.partState (s : State) (p : Nat) : Nat := s.rf (Reg.saPartStatus p) 0 3

def State.setPartState (s : State) (p v : Nat) : State := s.wf (Reg.saPartStatus p) 0 3 v

/-- Quarter mask of partition `p`. -/
def State.quarters (s : State) (p : Nat) : Nat := s.rf (Reg.saPartQuarters p) 0 16

/-- Partition `p` holds quarter `q`. -/
def State.hasQuarter (s : State) (p q : Nat) : Bool := bitAt (s.r (Reg.saPartQuarters p)) q

/-- The first of `ps` that satisfies `f`. -/
def firstP (f : Nat → Bool) : List Nat → Option Nat
  | [] => none
  | p :: ps => if f p then some p else firstP f ps

/-- The partition that holds quarter `q`, if any. -/
def State.partOfQuarter (s : State) (q : Nat) : Option Nat := firstP (fun p => s.hasQuarter p q) (List.range 16)

/-- The partition of logical tile `t` (R19, R25). -/
def State.partOfTile (s : State) (t : Nat) : Option Nat := s.partOfQuarter (t / 48)

/-- Number of a partition in a log entry (R463). -/
def partNum : Option Nat → Nat
  | some p => p
  | none => 255

/-- The partition a token is assigned to (R94). -/
def State.partOfToken (s : State) (k : Nat) : Option Nat :=
  let b := s.r (Reg.cnTokenBlock (k / 4096) (k % 4096 / 256))
  if bitAt b 31 then some (fld b 0 4) else none

/-- The tokens of partition `p`, lowest first: those of its blocks of 256 (R94). -/
def State.tokensOf (s : State) (p : Nat) : List Nat :=
  ((List.range 64).filter fun b => s.partOfToken (256 * b) = some p).flatMap fun b => (List.range 256).map fun i => 256 * b + i

/-- `[a, a + n)` lies in the address set of partition `p` (R26): its stacks' HBM, its tiles' SRAM, its staging SRAM. -/
def State.inPart (s : State) (p a n : Nat) : Bool :=
  match regionOf a with
  | .hbm => s.hasQuarter p (a / 0x2000000000) && s.hasQuarter p ((a + n - 1) / 0x2000000000) &&
      decide ((a + n - 1) / 0x2000000000 = a / 0x2000000000 ∨
        (List.range ((a + n - 1) / 0x2000000000 - a / 0x2000000000)).all (fun i => s.hasQuarter p (a / 0x2000000000 + i)) = true)
  | .sram =>
      let t0 := (a - 0x100000000000) / 0x800000
      let t1 := (a + n - 1 - 0x100000000000) / 0x800000
      decide (a + n ≤ 0x100180000000) && (List.range (t1 / 48 - t0 / 48 + 1)).all fun i => s.hasQuarter p (t0 / 48 + i)
  | .staging =>
      let m0 := (a - 0x180000000000) / 0x2000000
      let m1 := (a + n - 1 - 0x180000000000) / 0x2000000
      decide (a + n ≤ 0x180020000000) && (List.range (m1 - m0 + 1)).all fun i => s.hasQuarter p (m0 + i)
  | _ => false

/-- Job key of partition `p`. -/
def State.jobKey (s : State) (p : Nat) : Nat := s.rf (Reg.saPartJobKey p) 0 16

/-- The logical tiles of partition `p`. -/
def State.tilesOf (s : State) (p : Nat) : List Nat :=
  (List.range 768).filter fun t => s.hasQuarter p (t / 48)



/-! ## Descriptors in flight -/

def ringKey (f r : Nat) : Nat := f * 4 + r

def updJob (id : Nat) (g : Job → Job) : List Job → List Job
  | [] => []
  | j :: js => if j.id = id then g j :: js else j :: updJob id g js

/-- A dispatched descriptor finishes (R380): its completion is due. -/
def State.finishJob (s : State) (f r id cls code d0 result d1 : Nat) : State :=
  s.updRing (ringKey f r) fun q => { q with jobs := updJob id (fun j =>
    { j with phase := 2, cls := cls, code := code, d0 := d0, result := result, d1 := d1 }) q.jobs }

/-- Finish the command that armed something, where its ring still holds it (R401). -/
def State.finishArmed (s : State) (a : Armed) (cls code result : Nat) : State :=
  match a.ring with
  | some (f, r, id) => s.finishJob f r id cls code 0 result 0
  | none => s

/-! ## Walkers (R221): units 0 to 5 are ports, 6 to 9 J-dies, 10 to 25 M-dies -/

def walkKey (unit owner kind : Nat) : Nat := unit * 64 + owner * 2 + kind

/-- Every (unit, kind) that can run a walker. -/
def walkUnits : List (Nat × Nat) :=
  (List.range 26).flatMap fun u => if u < 6 then [(u, 0), (u, 1)] else [(u, 0)]

/-- A walker stops (STATE 3); its dispatched entries do not act. -/
def Walker.halt (w : Walker) : Walker := { w with state := 3, dispatched := [] }

/-- A walker begun before a restart stops; one that has not begun stays so. -/
def Walker.haltBegun (w : Walker) : Walker := if w.state = 0 then {} else w.halt

/-- Every walker of owner `o` stops, those begun before a restart as well (R467). -/
def State.stopWalkers (s : State) (o : Nat) : State :=
  s.each (fun uk s => let k := walkKey uk.1 o uk.2
    (s.updWalker k Walker.halt).setPreWalker k (s.preWalker k).haltBegun) walkUnits

/-- The cells of owner `o` that stand matched in the holds are discarded and counted (R206, R467 step 3). -/
def State.countHeld (s : State) (o : Nat) : State :=
  s.each (fun p s => s.incBy (Reg.lnLateCellDrop p)
    ((s.port p).expects.filter fun d => d.owner = o ∧ d.cell ≠ none).length) (List.range 6)

/-- No cell of owner `o` departs; nothing of it waits at a port (R467). -/
def State.clearPorts (s : State) (o : Nat) : State :=
  ((s.withTransits (s.transits.filter fun d => d.owner ≠ o)).withSramReads (s.sramReads.filter fun d => d.move.owner ≠ o)).each (fun p s => s.updPort p fun x => { x with
    departs := x.departs.filter (fun d => d.owner ≠ o)
    fwd := x.fwd.filter (fun d => d.owner ≠ o)
    expects := x.expects.filter (fun d => d.owner ≠ o)
    operands := x.operands.filter (fun d => d.owner ≠ o)
    toTile := x.toTile.filter (fun d => d.owner ≠ o) }) (List.range 6)

/-- L-die `q` no longer discards the cells of owner `o` (R206). -/
def State.takeAgain (s : State) (q o : Nat) : State := s.updPort q fun x => { x with lateOf := x.lateOf.filter fun z => z ≠ o }

/-- Streams of owner `o` are abandoned with no arrive (R467). -/
def State.dropStreams (s : State) (o : Nat) : State :=
  (s.withSpent (s.spent.filter fun y => y.2.owner ≠ o)).each (fun m s => s.updStrm m fun xs => xs.filter fun x => x.owner ≠ o) (List.range 16)

/-- A tile stops (R467, R104): a faulted tile stays in FAULT. -/
def Tile.stop (lct : Nat) (t : Tile) : Tile :=
  if t.state = 5 ∨ t.state = 6 then t else { t with state := 5, wait := none, stoppedAt := lct }

/-- Tile `t` stops. -/
def State.stopTile (s : State) (t : Nat) : State := s.updTile t (Tile.stop (s.r (Reg.cnLct (t / 192))).toNat)

/-- Every tile of partition `p` stops, keeping its registers and SRAM. -/
def State.stopTiles (s : State) (p : Nat) : State := s.each (fun t s => s.stopTile t) (s.tilesOf p)

/-! ## Banks (R242, R249): the status register of each unit's pair -/

/-- The bank register of a unit: `Ln.TT_BANK`, `Jn.JN_BANK` or `Mn.ST_BANK`. -/
def bankReg (u : Nat) : Nat :=
  if u < 6 then Reg.lnTtBank u else if u < 10 then Reg.jnJnBank (u - 6) else Reg.mnStBank (u - 10)

def armFtcReg (u : Nat) : Nat :=
  if u < 6 then Reg.lnTtArmFtc u else if u < 10 then Reg.jnJnArmFtc (u - 6) else Reg.mnStArmFtc (u - 10)

def armOwnersReg (u : Nat) : Nat :=
  if u < 6 then Reg.lnTtArmOwners u else if u < 10 then Reg.jnJnArmOwners (u - 6) else Reg.mnStArmOwners (u - 10)

def loadStatusReg (u : Nat) : Nat :=
  if u < 6 then Reg.lnTtLoadStatus u else if u < 10 then Reg.jnJnLoadStatus (u - 6) else Reg.mnStLoadStatus (u - 10)

/-- The die of a unit. -/
def unitDie (u : Nat) : Nat := if u < 6 then lDie u else if u < 10 then jDie (u - 6) else mDie (u - 10)

def State.bankActive (s : State) (u : Nat) : Bool := bitAt (s.r (bankReg u)) 0
def State.bankStandby (s : State) (u : Nat) : Nat := s.rf (bankReg u) 1 3
def State.setStandby (s : State) (u v : Nat) : State := s.wf (bankReg u) 1 3 v
def State.bankSame (s : State) (u : Nat) : Bool := bitAt (s.r (bankReg u)) 4

/-- Base key of bank `b` of unit `u`, and the bytes of an entry there. -/
def unitBank (u : Nat) (b : Bool) : Nat :=
  if u < 6 then portBank u b else if u < 10 then junctionBank (u - 6) b else streamBank (u - 10) b

def entryBytes (u : Nat) : Nat := if u < 10 then 16 else 32

/-- Entry `e` of bank `b` of unit `u`. -/
def State.entry (s : State) (u : Nat) (b : Bool) (e : Nat) : BitVec 256 :=
  BitVec.ofNat 256 (s.load (unitBank u b + e * entryBytes u) (entryBytes u))

/-- Units whose standby bank is armed for tick `x`. -/
def State.armedUnits (s : State) (x : Nat) : List Nat :=
  (List.range 26).filter fun u => s.bankStandby u = 4 ∧ (s.r (armFtcReg u)).toNat = x

/-- The owners that an armed command of partition `p` restarts (R245, R250). -/
def Armed.owners (a : Armed) (p : Nat) : List Nat :=
  (if a.restart then [p + 1] else []) ++ (((List.range 16).drop 1).filter fun g => a.grants / 2 ^ g % 2 = 1).map fun g => 16 + g

/-- What the walkers that began before a restart at `x` have prepared is dropped (R64, R224). -/
def State.dropBegun (s : State) (us os : List Nat) (x : Nat) : State :=
  s.each (fun u s =>
    let late := fun (w : Walker) => { w with dispatched := w.dispatched.filter fun d => !(d.bank != s.bankActive u && decide (x ≤ d.tick)) }
    let s := s.each (fun o s => (((s.setPreWalker (walkKey u o 0) {}).setPreWalker (walkKey u o 1) {}).updWalker
      (walkKey u o 0) late).updWalker (walkKey u o 1) late) os
    if u < 6 then s.updPort u fun q => { q with
      departs := q.departs.filter fun d => !(os.contains d.owner && decide (x ≤ d.tick))
      expects := q.expects.filter fun d => !(os.contains d.owner && decide (x ≤ d.depart)) }
    else s) us

/-- An armed command of partition `p` is withdrawn: its banks return to VALID (R245, R393). -/
def State.disarmOne (s : State) (p : Nat) (a : Armed) : State :=
  let s := s.updPart p fun x => { x with
    armed := x.armed.erase a, tileStandby := if a.restart && x.tileStandby == 4 then 3 else x.tileStandby }
  let s := if a.restart && s.partState p == 2 then s.setPartState p a.prev else s
  let s := s.dropBegun a.units (a.owners p) a.tick
  s.each (fun u s => ((s.setStandby u 3).w (armFtcReg u) 0).w (armOwnersReg u) 0) (a.units.filter fun u => s.bankStandby u = 4)

/-- Everything that partition `p` has armed is withdrawn. -/
def State.disarm (s : State) (p : Nat) : State := s.each (fun a s => s.disarmOne p a) (s.part p).armed

/-! ## Newts the module originates (R340) -/

/-- A newt's header and body as one word. -/
def newtOf (type scope dst src origin nseq ttl : Nat) (body : Nat) : Newt :=
  BitVec.ofNat 512 (atByte 0 1 type + atByte 1 1 scope + atByte 2 2 dst + atByte 4 2 src + atByte 6 2 origin +
    atByte 8 2 nseq + atByte 10 1 ttl + body * 2 ^ 128)

def nwType (n : Newt) : Nat := fld n 0 8
def nwScope (n : Newt) : Nat := fld n 8 2
def nwDst (n : Newt) : Nat := fld n 16 15
def nwOrigin (n : Newt) : Nat := fld n 48 12
def nwNseq (n : Newt) : Nat := fld n 64 16
def nwTtl (n : Newt) : Nat := fld n 80 8
/-- Body bytes `k` to `k + n - 1`. -/
def nwBody (x : Newt) (k n : Nat) : Nat := fld x (128 + 8 * k) (8 * n)

/-- The module's number and coordinates (R32). -/
def State.modNum (s : State) : Nat := s.rf Reg.saFabricPosition 0 12
def State.coords (s : State) : Nat := s.rf Reg.saFabricPosition 12 15

/-- Port state (R289, R310): 4 is UP, 3 siding as `Ln.LINK_STATUS` codes them. -/
def State.linkState (s : State) (p : Nat) : Nat := s.rf (Reg.lnLinkStatus p) 0 3

/-- Put a newt in a port's queue of ALL_STOP newts (R471), else count and record it. -/
def State.queueStop (s : State) (p : Nat) (n : Newt) : State :=
  if (s.port p).newtsStop.length < 4 then s.updPort p fun x => { x with newtsStop := x.newtsStop ++ [n] }
  else (s.inc (Reg.lnNewtDrop p)).note (lDie p) Ev.allStopQueueFull []

/-- Put a newt in a port's broadcast queue of 16 (R343). -/
def State.queueBcast (s : State) (p : Nat) (n : Newt) : State :=
  if (s.port p).newtsBcast.length < 16 then s.updPort p fun x => { x with newtsBcast := x.newtsBcast ++ [n] }
  else s.inc (Reg.lnNewtDrop p)

/-- R343's test of NSEQ against the last seen from the origin at a receiver `u` (0 to 5 the L-dies, 6 SA). -/
def State.newtNew (s : State) (u : Nat) (n : Newt) : Bool :=
  let last := SMap.get (fun _ => 0) s.lastNseq (u * 4096 + nwOrigin n)
  let d := (nwNseq n + 65536 - last) % 65536
  1 ≤ d && d ≤ 32767

def State.sawNewt (s : State) (u : Nat) (n : Newt) : State :=
  (s.withLastNseq (SMap.set (fun _ => 0) s.lastNseq (u * 4096 + nwOrigin n) (nwNseq n)))

/-- Originate a broadcast ALL_STOP (R469, R470). -/
def State.originateStop (s : State) (scope key reason index : Nat) : State :=
  let n := (s.nseq + 1).toNat
  let body := fun p => atByte 0 4 (s.rf (Reg.lnFabricId p) 0 32) + atByte 4 1 scope + atByte 6 2 key + atByte 8 2 reason +
    atByte 12 4 index + atByte 16 8 s.now
  let x := fun p => newtOf 0x10 2 0 s.coords s.modNum n 64 (body p)
  ((s.withNseq (s.nseq + 1)).sawNewt 6 (x 0)).each (fun p s =>
    if s.linkState p = 4 then (s.sawNewt p (x p)).queueStop p (x p) else s) (List.range 6)

/-- The active image's digest. -/
def State.activeDigest (s : State) (p : Nat) : Nat :=
  match (s.part p).active with
  | some im => im.digest.toNat
  | none => 0

/-! ## Host memory and notify entries (R371, R373, R381) -/

/-- The pages of function `f` whose translations are cached. -/
def State.cached (s : State) (f : Nat) : List Nat := SMap.get (fun _ => []) s.ats f

/-- Function `f` has reached `n` bytes of host memory at `a`: the translations of their pages are cached, where ATS is enabled, 1,024 at
most, the latest first (R371, R374; log 35). -/
def State.reachHost (s : State) (f a n : Nat) : State :=
  let ps := (List.range ((a % 4096 + n + 4095) / 4096)).map fun k => a / 4096 + k
  if (s.pcieFn f).ats then
    s.withAts (SMap.set (fun _ => []) s.ats f ((ps ++ (s.cached f).filter fun p => !ps.contains p).take 1024))
  else s

/-- Piece `k` of the bytes `bs` at `a` that a boundary of `n` bytes cuts. -/
def piece (a n k : Nat) (bs : List Byte) : Nat × List Byte :=
  let lo := Nat.max a ((a / n + k) * n)
  (lo, (bs.drop (lo - a)).take ((a / n + k + 1) * n - lo))

/-- The write requests that carry `bs` to `a`: none is longer than the payload limit (R371; log 105). -/
def State.requests (s : State) (f a : Nat) (bs : List Byte) (relaxed : Bool) : List HostWrite :=
  let n := 128 * 2 ^ Nat.min 2 (s.pcieFn f).payload
  (List.range ((a % n + bs.length + n - 1) / n)).map fun k =>
    let x := piece a n k bs
    { fn := f, addr := x.1, bytes := x.2, relaxed := relaxed, translated := (s.cached f).contains (x.1 / 4096) }

/-- Data written to host memory (R371, R373, R374). -/
def State.toHost (s : State) (f a : Nat) (bs : List Byte) : State :=
  (s.withHostOut (s.hostOut ++ s.requests f a bs (s.pcieFn f).relaxed)).reachHost f a bs.length

/-- A completion or a notify entry written: one request, never with Relaxed Ordering (R373). -/
def State.entryToHost (s : State) (f a : Nat) (bs : List Byte) : State :=
  (s.withHostOut (s.hostOut ++ [{ fn := f, addr := a, bytes := bs, relaxed := false
                                  translated := (s.cached f).contains (a / 4096) }])).reachHost f a bs.length

/-- A host memory access of function `f` at `a` that failed (R374). -/
def State.hostError (s : State) (f p a : Nat) : State := s.noteP 0 p Ev.hostAccessError [f, a]

/-! ## MSI-X (R371, R375; log 105) -/

/-- MSI-X vectors of function `f` (R371). -/
def vectors (f : Nat) : Nat := if f = 0 then 64 else 8

/-- Word `k` of a function's MSI-X table: an entry is masked at reset. -/
def PcieFn.word (x : PcieFn) (k : Nat) : W32 := SMap.get (fun k => if k % 4 = 3 then 1 else 0) x.table k

/-- Vector `v` of function `f` is masked. -/
def PcieFn.masked (x : PcieFn) (v : Nat) : Bool := x.msixMask || bitAt (x.word (4 * v + 3)) 0

/-- Vector `v` of function `f` is signalled, or pends while it is masked. -/
def State.signal (s : State) (f v : Nat) : State :=
  let x := s.pcieFn f
  if x.msixOn = false ∨ vectors f ≤ v then s
  else if x.masked v then s.setPcieFn f { x with pend := setFld x.pend v 1 1 }
  else s.withIrqs (s.irqs ++ [(f, v)])

/-- The pending vectors of function `f` that no mask holds are signalled. -/
def State.firePending (s : State) (f : Nat) : State :=
  s.each (fun v s =>
    let x := s.pcieFn f
    if x.msixOn && bitAt x.pend v && !x.masked v then (s.setPcieFn f { x with pend := setFld x.pend v 1 0 }).signal f v else s)
    (List.range (vectors f))

/-- Write one notify entry of function `f`, where its ring is enabled and has room, else count it lost; `ok`: the host takes the write. -/
def State.notifyEntry (s : State) (f type origin : Nat) (payload : Nat) (ok : Bool) : State :=
  let size := 2 ^ s.rf (Reg.rgNrCtrl f) 0 5
  let tail := s.rf (Reg.rgNrTail f) 0 16
  let phase := s.rf (Reg.rgNrTail f) 16 1
  if s.rf (Reg.rgNrCtrl f) 5 1 = 0 then s
  else if (tail + 1) % size = s.rf (Reg.rgNrHead f) 0 16 then
    (s.inc (Reg.rgNrLost f)).updNotif f fun n => { n with lostSince := n.lostSince + 1 }
  else
    let e := atByte 0 1 type + atByte 1 1 phase + atByte 2 2 origin + atByte 4 4 (s.notif f).lostSince +
      atByte 8 8 s.now + payload * 2 ^ 128
    let a := (s.r (Reg.rgNrBase f)).toNat + 64 * tail
    let s := if ok then s.entryToHost f a (bytesLE 64 e) else s.hostError f (if f = 0 then 255 else f - 1) a
    let s := s.signal f (s.rf (Reg.rgNrCtrl f) 8 8)
    let s := s.updNotif f fun n => { n with lostSince := 0 }
    let t := (tail + 1) % size
    s.w (Reg.rgNrTail f) (BitVec.ofNat 64 (t + (if t = 0 then 1 - phase else phase) * 65536))

/-- A RECORD entry is due on the notify rings of the PF and the VF (R391). -/
def State.notifyRecord (s : State) (p sub outcome : Nat) (digest : BitVec 256) (addr : Nat) : State :=
  let body := atByte 0 4 sub + atByte 4 1 outcome + digest.toNat * 2 ^ 64 + atByte 40 8 addr
  s.addNote 3 0 p body

/-- Address of token `k`'s slot (R38). -/
def tokenAddr (k : Nat) : Nat := 0x3F0000000000 + 16 * k

/-- The token of a bind of partition `p` has met its threshold (R391, R451); one outside the partition reads 0 (R26). -/
def State.bindMet (s : State) (p : Nat) (b : Bind) : Bool :=
  b.met.isSome || decide (b.thresh ≤ if s.partOfToken b.token = some p then (s.token b.token).val.toNat else 0)

/-- Bits 1 and 2 of RECORD_FLAGS: lock-step is comparing, a divergence has been reported since the launch (R447, R458). -/
def State.lockFlags (s : State) (p : Nat) : Nat :=
  let st := s.rf (Reg.saLsStatus p) 0 2
  b2n (st == 2) * 2 + b2n (st == 3 || (decide (s.rf (Reg.saLsGaps p) 32 32 ≠ 0) && (s.ls p).narrowing == none)) * 4

/-- The run of partition `p` that a record of now would describe (R447, R450). -/
def State.runNow (s : State) (p : Nat) : BindMet :=
  let x := s.part p
  { ctx := s.rf (Reg.saPartStatus p) 6 6, image := x.active, launch := x.lastLaunch, errors := x.errors, lock := s.lockFlags p }

/-- A bind whose token has met its threshold notes the run that its record describes (R447, R451). -/
def State.meetBind (s : State) (p : Nat) (b : Bind) : Bind :=
  if b.met.isNone && s.bindMet p b then { b with met := some (s.runNow p) } else b

/-- What lock-step has reported of the run that ends is kept in the binds that record it (R447). -/
def State.latchLock (s : State) (p : Nat) : State :=
  let latch := fun (b : Bind) => { b with met := b.met.map fun m =>
    if m.launch = (s.part p).lastLaunch then { m with lock := s.lockFlags p } else m }
  s.updPart p fun x => { x with binds := x.binds.map latch }

/-- Binds of a partition that stops, is reset or is launched again are abandoned (R391), but for those whose threshold has been
met (R451). -/
def State.dropBinds (s : State) (p : Nat) : State :=
  let bs := (s.part p).binds
  let keep := (bs.map (s.meetBind p)).filter fun b => b.met.isSome
  let gone := bs.filter fun b => !s.bindMet p b
  let s := s.updPart p fun x => { x with binds := keep }
  s.each (fun b s => s.notifyRecord p b.sub 1 0 b.rec_) gone

/-- Every bind whose token has met its threshold notes it (R391, R451). -/
def State.noteBinds (s : State) : State :=
  s.each (fun p s => s.updPart p fun x => { x with binds := x.binds.map (s.meetBind p) }) (List.range 16)

/-! ## Stopping -/

/-- Incomplete WAITs on a function's ring end as ABORTED, with the code of what ends them (R383, R398). -/
def abortWaits (code : Nat) : List Job → List Job
  | [] => []
  | j :: js => (if j.phase ≤ 1 ∧ fld j.desc 0 8 = 0x0A then { j with phase := 2, cls := 4, code := code } else j) :: abortWaits code js

/-- The rota of `p` ends with STATE `st` (R417). -/
def State.endRota (s : State) (p st : Nat) : State :=
  match (s.part p).rota with
  | none => s
  | some _ => ((s.updPart p fun x => { x with rota := none }).wf (Reg.saRotaStatus p) 14 2 st).w (Reg.saRotaNextX p) 0

/-- Cells of partition `p` that have not left an injection unit are discarded (R467); a DMA they belong to ends as ABORTED with the code
of what ends it (R383). -/
def State.dropInject (s : State) (p code : Nat) : State :=
  let gone := (s.inj 0).msgs.filter fun m => m.part = p
  let s := s.each (fun u s => s.updInj u fun x => { x with
    cells := x.cells.filter (fun c => (x.msgs.filter fun m => m.part = p ∧ m.id = c.src) = [])
    msgs := x.msgs.filter (fun m => m.part ≠ p) }) (List.range 5)
  s.each (fun (m : Msg) s => match m.job with
    | some (f, r, id) => s.finishJob f r id 4 code 0 0 0
    | none => s) gone

/-- The units of a partition halt (R467 steps 1 to 4). -/
def State.haltUnits (s : State) (p code : Nat) : State :=
  let s := (((((s.stopTiles p).stopWalkers (p + 1)).countHeld (p + 1)).clearPorts (p + 1)).dropStreams (p + 1)).dropInject p code
  s.updPart p fun x => { x with discardBefore := some (2 ^ 64) }

/-- STOP and all-stop withdraw an armed command more than 4,096 ticks away (R398, R467). -/
def State.stopArmed (s : State) (p : Nat) : State :=
  s.each (fun (a : Armed) s =>
    if s.now + 4096 < a.tick then (s.disarmOne p a).finishArmed a 5 Ev.cancelledByHost 0 else s) (s.part p).armed

/-- An incomplete STOP of partition `p` on a ring of function `f` completes as OK with the FTC (R398). -/
def finishStops (f p now : Nat) : List Job → List Job
  | [] => []
  | j :: js =>
    (if j.phase = 1 ∧ fld j.desc 0 8 = 0x11 ∧ (f ≠ 0 ∨ fld j.desc 16 4 = p) then { j with phase := 2, result := now } else j) ::
      finishStops f p now js

/-- Every tile of partition `p` has stopped: the STOPs that wait for it complete (R398). -/
def State.stopsDone (s : State) (p : Nat) : State :=
  s.each (fun r s =>
    (s.updRing (ringKey (p + 1) r) fun q => { q with jobs := finishStops (p + 1) p s.now q.jobs }).updRing (ringKey 0 r) fun q =>
      { q with jobs := finishStops 0 p s.now q.jobs }) (List.range 4)

/-- What an all-stop does to partition `p` for `reason` (R467): it is halted and its stop noted; a changeover at most 4,096 ticks away
takes place, and the stop follows it. -/
def State.haltPart (s : State) (p reason origin index : Nat) (remote : Bool) : State :=
  let s := s.stopArmed p
  let s := s.updPart p fun x => { x with stopAfter := if x.armed.isEmpty then none else some ⟨reason, origin, index, remote, true⟩ }
  let s := s.haltUnits p reason
  let s := s.endRota p 3
  let s := s.each (fun r s => s.updRing (ringKey (p + 1) r) fun q => { q with jobs := abortWaits reason q.jobs }) (List.range 4)
  let s := s.dropBinds p
  let s := s.wf (Reg.saStopStatus p) 0 2 (1 + b2n remote * 2)
  let s := s.wf (Reg.saStopStatus p) 16 16 reason
  let s := s.updPart p fun x => if x.firstStop = 0 then { x with firstStop := reason } else x
  let s := if 1 ≤ s.partState p ∧ s.partState p ≤ 4 then s.setPartState p 5 else s
  s.stopsDone p

/-- ALL_STOP is reported by SA (R461, R469). -/
def State.reportStop (s : State) (p reason origin index : Nat) (remote : Bool) : State :=
  s.report { code := Ev.allStop, die := 0, part := p, items := [reason, origin, index], flags := b2n remote + 2 }

/-- All-stop of partition `p` (R467, R469): `reason` and `index` are the cause's code and log index, `origin` the module
it came from, `remote` whether it came in an ALL_STOP newt. -/
def State.allStop (s : State) (p reason origin index : Nat) (remote : Bool) : State :=
  (s.haltPart p reason origin index remote).reportStop p reason origin index remote

/-- All-stop with propagation where the partition's cause asks for it (R469). -/
def State.allStopProp (s : State) (p reason index : Nat) : State :=
  let s := s.allStop p reason s.modNum index false
  if bitAt (s.r (Reg.saStopCtrl p)) 0 ∧ s.jobKey p ≠ 0 then s.originateStop 1 (s.jobKey p) reason index else s

/-- A host STOP or a stop that SA makes of itself is asked for (R398, R458, R469): HOST_STOP is recorded first and is the cause. -/
def State.hostStop (s : State) (p : Nat) : State :=
  s.report { code := Ev.hostStop, die := 0, part := p, flags := 2, stops := [⟨p, Ev.hostStop, .host⟩] }

/-- A STOP whose HOST_STOP has log index `n` (R398): it follows a changeover that is at most 4,096 ticks away. -/
def State.stopNow (s : State) (p n : Nat) : State :=
  let s := s.stopArmed p
  if (s.part p).armed.isEmpty then s.allStop p Ev.hostStop s.modNum n false
  else s.updPart p fun x => { x with stopAfter := some ⟨Ev.hostStop, s.modNum, n, false, false⟩ }

/-- The stop that a report of log index `n` carries (R398, R469, R508). -/
def State.actStop (s : State) (n : Nat) (r : StopReq) : State :=
  if 16 ≤ r.part then s
  else
    match r.how with
    | .fault => s.allStopProp r.part r.code n
    | .host => s.stopNow r.part n
    | .part => s.allStop r.part r.code s.modNum n false
    | .job =>
      let s := s.allStop r.part r.code s.modNum n false
      if s.jobKey r.part = 0 then s else s.originateStop 1 (s.jobKey r.part) r.code n
    | .fabric => (s.allStop r.part r.code s.modNum n false).originateStop 2 0 r.code n
    | .done => s.reportStop r.part r.code s.modNum n false

/-- The stop that was to follow a changeover of partition `p` follows it (R398, R467). -/
def State.stopFollows (s : State) (p : Nat) : State :=
  match (s.part p).stopAfter with
  | none => s
  | some d =>
    let s := s.updPart p fun x => { x with stopAfter := none }
    if d.done then s.haltPart p d.reason d.origin d.index d.remote else s.allStop p d.reason d.origin d.index d.remote

/-- A loaded image that `cond` condemns, a grant image too (R435): every VALID standby bank that holds it becomes EMPTY. -/
def State.invalidate (s : State) (cond : Image → Bool) (cause : Nat) : State :=
  s.each (fun p s =>
    match (s.part p).standby with
    | none => s
    | some im =>
      if cond im && (decide ((s.part p).tileStandby = 3) || im.units.any fun u => s.bankStandby u == 3) then
        let s := s.each (fun u s => if s.bankStandby u = 3 then s.setStandby u 0 else s) im.units
        let s := s.updPart p fun x => { x with tileStandby := if x.tileStandby = 3 then 0 else x.tileStandby }
        s.noteP 0 (if p < 16 then p else 255) Ev.imageInvalidated [cause]
      else s) (List.range 32)

/-- Row `r` of C-die `c` is exhausted: its quarter is marked failed (R24, R93), and a loaded image that uses the row is
invalidated (R435). -/
def State.exhaust (s : State) (c r : Nat) : State :=
  let q := 4 * c + r / 6
  let s := ((s.wf (Reg.cnRowMap c r) 9 1 1).withFailedQuarters (setFld s.failedQuarters q 1 1))
  s.invalidate (fun im => bitAt im.header (96 + q) && !bitAt im.header (320 + 6 * q + r % 6)) Ev.imageRowExhausted

/-- The faults of a tile's own hardware, for which the tile has failed (log 45). -/
def failsTile (code : Nat) : Bool :=
  [Ev.instrUncorrectable, Ev.sramUncorrectable, Ev.seqWatchdog, Ev.matrixResidue, Ev.vectorCheck].contains code

/-- Tile `t` has failed: SA writes its site to REQ_SITE (R23, R476), or its row's spare is used (R24). -/
def State.tileFailed (s : State) (t : Nat) : State :=
  let c := t / 192
  let r := t % 192 / 8
  let k := Reg.cnRowMap c r
  let skip := s.rf k 0 4
  let site := if t % 8 < skip then t % 8 else t % 8 + 1
  if skip = 8 ∧ (s.rf k 4 4 = 8 ∨ s.rf k 4 4 = site) then (s.wf k 4 4 site).wf k 8 1 1 else s.exhaust c r

/-- Every tile of partition `p` on C-die `c` stops (R104). -/
def State.stopOnDie (s : State) (p c : Nat) : State := s.each (fun t s => s.stopTile t) ((s.tilesOf p).filter fun t => t / 192 = c)

/-- A fault of tile `t`'s line traffic (R90, R92, R104): its partition's tiles on its C-die stop, and the report stops the rest. -/
def State.lineFault (s : State) (t code : Nat) (items : List Nat) : State :=
  let s := match s.partOfTile t with
    | some p => s.stopOnDie p (t / 192)
    | none => s
  s.fail (cDie (t / 192)) (partNum (s.partOfTile t)) code items

/-- A tile fault (R104): the tile stops, with it its partition's tiles on the same C-die, and the report, with its program counter,
stops the rest of the partition. -/
def State.tileFault (s : State) (t code : Nat) (items : List Nat) : State :=
  let pc := (s.tile t).pc % 32768
  let s := if failsTile code then s.tileFailed t else s
  let lct := (s.r (Reg.cnLct (t / 192))).toNat
  let s := s.updTile t fun x => { x with state := 6, fault := code, wait := none, stoppedAt := lct }
  s.lineFault t code (t :: pc :: items)

/-- Cancellation of every armed launch when the time state moves to LOST or FREE (R64); a stop that waited for it waits no longer. -/
def State.cancelLaunches (s : State) : State :=
  s.each (fun p s =>
    let s := s.each (fun (a : Armed) s =>
      if a.launch then ((s.disarmOne p a).finishArmed a 5 Ev.launchTimeLost 0).noteP 0 p Ev.launchTimeLost [] else s) (s.part p).armed
    if (s.part p).armed.isEmpty then s.stopFollows p else s) (List.range 16)

/-- A launch is armed or a job runs on some partition (R49). -/
def State.jobActive (s : State) : Bool :=
  (List.range 16).any fun p => 2 ≤ s.partState p && s.partState p ≤ 4

/-- The images that partition `p` runs, or that a command it has armed will run (R46, R474). -/
def State.usedImages (s : State) (p : Nat) : List Image :=
  (s.part p).active.toList ++ (if (s.part p).armed.isEmpty then [] else (s.part p).standby.toList)

/-- An image uses a die, through QUARTERS, JUNCTIONS, PORTS_USED or STACKS. -/
def Image.usesDie (im : Image) (d : Nat) : Bool :=
  if 2 ≤ d ∧ d ≤ 5 then decide (fld im.header 96 16 / 16 ^ (d - 2) % 16 ≠ 0)
  else if 6 ≤ d ∧ d ≤ 9 then bitAt im.header (112 + (d - 6))
  else if 10 ≤ d ∧ d ≤ 15 then bitAt im.header (120 + (d - 10))
  else decide (16 ≤ d) && (decide (fld im.header (128 + 2 * (d - 16)) 2 ≠ 0) || bitAt im.header (96 + (d - 16)))

/-- The partitions whose image uses a die (R46, R474). -/
def State.partsUsing (s : State) (d : Nat) : List Nat :=
  (List.range 16).filter fun p => (s.usedImages p).any fun im => im.usesDie d

/-- The time state changes and the change is recorded (R51), with what R61 and R64 add on LOST and FREE. In FREE
and in ACQUIRE a module that is no root does not know its depth (R54, R75). -/
def State.setTimeState (s : State) (v : Nat) : State :=
  let old := s.timeState
  let s := s.wf Reg.sbTimeStatus 0 3 v
  let s := if v ≤ 1 then s.wf Reg.sbTimeStatus 8 6 (if s.rf Reg.sbTimeStatus 7 1 = 1 then 0 else 0x3F) else s
  let s := s.note 1 Ev.timeStateChange [old, v, s.rf Reg.sbTimeStatus 3 3]
  let s := if v = 4 then s.note 1 Ev.timeLost [] else s
  if v = 4 ∨ v = 0 then s.cancelLaunches else s

end Sys2Proof.Machine
end

