-- ==== Sys2Proof/Machine/TraceOps.lean ====
section
/-!
DEFINITION. Trace records offered by tiles, L-, J- and M-dies (R547 to R549).
-/
namespace Sys2Proof.Machine
open Sys2Proof

/-- A trace record (R548) before its sink accepts it: LCT, STRETCH and TRIGGER are the sink's. -/
def traceRec (ftc kind flags die owner unit data : Nat) : BitVec 256 :=
  BitVec.ofNat 256 (atByte 0 8 ftc + atByte 16 1 kind + atByte 17 1 flags + atByte 18 1 die + atByte 19 1 owner +
    atByte 20 4 unit + atByte 24 8 data)

/-- Source number of a record: 0 to 31 a die, 32 + t a local tile. -/
def traceSource (r : BitVec 256) : Nat :=
  if fld r 128 8 = 1 then 32 + fld r 160 10 % 192 else fld r 144 8

/-- A dropped record of source `x` at sink `c` is remembered for its GAP record (R550). -/
def State.traceLost (s : State) (c x : Nat) : State :=
  s.updTr c fun t => { t with dropSince := SMap.set (fun _ => 0) t.dropSince x (SMap.get (fun _ => 0) t.dropSince x + 1) }

/-- Trace unit `c` is enabled and accepts records (R555). -/
def State.traceOn (s : State) (c : Nat) : Bool := bitAt (s.r (Reg.cnTraceCtrl c)) 0

/-- A record enters die `d`'s queue of 64 for sink `c`, or is dropped and counted (R547). -/
def State.traceQueue (s : State) (d c drop : Nat) (r : BitVec 256) : State :=
  if s.traceOn c = false then s
  else if 64 ≤ (s.trq d).length then (s.inc drop).traceLost c d
  else s.updTrq d fun q => q ++ [r]

/-- An L-die or J-die record where its TRACE_CTRL enables the kind (bit `b`) and the owner. -/
def State.traceRoad (s : State) (d ctrl drop b : Nat) (r : BitVec 256) : State :=
  let c := s.r ctrl
  if bitAt c b && bitAt c (32 + fld r 152 8) then s.traceQueue d (fld c 3 2) drop r else s

def State.tracePort (s : State) (p b : Nat) (r : BitVec 256) : State :=
  s.traceRoad (lDie p) (Reg.lnTraceCtrl p) (Reg.lnTraceDrop p) b r

def State.traceJunction (s : State) (j : Nat) (r : BitVec 256) : State :=
  s.traceRoad (jDie j) (Reg.jnTraceCtrl j) (Reg.jnTraceDrop j) 2 r

/-- The GAP record of source `x` after `n` drops (R549, R550). -/
def State.gapRec (s : State) (c x n : Nat) : BitVec 256 :=
  traceRec s.now 7 0 (if x < 32 then x else cDie c) 0 ((if x < 32 then x else cDie c) + (if x < 32 then 0 else (x - 32) * 32)) n

/-- Unit `c` accepts a record into its queue of 256, after a GAP record where its source has lost some, or drops and counts it
(R548, R550): LCT is the sink's, STRETCH tells of core cycles removed since the source's last record. -/
def State.accept (s : State) (c : Nat) (r : BitVec 256) : State :=
  let x := traceSource r
  let drop := fun (s : State) =>
    (s.wf (Reg.cnTraceDropped c) 0 32 (satInc32 (s.rf (Reg.cnTraceDropped c) 0 32))).traceLost c x
  let lct := (s.r (Reg.cnLct c)).toNat
  let st := (s.r (Reg.cnStretchCount c)).toNat
  let n := SMap.get (fun _ => 0) (s.tr c).dropSince x
  let was := SMap.get (fun _ => 0) (s.tr c).stretchAt x
  let cut := decide (was ≠ 0) && decide (was < st + 1)
  let gap := setFld (s.gapRec c x n) 64 64 lct
  let r := setFld (setFld r 64 64 lct) 136 1 (b2n cut)
  if 256 ≤ (s.tr c).queue.length + (if n = 0 then 0 else 1) then drop s
  else s.updTr c fun t => { t with
    queue := t.queue ++ (if n = 0 then [r] else [gap, r])
    dropSince := SMap.set (fun _ => 0) t.dropSince x 0
    stretchAt := SMap.set (fun _ => 0) t.stretchAt x (st + 1) }

/-- A tile's TMARK record reaches the unit of its C-die (R547, R550). -/
def State.traceTile (s : State) (t : Nat) (r : BitVec 256) : State :=
  let c := t / 192
  let src := s.r (Reg.cnTraceSrc c)
  if s.traceOn c && bitAt src 0 && bitAt src (4 + t / 48 % 4) then s.accept c r else s

/-- A retired stack that holds a spill region stops its unit (R553). -/
def State.traceRetire (s : State) (k : Nat) : State :=
  let c := k / 8
  let x := s.r (Reg.cnTraceCtrl c)
  if bitAt x 0 && bitAt x 3 && s.rf (Reg.cnTraceSpillBase c) 0 48 / 0x1000000000 == k then
    (((s.wf (Reg.cnTraceCtrl c) 0 1 0).wf (Reg.cnTraceStatus c) 0 3 4).updTr c fun t => { t with queue := [], staged := [] }).note
      (cDie c) Ev.traceSpillRange [c]
  else s

/-- A stream's record, from M-die `m` to its C-die's unit, where TRACE_SRC.STREAM is 1. -/
def State.traceStream (s : State) (m : Nat) (r : BitVec 256) : State :=
  if bitAt (s.r (Reg.cnTraceSrc (m / 4))) 1 then s.traceQueue (mDie m) (m / 4) (Reg.mnTraceDrop m) r else s

end Sys2Proof.Machine
end

