-- ==== Sys2Proof/Machine/Programs.lean ====
section
/-!
DEFINITION. Timetable, junction and stream programs: entry fields (R216 to R239, R355), the ticks and checks of a train's
cells (R183, R187), and the walkers (R221 to R226).
-/
namespace Sys2Proof.Machine
open Sys2Proof

/-! ## Entry fields -/

def eType (e : BitVec 256) : Nat := fld e 0 4
def eOwner (e : BitVec 256) : Nat := fld e 4 5
def eAt (e : BitVec 256) : Nat := fld e 9 24
def eNm1 (e : BitVec 256) : Nat := fld e 33 16
def eAddr (e : BitVec 256) : Nat := fld e 49 15
def eTrain (e : BitVec 256) : Nat := fld e 64 20
/-- ADVANCE of an IDLE, PERIOD of a LOOP_END (R234). -/
def ePeriod (e : BitVec 256) : Nat := fld e 9 39
/-- DEPART (R229). -/
def dpTile (e : BitVec 256) : Nat := fld e 84 10
def dpToken (e : BitVec 256) : Nat := fld e 94 14
def dpThresh (e : BitVec 256) : Nat := fld e 108 12
def dpStep (e : BitVec 256) : Nat := fld e 120 6
def dpLvl (e : BitVec 256) : Nat := fld e 126 2
/-- ARRIVE (R230). -/
def arAmount (e : BitVec 256) : Nat := fld e 108 16
/-- PASS (R232). -/
def paPort (e : BitVec 256) : Nat := fld e 84 3
def paDrop (e : BitVec 256) : Bool := bitAt e 87
def paTile (e : BitVec 256) : Nat := fld e 88 10
def paToken (e : BitVec 256) : Nat := fld e 98 14
def paAmount (e : BitVec 256) : Nat := fld e 112 16
/-- REDUCE (R233). -/
def rdThresh (e : BitVec 256) : Nat := fld e 108 8
def rdStep (e : BitVec 256) : Nat := fld e 116 4
def rdLvl (e : BitVec 256) : Nat := fld e 120 2
def rdPort (e : BitVec 256) : Nat := fld e 122 3
def rdFmt (e : BitVec 256) : Nat := fld e 125 2
/-- CONNECT (R239). -/
def cnSrc (e : BitVec 256) : Nat := fld e 49 6
def cnDst (e : BitVec 256) : Nat := fld e 55 6
def cnStride (e : BitVec 256) : Nat := fld e 64 8
/-- STREAM (R355). -/
def stWindow (e : BitVec 256) : Nat := fld e 33 24
def stSrc (e : BitVec 256) : Nat := fld e 64 40 * 256
def stDst (e : BitVec 256) : Nat := fld e 104 40 * 256
def stN (e : BitVec 256) : Nat := fld e 144 24 + 1
def stToken (e : BitVec 256) : Nat := fld e 168 14
def stAmount (e : BitVec 256) : Nat := fld e 182 16
def stRtoken (e : BitVec 256) : Nat := fld e 198 14
def stRthresh (e : BitVec 256) : Nat := fld e 212 12
def stRstep (e : BitVec 256) : Nat := fld e 224 6
def stRlvl (e : BitVec 256) : Nat := fld e 230 2
def stZero (e : BitVec 256) : Bool := bitAt e 232

/-! ## Trains -/

/-- Index of a booking position and its tick (R183); at half width a cell takes an even offset and the next (R214). -/
def bookIndex (half : Bool) (t : Nat) : Nat := if half then 30 * (t / 64) + t % 64 / 2 else 60 * (t / 64) + t % 64
def bookTick (half : Bool) (u : Nat) : Nat := if half then 64 * (u / 30) + 2 * (u % 30) else 64 * (u / 60) + u % 60

/-- Departure tick of cell `i` of a train whose cell 0 departs at `d`. -/
def cellTick (half : Bool) (d i : Nat) : Nat := bookTick half (bookIndex half d + i)

/-- One bit of a CRC of `w` bits with polynomial `poly`. -/
def crcBit (w poly c b : Nat) : Nat :=
  let top := (c / 2 ^ (w - 1) + b) % 2
  if top = 1 then Nat.xor (c * 2 % 2 ^ w) poly else c * 2 % 2 ^ w

/-- One byte, most significant bit first. -/
def crcByte (w poly c x : Nat) : Nat :=
  (List.range 8).foldl (fun c i => crcBit w poly c (x / 2 ^ (7 - i))) c

/-- TRAIN_CHECK (R187). -/
def trainCheck (i train : Nat) (bank : Bool) : BitVec 16 :=
  let w := i % 65536 + train % 2 ^ 20 * 65536 + b2n bank * 2 ^ 36
  BitVec.ofNat 16 ((unpackLE 8 6 w).foldl (crcByte 16 0x1021) 0xFFFF)

/-- A threshold THRESH + STEP × I[LVL] modulo 2^32 (R229, R233, R356). -/
def thresholdOf (base step lvl : Nat) (iters : List Nat) : Nat := (base + step * iters.getD lvl 0) % 2 ^ 32

/-- The WIDTH of bank `b` of port `p` (R217). -/
def State.bankHalf (s : State) (p : Nat) (b : Bool) : Bool := bitAt (s.entry p b 0) 16

/-- Class delay of port `p` in ticks (R193). -/
def State.classDelay (s : State) (p : Nat) : Nat := 64 * s.rf (Reg.lnLineClass p) 0 10

/-! ## Tokens -/

/-- An arrive on its way from a die (`src`: a C-die, or 4 for another) to a token's C-die (R98). -/
def State.arrive (s : State) (src k amount : Nat) : State :=
  s.withTokOps (s.tokOps ++ [{ token := k, set := false, amount := BitVec.ofNat 32 amount, src := src }])

/-- The C-die at which unit `u`'s die stands, an M-die's being behind its own; 4 for an L- or J-die (R15). -/
def unitStop (u : Nat) : Nat := if u < 10 then 4 else (u - 10) / 4

/-- A token has reached a threshold. -/
def State.tokenMeets (s : State) (k thresh : Nat) : Bool := decide (thresh ≤ (s.token k).val.toNat)

/-! ## Segments -/

/-- Segment descriptor of owner `o` in bank `b` of unit `u` (R218). -/
def State.segDesc (s : State) (u : Nat) (b : Bool) (o : Nat) : BitVec 256 := s.entry u b o

def sdValid (d : BitVec 256) : Bool := bitAt d 127
/-- Base and length of the program of kind 0 (departure, junction, stream) or 1 (arrival). -/
def sdBase (d : BitVec 256) (kind : Nat) : Nat := if kind = 1 then fld d 36 18 else fld d 0 18
def sdLen (d : BitVec 256) (kind : Nat) : Nat := if kind = 1 then fld d 54 18 else fld d 18 18
def sdCtxBase (d : BitVec 256) : Nat := fld d 72 18
def sdNctx (d : BitVec 256) : Nat := fld d 90 7
def sdStart (d : BitVec 256) : Nat := fld d 97 6

/-- A walker at a restart of its owner at tick `x` (R222); none where its segment holds no such program. -/
def State.freshWalker (s : State) (u : Nat) (b : Bool) (o kind x : Nat) : Option Walker :=
  let d := s.segDesc u b o
  if sdValid d = false ∨ sdLen d kind = 0 then none
  else
    let c := s.entry u b (sdCtxBase d + sdStart d)
    some { state := 1, base := x, start := x, idx := if kind = 1 then fld c 18 18 else fld c 0 18 }

/-! ## Dispatch -/

/-- The tick at which a dispatched entry acts (R224, R226). -/
def actTick (kind : Nat) (d : Disp) : Nat :=
  match eType d.entry with
  | 0xC => d.tick
  | 1 => if kind = 2 then d.tick - 64 else d.tick - 512
  | 4 => d.tick - 512
  | _ => d.tick - 64

/-- The last tick a dispatched entry of unit `u` does anything at: the departure or slot of its last cell. -/
def State.endTick (s : State) (u : Nat) (d : Disp) : Nat :=
  if eType d.entry = 5 then d.tick + 2 * cnStride d.entry * eNm1 d.entry
  else if u < 6 ∧ eType d.entry ≤ 4 then cellTick (s.bankHalf u d.bank) d.tick (eNm1 d.entry) else d.tick

/-- Kind of a unit's programs for `actTick`: 2 for streams. -/
def progKind (u kind : Nat) : Nat := if 10 ≤ u then 2 else kind

/-- The cells that an ARRIVE, inbound PASS or REDUCE expects from index `i` on (R198), `n` of them. -/
def expectCells (half : Bool) (delay : Nat) (d : Disp) : Nat → Nat → List Expect
  | _, 0 => []
  | i, n + 1 =>
    { owner := d.owner, entry := d.entry.setWidth 128, idx := d.idx, i := i, d0 := d.tick
      depart := cellTick half d.tick i, release := cellTick half d.tick i + delay, bank := d.bank
      check := trainCheck i (eTrain d.entry) d.bank } :: expectCells half delay d (i + 1) n

/-- A dispatched entry takes its place in the walker; an arrival entry's cells become expected. -/
def State.dispatch (s : State) (u kind : Nat) (d : Disp) : State :=
  if kind = 1 ∧ u < 6 ∧ (eType d.entry = 2 ∨ eType d.entry = 3 ∨ eType d.entry = 4) then
    s.updPort u fun x => { x with
      expects := x.expects ++ expectCells (s.bankHalf u d.bank) (s.classDelay u) d 0 (eNm1 d.entry + 1) }
  else s

/-- Where a walker's state stands: `pre` for a walker that began before its restart. -/
def State.walkerAt (s : State) (pre : Bool) (k : Nat) : Walker := if pre then s.preWalker k else s.walker k

def State.putWalker (s : State) (pre : Bool) (k : Nat) (w : Walker) : State :=
  if pre then s.setPreWalker k w else s.setWalker k w

/-- A walker of a restarting owner as it begins reading at X − 4,096 (R224). -/
def State.begin_ (s : State) (u o kind : Nat) (pre : Bool) : Walker :=
  let w := s.walkerAt pre (walkKey u o kind)
  let x := (s.r (armFtcReg u)).toNat
  if pre && w.state == 0 && s.bankStandby u == 4 && bitAt (s.r (armOwnersReg u)) o && decide (x ≤ s.now + 4096) then
    (s.freshWalker u (!s.bankActive u) o kind x).getD w
  else w

/-- Count of level `l`'s iterations advanced by 1. -/
def bumpIter (l : Nat) (xs : List Nat) : List Nat := xs.set l (xs.getD l 0 + 1)

/-- What a walker does with entry `e` read at its index (R223). A COUNT of 0 is endless: 0 minus 1 stays 0. -/
def walkEntry (o : Nat) (bank : Bool) (e : BitVec 256) (w : Walker) : Walker :=
  match eType e with
  | 8 => { w with base := w.base + ePeriod e, idx := w.idx + 1 }
  | 9 => { w with loops := (eAt e, w.idx + 1) :: w.loops, idx := w.idx + 1 }
  | 0xA =>
    match w.loops with
    | [] => { w with base := w.base + ePeriod e, idx := w.idx + 1 }
    | (count, body) :: rest =>
      let w := { w with base := w.base + ePeriod e, iters := bumpIter rest.length w.iters }
      if count = 1 then { w with loops := rest, idx := w.idx + 1 }
      else { w with loops := (count - 1, body) :: rest, idx := body }
  | 0xB =>
    if bitAt e 33 then { w with points := w.points ++ [w.base + eAt e], idx := w.idx + 1 }
    else { w with parkAt := some (w.base + eAt e) }
  | _ => { w with
      dispatched := w.dispatched ++ [⟨o, w.idx, e, w.base + eAt e, w.iters, bank, 0, 0, w.points.getLast?⟩]
      idx := w.idx + 1 }

/-- A scheduling entry or MARK. -/
def isScheduling (e : BitVec 256) : Bool := !(eType e == 8 || eType e == 9 || eType e == 0xA || eType e == 0xB)

/-- The tick a walker may not read an entry earlier than 65,536 ticks before (R224). -/
def horizonTick (e : BitVec 256) (w : Walker) : Nat :=
  if eType e = 8 ∨ eType e = 9 ∨ eType e = 0xA then w.base else w.base + eAt e

/-- Corrected and uncorrectable reads of a unit's bank SRAM (R252). Stream banks have no such counter. -/
def eccReg (u : Nat) : Option Nat :=
  if u < 6 then some (Reg.lnTtEcc u) else if u < 10 then some (Reg.jnJnEcc (u - 6)) else none

/-- An uncorrectable entry (R252): the owner's walkers on that unit stop, those begun before a restart as well, and a partition owner
stops. -/
def State.entryUncorrectable (s : State) (u o idx : Nat) : State :=
  let s := s.each (fun k s => (s.updWalker (walkKey u o k) Walker.halt).setPreWalker (walkKey u o k)
    (s.preWalker (walkKey u o k)).halt) [0, 1]
  let code := if u < 6 then Ev.ttEntryUncorrectable else Ev.jnEntryUncorrectable
  let items := [if u < 6 then u else if u < 10 then u - 6 else u - 10, o, idx]
  if o ≤ 16 then s.fail (unitDie u) (o - 1) code items else s.note (unitDie u) code items

/-- WALKER_READ (R221 to R225): unit `u`, owner `o`, the arrival walker where `arr`, the walker begun before a restart where
`pre`; one entry per tick, within the horizon. What the latter dispatches acts beside the owner's other entries. -/
def execWalkerRead (u : Fin 26) (o : Fin 32) (arr pre : Bool) (ecc : Ecc) (s : State) : Res :=
  s.act <|
    let kind := b2n arr
    let k := walkKey u o kind
    let w := s.begin_ u o kind pre
    let bank := if pre then !s.bankActive u else s.bankActive u
    let d := s.segDesc u bank o
    if (arr = true ∧ 6 ≤ u.val) ∨ w.state ≠ 1 ∨ w.parkAt ≠ none ∨ w.readAt = some s.now then s
    else
      let e := s.entry u bank (sdBase d kind + w.idx)
      let busy := (w.dispatched.filter fun d => s.now < actTick (progKind u kind) d).length
      if s.now + 65536 < horizonTick e w ∨ (isScheduling e = true ∧ 256 ≤ busy) then s.putWalker pre k w
      else if ecc.bad then (s.putWalker pre k w).entryUncorrectable u o w.idx
      else
        let s := match eccReg u with
          | some r => if ecc.corrected then s.inc r else s
          | none => s
        let w' := { walkEntry o bank e w with readAt := some s.now }
        let w' := { w' with dispatched := w'.dispatched.filter fun d => s.now ≤ s.endTick u d + 65536 }
        let s := s.putWalker pre k w'
        let s := if pre && isScheduling e then
            s.updWalker k fun x => { x with
              dispatched := x.dispatched ++ [⟨o, w.idx, e, w.base + eAt e, w.iters, bank, 0, 0, none⟩] }
          else s
        if isScheduling e then s.dispatch u kind ⟨o, w.idx, e, w.base + eAt e, w.iters, bank, 0, 0, none⟩ else s

/-- CHANGEOVER_ENTRY (R225): at its tick a PARK parks the walker; a POINT passed with no restart armed for exactly that
tick is done with. -/
def execChangeoverEntry (u : Fin 26) (o : Fin 32) (arr : Bool) (s : State) : Res :=
  s.act <|
    let k := walkKey u o (b2n arr)
    let w := s.walker k
    let armed := fun t => s.bankStandby u == 4 && bitAt (s.r (armOwnersReg u)) o && (s.r (armFtcReg u)).toNat == t
    let w := { w with points := w.points.filter fun t => s.now < t || armed t }
    match w.state, w.parkAt with
    | 1, some t => s.setWalker k (if t ≤ s.now then { w with state := 2, parkAt := none } else w)
    | 1, none => s.setWalker k w
    | _, _ => s

/-- The entry was read beyond a POINT at which a restart of its owner is armed: it does not act (R225, R248). -/
def State.beyondRestart (s : State) (u : Nat) (d : Disp) : Bool :=
  match d.after with
  | some t => s.bankStandby u == 4 && bitAt (s.r (armOwnersReg u)) d.owner && (s.r (armFtcReg u)).toNat == t
  | none => false

/-- The first dispatched entry that satisfies `f`, and the others. -/
def takeDisp (f : Disp → Bool) : List Disp → Option (Disp × List Disp)
  | [] => none
  | d :: ds => if f d then some (d, ds) else (takeDisp f ds).map fun p => (p.1, d :: p.2)

/-- MARK_ENTRY (R226): the trace record and, with TEN, the arrive. -/
def execMarkEntry (u : Fin 26) (o : Fin 32) (arr : Bool) (s : State) : Res :=
  s.act <|
    let k := walkKey u o (b2n arr)
    let w := s.walker k
    match takeDisp (fun d => eType d.entry == 0xC && d.tick == s.now) w.dispatched with
    | none => s
    | some (d, rest) =>
      let e := d.entry
      let s := s.setWalker k { w with dispatched := rest }
      let rec_ := fun unit => traceRec d.tick 2 0 (unitDie u) o (unit + fld e 64 16 * 65536) d.idx
      let s := if u.val < 6 then s.tracePort u 2 (rec_ u) else if u.val < 10 then s.traceJunction (u - 6) (rec_ (u - 6)) else s
      if bitAt e 80 then s.arrive (unitStop u) (fld e 81 14) (fld e 95 16) else s

end Sys2Proof.Machine
end

