-- ==== Sys2Proof/Machine/Sha.lean ====
section
/-!
DEFINITION. The digests and checks the spec names by their standards: SHA-256 (R368, R424), SHA-384 (R534), the CRC-32
of IEEE 802.3 (R455), and CRCs with a polynomial the spec gives.
-/
namespace Sys2Proof.Machine
open Sys2Proof

/-- The largest number of `n` bits whose `k`-th power is at most `x`, found from its highest bit down. -/
def rootOf (k x : Nat) : Nat → Nat → Nat
  | 0, r => r
  | n + 1, r => rootOf k x n (if (r + 2 ^ n) ^ k ≤ x then r + 2 ^ n else r)

/-- The first `n` primes from `c` on, `ps` those found, by trial division; `fuel` candidates are tried. -/
def primesFrom (n : Nat) : Nat → Nat → List Nat → List Nat
  | 0, _, ps => ps
  | fuel + 1, c, ps =>
    if ps.length = n then ps
    else primesFrom n fuel (c + 1) (if ps.all fun p => c % p != 0 then ps ++ [c] else ps)

/-- The first 80 primes. -/
def shaPrimes : List Nat := primesFrom 80 500 2 []

/-- The first 64 fraction bits of the `k`-th roots of some primes: SHA-2's constants are cut from these. -/
def rootBits (k : Nat) (ps : List Nat) : List Nat := ps.map fun p => rootOf k (p * 2 ^ (64 * k)) 70 0 % 2 ^ 64

/-- The round constants of SHA-384, and of SHA-256: their high halves, for 64 rounds. -/
def rounds384 : List (BitVec 64) := (rootBits 3 shaPrimes).map (BitVec.ofNat 64)
def rounds256 : List (BitVec 32) := ((rootBits 3 shaPrimes).take 64).map fun x => BitVec.ofNat 32 (x / 2 ^ 32)

/-- The words a digest starts from: the square roots of the first eight primes, or of the next eight. -/
def start256 : List (BitVec 32) := ((rootBits 2 shaPrimes).take 8).map fun x => BitVec.ofNat 32 (x / 2 ^ 32)
def start384 : List (BitVec 64) := (((rootBits 2 shaPrimes).drop 8).take 8).map (BitVec.ofNat 64)

/-- The big-endian number of a list of bytes. -/
def beNat (bs : List Byte) : Nat := bs.foldl (fun a b => a * 256 + b.toNat) 0

/-- The bytes of a number, the highest first. -/
def bytesBE (n v : Nat) : List Byte := (bytesLE n v).reverse

/-- A message padded to whole blocks of `blk` bytes, its bit length in the last `lenB` bytes. -/
def shaPad (blk lenB : Nat) (m : List Byte) : List Byte :=
  let n := m.length
  let z := (blk - (n + 1 + lenB) % blk) % blk
  m ++ [0x80] ++ List.replicate z 0 ++ bytesBE lenB (8 * n)

/-- `k` words of `w` bytes each from a list of bytes, the highest byte first. -/
def beWords (w : Nat) : Nat → List Byte → List Nat
  | 0, _ => []
  | k + 1, bs => beNat (bs.take w) :: beWords w k (bs.drop w)

/-- The message schedule, last word first, from the 16 words of a block (last first): `n` words more. -/
def shaSched {w : Nat} (s0 s1 : BitVec w → BitVec w) : Nat → List (BitVec w) → List (BitVec w)
  | 0, ws => ws
  | n + 1, ws => shaSched s0 s1 n
      ((s1 (ws.getD 1 0) + ws.getD 6 0 + s0 (ws.getD 14 0) + ws.getD 15 0) :: ws)

/-- One round of SHA-2 on the eight working words. -/
def shaRound {w : Nat} (S0 S1 : BitVec w → BitVec w) (v : List (BitVec w)) (kw : BitVec w) : List (BitVec w) :=
  match v with
  | [a, b, c, d, e, f, g, h] =>
    let t1 := h + S1 e + ((e &&& f) ^^^ (~~~e &&& g)) + kw
    let t2 := S0 a + ((a &&& b) ^^^ (a &&& c) ^^^ (b &&& c))
    [t1 + t2, a, b, c, d + t1, e, f, g]
  | _ => v

/-- One block of SHA-2. -/
def shaBlock {w : Nat} (s0 s1 S0 S1 : BitVec w → BitVec w) (ks : List (BitVec w)) (hs ws : List (BitVec w)) :
    List (BitVec w) :=
  let sched := (shaSched s0 s1 (ks.length - 16) ws.reverse).reverse
  let v := (List.zipWith (· + ·) ks sched).foldl (shaRound S0 S1) hs
  List.zipWith (· + ·) hs v

/-- SHA-2 over `n` blocks of bytes. -/
def shaBlocks {w : Nat} (s0 s1 S0 S1 : BitVec w → BitVec w) (ks : List (BitVec w)) :
    Nat → List (BitVec w) → List Byte → List (BitVec w)
  | 0, hs, _ => hs
  | n + 1, hs, bs =>
    let ws := (beWords (w / 8) 16 (bs.take (2 * w))).map (BitVec.ofNat w)
    shaBlocks s0 s1 S0 S1 ks n (shaBlock s0 s1 S0 S1 ks hs ws) (bs.drop (2 * w))

def rr (x : BitVec w) (n : Nat) : BitVec w := x.rotateRight n

/-- SHA-256 of a list of bytes: 32 bytes. -/
def sha256 (m : List Byte) : List Byte :=
  let p := shaPad 64 8 m
  (shaBlocks (fun x => rr x 7 ^^^ rr x 18 ^^^ (x >>> 3)) (fun x => rr x 17 ^^^ rr x 19 ^^^ (x >>> 10))
    (fun x => rr x 2 ^^^ rr x 13 ^^^ rr x 22) (fun x => rr x 6 ^^^ rr x 11 ^^^ rr x 25) rounds256
    (p.length / 64) start256 p).flatMap fun x => bytesBE 4 x.toNat

/-- SHA-384 of a list of bytes: 48 bytes. -/
def sha384 (m : List Byte) : List Byte :=
  let p := shaPad 128 16 m
  ((shaBlocks (fun x => rr x 1 ^^^ rr x 8 ^^^ (x >>> 7)) (fun x => rr x 19 ^^^ rr x 61 ^^^ (x >>> 6))
    (fun x => rr x 28 ^^^ rr x 34 ^^^ rr x 39) (fun x => rr x 14 ^^^ rr x 18 ^^^ rr x 41) rounds384
    (p.length / 128) start384 p).take 6).flatMap fun x => bytesBE 8 x.toNat

/-- The digest as a word whose byte i is digest byte i (R6). -/
def sha256Word (m : List Byte) : BitVec 256 := BitVec.ofNat 256 (ofBytesLE (sha256 m))

/-- The binary tree of R368 over leaf digests, `n` levels at most: pairs in order, an unpaired last node rises. -/
def pairUp : List (List Byte) → List (List Byte)
  | a :: b :: xs => sha256 (1 :: (a ++ b)) :: pairUp xs
  | xs => xs

def treeRoot : Nat → List (List Byte) → List Byte
  | 0, xs => xs.headD []
  | n + 1, xs =>
    match xs with
    | [] => sha256 []
    | [x] => x
    | _ => treeRoot n (pairUp xs)

/-- A CRC of `w` bits over `n` message bits, the highest first: polynomial `poly`, register `r`. -/
def crcBits (w poly : Nat) : Nat → Nat → Nat → Nat
  | 0, _, r => r
  | n + 1, m, r =>
    let top := (r / 2 ^ (w - 1) + m / 2 ^ n) % 2
    let r' := r * 2 % 2 ^ w
    crcBits w poly n m (if top = 1 then r' ^^^ poly else r')

/-- The CRC-32 of IEEE 802.3 on one byte, reflected. -/
def crc32Bit : Nat → Nat → Nat
  | 0, r => r
  | n + 1, r => crc32Bit n (if r % 2 = 1 then (r / 2) ^^^ 0xEDB88320 else r / 2)

/-- The CRC-32 register (not inverted) after a list of bytes. -/
def crc32Go (r : Nat) : List Byte → Nat
  | [] => r
  | b :: bs => crc32Go (crc32Bit 8 (r ^^^ b.toNat)) bs

/-- The CRC-32 of IEEE 802.3 (R455). -/
def crc32 (bs : List Byte) : BitVec 32 := BitVec.ofNat 32 (crc32Go 0xFFFFFFFF bs ^^^ 0xFFFFFFFF)

end Sys2Proof.Machine
end

