-- ==== Sys2Proof/Machine/TimeOps.lean ====
section
/-!
DEFINITION. Fabric time, its states and servo, time transfer, wall time, PTP, 1PPS and the 10 MHz input (R45 to R77).
-/
namespace Sys2Proof.Machine
open Sys2Proof

/-! ## Ticks and frames -/

/-- Half ticks of a core cycle at the level in force (R72): 4, 5, 6, 8 for PL0 to PL3. -/
def State.cycleHalves (s : State) : Nat :=
  match s.rf Reg.sbPlStatus 0 2 with
  | 0 => 4
  | 1 => 5
  | 2 => 6
  | _ => 8

/-- A core cycle begins within the tick that has just come (R72, R99). -/
def State.coreEdge (s : State) : Bool :=
  let h := s.cycleHalves
  (2 * s.now + 1) / h ≠ (2 * s.now - 1) / h

/-- C-die `c`'s core clock root runs: M0 or M1, ready, not in compute reset (R72). -/
def State.coreRuns (s : State) (c : Nat) : Bool :=
  s.ready (cDie c) && decide (s.power.mode ≤ 1) && !(s.die (cDie c)).stopped

/-- C-die `c` delivered a core cycle in the present tick. -/
def State.coreNow (s : State) (c : Nat) : Bool := s.cycleNow.getLsbD c

/-- One core cycle of C-die `c`: LCT, and the counters of its busy tiles (R72, R543); a removed cycle counts nothing (R73). -/
def State.coreCycle (s : State) (c : Nat) : State :=
  let s := s.withMon { s.mon with cycles := SMap.set (fun _ => 0) s.mon.cycles c (SMap.get (fun _ => 0) s.mon.cycles c + 1) }
  let owed := SMap.get (fun _ => 0) s.mon.owed c
  if owed ≠ 0 then
    (s.withMon { s.mon with
        owed := SMap.set (fun _ => 0) s.mon.owed c (owed - 1)
        removed := SMap.set (fun _ => 0) s.mon.removed c (SMap.get (fun _ => 0) s.mon.removed c + 1) }).add64
      (Reg.cnStretchCount c) 1
  else
    let s := (s.add64 (Reg.cnLct c) 1).withCycleNow (setFld s.cycleNow c 1 1)
    s.each (fun p s =>
      if p.1 / 192 = c then
        let s := if p.2.state = 1 then s.add64 (Reg.cnTileBusy c (p.1 % 192)) 1 else s
        if p.2.mma = [] then s else s.add64 (Reg.cnTileMma c (p.1 % 192)) 1
      else s) s.tiles

/-- The WTB one tick on (R65): whether the nanoseconds passed through 0. -/
def State.wtbTick (s : State) : State :=
  let f := s.time.wtbFrac.toNat + s.rf Reg.sbWtbIncr 0 48
  let ns := s.time.wtbNs.toNat + f / 2 ^ 40
  let t := { s.time with wtbFrac := BitVec.ofNat 40 f, wtbNs := BitVec.ofNat 32 (ns % 1000000000) }
  if 1000000000 ≤ ns then
    (s.withTime { t with ppsDue := true }).add64 Reg.sbWtbSec (ns / 1000000000)
  else (s.withTime { t with ppsDue := false })

/-- Ticks of an operating hour. -/
def operHour : Nat := 11250000000000

/-- The fused base plan's voltage of die `d` at level `l`, a multiple of 5 mV (R521). -/
def baseVolt (d l : Nat) : Nat := 5 * fld (Config.fusedPlan d) (8 * l) 8

/-- The word of die `d` of the fused base plan: four levels for a C-die, one for every other die (R521, R524). -/
def basePlan (d : Nat) : W64 :=
  if 2 ≤ d ∧ d ≤ 5 then
    BitVec.ofNat 64 (baseVolt d 0 + baseVolt d 1 * 2 ^ 16 + baseVolt d 2 * 2 ^ 32 + baseVolt d 3 * 2 ^ 48)
  else BitVec.ofNat 64 (baseVolt d 0)

/-- The word of die `d` of the active plan: the one stored, or the fused one where its register holds none (R521). -/
def State.planReg (s : State) (d : Nat) : W64 := if s.r (Reg.saMarginPlan d) = 0 then basePlan d else s.r (Reg.saMarginPlan d)

/-- The margin plan's voltage of die `d` at level `l` (R521). -/
def State.planVolt (s : State) (d l : Nat) : Nat := fld (s.planReg d) (16 * l) 16

/-- The bytes of the plan, its withdrawals and the operating hours as SA keeps them in flash: an order of the model (R521; log 99). -/
def State.planBytes (s : State) : List Byte :=
  ((List.range 32).flatMap fun d => bytesLE 8 (s.planReg d).toNat) ++ bytesLE 1 (s.rf Reg.sbPlStatus 8 4) ++
    bytesLE 4 (s.rf Reg.saOperHours 0 32)

/-- SA writes the plan to flash with its CRC-32 (R521). -/
def State.storePlan (s : State) : State := s.withProt { s.prot with planCrc := some (crc32 s.planBytes) }

/-- The tick clock runs: the module is powered and SB has not failed (R475, R602). -/
def State.clockRuns (s : State) : Bool := s.power.mode != 4 && !bitAt (s.r Reg.saDieFailed) 1

/-- The written increments, latest first, down to the one in force at `lo` (R61). -/
def trimIncrs (lo : Int) : List (Int × Nat) → List (Int × Nat)
  | [] => []
  | p :: ps => if p.1 ≤ lo then [p] else p :: trimIncrs lo ps

/-- Sum of increment times ticks from `lo` to `upTo` over the written increments, latest first. -/
def sumIncrs (lo upTo : Int) : List (Int × Nat) → Nat
  | [] => 2 ^ 40 * (upTo - lo).toNat
  | p :: ps => if p.1 ≤ lo then p.2 * (upTo - lo).toNat else p.2 * (upTo - p.1).toNat + sumIncrs lo p.1 ps

/-- The average increment of the last 1 ms (R61). -/
def avgIncr (now : Int) (h : List (Int × Nat)) : Nat := sumIncrs (now - 3125000) now h / 3125000

/-- FTC_INCR set, the written value kept for R61. -/
def State.setIncr (s : State) (x : Nat) : State :=
  ((s.wf Reg.sbFtcIncr 0 48 x).withTime { s.time with
    incrs := ((s.clk : Int), x) :: trimIncrs ((s.clk : Int) - 3125000) s.time.incrs })

/-- FTC_INCR written by firmware: the servo has trimmed to `x`, and slews no more (R57). -/
def State.writeIncr (s : State) (x : Nat) : State := (s.withTime { s.time with trim := x, slewEnd := none }).setIncr x

/-- The servo's slew ends: the rate goes back to the frequency it has trimmed to (R57). -/
def State.slewTick (s : State) : State :=
  match s.time.slewEnd with
  | some t => if t ≤ s.clk then (s.withTime { s.time with slewEnd := none }).setIncr s.time.trim else s
  | none => s

/-- One tick: FTC, WTB, HOLDOVER_TICKS, operating hours and the C-dies' core cycles (R45, R65, R75, R521). -/
def State.tick (s : State) : State :=
  let s := ((((s.add64 Reg.sbFtc 1).withSetNow []).withTxnNow []).withCycleNow 0).wtbTick.slewTick
  let s := if s.timeState = 3 then s.inc Reg.sbHoldoverTicks else s
  let s := if s.clk % operHour = 0 then (s.inc Reg.saOperHours).storePlan else s
  if s.coreEdge then s.each (fun c s => if s.coreRuns c then s.coreCycle c else s) [0, 1, 2, 3] else s

/-- TICK (R45, R521). -/
def execTick (s : State) : Res := s.act <| if s.clockRuns then s.tick else s

/-- FTC_READ (R47, R580): `wide` a 64-bit read; otherwise the low or the high word. -/
def execFtcRead (i : Iface) (wide high : Bool) (s : State) : Res :=
  let v := s.r Reg.sbFtc
  s.act <| s.regRead i (if high && !wide then Reg.sbFtc + 4 else Reg.sbFtc) wide fun s =>
    if wide then (v, s)
    else if high then
      match s.time.ftcHigh with
      | some h => (h.setWidth 64, (s.withTime { s.time with ftcHigh := none }))
      | none => (v >>> 32, s)
    else (v &&& 0xFFFFFFFF, (s.withTime { s.time with ftcHigh := some ((v >>> 32).setWidth 32) }))

/-- FTC_INCR within 1.0 ± 200 ppm (R48). -/
def incrInRange (v : Nat) : Bool := 2 ^ 40 * 999800 ≤ v * 1000000 && v * 1000000 ≤ 2 ^ 40 * 1000200

/-- FTC_INCR_WRITE (R48). The increments of the last 1 ms are kept for R61. -/
def execFtcIncrWrite (i : Iface) (v : W64) (s : State) : Res :=
  s.act <| s.regWrite i Reg.sbFtcIncr true fun s =>
    let x := fld v 0 48
    if incrInRange x then s.writeIncr x
    else s.note 1 Ev.ftcIncrRange [x]

/-- R49's two conditions. -/
def State.stepAllowed (s : State) : Bool := decide (s.timeState ≤ 1) && !s.jobActive

/-- The servo or firmware writes a step (R49, R58). DESIGN CHOICE: a second step accepted before the frame start takes the place of
the first (log 55). -/
def State.writeStep (s : State) (v : W64) : State :=
  if s.stepAllowed then (s.withTime { s.time with step := some v }) else s.note 1 Ev.ftcStepRefused []

/-- FTC_STEP_WRITE (R49). -/
def execFtcStepWrite (i : Iface) (v : W64) (s : State) : Res :=
  s.act <| s.regWrite i Reg.sbFtcStep true fun s => s.writeStep v

/-- FTC_STEP_ACT (R49): at the frame start, judged again. -/
def execFtcStepAct (s : State) : Res :=
  s.act <|
    match s.time.step with
    | none => s
    | some v =>
      if s.now % 4096 ≠ 0 then s
      else
        let ok := s.stepAllowed
        let s := s.withTime { s.time with step := none }
        if ok then
          (s.withTime { s.time with stepTick := some s.clk, stepped := s.time.stepped + v }).w Reg.sbFtc (s.r Reg.sbFtc + v)
        else s.note 1 Ev.ftcStepRefused []

/-! ## Time states (R50 to R52) -/

/-- The first condition of R52 that port `p` fails: 1 link, 2 state, 3 hops, 4 names this module. -/
def State.ineligible (s : State) (p : Nat) : Option Nat :=
  let x := s.pt p
  if s.linkState p ≠ 4 then some 1
  else if x.nbState ≠ 2 ∧ x.nbState ≠ 3 then some 2
  else if 39 < x.nbHops then some 3
  else if !bitAt x.nbUp 15 ∧ fld x.nbUp 0 12 = s.modNum then some 4
  else none

/-- The configured upstream ports, the primary first (R52, R75). -/
def State.upstreams (s : State) : List Nat :=
  let c := s.r Reg.sbTimeCtrl
  (if bitAt c 4 then [fld c 1 3] else []) ++ (if bitAt c 8 then [fld c 5 3] else [])

/-- The active port becomes `p` (R75). -/
def State.setActive (s : State) (p : Nat) : State :=
  let c := s.r Reg.sbTimeCtrl
  (s.wf Reg.sbTimeStatus 3 3 p).wf Reg.sbTimeStatus 6 1 (b2n (!(bitAt c 4 && fld c 1 3 == p)))

/-- Every configured upstream that is not eligible is recorded (R52). -/
def State.noteIneligible (s : State) : State :=
  s.each (fun p s =>
    match s.ineligible p with
    | some k => s.note 1 Ev.timeUpstreamIneligible [p, k]
    | none => s) s.upstreams

/-- Enter ACQUIRE (R51): a root without the 10 MHz input is LOCKED at once. -/
def State.enterAcquire (s : State) : State :=
  let s := s.withTime { s.time with goodRun := 0, missRun := 0, acqStepped := false }
  let s := s.setTimeState 1
  if bitAt (s.r Reg.sbTimeStatus) 7 then
    let s := s.wf Reg.sbTimeStatus 8 6 0
    if bitAt (s.r Reg.sbTimeCtrl) 9 then s else s.setTimeState 2
  else s

/-- The fields of a write of TIME_CTRL; ports 6 and 7 are refused and leave the register as it was (R75). A root has HOPS 0 (R52),
and the depth of a module that has just ceased to be one is unknown. -/
def State.writeTimeCtrl (s : State) (v : W32) : State :=
  if 6 ≤ fld v 1 3 ∨ 6 ≤ fld v 5 3 then s.note 1 Ev.timeCtrlRange []
  else
    let root := s.rf Reg.sbTimeStatus 7 1
    let s := s.write32 Reg.sbTimeCtrl v
    let s := s.wf Reg.sbTimeStatus 7 1 (fld v 0 1)
    if fld v 0 1 = 1 then s.wf Reg.sbTimeStatus 8 6 0
    else if root = 1 then s.wf Reg.sbTimeStatus 8 6 0x3F
    else s

/-- From FREE or LOST to ACQUIRE where a reference is there to acquire (R51, R52). -/
def State.tryAcquire (s : State) : State :=
  if s.timeState = 0 ∨ s.timeState = 4 then
    if bitAt (s.r Reg.sbTimeCtrl) 0 then s.enterAcquire
    else
      match firstP (fun p => s.ineligible p = none) s.upstreams with
      | some p => (s.noteIneligible.setActive p).enterAcquire
      | none => s.noteIneligible
  else s.noteIneligible

/-- A root in ACQUIRE locks at once where REF10M_EN is 0 (R51). -/
def State.settleRoot (s : State) : State :=
  if s.timeState = 1 ∧ s.rf Reg.sbTimeStatus 7 1 = 1 ∧ s.rf Reg.sbTimeCtrl 9 1 = 0 then s.setTimeState 2 else s

/-- TIME_CTRL_WRITE (R51, R52, R75). -/
def execTimeCtrlWrite (i : Iface) (v : W32) (s : State) : Res :=
  s.act <| s.regWrite i Reg.sbTimeCtrl false fun s =>
    if 6 ≤ fld v 1 3 ∨ 6 ≤ fld v 5 3 then s.writeTimeCtrl v else (s.writeTimeCtrl v).tryAcquire.settleRoot

/-- TIME_RESTART (R51): refused while a launch is armed or a job runs. DESIGN CHOICE: the other fields of a write whose RESTART is
refused are written, and the write starts nothing (log 56). -/
def execTimeRestart (i : Iface) (v : W32) (s : State) : Res :=
  s.act <| s.regWrite i Reg.sbTimeCtrl false fun s =>
    if 6 ≤ fld v 1 3 ∨ 6 ≤ fld v 5 3 then s.writeTimeCtrl v
    else
      let s := s.writeTimeCtrl v
      if s.jobActive then (s.note 1 Ev.ftcStepRefused []).settleRoot
      else if s.timeState = 0 ∨ s.timeState = 4 then
        let s := s.noteIneligible
        let s := match firstP (fun p => s.ineligible p = none) s.upstreams with
          | some p => s.setActive p
          | none => s
        s.enterAcquire
      else s.settleRoot

/-- Entry to HOLDOVER (R61). -/
def State.enterHoldover (s : State) : State :=
  let x := avgIncr s.clk s.time.incrs
  let s := (s.withTime { s.time with trim := x, slewEnd := none }).setIncr x
  let s := s.wf Reg.sbHoldoverTicks 0 32 0
  let s := s.withTime { s.time with goodRun := 0, missRun := 0 }
  s.setTimeState 3

/-- The module's depth below port `p`'s neighbour (R52), as far as the field holds it. -/
def State.hopsBelow (s : State) (p : Nat) : Nat := Nat.min ((s.pt p).nbHops + 1) 0x3F

/-- LOCKED by port `p` (R51, R52): HOPS is the upstream's plus 1. -/
def State.lockTo (s : State) (p : Nat) : State :=
  let s := s.setActive p
  let s := s.wf Reg.sbTimeStatus 8 6 (s.hopsBelow p)
  let s := s.withTime { s.time with missRun := 0 }
  s.setTimeState 2

/-- What port `p` knows of its neighbour's time is gone with its link (R52, R54). -/
def State.forgetPeer (s : State) (p : Nat) : State :=
  s.updPt p fun x => { x with rx := none, nbState := 0, nbRoot := false, nbHops := 255, nbUp := 0x8000, rxAt := none }

/-- The port in use as upstream (R51, R54): configured, in link-up, and in ACQUIRE eligible. -/
def State.upstreamPort (s : State) : Option Nat :=
  let p := s.rf Reg.sbTimeStatus 3 3
  if s.rf Reg.sbTimeStatus 7 1 = 0 ∧ s.timeState ≠ 0 ∧ s.upstreams.contains p = true ∧ s.linkState p = 4 ∧
      (s.timeState ≠ 1 ∨ s.ineligible p = none) then some p else none

/-- The active upstream port has left link-up, by R289 or otherwise (R51). -/
def State.upstreamLost (s : State) (p : Nat) : State :=
  if s.timeState = 2 ∧ s.rf Reg.sbTimeStatus 7 1 = 0 ∧ s.rf Reg.sbTimeStatus 3 3 = p then s.enterHoldover else s

/-! ## Time transfer (R53 to R60) -/

/-- A compensated stamp: ticks over 16 bits of fraction whose low 8 are 0 (R54, R55); the compensation in 1/256 tick. -/
def stampOf (plane : BitVec 80) (comp : Int) : BitVec 80 :=
  BitVec.ofInt 80 ((((plane.toNat / 256 : Nat) : Int) + comp) * 256)

/-- Body of a TIME_XFER newt (R54). UPSTREAM_MODULE is that of the port in use as upstream; DEDUCED: a module whose upstream is gone
names none (log 57). -/
def State.timeXferBody (s : State) (p : Nat) (tx : BitVec 80) : Nat :=
  let x := s.pt p
  let st := s.timeState
  let root := s.rf Reg.sbTimeStatus 7 1
  let (eseq, etx, erx) := match x.rx with
    | some (q, a, b) => (q.toNat, a, b)
    | none => (0xFFFF, 0, 0)
  let up := match s.upstreamPort with
    | some q => s.rf (Reg.lnPeerIdent q 3) 16 12
    | none => 0x8000
  atByte 0 8 (tx.toNat / 65536) + atByte 8 2 tx.toNat + atByte 10 2 x.seq.toNat +
    atByte 12 8 (etx.toNat / 65536) + atByte 20 2 etx.toNat + atByte 22 2 eseq +
    atByte 24 8 (erx.toNat / 65536) + atByte 32 2 erx.toNat + atByte 34 1 (st + 8 * root) +
    atByte 35 1 (if st ≤ 1 then 0xFF else s.rf Reg.sbTimeStatus 8 6) + atByte 36 2 up +
    atByte 40 4 s.time.frameSec.toNat + atByte 44 4 s.time.frameNs.toNat

/-- TIME_XFER_SEND (R53 to R55): in the signal slot at tick 63 of every sixteenth frame, on a port in UP or SIDING.
`plane` is the time at the transmit plane. -/
def execTimeXferSend (p : Fin 6) (plane : BitVec 80) (s : State) : Res :=
  s.act <|
    if s.now % 65536 = 63 ∧ (s.linkState p = 4 ∨ s.linkState p = 3) then
      let tx := stampOf plane (s.rf (Reg.lnTsTxComp p) 0 24)
      let n := newtOf 1 0 0 0 0 0 0 (s.timeXferBody p tx)
      let s := s.updPt p fun x => { x with seq := x.seq + 1, sent := (x.seq, tx, s.clk) :: x.sent.take 3 }
      s.updPort p fun x => { x with newtsLocal := n :: x.newtsLocal }
    else s

/-- The departure stamp this port recorded for SEQ `q` among its last four, and the tick since cold reset at which that newt left (R56). -/
def findSent (q : BitVec 16) : List (BitVec 16 × BitVec 80 × Nat) → Option (BitVec 80 × Nat)
  | [] => none
  | p :: ps => if p.1 = q then some p.2 else findSent q ps

/-- A step acted after the newt left at `left` and at or before the arrival stamp `t2` (R56), which lies 48 ticks and less than one more
before the tick in which the newt takes effect (R283). -/
def State.steppedSince (s : State) (left : Nat) (t2 : BitVec 80) : Bool :=
  match s.time.stepTick with
  | some k => decide (left < k) && decide (k + 48 + b2n (t2.toNat % 65536 != 0) ≤ s.clk)
  | none => false

/-- The servo trims the rate to the upstream's measured frequency `freq` and slews `off`, in 1/65536 tick, out of the count at 100
ppm of it (R57, R58): a tick takes 10,000 ticks. -/
def State.slew (s : State) (off : Int) (freq : Nat) : State :=
  let x := if off = 0 then freq else if 0 < off then freq - freq / 10000 else freq + freq / 10000
  if incrInRange freq = false ∨ incrInRange x = false then s.note 1 Ev.ftcIncrRange [x]
  else (s.withTime { s.time with
      trim := freq, slewEnd := if off = 0 then none else some (s.clk + (off.natAbs * 10000 + 65535) / 65536) }).setIncr x

/-- The frequency the servo has trimmed to lies within 10 ppb of the measured one (R51). -/
def State.freqOk (s : State) (freq : Nat) : Bool :=
  decide ((if s.time.trim ≤ freq then freq - s.time.trim else s.time.trim - freq) * 100000000 ≤ freq)

/-- What the servo does with an exchange of the upstream port, `off` in 1/65536 tick, `freq` the measured frequency of the upstream
(R51, R57, R58). -/
def State.servo (s : State) (p : Nat) (off : Int) (freq : Nat) : State :=
  let ticks := Int.tdiv off 65536
  match s.timeState with
  | 1 =>
    let s := s.setActive p
    if !s.time.acqStepped || decide (2 * 65536 ≤ off.natAbs) then
      let s := s.withTime { s.time with acqStepped := true, goodRun := 0 }
      s.writeStep (BitVec.ofInt 64 (-ticks))
    else
      let good := s.freqOk freq && decide (off.natAbs ≤ 65536)
      let s := (s.withTime { s.time with goodRun := if good then s.time.goodRun + 1 else 0 }).slew off freq
      if 16 ≤ s.time.goodRun then s.lockTo p else s
  | 2 => s.slew off freq
  | 3 => if off.natAbs ≤ 8 * 65536 then (s.lockTo p).slew off freq else s
  | 4 => if off.natAbs ≤ 8 * 65536 then (s.lockTo p).slew off freq else s
  | _ => s

/-- An expected exchange of the active port is missing (R51). -/
def State.missingXfer (s : State) (p : Nat) : State :=
  if s.rf Reg.sbTimeStatus 7 1 = 0 ∧ s.rf Reg.sbTimeStatus 3 3 = p ∧ s.upstreams.contains p then
    let s := s.withTime { s.time with missRun := s.time.missRun + 1, goodRun := 0 }
    if s.timeState = 2 ∧ 4 ≤ s.time.missRun then s.enterHoldover else s
  else s

/-- Twice the inbound delay less the asymmetry, in 1/512 tick: 512 × d_in (R194). -/
def State.dIn512 (s : State) (p : Nat) : Int :=
  2 * (s.rf (Reg.lnTimeDelay p) 0 32 : Int) - sgn 16 (s.rf (Reg.lnCableAsym p) 0 16)

/-- R194 and R195 after an exchange, of a port in UP alone (log 98): the status, and LINE_CLASS_SHORT (d_in in 1/256 tick) where a result falls from 1 to 0. -/
def State.evalClass (s : State) (p : Nat) : State :=
  let d := s.dIn512 p
  let need : Int := (d + 511) / 512 + 50 + s.rf (Reg.lnLineClass p) 14 14
  let k64 : Int := 64 * s.rf (Reg.lnLineClass p) 0 10
  let reqK := ((need + 63) / 64).toNat
  let ok1 := decide (need ≤ k64)
  let ok2 := decide (512 * k64 ≤ d + 512 * 12336)
  let old := s.r (Reg.lnLineClassStatus p)
  let s := s.wf (Reg.lnLineClassStatus p) 0 32 (1 + 2 * b2n ok1 + 4 * b2n ok2 + reqK % 1024 * 65536)
  if (bitAt old 1 && !ok1) || (bitAt old 2 && !ok2) then s.note (lDie p) Ev.lineClassShort [p, enc 64 (d / 2), reqK] else s

/-- Port `p` is a configured upstream of a module that is no root; and it is the one in use. -/
def State.isUpstream (s : State) (p : Nat) : Bool := s.rf Reg.sbTimeStatus 7 1 == 0 && s.upstreams.contains p
def State.isActive (s : State) (p : Nat) : Bool := s.isUpstream p && s.rf Reg.sbTimeStatus 3 3 == p

/-- The servo acts on port `p`'s offsets (R51, R52, R57): an eligible configured upstream that is in ACQUIRE the first such and in
LOCKED the one in use; in HOLDOVER and LOST any may be locked to. -/
def State.servoHears (s : State) (p : Nat) : Bool :=
  s.isUpstream p && decide (s.ineligible p = none) &&
    (match s.timeState with
     | 1 => decide (firstP (fun q => s.ineligible q = none) s.upstreams = some p)
     | 2 => s.isActive p
     | _ => true)

/-- What a received newt says of the neighbour's time, kept (R52, R54), and what follows from it alone (R51, R52). -/
def State.hearPeer (s : State) (p : Nat) (n : Newt) (t1 t2 : BitVec 80) : State :=
  let s := s.updPt p fun x => { x with
    rx := some (BitVec.ofNat 16 (nwBody n 10 2), t1, t2)
    nbState := nwBody n 34 1 % 8
    nbRoot := decide (nwBody n 34 1 / 8 % 2 = 1)
    nbHops := nwBody n 35 1
    nbUp := BitVec.ofNat 16 (nwBody n 36 2)
    rxAt := some s.clk }
  let s := if s.isUpstream p then
      match s.ineligible p with
      | some k => s.note 1 Ev.timeUpstreamIneligible [p, k]
      | none => s
    else s
  if s.isActive p = true ∧ s.timeState = 2 then
    (if (s.pt p).nbState = 0 ∨ (s.pt p).nbState = 1 ∨ (s.pt p).nbState = 4 then s.enterHoldover
     else s.wf Reg.sbTimeStatus 8 6 (s.hopsBelow p))
  else s

/-- TIME_XFER_RECEIVE (R51, R52, R55 to R58, R60, R195): `plane` is the time at the receive plane, `freq` the measured frequency of
the neighbour as FTC_INCR gives one. DESIGN CHOICE: R194 is evaluated in UP alone, not in SIDING (log 98). -/
def execTimeXferReceive (p : Fin 6) (n : Newt) (plane : BitVec 80) (freq : BitVec 48) (s : State) : Res :=
  s.act <|
    if nwType n ≠ 1 ∨ nwScope n ≠ 0 then s.inc (Reg.lnNewtDrop p)
    else
      let t2 := stampOf plane (-(s.rf (Reg.lnTsRxComp p) 0 24 : Int) - (s.rf (Reg.lnTsDeskew p) 0 16 : Int))
      let t1 : BitVec 80 := BitVec.ofNat 80 (nwBody n 0 8 * 65536 + nwBody n 8 2)
      let sent := (s.pt p).sent
      let s := s.hearPeer p n t1 t2
      match findSent (BitVec.ofNat 16 (nwBody n 22 2)) sent with
      | none => if s.isActive p then s.withTime { s.time with missRun := 0 } else s
      | some (t3, left) =>
        let t4 : BitVec 80 := BitVec.ofNat 80 (nwBody n 24 8 * 65536 + nwBody n 32 2)
        let a : Int := (t2.toNat : Int) - t1.toNat
        let b : Int := (t4.toNat : Int) - t3.toNat
        let off := Int.tdiv (a - b + sgn 16 (s.rf (Reg.lnCableAsym p) 0 16) * 256) 2
        let delay := Int.tdiv (a + b) 2
        if delay < 0 ∨ 4096 * 65536 < delay ∨ (2 ^ 20 * 65536 < off.natAbs ∧ 1 < s.timeState) ∨ s.steppedSince left t2 = true then
          (s.inc (Reg.lnTimeDiscard p)).missingXfer p
        else
          let o256 := Int.tdiv off 256
          let sat : Int := if 0x7FFFFFFF < o256 then 0x7FFFFFFF else if o256 < -0x80000000 then -0x80000000 else o256
          let s := s.wf (Reg.lnTimeOffset p) 0 32 (enc 32 sat)
          let s := s.w (Reg.lnTimeOffsetTicks p) (BitVec.ofInt 64 (Int.tdiv off 65536))
          let s := s.wf (Reg.lnTimeDelay p) 0 32 (Int.tdiv delay 256).toNat
          let s := if s.linkState p = 4 then s.evalClass p else s
          let recent := match (s.pt p).skewLog with
            | some k => decide (s.clk < k + 3125000)
            | none => false
          let s := if s.timeState = 2 ∧ 2 * 65536 < off.natAbs ∧ recent = false then
              (s.note (lDie p) Ev.timeNeighbourSkew [p.val, enc 64 sat]).updPt p fun x => { x with skewLog := some s.clk }
            else s
          let s := if s.isActive p then (s.withTime { s.time with missRun := 0 }) else s
          if s.servoHears p = true then s.servo p off freq.toNat else s

/-- Ticks after its signal slot at which a TIME_XFER newt of port `p` takes effect (R51): the mean delay and 48 ticks. -/
def State.xferDelay (s : State) (p : Nat) : Nat := (s.rf (Reg.lnTimeDelay p) 0 32 + 255) / 256 + 48

/-- The newt of the slot whose due tick at port `p` is now has not arrived, and has not been counted yet (R51). -/
def State.xferMissing (s : State) (p : Nat) : Bool :=
  let slot : Int := (s.now : Int) - s.xferDelay p
  slot % 65536 == 63 && (s.pt p).missAt != some s.clk &&
    (match (s.pt p).rxAt with
     | some t => decide (t + s.xferDelay p < s.clk)
     | none => true)

/-- TIME_XFER_MISSING (R51): at its due tick an expected newt has not arrived. -/
def execTimeXferMissing (p : Fin 6) (s : State) : Res :=
  s.act <| if s.xferMissing p then (s.updPt p fun x => { x with missAt := some s.clk }).missingXfer p else s

/-- HOLDOVER_EXPIRY (R51, R61): 312,500,000 ticks in HOLDOVER. -/
def execHoldoverExpiry (s : State) : Res :=
  s.act <| if s.timeState = 3 ∧ 312500000 ≤ s.rf Reg.sbHoldoverTicks 0 32 then s.setTimeState 4 else s

/-- REF10M_LOSS (R51, R71). -/
def execRef10mLoss (s : State) : Res :=
  s.act <|
    let s := s.wf Reg.sbTimeStatus 14 1 0
    if s.timeState = 2 ∧ s.rf Reg.sbTimeStatus 7 1 = 1 ∧ s.rf Reg.sbTimeCtrl 9 1 = 1 then s.enterHoldover else s

/-- A root whose input is within 8 ticks again is LOCKED, and the servo slews the offset out (R51, R57). -/
def State.relock (s : State) (m : RefMeasure) : State :=
  if m.offset.toInt.natAbs ≤ 8 * 256 then (s.setTimeState 2).slew (m.offset.toInt * 256) m.freq.toNat else s

/-- REF10M_PRESENT (R51, R71): `locked` that the PLL is locked to the input, `near` the measured offset and frequency. -/
def execRef10mPresent (locked : Bool) (near : RefMeasure) (s : State) : Res :=
  s.act <|
    let s := s.wf Reg.sbTimeStatus 14 1 1
    if s.rf Reg.sbTimeStatus 7 1 = 1 ∧ s.rf Reg.sbTimeCtrl 9 1 = 1 then
      match s.timeState with
      | 1 => if locked then s.setTimeState 2 else s
      | 3 => s.relock near
      | 4 => s.relock near
      | _ => s
    else s

/-- An edge of the 1PPS input was seen in the last 1.1 s (R75). -/
def State.ppsPresent (s : State) : Bool :=
  match s.time.ppsLast with
  | some t => decide (s.clk ≤ t + 3437500000)
  | none => false

/-! ## Wall time (R65, R66), PTP (R67, R68), 1PPS (R69, R70) -/

/-- `SB.WTB_NS` as it reads now. -/
def State.wtbNsWord (s : State) : W64 :=
  BitVec.ofNat 64 (s.time.wtbFrac.toNat / 2 ^ 24 + s.time.wtbNs.toNat * 65536)

/-- WTB_LOAD_GO (R66): the write of WTB_LOAD_NS with GO arms the load. -/
def execWtbLoadGo (i : Iface) (v : W64) (s : State) : Res :=
  s.act <| s.regWrite i Reg.sbWtbLoadNs true fun s =>
    let s := s.writeReg Reg.sbWtbLoadNs true v
    if bitAt v 63 then (s.withTime { s.time with load := true }) else s

/-- The WTB set to a count of nanoseconds over 2^40. -/
def State.setWtb (s : State) (total : Int) : State :=
  let ns := total / 2 ^ 40
  let s := (s.withTime { s.time with
    wtbFrac := BitVec.ofInt 40 total
    wtbNs := BitVec.ofInt 32 (ns % 1000000000) })
  s.w Reg.sbWtbSec (BitVec.ofInt 64 (ns / 1000000000))

/-- WTB_LOADED (R66), at the next frame start. -/
def execWtbLoaded (s : State) : Res :=
  s.act <|
    if s.time.load = false ∨ s.now % 4096 ≠ 0 then s
    else
      let l := s.r Reg.sbWtbLoadNs
      let sec := s.r Reg.sbWtbLoadSec
      let frac : Int := (fld l 16 32 : Int) * 2 ^ 40 + (fld l 0 16 : Int) * 2 ^ 24
      let old := [(s.r Reg.sbWtbSec).toNat, s.wtbNsWord.toNat]
      let cur : Int := ((s.r Reg.sbWtbSec).toNat * 1000000000 + s.time.wtbNs.toNat : Nat) * 2 ^ 40 + s.time.wtbFrac.toNat
      let s := s.withTime { s.time with load := false }
      let s := if bitAt l 62 then s.setWtb (cur + sec.toInt * 1000000000 * 2 ^ 40 + frac)
        else s.setWtb ((sec.toNat : Int) * 1000000000 * 2 ^ 40 + frac)
      s.note 1 Ev.wtbLoaded (old ++ [(s.r Reg.sbWtbSec).toNat, s.wtbNsWord.toNat])

/-- WTB_SEC_READ (R75): a 64-bit read latches WTB_NS for the next read. -/
def execWtbSecRead (i : Iface) (s : State) : Res :=
  s.act <| s.regRead i Reg.sbWtbSec true fun s =>
    (s.r Reg.sbWtbSec, (s.withTime { s.time with nsLatch := some s.wtbNsWord }))

/-- What carries a PTP message (R67). -/
inductive PtpTransport where
  | layer2 | udp4 | udp6
deriving DecidableEq, Repr

/-- Big-endian number in `n` bytes from byte `k` of a frame. -/
def frameField (bs : List Byte) (k n : Nat) : Nat := ((bs.drop k).take n).foldl (fun a b => a * 256 + b.toNat) 0

/-- Bytes `k` and on of a frame replaced by `n` bytes of `v`, big-endian. -/
def setFrame (bs : List Byte) (k n v : Nat) : List Byte := bs.take k ++ (bytesLE n v).reverse ++ bs.drop (k + n)

/-- The transport of a frame: EtherType 0x88F7, IPv4 or IPv6 (R67; log 58). -/
def ptpTransport (bs : List Byte) : Option PtpTransport :=
  match frameField bs 12 2 with
  | 0x88F7 => some .layer2
  | 0x0800 => some .udp4
  | 0x86DD => some .udp6
  | _ => none

/-- Where the PTP message begins in a frame, past the Ethernet, IP and UDP headers (log 58). -/
def PtpTransport.at_ : PtpTransport → Nat
  | .layer2 => 14
  | .udp4 => 42
  | .udp6 => 62

/-- messageType of a PTP message (log 58): Sync 0, Delay_Req 1, Follow_Up 8, Delay_Resp 9, Announce B, Signaling C, Management D;
peer delay 2, 3 and A. -/
def ptpType (t : PtpTransport) (bs : List Byte) : Nat := frameField bs t.at_ 1 % 16

/-- A peer delay message; and one of the messages that R67 supports. -/
def ptpPeerDelay (k : Nat) : Bool := k == 2 || k == 3 || k == 0xA
def ptpSupported (k : Nat) : Bool := [0, 1, 8, 9, 0xB, 0xC, 0xD].contains k

/-- Seconds of a stamp taken now. -/
def State.wtbSec (s : State) : W64 := s.r Reg.sbWtbSec

/-- The CRC-32 of IEEE 802.3 over a frame's bytes: its frame check sequence. -/
def frameFcs (bs : List Byte) : BitVec 32 := crc32 bs

/-- PTP_FRAME_RX (R67): a peer delay message is discarded and counted; any other supported one is stamped and kept for SA firmware. -/
def execPtpFrameRx (frame : List Byte) (s : State) : Res :=
  s.act <|
    match ptpTransport frame with
    | none => s
    | some t =>
      if ptpPeerDelay (ptpType t frame) then s.inc Reg.sbPtpPdelayDropped
      else if ptpSupported (ptpType t frame) then
        s.withTime { s.time with ptpRx := s.time.ptpRx ++ [⟨frame, frameFcs frame, s.wtbSec, s.wtbNsWord⟩] }
      else s

/-- A Sync with its originTimestamp inserted, and over UDP the checksum 0 (R68). -/
def State.stampSync (s : State) (t : PtpTransport) (bs : List Byte) : List Byte :=
  let bs := setFrame (setFrame bs (t.at_ + 34) 6 s.wtbSec.toNat) (t.at_ + 40) 4 s.time.wtbNs.toNat
  if t = .udp4 then setFrame bs (t.at_ - 2) 2 0 else bs

/-- PTP_FRAME_TX (R68): a frame departs; a Sync sent one-step over Layer 2 or IPv4 carries its own stamp, and of a frame sent
two-step the stamp is queued. -/
def execPtpFrameTx (oneStep : Bool) (frame : List Byte) (s : State) : Res :=
  s.act <|
    match ptpTransport frame with
    | none => s
    | some t =>
      let own := oneStep && decide (t ≠ .udp6) && ptpType t frame == 0
      let out := if own then s.stampSync t frame else frame
      let s := s.withEthOut (s.ethOut ++ [⟨out, frameFcs out, s.wtbSec, s.wtbNsWord⟩])
      if own then s
      else
        let st : W64 := BitVec.ofNat 64 (frameField frame (t.at_ + 30) 2 * 2 ^ 48 + s.wtbNsWord.toNat % 2 ^ 48)
        s.withTime { s.time with stamps := s.time.stamps ++ [st] }

/-- PTP_TX_STAMP_READ (R68, R75): the next stamp, which the read pops; 0 when none waits. -/
def execPtpTxStampRead (i : Iface) (s : State) : Res :=
  s.act <| s.regRead i Reg.sbPtpTxStamp true fun s =>
    match s.time.stamps with
    | [] => (0, s)
    | x :: xs => (x, (s.withTime { s.time with stamps := xs }))

/-- PPS_IN_EDGE (R70, R75): every edge is seen; it is stamped where PPS_IN_EN is 1. -/
def execPpsInEdge (s : State) : Res :=
  s.act <|
    let s := s.withTime { s.time with ppsLast := some s.clk }
    if s.rf Reg.sbTimeCtrl 10 1 = 0 then s
    else
      let s := s.w Reg.sbPpsInFtc (s.r Reg.sbFtc)
      let s := s.w Reg.sbPpsInWtb (BitVec.ofNat 64 (s.wtbNsWord.toNat + (s.r Reg.sbWtbSec).toNat % 65536 * 2 ^ 48))
      s.wf Reg.sbPpsCount 0 32 (s.rf Reg.sbPpsCount 0 32 + 1)

/-- PPS_OUT_EDGE (R69): at a tick where the WTB nanoseconds pass through 0 the output rises. -/
def execPpsOutEdge (s : State) : Res :=
  s.act <|
    if s.time.ppsDue = true ∧ s.rf Reg.sbTimeCtrl 11 1 = 1 then
      s.withTime { s.time with ppsDue := false, ppsOut := true, ppsRise := s.clk }
    else s

/-- PPS_OUT_FALL (R69): 312,500 ticks after the rise. -/
def execPpsOutFall (s : State) : Res :=
  s.act <|
    if s.time.ppsOut ∧ s.time.ppsRise + 312500 ≤ s.clk then (s.withTime { s.time with ppsOut := false }) else s

end Sys2Proof.Machine
end

