-- ==== Sys2Proof/Machine/Timetable.lean ====
section
/-!
DEFINITION. Departures, arrivals, the hold, the passing loops and the junctions (R189 to R208, R235 to R240, R255 to
R270).
-/
namespace Sys2Proof.Machine
open Sys2Proof

/-! ## Cells in tile SRAM -/

/-- The 256-byte cell at tile-local address `a` of tile `t`. -/
def State.readCell (s : State) (t a : Nat) : Payload := BitVec.ofNat 2048 (s.load (tileAddr t a) 256)

/-- Writer `who` writes it (R42). -/
def State.writeCell (s : State) (who t a : Nat) (x : Payload) : State :=
  s.writeBy who (tileAddr t a) 256 fun s => s.store (tileAddr t a) 256 x.toNat

/-- Partition `p`'s image is in checked-platform mode (R208). -/
def State.checkedPlatforms (s : State) (p : Nat) : Bool :=
  match (s.part p).active with
  | some im => bitAt im.header 80
  | none => false

/-- The presence bits of `n` platform cells from address `a` of tile `t` are cleared at the release of cell 0 of train
`train` (R208, R269). -/
def State.clearPresence (s : State) (owner t a n train : Nat) : State :=
  if owner ≤ 16 ∧ s.checkedPlatforms (owner - 1) = true then
    s.updTile t fun x => { x with
      absent := (List.range n).foldl (fun m i => SMap.set (fun _ => 0) m (a / 256 + i) (train + 1)) x.absent }
  else s

/-- The presence bit of the cell at address `a` is set as it is written. -/
def State.setPresence (s : State) (t a : Nat) : State :=
  s.updTile t fun x => { x with absent := SMap.set (fun _ => 0) x.absent (a / 256) 0 }

/-- The train whose unarrived platform cell covers address `a` of tile `t`, if any. -/
def State.unarrived (s : State) (t a : Nat) : Option Nat :=
  match SMap.get (fun _ => 0) (s.tile t).absent (a / 256) with
  | 0 => none
  | n + 1 => some n

/-! ## Line cycles and external cycles (R83, R89) -/

/-- Line cycle of tile `t`'s quarter now. -/
def State.lineCycle (s : State) (t : Nat) : Int :=
  ((s.r (Reg.cnLct (t / 192))).toNat : Int) - (s.r (Reg.cnLineBase (t / 192) (t / 48 % 4))).toNat

/-- A job runs on tile `t`'s quarter (R49). -/
def State.jobOnTile (s : State) (t : Nat) : Bool :=
  match s.partOfTile t with
  | some p => s.partState p == 3 || s.partState p == 4
  | none => false

/-- The core cycle that begins in this tick is an external cycle of tile `t`. -/
def State.externalNow (s : State) (t : Nat) : Bool :=
  s.coreNow (t / 192) &&
    (if s.jobOnTile t then decide (s.lineCycle t % 8 = 7) else decide ((s.r (Reg.cnLct (t / 192))).toNat % 8 = 7))

/-- Cells that the external port of tile `t` may still move in this cycle, 8 in an external cycle (R83). -/
def State.extRoom (s : State) (t : Nat) : Nat :=
  let x := s.tile t
  if s.externalNow t then (if x.extAt = (s.r (Reg.cnLct (t / 192))).toNat then 8 - x.extUsed else 8) else 0

/-- `n` cells move through the external port of tile `t` in this cycle. -/
def State.useExt (s : State) (t n : Nat) : State :=
  let l := (s.r (Reg.cnLct (t / 192))).toNat
  s.updTile t fun x => { x with extAt := l, extUsed := (if x.extAt = l then x.extUsed else 0) + n }

/-! ## Departures -/

/-- Move the first dispatched entry that satisfies `f` from stage 0 to stage 1. -/
def stageDisp (f : Disp → Bool) : List Disp → List Disp
  | [] => []
  | d :: ds => if f d && d.stage == 0 then { d with stage := 1 } :: ds else d :: stageDisp f ds

/-- DEPART_ENTRY (R189, R224): at D − 512 the read request goes to the source tile's C-die. -/
def execDepartEntry (p : Fin 6) (o : Fin 32) (s : State) : Res :=
  s.act <| s.updWalker (walkKey p o 0) fun w => { w with
    dispatched := stageDisp (fun d => eType d.entry == 1 && d.tick == s.now + 512 && !s.beyondRestart p d) w.dispatched }

/-- A read takes its place among those that wait for an external cycle, by the close of its junction window (R240). -/
def putRead (x : SramRead) : List SramRead → List SramRead
  | [] => [x]
  | y :: ys => if x.move.hi < y.move.hi then x :: y :: ys else y :: putRead x ys

/-- Cell `a` of tile `t` is to be read, and then to move as `x` says. -/
def State.askRead (s : State) (t a : Nat) (x : Transit) : State := s.withSramReads (putRead ⟨t, a, x, s.readCell t a⟩ s.sramReads)

/-- One cell of a train that is to be read toward the departure buffer (R189, R240). -/
def State.departCell (s : State) (p : Nat) (d : Disp) (i : Nat) : State :=
  let e := d.entry
  let tick := cellTick (s.bankHalf p d.bank) d.tick i
  let s := s.updPort p fun x => { x with
    departs := x.departs ++ [{ tick := tick, owner := d.owner, train := eTrain e, i := i, d0 := d.tick, nm1 := eNm1 e
                               bank := d.bank, data := none }] }
  s.askRead (dpTile e) (eAddr e * 256 + 256 * i)
    { owner := d.owner, src := dpTile e / 192, dst := 4 + p, lo := d.tick - 448, hi := tick - 24, cell := 0, cargo := .depart p tick }

/-- DEPART_READY_TEST (R189, R190): at D − 480 the token is compared, and the train's cells are to be read in external cycles. -/
def execDepartReadyTest (p : Fin 6) (o : Fin 32) (s : State) : Res :=
  s.act <|
    let k := walkKey p o 0
    let w := s.walker k
    match takeDisp (fun d => eType d.entry == 1 && d.stage == 1 && d.tick == s.now + 480) w.dispatched with
    | none => s
    | some (d, rest) =>
      let s := s.setWalker k { w with dispatched := rest }
      let e := d.entry
      let v := (s.token (dpToken e)).val.toNat
      if v < thresholdOf (dpThresh e) (dpStep e) (dpLvl e) d.iters then
        (s.inc (Reg.lnDepartNotReady p)).fail (lDie p) (o - 1) Ev.departNotReady [p, eTrain e, v]
      else s.each (fun i s => s.departCell p d i) (List.range (eNm1 e + 1))

/-- What a read has of a cell that held `x` when it was asked for and holds `y` now: of each 32-byte word that was written meanwhile, one of
the two, which a free value says (R42, R257, R440). -/
def State.mixCell (s : State) (x y : Payload) : Payload × State :=
  if x = y then (y, s)
  else
    let (f, s) := s.free
    ((List.range 8).foldl (fun c i => if bitAt f i then setFld c (256 * i) 256 (fld x (256 * i) 256) else c) y, s)

/-- A read that has had its external cycle (R85, R105): an uncorrectable one sends no cell and is recorded, a corrected one is
counted; a departing platform cell that has not arrived stops the tile (R208), an operand is not checked (R269). -/
def State.doRead (s : State) (x : SramRead) (ecc : Ecc) : State :=
  let t := x.tile
  let absent := match x.move.cargo with
    | .depart _ _ => s.unarrived t x.addr
    | _ => none
  match ecc with
  | .ue w => s.noteP (cDie (t / 192)) (x.move.owner - 1) Ev.sramUncorrectable [t, x.addr + 8 * (w.toNat % 32)]
  | _ =>
    let s := if ecc.corrected then s.hwSet (Reg.cnTileErr (t / 192) (t % 192)) 1 else s
    match absent with
    | some train => s.tileFault t Ev.platformUnarrived [x.addr, train]
    | none =>
      let (c, s) := s.mixCell x.held (s.readCell t x.addr)
      s.withTransits (s.transits ++ [{ x.move with cell := c }])

/-- The reads of `xs`, with how each came out; a read whose window has passed is dropped. -/
def State.doReads (s : State) : List SramRead → List Ecc → State
  | [], _ => s
  | x :: xs, eccs => (if x.move.hi < s.now then s else s.doRead x (eccs.headD .ok)).doReads xs eccs.tail

/-- How many reads that wait at tile `t` the cycle has room for. -/
def State.readsNow (s : State) (t : Nat) : Nat := Nat.min (s.extRoom t) (s.sramReads.filter fun x => x.tile = t).length

/-- The reads that wait at tile `t` have their turn, as many as the cycle has room for, in the order of their junction slots (R84,
R240). -/
def State.takeReads (s : State) (t : Nat) (eccs : List Ecc) : State :=
  let mine := (s.sramReads.filter fun x => x.tile = t).take (s.extRoom t)
  ((s.withSramReads (s.sramReads.filter fun x => !mine.contains x)).useExt t mine.length).doReads mine eccs

/-! ## Forwarded cells (R235) -/

/-- The oldest forward-queue element of inbound port `a` and owner `o` that was put before tick `now`, and the others: a take counts before
a put of its tick. -/
def takeFwd (a o now : Nat) : List Fwd → Option (Fwd × List Fwd)
  | [] => none
  | x :: xs =>
    if x.inPort = a ∧ x.owner = o ∧ x.release < now then some (x, xs) else (takeFwd a o now xs).map fun p => (p.1, x :: p.2)

/-- Index of the cell of a train from `d` that departs at tick `t`, if there is one. -/
def cellAt (half : Bool) (d nm1 t : Nat) : Option Nat :=
  let i := bookIndex half t - bookIndex half d
  if d ≤ t ∧ i ≤ nm1 ∧ cellTick half d i = t then some i else none

/-- PASS_OUTBOUND_TAKE (R235): the cells of outbound PASS halves of owner `o` on port `p` that depart 16 ticks from now. -/
def execPassOutboundTake (p : Fin 6) (o : Fin 32) (s : State) : Res :=
  s.act <|
    let w := s.walker (walkKey p o 0)
    s.each (fun d s =>
      let half := s.bankHalf p d.bank
      match eType d.entry == 3 && !s.beyondRestart p d, cellAt half d.tick (eNm1 d.entry) (s.now + 16) with
      | true, some i =>
        let s := s.updPort p fun x => { x with took := SMap.set (fun _ => 0) x.took (paPort d.entry * 32 + o) s.now }
        let x := s.port p
        match takeFwd (paPort d.entry) o s.now x.fwd with
        | none => s.inc (Reg.lnPassVoid p)
        | some (f, rest) =>
          let s := s.setPort p { x with fwd := rest }
          match f.data with
          | none => s.inc (Reg.lnPassVoid p)
          | some c => s.updPort p fun x => { x with
              departs := x.departs ++ [{ tick := s.now + 16, owner := o, train := eTrain d.entry, i := i, d0 := d.tick
                                         nm1 := eNm1 d.entry, bank := d.bank, data := some c }] }
      | _, _ => s) w.dispatched

/-! ## Reductions (R255 to R266) -/

/-- REDUCE_FLAGS bits (R270). -/
def rfInvalid : Nat := 1
def rfOverflow : Nat := 2
def rfIntOver : Nat := 4
def rfBfpOver : Nat := 8
def rfBfpNan : Nat := 16

/-- FP flags of one element sum as REDUCE_FLAGS. -/
def reduceFlags (f : Nat) : Nat := (if f % 2 = 1 then rfInvalid else 0) + (if f / 4 % 2 = 1 then rfOverflow else 0)

/-- a + b of bfloat16 codes: FP32 addition, then rounding to bfloat16 (R262, R263). -/
def bfAdd (a b : Nat) : Nat × Nat :=
  let x := fAdd (a * 65536) (b * 65536)
  match fp32.decode x.1 with
  | .nan => (bf16.nanBits, x.2)
  | .inf s => (bf16.signed s bf16.infBits, x.2)
  | .fin s m e => if m = 0 then (bf16.signed s 0, x.2) else
      let v := fracOf m e
      let y := bf16.round 0 0 s v.1 v.2
      (y.1, Nat.lor x.2 y.2)

/-- A signed sum of 32-bit elements, and whether it wrapped. -/
def wrapAdd (a b : Nat) : Nat × Bool :=
  let x := sgn 32 a + sgn 32 b
  (enc 32 x, decide (x < -(2 ^ 31 : Int)) || decide ((2 ^ 31 : Int) ≤ x))

/-- OR of a list of flag words. -/
def orAll (xs : List Nat) : Nat := xs.foldl Nat.lor 0

/-- The sum cell of arriving cell `a` and operand cell `b`, its REDUCE_FLAGS, and whether exponents disagree (R262 to
R266). -/
def sumCell (fmt : Nat) (a b : Payload) : Payload × Nat × Bool :=
  match fmt with
  | 0 =>
    let xs := List.zipWith fAdd (unpackLE 32 64 a.toNat) (unpackLE 32 64 b.toNat)
    (BitVec.ofNat 2048 (packLE 32 (xs.map (·.1))), orAll (xs.map fun x => reduceFlags x.2), false)
  | 1 =>
    let xs := List.zipWith bfAdd (unpackLE 16 128 a.toNat) (unpackLE 16 128 b.toNat)
    (BitVec.ofNat 2048 (packLE 16 (xs.map (·.1))), orAll (xs.map fun x => reduceFlags x.2), false)
  | 2 =>
    let xs := List.zipWith wrapAdd (unpackLE 32 64 a.toNat) (unpackLE 32 64 b.toNat)
    (BitVec.ofNat 2048 (packLE 32 (xs.map (·.1))), if xs.any (·.2) then rfIntOver else 0, false)
  | _ =>
    let xs := List.zipWith wrapAdd (unpackLE 32 62 a.toNat) (unpackLE 32 62 b.toNat)
    let wrapped := xs.any (·.2)
    let ha := fld a 1984 64
    let hb := fld b 1984 64
    let differ := decide (ha % 65536 ≠ hb % 65536)
    let c := ha / 65536 % 256 + hb / 65536 % 256
    let bit := fun (h i : Nat) => h / 2 ^ i % 2 == 1
    let h := ha % 65536 + (if c < 255 then c else 255) * 65536 + b2n (bit ha 24 || bit hb 24 || wrapped) * 2 ^ 24 +
      b2n (bit ha 25 || bit hb 25 || differ) * 2 ^ 25 + b2n (bit ha 26 || bit hb 26) * 2 ^ 26
    (BitVec.ofNat 2048 (packLE 32 (xs.map (·.1)) + h * 2 ^ 1984),
      (if wrapped then rfBfpOver else 0) + (if differ then rfBfpNan else 0), differ)

/-- REDUCE_ENTRY (R224, R256): 512 ticks before its tick the operand request goes to the operand tile's C-die. -/
def execReduceEntry (p : Fin 6) (o : Fin 32) (s : State) : Res :=
  s.act <| s.updWalker (walkKey p o 1) fun w => { w with
    dispatched := stageDisp (fun d => eType d.entry == 4 && d.tick == s.now + 512 && !s.beyondRestart p d) w.dispatched }

/-- REDUCE_READY_TEST (R256, R258): at r_0 − 480 the token is compared, and the operand cells are to be read in external cycles. -/
def execReduceReadyTest (p : Fin 6) (o : Fin 32) (s : State) : Res :=
  s.act <|
    let k := walkKey p o 1
    let w := s.walker k
    let delay := s.classDelay p
    match takeDisp (fun d => eType d.entry == 4 && d.stage == 1 && d.tick + delay == s.now + 480) w.dispatched with
    | none => s
    | some (d, rest) =>
      let s := s.setWalker k { w with dispatched := rest }
      let e := d.entry
      let t := dpTile e
      let v := (s.token (dpToken e)).val.toNat
      if v < thresholdOf (rdThresh e) (rdStep e) (rdLvl e) d.iters then
        (s.inc (Reg.lnReduceNotReady p)).fail (lDie p) (o - 1) Ev.reduceNotReady [p, eTrain e, v]
      else s.each (fun i s =>
        let a := eAddr e * 256 + 256 * i
        let r := cellTick (s.bankHalf p d.bank) d.tick i + delay
        let s := s.updPort p fun x => { x with operands := x.operands ++ [⟨o, r, none⟩] }
        s.askRead t a { owner := o, src := t / 192, dst := 4 + p, lo := r - 448, hi := r - 24, cell := 0, cargo := .operand p r })
        (List.range (eNm1 e + 1))

/-! ## Junctions (R237 to R240) -/

/-- The die an endpoint code names: 0 to 3 a C-die, 4 + p an L-die (R238). -/
def endpointDie (c : Nat) : Nat := if c < 20 then c / 5 else 4 + (c - 20)

def setOperand (o r : Nat) (c : Payload) : List Operand → List Operand
  | [] => []
  | x :: xs => if x.owner = o ∧ x.release = r then { x with data := some c } :: xs else x :: setOperand o r c xs

def setFwd (a o r : Nat) (c : Payload) : List Fwd → List Fwd
  | [] => []
  | x :: xs => if x.inPort = a ∧ x.owner = o ∧ x.release = r then { x with data := some c } :: xs else x :: setFwd a o r c xs

def setDepart (o t : Nat) (c : Payload) : List Depart → List Depart
  | [] => []
  | x :: xs => if x.owner = o ∧ x.tick = t then { x with data := some c } :: xs else x :: setDepart o t c xs

/-- A cell has crossed. -/
def State.deliver (s : State) (x : Transit) : State :=
  match x.cargo with
  | .depart p t => s.updPort p fun y => { y with departs := setDepart x.owner t x.cell y.departs }
  | .toTile p z => s.updPort p fun y => { y with toTile := y.toTile ++ [z] }
  | .forward p a r => s.updPort p fun y => { y with fwd := setFwd a x.owner r x.cell y.fwd }
  | .operand p r => s.updPort p fun y => { y with operands := setOperand x.owner r x.cell y.operands }

/-- The movement that a CONNECT of owner `o` from `a` to `b` carries at tick `j`: of those whose window holds `j`, the one
whose window closes first. -/
def pickTransit (o a b j : Nat) : List Transit → Option Transit
  | [] => none
  | x :: xs =>
    let y := pickTransit o a b j xs
    if x.owner = o ∧ x.src = a ∧ x.dst = b ∧ x.lo ≤ j ∧ j ≤ x.hi then
      match y with
      | some z => if z.hi < x.hi then some z else some x
      | none => some x
    else y

/-- The tick at which the present junction slot began. -/
def State.slotTick (s : State) : Nat := s.now / 2 * 2

/-- What has crossed J-die `j` in the present slot. -/
def State.slotOf (s : State) (j : Nat) : JnSlot :=
  let x := SMap.get (fun _ => ({} : JnSlot)) s.jn j
  if x.at_ = s.slotTick then x else { x with at_ := s.slotTick, ins := [], outs := [] }

/-- The lanes of an end of a J-die's links (R238): five of a C-die, one of an L-die, and 26 for SA's. -/
def lanesOf (e : Nat) : List Nat := if e < 4 then (List.range 5).map (5 * e + ·) else [16 + e]

/-- The lane of SA's link. -/
def saLane : Nat := 26

/-- From when SA's link, free from `t` on, is free again after one more cell: 256 bytes at 128 GB/s take 6.25 ticks (R15). -/
def State.saNext (s : State) (t : Nat) : Nat := Nat.max t (4 * s.clk - 7) + 25

/-- A cell crosses J-die `j` from lane `a` to lane `b` in the present slot. -/
def State.useLane (s : State) (j a b : Nat) : State :=
  let x := s.slotOf j
  s.withJn (SMap.set (fun _ => ({} : JnSlot)) s.jn j { x with
    ins := a :: x.ins, outs := b :: x.outs
    saIn := if a = saLane then s.saNext x.saIn else x.saIn
    saOut := if b = saLane then s.saNext x.saOut else x.saOut })

/-- A CONNECT has a cell in the junction slot that began at tick `t` (R239). -/
def inSlot (t : Nat) (d : Disp) : Bool :=
  let gap := 2 * cnStride d.entry
  eType d.entry == 5 && decide (d.tick ≤ t) && (t - d.tick) % gap == 0 && decide ((t - d.tick) / gap ≤ eNm1 d.entry)

/-- The tile of an address, if it lies in tile SRAM. -/
def tileOfAddr (a : Nat) : Option Nat := if regionOf a = .sram then some ((a - 0x100000000000) / 0x800000) else none

/-- The crossings between C-dies that a granule of a stream of M-die `m`, on C-die `m / 4`, makes in order: from a source on another
C-die, and to a destination on another (R359; log 63). -/
def crossDirs (m : Nat) (e : BitVec 256) : List (Nat × Nat) :=
  let home := m / 4
  let die := fun a => (tileOfAddr a).map (· / 192)
  ((if stZero e then none else die (stSrc e)).toList.filter (· ≠ home)).map (fun c => (c, home)) ++
    ((die (stDst e)).toList.filter (· ≠ home)).map (fun c => (home, c))

/-- The crossing that granule `g` of a stream makes next; none once it is at its destination's C-die. -/
def Stream.way (m : Nat) (x : Stream) (g : Granule) : Option (Nat × Nat) := (crossDirs m x.entry)[g.leg]?

/-- Stream `x` goes before stream `y`: by the earlier S + W, then by the lower entry index (R358). -/
def Stream.goesFirst (x y : Stream) : Bool :=
  let a := x.start + stWindow x.entry
  let b := y.start + stWindow y.entry
  decide (a < b) || (a == b && decide (x.idx < y.idx))

/-- The granule that crosses next among those whose stream and crossing satisfy `f`: M-die, stream and granule. -/
def State.nextGranule (s : State) (f : Stream → Nat × Nat → Bool) : Option (Nat × Stream × Granule) :=
  let all := (List.range 16).flatMap fun m => (s.strm m).filterMap fun x =>
    (x.bufs.find? fun g => match x.way m g with
      | some w => f x w
      | none => false).map fun g => (m, x, g)
  all.foldl (fun a y => match a with
    | none => some y
    | some z => if y.2.1.goesFirst z.2.1 then some y else some z) none

/-- Granule `g` has one more crossing behind it. -/
def crossed (g : Granule) (gs : List Granule) : List Granule := gs.map fun h => if h = g then { h with leg := h.leg + 1 } else h

/-- Granule `g` of stream `x` of M-die `m` has made a crossing. -/
def State.crossGranule (s : State) (m : Nat) (x : Stream) (g : Granule) : State :=
  s.updStrm m fun xs => xs.map fun y => if y = x then { y with bufs := crossed g y.bufs } else y

/-- Booked cells already assigned to crossing `k` of a stream. -/
def Stream.givenTo (x : Stream) (k : Nat) : Nat := if k = 0 then x.given.1 else x.given.2

/-- The stream, and its crossing, to which a booked C-to-C cell of owner `o` from `a` to `b` at tick `t` is assigned (R359): of those whose
window holds it and that have granules without a cell, the one that goes first. -/
def State.assignee (s : State) (o a b t : Nat) : Option (Nat × Stream × Nat) :=
  let live := (List.range 16).flatMap fun m => (s.strm m).map fun x => (m, x)
  let fits := fun (y : Nat × Stream) => (crossDirs y.1 y.2.entry).zipIdx.filterMap fun w =>
    if w.1 = (a, b) ∧ y.2.owner = o ∧ y.2.moving = true ∧ y.2.start + 64 ≤ t ∧ t + 64 ≤ y.2.start + stWindow y.2.entry ∧
        y.2.givenTo w.2 < stN y.2.entry then some (y.1, y.2, w.2) else none
  ((live ++ s.spent).flatMap fits).foldl (fun z y => match z with
    | none => some y
    | some v => if y.2.1.goesFirst v.2.1 then some y else some v) none

/-- One more booked cell is assigned to crossing `k` of stream `x` of M-die `m`. -/
def State.giveCell (s : State) (m : Nat) (x : Stream) (k : Nat) : State :=
  let more := fun (y : Stream) => if y = x then { y with given := if k = 0 then (y.given.1 + 1, y.given.2) else (y.given.1, y.given.2 + 1) } else y
  (s.updStrm m fun xs => xs.map more).withSpent (s.spent.map fun y => if y.1 = m then (y.1, more y.2) else y)

/-- The granule of stream `x` that waits to cross from `a` to `b`. -/
def Stream.crosser (m : Nat) (x : Stream) (a b : Nat) : Option Granule := x.bufs.find? fun g => x.way m g == some (a, b)

/-- What a CONNECT of the slot at tick `t` has to carry: a movement, or a granule of the stream that its cell is assigned to. -/
def State.carries (s : State) (t : Nat) (d : Disp) : Bool :=
  let a := endpointDie (cnSrc d.entry)
  let b := endpointDie (cnDst d.entry)
  (pickTransit d.owner a b t s.transits).isSome ||
    (match s.assignee d.owner a b t with
     | some (m, x, _) => (x.crosser m a b).isSome
     | none => false)

/-- Entries of J-die `j` that have a cell in the present slot. -/
def State.slotEntries (s : State) (j : Nat) : List Disp :=
  ((List.range 32).drop 1).flatMap fun o => (s.walker (walkKey (6 + j) o 0)).dispatched.filter (inSlot s.slotTick)

/-- Lanes of J-die `j` in use in the present slot, in and out: those that cells have taken, those that CONNECTs hold for cells still to
cross in it (R16, R241), and SA's while its link still carries a cell (R15). -/
def State.busyLanes (s : State) (j : Nat) : List Nat × List Nat :=
  let x := s.slotOf j
  let held := (s.slotEntries j).filter (s.carries s.slotTick)
  let sa := fun (t : Nat) => if 4 * s.clk < t then [saLane] else []
  (sa x.saIn ++ x.ins ++ held.map fun d => cnSrc d.entry, sa x.saOut ++ x.outs ++ held.map fun d => cnDst d.entry)

/-- Lanes free at J-die `j` for a cell from `a` to `b` in the present slot. -/
def State.freeLanes (s : State) (j a b : Nat) : Option (Nat × Nat) :=
  let (i, o) := s.busyLanes j
  match firstP (fun l => !i.contains l) (lanesOf a), firstP (fun l => !o.contains l) (lanesOf b) with
  | some x, some y => if s.ready (jDie j) then some (x, y) else none
  | _, _ => none

/-- A cell of other traffic, the last of `n`, crosses from `a` to `b` through the first J-die with free lanes (R15, R16, R237); none where
it must wait. -/
def State.crossLast (s : State) (a b n : Nat) : Option State :=
  if a = b then some s
  else [0, 1, 2, 3].findSome? fun j => (s.freeLanes j a b).map fun l =>
    (s.useLane j l.1 l.2).add64 (Reg.jnJnCellsOther j) n

/-- A cell of other traffic crosses from `a` to `b`. -/
def State.crossOther (s : State) (a b : Nat) : Option State := s.crossLast a b 1

/-- What SA moves in bulk: from, to and cells of each movement. The last cell of the last one takes lanes that are free now; all are counted
where it crosses. DESIGN CHOICE: the lanes of the cells before it are not held, and no external cycle is (log 71). -/
def State.crossBulk (s : State) (moves : List (Nat × Nat × Nat)) : Option State :=
  let ms := moves.filter fun x => x.1 ≠ x.2.1 ∧ 0 < x.2.2
  match ms.getLast? with
  | none => some s
  | some x => s.crossLast x.1 x.2.1 (ms.map fun y => y.2.2).sum

/-- The ticks at which the outbound halves on port `out` for inbound port `p` and owner `o` take an element, the earliest first, that
have not passed (R235). -/
def State.takeTicks (s : State) (p out o : Nat) : List Nat :=
  sortBy (fun t => t) ((((s.walker (walkKey out o 0)).dispatched.filter fun d => eType d.entry == 3 && paPort d.entry == p).flatMap fun d =>
    (List.range (eNm1 d.entry + 1)).map fun i => cellTick (s.bankHalf out d.bank) d.tick i - 16).filter fun t => s.now ≤ t)

/-- The last tick at which the cell that was released at `r` on port `p` may cross to the forward queue of `out` (R240): d_i − 40, where d_i
is the departure of the outbound cell that takes its element (R235, R236); none is known yet while that half has not been read. -/
def State.fwdClose (s : State) (p out o r : Nat) : Nat :=
  let i := ((s.port out).fwd.filter fun f => f.inPort = p ∧ f.owner = o).findIdx fun f => f.release == r
  let ts := s.takeTicks p out o
  let due := ts.contains s.now && SMap.get (fun _ => 0) (s.port out).took (p * 32 + o) != s.now
  if due ∧ i = 0 ∧ r < s.now then 0
  else
    match (ts.filter fun t => s.now < t)[if due then i - 1 else i]? with
    | some t => t - 24
    | none => s.now + 65536

/-- The windows of the forwarded cells that are still to cross, as the halves read so far give them. -/
def State.closeForwards (s : State) : State :=
  s.withTransits (s.transits.map fun x => match x.cargo with
    | .forward out p r => { x with hi := s.fwdClose p out x.owner r }
    | _ => x)

/-- A train that has lost a cell adds nothing to its token (R203, R260, R268). -/
def State.failKey (s : State) (p : Nat) (k : Nat × Nat × Nat) : State :=
  s.updPort p fun y => if y.failed.contains k then y else { y with failed := k :: y.failed }

/-- The identity of a train of a port. -/
def trainKey (x : Expect) : Nat × Nat × Nat := (x.owner, x.idx, x.d0)

/-- A cell on its way to its tile has missed its window and is lost: its train adds nothing to its token (R203). -/
def State.loseCell (s : State) (x : Transit) : State :=
  match x.cargo with
  | .toTile p z =>
    let off := fun (y : ToTile) => if y.key = z.key then { y with token := none } else y
    let s := if ((s.port p).expects.any fun y => trainKey y == z.key) then s.failKey p z.key else s
    (s.updPort p fun y => { y with toTile := y.toTile.map off }).withTransits (s.transits.map fun t => match t.cargo with
      | .toTile q y => if q = p then { t with cargo := .toTile q (off y) } else t
      | _ => t)
  | _ => s

/-- The movements whose windows have closed are lost. -/
def State.dropTransits (s : State) : State :=
  let gone := s.transits.filter fun x => x.hi < s.now
  (s.withTransits (s.transits.filter fun x => s.now ≤ x.hi)).each (fun x s => s.loseCell x) gone

/-- One CONNECT in the slot that starts now: a movement of its owner, or a granule of the crossing stream that the cell is assigned to (R240,
R359); a cell that nothing needs stays idle. -/
def State.connectSlot (s : State) (j : Nat) (d : Disp) : State :=
  let e := d.entry
  let a := endpointDie (cnSrc e)
  let b := endpointDie (cnDst e)
  let x := s.slotOf j
  if inSlot s.now d = false ∨ x.ins.contains (cnSrc e) = true ∨ x.outs.contains (cnDst e) = true then s
  else
    let go := fun (s : State) => (s.useLane j (cnSrc e) (cnDst e)).add64 (Reg.jnJnCellsBooked j) 1
    match pickTransit d.owner a b s.now s.transits with
    | some x => go ((s.withTransits (s.transits.erase x)).deliver x)
    | none =>
      match s.assignee d.owner a b s.now with
      | some (m, x, k) =>
        match x.crosser m a b with
        | some g => (go (s.crossGranule m x g)).giveCell m { x with bufs := crossed g x.bufs } k
        | none => s.giveCell m x k
      | none => s

/-- Granules that take lanes no CONNECT uses, ahead of host DMA and packets (R358); `n` at most. -/
def State.crossSpare (s : State) (j : Nat) : Nat → State
  | 0 => s
  | n + 1 =>
    match s.nextGranule fun _ w => (s.freeLanes j w.1 w.2).isSome with
    | none => s
    | some (m, x, g) =>
      match (x.way m g).bind fun w => s.freeLanes j w.1 w.2 with
      | some l => (((s.useLane j l.1 l.2).add64 (Reg.jnJnCellsOther j) 1).crossGranule m x g).crossSpare j n
      | none => s

/-- JUNCTION_SLOT (R237, R239, R240, R358, R359): the slot that starts at this even tick. Its CONNECTs carry their cells, then
granules of crossing streams take lanes left; host DMA and packets take what remains as they move (R16, R336). -/
def execJunctionSlot (j : Fin 4) (s : State) : Res :=
  s.act <|
    if s.now % 2 ≠ 0 ∨ s.ready (jDie j) = false then s
    else
      let s := s.closeForwards
      let s := s.withSpent (s.spent.filter fun y => s.now ≤ y.2.start + stWindow y.2.entry)
      (s.each (fun d s => s.connectSlot j d) (s.slotEntries j)).dropTransits.crossSpare j 20

/-! ## Arrivals (R197 to R208) -/

/-- The close of an expected cell's due window, in 1/512 tick (R198). -/
def State.dueMid (s : State) (p : Nat) (x : Expect) : Int :=
  512 * ((x.depart : Int) + 48) + s.dIn512 p

/-- DUE_WINDOW_CLOSE (R200): unmatched expected cells of port `p` whose window has closed become pending. -/
def execDueWindowClose (p : Fin 6) (s : State) : Res :=
  let shut := fun (x : Expect) => decide (x.cell = none) && decide (s.dueMid p x + 2048 < 512 * (s.now : Int))
  s.act <| s.updPort p fun y => { y with expects := y.expects.map fun x => if shut x then { x with waits := true } else x }

/-- Cells now in the hold of port `p` (R204). -/
def State.holdOcc (s : State) (p : Nat) : Nat := ((s.port p).expects.filter fun x => x.cell ≠ none).length

/-- The first expected cell released now, and the others. -/
def takeDue (now : Nat) : List Expect → Option (Expect × List Expect)
  | [] => none
  | x :: xs => if x.release = now then some (x, xs) else (takeDue now xs).map fun p => (p.1, x :: p.2)

/-- The train of an expected cell has lost a cell. -/
def State.failTrain (s : State) (p : Nat) (x : Expect) : State := s.failKey p (trainKey x)

/-- The last cell of a train forgets its marks. -/
def State.endTrain (s : State) (p : Nat) (x : Expect) (nm1 : Nat) : State :=
  if x.i = nm1 then s.updPort p fun y => { y with
    failed := y.failed.filter (fun k => k ≠ trainKey x)
    expLogged := y.expLogged.filter (fun k => k ≠ trainKey x) }
  else s

/-- The arrive that follows the write of this cell: on the last cell of a train that lost none. -/
def State.trainToken (s : State) (p : Nat) (x : Expect) (nm1 token amount : Nat) : Option (Nat × Nat) :=
  if x.i = nm1 ∧ amount ≠ 0 ∧ (s.port p).failed.contains (trainKey x) = false then some (token, amount) else none

/-- A cell leaves toward a tile through a junction: window and fixed arrival of R240. -/
def State.sendToTile (s : State) (p : Nat) (x : Expect) (c : Payload) (tile token amount nm1 lo due : Nat)
    (sum copy : Bool) : State :=
  if (s.port p).lateOf.contains x.owner then s.inc (Reg.lnLateCellDrop p) else
  let a := fld x.entry 49 15 * 256 + 256 * x.i
  let z : ToTile := { owner := x.owner, key := trainKey x, tile := tile, addr := a, data := c, due := x.release + due
                      token := s.trainToken p x nm1 token amount, sum := sum, copy := copy }
  s.withTransits (s.transits ++ [{ owner := x.owner, src := 4 + p, dst := tile / 192, lo := x.release + lo
                                   hi := x.release + lo + 16, cell := c, cargo := .toTile p z }])

/-- An element enters the forward queue of `out` (R235): a void, or a cell that is still to cross. -/
def State.putFwd (s : State) (p out : Nat) (x : Expect) (c : Option Payload) (lo : Nat) : State :=
  let s := s.updPort out fun y => { y with fwd := y.fwd ++ [⟨p, x.owner, x.release, none⟩] }
  match c with
  | none => s
  | some c => (s.withTransits (s.transits ++
      [{ owner := x.owner, src := 4 + p, dst := 4 + out, lo := x.release + lo, hi := s.fwdClose p out x.owner x.release, cell := c
         cargo := .forward out p x.release }]))

/-- Why an expected cell is late (R206, R296): 3, 2, 4, 1 in that order. -/
def State.lateCause (s : State) (p : Nat) (x : Expect) : Nat :=
  let opens := (s.dueMid p x - 2048) / 512
  if x.lost then 3
  else if x.clash then 2
  else if s.linkState p ≠ 4 ∨ opens < ((s.port p).entered : Int) ∨
      bitAt (s.r (Reg.lnLinkStatus p)) 3 ≠ s.bankHalf p (s.bankActive p) then 4
  else 1

/-- The check of a cell that was not in the hold at its release is remembered, so that a FILL that comes later is told (R207). DESIGN
CHOICE: for 131,072 ticks, since the spec names no limit (log 59). -/
def State.noteMissed (s : State) (p : Nat) (x : Expect) : State :=
  s.updPort p fun y => { y with lateChecks := (x.check, x.release) :: y.lateChecks.filter fun k => s.now < k.2 + 131072 }

/-- A missing cell at its release tick (R206): a partition owner stops, and its platforms take no further cell from this L-die;
nothing stops for a grant. -/
def State.trainLate (s : State) (p : Nat) (x : Expect) : State :=
  let items := [p, fld x.entry 64 20, x.i, x.owner, s.lateCause p x]
  let s := (s.inc (Reg.lnTrainLate p)).noteMissed p x
  if x.owner ≤ 16 then
    (s.updPort p fun y => { y with lateOf := x.owner :: y.lateOf.erase x.owner }).fail (lDie p) (x.owner - 1) Ev.trainLate items
  else s.note (lDie p) Ev.trainLate items

/-- The release of cell 0 clears the presence bits of its train's platform, the cell late or not (R208). -/
def State.clearPlatform (s : State) (x : Expect) : State :=
  let e : BitVec 256 := x.entry.setWidth 256
  let n := eNm1 e + 1
  if x.i ≠ 0 then s
  else if eType e = 2 ∨ (eType e = 4 ∧ rdPort e = 7) then s.clearPresence x.owner (dpTile e) (eAddr e * 256) n (eTrain e)
  else if eType e = 3 ∧ paDrop e = true then s.clearPresence x.owner (paTile e) (eAddr e * 256) n (eTrain e)
  else s

/-- What a released cell does, or a void in its place (R202, R206, R208, R259, R268). `agree`: the two adders agree. -/
def State.releaseCell (s : State) (p : Nat) (x : Expect) (cell : Option Payload) (agree : Bool) : State :=
  let e : BitVec 256 := x.entry.setWidth 256
  let nm1 := eNm1 e
  let late := cell = none
  let s := (if late then s.failTrain p x else s).clearPlatform x
  match eType e, cell with
  | 2, some c =>
    s.sendToTile p x c (dpTile e) (dpToken e) (arAmount e) nm1 8 40 false false
  | 3, c =>
    let s := match c with
      | some d => if paDrop e then s.sendToTile p x d (paTile e) (paToken e) (paAmount e) nm1 8 40 false true else s
      | none => s
    s.putFwd p (paPort e) x c 16
  | 4, c =>
    let op := ((s.port p).operands.filter fun y => y.owner = x.owner ∧ y.release = x.release).head?
    let s := s.updPort p fun y => { y with
      operands := y.operands.filter fun y => !(y.owner = x.owner ∧ y.release = x.release) }
    let isFinal := rdPort e = 7
    let none_ := fun (s : State) => if isFinal then s.failTrain p x else s.putFwd p (rdPort e) x none 24
    match c, op.bind (·.data) with
    | some a, some b =>
      let (v, flags, differ) := sumCell (rdFmt e) a b
      if agree = false then
        none_ ((s.inc (Reg.lnReduceDatapath p)).fail (lDie p) (x.owner - 1) Ev.reduceDatapath [p, eTrain e])
      else
        let s := s.inc64 (Reg.lnReduceCells p)
        let k := Reg.lnReduceFlags p x.owner
        let s := s.hwSet k (BitVec.ofNat 64 (flags % 32))
        let s := if differ then
            let s := s.inc (Reg.lnReduceExpMismatch p)
            if (s.port p).expLogged.contains (trainKey x) then s
            else (s.noteP (lDie p) (x.owner - 1) Ev.reduceExpMismatch []).updPort p fun y =>
              { y with expLogged := trainKey x :: y.expLogged }
          else s
        if isFinal then
          s.sendToTile p x v (dpTile e) (dpToken e) 1 nm1 16 48 true false
        else s.putFwd p (rdPort e) x (some v) 24
    | _, _ => none_ s
  | _, _ => s

/-- Cells of owner `o` that departed before its discard tick are not written (R206, R467). Grants are 16 + g. -/
def State.discards (s : State) (o depart : Nat) : Bool :=
  match (s.part (if o ≤ 16 then o - 1 else o)).discardBefore with
  | some x => decide (depart < x)
  | none => false

/-- CELL_RELEASE (R202, R206): the cell of port `p` due for release now leaves the hold, or its train is late. -/
def execCellRelease (p : Fin 6) (agree : Bool) (s : State) : Res :=
  s.act <|
    match takeDue s.now (s.port p).expects with
    | none => s
    | some (x, rest) =>
      let s := s.updPort p fun y => { y with expects := rest }
      if s.discards x.owner x.depart then (if x.cell = none then s.noteMissed p x else s.inc (Reg.lnLateCellDrop p)) else
      let s := if x.i = 0 ∧ x.cell ≠ none then
          s.tracePort p 1 (traceRec x.release 4 (2 * b2n x.fill) (lDie p) x.owner p
            (fld x.entry 64 20 + b2n x.bank * 2 ^ 20 + enc 32 ((x.entered : Int) - 256 * (x.d0 : Int)) * 2 ^ 32))
        else s
      let s := if x.cell = none then s.trainLate p x else s
      (s.releaseCell p x x.cell agree).endTrain p x (fld x.entry 33 16)

/-- A cell from port `p` is written at tile `t`, and its train's arrive applied where it is the last (R202, R203, R233, R268). -/
def State.writeOne (s : State) (t p : Nat) (z : ToTile) : State :=
  let s := s.updPort p fun y => { y with toTile := y.toTile.erase z }
  let s := (s.writeCell (whoPort p) t z.addr z.data).setPresence t z.addr
  let s := if z.copy then s.inc (Reg.lnDropCopies p) else s
  match z.token with
  | some (k, n) => s.arrive (t / 192) k n
  | none => s

/-- Write the cells that have reached tile `t`, as many as the cycle has room for, the earliest due first. -/
def State.writeArrived (s : State) (t : Nat) (sum : Bool) : State :=
  let due := (List.range 6).flatMap fun p =>
    ((s.port p).toTile.filter fun z => z.tile = t ∧ z.sum = sum ∧ z.due ≤ s.now).map fun z => (p, z)
  let xs := (sortBy (fun x => x.2.due) due).take (s.extRoom t)
  (s.useExt t xs.length).each (fun x s => s.writeOne t x.1 x.2) xs

/-- PLATFORM_WRITE (R83, R202, R203, R268): in an external cycle of tile `t`. -/
def execPlatformWrite (t : Fin 768) (s : State) : Res :=
  s.act <| if s.externalNow t then s.writeArrived t false else s

/-- REDUCE_WRITE_BACK (R83, R233, R259): in an external cycle of tile `t`. -/
def execReduceWriteBack (t : Fin 768) (s : State) : Res :=
  s.act <| if s.externalNow t then s.writeArrived t true else s

/-- HOLD_PEAK_READ (R215): returns the peak and sets it to the present occupancy. -/
def execHoldPeakRead (i : Iface) (p : Fin 6) (s : State) : Res :=
  s.act <| s.regRead i (Reg.lnHoldPeak p) false fun s =>
    (s.r (Reg.lnHoldPeak p), s.wf (Reg.lnHoldPeak p) 0 14 (s.holdOcc p))

/-- Entries, expected cells and streams of a unit's standby bank are still in force (R249). -/
def State.bankInForce (s : State) (u : Nat) : Bool :=
  let b := !s.bankActive u
  let walks := (List.range 32).any fun o => [0, 1].any fun k =>
    (s.walker (walkKey u o k)).dispatched.any fun d => d.bank == b && decide (s.now ≤ s.endTick u d)
  let cells := decide (u < 6) && ((s.port u).expects.any (fun x => x.bank == b) ||
    (s.port u).departs.any fun x => x.bank == b && decide (s.now ≤ x.tick))
  let streams := decide (10 ≤ u) && (s.strm (u - 10)).any fun x => x.bank == b
  walks || cells || streams

/-- BANK_DRAIN_END (R249): a DRAINING standby bank with nothing left in force becomes EMPTY. -/
def execBankDrainEnd (u : Fin 26) (s : State) : Res :=
  s.act <| if s.bankStandby u = 1 ∧ s.bankInForce u = false then s.setStandby u 0 else s

end Sys2Proof.Machine
end

