-- ==== Sys2Proof/Machine/LinkOps.lean ====
section
/-!
DEFINITION. A port's link state changes, as shared operations (R285, R289 to R291, R297, R301).
-/
namespace Sys2Proof.Machine
open Sys2Proof

/-- Fields of a cell's tag (R186, R276): CLASS, VC, EPOCH, LSEQ, TRAIN_CHECK, CRC-24; and its payload. -/
def cellClass (c : Cell) : Nat := fld c 2110 2
def cellVc (c : Cell) : Nat := fld c 2107 3
def cellEpoch (c : Cell) : Nat := fld c 2106 1
def cellLseq (c : Cell) : Nat := fld c 2088 18
def cellCheck (c : Cell) : Nat := fld c 2072 16
def cellCrc (c : Cell) : Nat := fld c 2048 24
def cellData (c : Cell) : Payload := c.setWidth 2048

/-- What a port does on entry to DOWN or SIDING from UP (R290, R212, R330). -/
def State.leaveUp (s : State) (p : Nat) : State :=
  let x := s.port p
  let s := s.incBy (Reg.lnReplayDiscard p) x.replay.length
  let s := s.setPort p { x with
    replay := []
    oldest := 0
    nextTx := 0
    next := 0
    high := 0
    got := []
    named := []
    missAt := []
    departs := []
    newtsLocal := []
    newtsStop := []
    newtsBcast := []
    newtsRouted := []
    laneAnswers := []
    uout := []
    back := x.back ++ x.uout }
  s.upstreamLost p

/-- STATE of a port (R297), and the tick it was entered. -/
def State.setLink (s : State) (p v : Nat) : State :=
  (s.wf (Reg.lnLinkStatus p) 0 3 v).updPort p fun x => { x with entered := s.clk }

/-- A port in IDENTIFY, SIDING or UP goes DOWN by `cause` (R289 to R291). -/
def State.portDown (s : State) (p cause : Nat) : State :=
  let st := s.linkState p
  if st = 2 ∨ st = 3 ∨ st = 4 then
    let s := if st = 4 then s.leaveUp p else s
    let s := ((s.setLink p 0).wf (Reg.lnLinkStatus p) 14 4 cause).forgetPeer p
    let s := s.updPort p fun x => { x with
      retrainAt := if s.rf (Reg.lnLinkCtrl p) 3 1 = 1 then none else some (s.clk + 3125000) }
    s.note (lDie p) Ev.linkDown [p, cause]
  else s

/-- A port in UP or IDENTIFY enters SIDING (R301). -/
def State.portSiding (s : State) (p : Nat) : State :=
  let s := if s.linkState p = 4 then s.leaveUp p else s
  s.setLink p 3

/-- RTT_EST (R285): 4,096 before the first delay measurement. -/
def State.rttEst (s : State) (p : Nat) : Nat :=
  if s.rf (Reg.lnLineClassStatus p) 0 1 = 0 then 4096
  else 2 * ((s.rf (Reg.lnTimeDelay p) 0 32 + 255) / 256) + 160

/-! ## Cells on the line (R276 to R278) -/

/-- CRC-24 over the payload and tag bytes 3 to 7 (R276). -/
def crc24 (c : Cell) : Nat :=
  let bs := unpackLE 8 256 (fld c 0 2048) ++ unpackLE 8 5 (fld c 2072 40)
  bs.foldl (crcByte 24 0x864CFB) 0xB704CE

/-- A cell of a payload and its tag bits [63:24], sealed with its CRC-24. -/
def sealCell (payload tagHi : Nat) : Cell :=
  let c : Cell := BitVec.ofNat 2112 (payload % 2 ^ 2048 + tagHi % 2 ^ 40 * 2 ^ 2072)
  setFld c 2048 24 (crc24 c)

/-- The link sequence space. -/
def seqMod : Nat := 262144

/-- (a − b) mod 2^18. -/
def seqDiff (a b : Nat) : Nat := (a + seqMod - b % seqMod) % seqMod

/-- An event recorded at most once per 1 ms for its unit. -/
def State.noteMs (s : State) (die code : Nat) (items : List Nat) (unit : Nat) : State :=
  s.report { code := code, die := die, items := items, unit := unit, every := 3125000 }

/-- The replay timer period (R285). -/
def State.replayTimer (s : State) (p : Nat) : Nat := Nat.max 512 (2 * s.rttEst p)

/-- A port runs at half width (R295). -/
def State.portHalf (s : State) (p : Nat) : Bool := bitAt (s.r (Reg.lnLinkStatus p)) 3

/-- Ticks of a FEC period (R273). -/
def State.fecPeriod (s : State) (p : Nat) : Nat := if s.portHalf p then 250 else 125

/-- A trigger for the replay of an outstanding cell (R286, R288): it may be sent from 38 ticks later; a cell replayed 16
times takes the port down. -/
def State.trigger (s : State) (p lseq : Nat) : State :=
  match (s.port p).replay.find? (fun x => x.lseq == lseq) with
  | none => s
  | some x =>
    if 16 ≤ x.replays then s.portDown p 6
    else s.updPort p fun y => { y with replay := y.replay.map fun z =>
      if z.lseq = lseq ∧ z.due = none then { z with due := some (s.clk + 38) } else z }

/-! ## The line (R271 to R273) -/

/-- Lanes that carry data: 16 or 32. -/
def State.laneCount (s : State) (p : Nat) : Nat := if s.portHalf p then 16 else 32

/-- The lanes of a mask, the lowest first. -/
def lanesIn (m : Nat) : List Nat := (List.range 34).filter fun l => m / 2 ^ l % 2 = 1

/-- A full codeword of scrambled bits is encoded and sent. -/
def Line.flush (x : Line) : Line :=
  if x.len < cwDataBits then x
  else { x with
    acc := x.acc / 2 ^ cwDataBits, len := x.len - cwDataBits
    words := x.words ++ [BitVec.ofNat 5440 (packLE 10 (rsEncode (symbolsOf 514 x.acc)))] }

/-- A number of the listed bits, the first lowest. -/
def ofBits : List Bool → Nat
  | [] => 0
  | b :: bs => b2n b + 2 * ofBits bs

/-- The bits of a number, the lowest first. -/
def toBits : Nat → Nat → List Bool
  | 0, _ => []
  | n + 1, x => (x % 2 == 1) :: toBits n (x / 2)

/-- A cell is scrambled and joins the codewords in tick order (R272, R273). -/
def Line.putCell (x : Line) (c : Cell) : Line :=
  let (bs, r) := scramble x.scr (toBits 2112 c.toNat)
  Line.flush { x with scr := r, acc := x.acc + ofBits bs * 2 ^ x.len, len := x.len + 2112 }

/-- What follows a period's cells: fill to the end of its last codeword; DESIGN CHOICE: zeros before the scrambler (log 60). -/
def Line.fill (x : Line) : Line :=
  if x.len = 0 then x
  else
    let n := cwDataBits - x.len
    let (bs, r) := scramble x.scr (List.replicate n false)
    Line.flush { x with scr := r, acc := x.acc + ofBits bs * 2 ^ x.len, len := cwDataBits }

/-- The control word of lane `l` in training (R298). -/
def Train.word (t : Train) (l : Nat) : W64 :=
  BitVec.ofNat 64 (l + (t.phase - 2) % 4 * 2 ^ 6 + b2n (t.precReq.getLsbD l) * 2 ^ 8 + b2n (t.precOn.getLsbD l) * 2 ^ 9 +
    (t.coefReq.getD l 0).toNat * 2 ^ 10 + (t.coefStat.getD l 0).toNat * 2 ^ 18 + b2n (t.ready.getLsbD l) * 2 ^ 26 +
    b2n (t.rx.getLsbD l) * 2 ^ 27)

/-- Training frame `k` of lane `l` (R298). -/
def Train.frame (t : Train) (k l : Nat) : BitVec 120 × W64 × BitVec 31 :=
  (Config.marker l (k % 65536), t.word l, Config.prbsSeed l k)

/-- The training frames of the 34 lanes in TRAINING, from phase 2 on. -/
def Train.frames (t : Train) (k : Nat) : SMap (BitVec 120 × W64 × BitVec 31) :=
  if t.phase < 2 then [] else (List.range 34).map fun l => (l, t.frame k l)

/-- The start of a FEC period of port `p` (R271, R273, R293): the one before ends with its fill, and begins are the markers of the data lanes,
by their logical numbers, and the training pattern on the spare lanes. -/
def State.startPeriod (s : State) (p : Nat) : State :=
  let k := s.now / s.fecPeriod p
  s.updPort p fun x => { x with line := { x.line.fill with
    words := []
    last := x.line.fill.words
    marks := ((List.range 34).filter fun l => x.txMap.contains l).map fun l => (l, x.txMap.idxOf l, k % 65536)
    train := ((lanesIn x.txGood.toNat).filter fun l => !x.txMap.contains l).map fun l =>
      (l, ({ phase := 5, rx := x.rxGood, ready := x.rxGood } : Train).frame k l) } }

/-- The receive lane that carries symbol `k` of a codeword (R272, R293). -/
def State.symbolLane (s : State) (p k : Nat) : Nat := (s.port p).rxMap.getD (laneOfSymbol (s.laneCount p) k) 0

/-- A lane map after a swap: the spare takes the failing lane's place (R293). -/
def swapIn (lane spare : Nat) (m : List Nat) : List Nat := m.map fun l => if l = lane then spare else l

/-- Symbols of failing lanes, which the decoder takes as erasures (R292). -/
def State.erasures (s : State) (p : Nat) : List Nat :=
  (List.range 544).filter fun k => (s.port p).failing.getLsbD (s.symbolLane p k)

/-- Corrected symbols of lane `l`: counted, and in its window of 3,125 ticks (R292). -/
def LaneWatch.count (x : LaneWatch) (now n : Nat) : LaneWatch :=
  let w := now / 3125
  if x.win = w then { x with ce := x.ce + n }
  else { x with win := w, ce := n, bad := if x.win + 1 = w ∧ 64 < x.ce then x.bad + 1 else 0 }

/-- Lane `l` has had more than 64 corrected symbols in each of 4 consecutive windows. -/
def LaneWatch.noisy (x : LaneWatch) (now : Nat) : Bool :=
  let y := x.count now 0
  decide (4 ≤ y.bad) || (decide (3 ≤ y.bad) && decide (64 < y.ce))

/-- What port `p` keeps of lane `l`. -/
def State.laneWatch (s : State) (p l : Nat) : LaneWatch := SMap.get (fun _ => ({} : LaneWatch)) (s.port p).watch l
def State.setWatch (s : State) (p l : Nat) (x : LaneWatch) : State :=
  s.updPort p fun y => { y with watch := SMap.set (fun _ => ({} : LaneWatch)) y.watch l x }

/-- A codeword reaches the decoder (R272, R275, R292): its errors outside the erasures, whether it decodes, and the counts, once for
each codeword. -/
def State.takeCodeword (s : State) (p : Nat) (c : CodewordErr) : Bool × State :=
  let er := s.erasures p
  let bad := (c.errs.map (·.val)).dedup.filter fun k => !er.contains k
  let ok := decodes bad.length er.length
  if c.num < (s.port p).rxWord then (ok, s)
  else
    let s := s.updPort p fun x => { x with rxWord := c.num + 1 }
    if ok = false then (false, s.inc (Reg.lnFecUncorrectable p))
    else
      let fixed := bad ++ (c.errs.map (·.val)).dedup.filter fun k => er.contains k
      let s := s.each (fun k s =>
        let l := s.symbolLane p k
        (s.inc (Reg.lnLaneCe p l)).setWatch p l ((s.laneWatch p l).count s.clk 1)) fixed
      (true, if fixed = [] then s else s.inc64 (Reg.lnFecCorrected p))

/-- XOFF_LEVEL, or 0 where the pool stays in XOFF (R335). -/
def State.xoffLevel (s : State) (p : Nat) : Nat :=
  let r := s.rttEst p
  if 2048 - (r + 16) < 512 then 0 else 2048 - (r + 16)

/-- The pool's state is judged (R335), and shown. -/
def State.judgePool (s : State) (p : Nat) : State :=
  let lvl := s.xoffLevel p
  let n := (s.port p).pool.length
  let on := if lvl = 0 then false else if lvl ≤ n then false else if n ≤ lvl - 256 then true else (s.port p).poolOn
  let k := Reg.lnUschedStatus p
  (((s.updPort p fun x => { x with poolOn := on }).wf k 0 1 (b2n (decide (lvl ≠ 0)))).wf k 2 1 (b2n (!on))).wf k 16 12 lvl

/-- Age of a packet exceeds the lifetime (R331). -/
def State.packetOld (s : State) (c : Cell) : Bool :=
  let life := s.rf Reg.saRouteCtrl 16 16
  decide ((if life = 0 then 1 else life) < (s.now / 4096 % 2 ^ 24 + 2 ^ 24 - fld c 192 24) % 2 ^ 24)

/-- A packet cell has left its buffer of port `p`'s L-die; a dedicated cell is counted freed, and a pool that has shrunk is judged
(R332, R333, R335). -/
def State.freeVc (s : State) (p : Nat) (q : Queued) (pooled : Bool) : State :=
  if pooled then s.judgePool p
  else s.updPort p fun x => { x with localFreed := x.localFreed.set q.vc ((x.localFreed.getD q.vc 0 + 1) % 65536) }

end Sys2Proof.Machine
end

