-- ==== Sys2Proof/Machine/EventOps.lean ====
section
/-!
DEFINITION. The event arbiter, all-stop commands and newts, die failure and the watch on SA (R460 to R475).
-/
namespace Sys2Proof.Machine
open Sys2Proof

/-! ## The arbiter -/

def findRate (c d u : Nat) : List Rate → Option Rate
  | [] => none
  | r :: rs => if r.code = c ∧ r.die = d ∧ r.unit = u then some r else findRate c d u rs

def dropRate (c d u : Nat) (rs : List Rate) : List Rate :=
  rs.filter fun r => !(r.code == c && r.die == d && r.unit == u)

/-- A withheld report (R465) is counted, in the class's counter too (R543). -/
def State.withhold (s : State) (x : Report) (r : Rate) : State :=
  let s := s.withRates ({ r with held := r.held + 1 } :: dropRate x.code x.die x.unit s.rates)
  if Ev.isError x.code then s.add64 (Reg.saErrCount (Ev.cls x.code)) 1 else s

/-- A report the arbiter has taken: logged, or withheld under R465; then what its rule stops (R469). -/
def State.acceptReport (s : State) (x : Report) : State :=
  let r := findRate x.code x.die x.unit s.rates
  let n := s.rf Reg.saEvlogHead 0 32
  let flags := Nat.lor x.flags (if x.stop then 2 else 0)
  let s :=
    match r with
    | some r =>
      if x.every ≠ 0 ∧ s.clk < r.last + x.every then s.withhold x r
      else
        let s := s.logEvent x.code x.die x.part x.items r.held flags
        (s.withRates (⟨x.code, x.die, x.unit, s.clk, 0⟩ :: dropRate x.code x.die x.unit s.rates))
    | none =>
      let s := s.logEvent x.code x.die x.part x.items 0 flags
      if x.every ≠ 0 then (s.withRates (⟨x.code, x.die, x.unit, s.clk, 0⟩ :: s.rates)) else s
  let s := if x.code = Ev.eventsDropped then
      match x.items with
      | k :: _ =>
        let t := s.rf Reg.saEvlogDropped 0 32 + k
        s.wf Reg.saEvlogDropped 0 32 (if t < 2 ^ 32 then t else 2 ^ 32 - 1)
      | [] => s
    else s
  let s := if x.code = Ev.allStop then s.traceStop n else s
  let s := s.each (fun y s => s.actStop n y) x.stops
  if x.stop then s.actStop n ⟨x.part, x.code, .fault⟩ else s

/-- A die's queue below 48 entries again sends one EVENTS_DROPPED (R460). -/
def State.sendDropped (s : State) (d : Nat) : State :=
  let q := s.die d
  if q.dropped ≠ 0 ∧ q.queue.length < 48 then
    s.setDie d { q with
      queue := q.queue ++ [{ code := Ev.eventsDropped, die := d, items := [q.dropped], stops := q.stops }], dropped := 0, stops := [] }
  else s

/-- The arbiter may accept a report: one every 2 ticks (R461). -/
def State.arbiterFree (s : State) : Bool :=
  match s.acceptAt with
  | some t => decide (t + 2 ≤ s.clk)
  | none => true

/-- EVENT_REPORT (R460, R461, R463 to R466): the arbiter takes die `d`'s oldest report, which has reached it (log 76). -/
def execEventReport (d : Fin 32) (s : State) : Res :=
  s.act <|
    match (s.die d).queue with
    | [] => s
    | x :: xs =>
      if s.arbiterFree = false then s
      else
      let s := (s.withAcceptAt (some s.clk)).updDie d fun y => { y with queue := xs }
      (s.sendDropped d).acceptReport x

/-- CLEAR_FIRST (R484): a write of EVLOG_CTRL whose bit 0 is 1 clears FIRST_ERROR. -/
def execClearFirst (i : Iface) (v : W32) (s : State) : Res :=
  s.act <| s.regWrite i Reg.saEvlogCtrl false fun s =>
    let s := s.write32 Reg.saEvlogCtrl v
    if bitAt v 0 then s.w Reg.saFirstError 0 else s

/-- NOTIFY_ENTRY (R374, R381): the oldest due entry goes to the PF's notify ring, and to the VF's where it concerns its partition; `pf` and
`vf`: the host takes the write. -/
def execNotifyEntry (pf vf : Bool) (s : State) : Res :=
  s.act <|
    match s.notes with
    | [] => s
    | n :: ns =>
      let s := s.withNotes ns
      let s := s.notifyEntry 0 n.type n.origin n.payload pf
      if n.part < 16 ∧ n.part + 1 ≤ s.vfs then s.notifyEntry (n.part + 1) n.type n.origin n.payload vf else s

/-! ## All-stop (R467 to R472) -/

/-- The walkers of a grant stop; nothing else of this module does (R472). -/
def State.stopGrant (s : State) (g reason origin index : Nat) : State :=
  let s := ((s.stopWalkers (16 + g)).clearPorts (16 + g)).updPart (16 + g) fun x => { x with discardBefore := some (2 ^ 64) }
  s.reportStop 255 reason origin index true

/-- ALLSTOP_CMD (R469): a write of SA.ALLSTOP_CMD; with GO, ALLSTOP_COMMAND is recorded, and stops PART and originates a newt of its
scope. -/
def execAllstopCmd (i : Iface) (v : W32) (s : State) : Res :=
  s.act <| s.regWrite i Reg.saAllstopCmd false fun s =>
    if fld v 0 2 = 3 then s.note 0 Ev.descReserved []
    else
      let s := s.write32 Reg.saAllstopCmd v
      if bitAt v 2 then
        let how : StopHow := match fld v 0 2 with
          | 1 => .job
          | 2 => .fabric
          | _ => .part
        s.report { code := Ev.allstopCommand, die := 0, part := fld v 4 4, flags := 2, stops := [⟨fld v 4 4, Ev.allstopCommand, how⟩] }
      else s

/-- A newt one hop further: TTL less 1. -/
def nwHop (n : Newt) : Newt := setFld n 80 8 (nwTtl n - 1)

/-- The stops an accepted ALL_STOP makes on SA (R472). -/
def State.remoteStop (s : State) (n : Newt) : State :=
  let scope := nwBody n 4 1 % 4
  let key := nwBody n 6 2
  let reason := nwBody n 8 2
  let idx := nwBody n 12 4
  let s := s.each (fun p s =>
    if scope = 2 ∨ s.jobKey p = key then s.allStop p reason (nwOrigin n) idx true else s) (List.range 16)
  s.each (fun g s =>
    if s.rf (Reg.saGrant g) 6 1 = 1 ∧ (scope = 2 ∨ s.rf (Reg.saGrant g) 16 16 = key) then
      s.stopGrant g reason (nwOrigin n) idx
    else s) ((List.range 16).drop 1)

/-- ALL_STOP_NEWT (R470 to R472): port `p`'s L-die accepts, relays and signals SA. -/
def execAllStopNewt (p : Fin 6) (n : Newt) (s : State) : Res :=
  s.act <|
    let scope := nwBody n 4 1 % 4
    if nwType n ≠ 0x10 ∨ nwScope n ≠ 2 ∨ nwBody n 0 4 ≠ s.rf (Reg.lnFabricId p) 0 32 ∨ (scope ≠ 1 ∧ scope ≠ 2) ∨
        (scope = 1 ∧ nwBody n 6 2 = 0) then s.inc (Reg.lnNewtDrop p)
    else if s.newtNew p n = false then s.inc (Reg.lnNewtDup p)
    else
      let first := s.newtNew 6 n
      let s := s.sawNewt p n
      let s := if nwTtl n ≤ 1 then s.inc (Reg.lnNewtDrop p)
        else s.each (fun q s =>
          if q ≠ p.val ∧ s.linkState q = 4 ∧ s.newtNew q n = true then (s.sawNewt q n).queueStop q (nwHop n) else s)
          (List.range 6)
      if first then ((s.sawNewt 6 n).wakeBy 5).remoteStop n else s

/-! ## Failed dies (R474, R435) -/

/-- STEP of a die (R506, R512). -/
def State.seqStep (s : State) (d : Nat) : Nat := s.rf (Reg.sbSeqStep (d / 8)) (4 * (d % 8)) 4
def State.setSeq (s : State) (d v : Nat) : State := s.wf (Reg.sbSeqStep (d / 8)) (4 * (d % 8)) 4 v

/-- Group of a die in the sequencing table, which is its entry (R507, R598). -/
def seqEntry (d : Nat) : Nat := if d ≤ 1 then d else if d ≤ 5 then 26 + d else d - 4

/-- Bound in ticks of step 1 to 4 of die `d`'s ready chain (R506): an M-die brings up two stacks, one after the other (log 102). -/
def stepBound (d step : Nat) (cold : Bool) : Nat :=
  match step with
  | 1 => 6250000
  | 2 => 625000
  | 3 => if 16 ≤ d then (if cold then 312500000 else 12500000) else 3125000
  | _ => 1562500

/-- Die `d` comes to a step of its ready chain. -/
def State.enterStep (s : State) (d v : Nat) : State := (s.setSeq d v).updDie d fun x => { x with stepAt := s.clk }

/-- Die `d` has overrun the bound of its step (R506). -/
def State.overrun (s : State) (d : Nat) : Bool :=
  let k := s.seqStep d
  1 ≤ k && k ≤ 4 && decide ((s.die d).stepAt + stepBound d k (!(s.die d).ringRead) < s.clk)

/-- What a failed die loses (R476): a C-die its tiles' SRAM and its 4,096 tokens, an M-die its staging SRAM and both stacks. -/
def State.dieLost (s : State) (d : Nat) : State :=
  if 2 ≤ d ∧ d ≤ 5 then
    (((s.zeroMem (tileAddr (192 * (d - 2)) 0) (192 * 0x800000)).withTokens (SMap.keep (fun k => decide (k / 4096 ≠ d - 2)) s.tokens)).withTokOps
      (s.tokOps.filter fun o => o.token / 4096 ≠ d - 2))
  else if 16 ≤ d then (s.zeroMem (stagingAddr (d - 16)) 0x2000000).zeroMem ((d - 16) * 0x2000000000) 0x2000000000
  else s

/-- SA declares die `d` failed (R474): its bits, the record, isolation, the stops, and the images that named it. -/
def State.dieFailed (s : State) (d cause : Nat) : State :=
  if bitAt (s.r Reg.saDieFailed) d then s
  else
    let s := s.wf Reg.saDieFailed d 1 1
    let s := s.wf Reg.saDieReady d 1 0
    let s := s.report { code := Ev.dieFailed, die := 0, items := [d, cause], flags := 2
                        stops := (s.partsUsing d).map fun p => ⟨p, Ev.dieFailed, .fault⟩ }
    let s := (s.setSeq d 6).updDie d fun x => { x with powered := false, released := false }
    let s := if 2 ≤ seqEntry d then s.withPins { s.pins with railEn := setFld s.pins.railEn (seqEntry d) 1 0 } else s
    let s := if d = 1 then (s.withPins { s.pins with faultN := false }) else s
    let s := if 10 ≤ d ∧ d ≤ 15 then (s.leaveUp (d - 10)).setLink (d - 10) 0 else s
    let s := if 16 ≤ d then s.wf Reg.saStackActive (2 * (d - 16)) 2 0 else s
    (s.dieLost d).invalidate (fun im =>
      if 2 ≤ d ∧ d ≤ 5 then decide (fld im.header 96 16 / 16 ^ (d - 2) % 16 ≠ 0)
      else if 6 ≤ d ∧ d ≤ 9 then bitAt im.header (112 + (d - 6))
      else if 10 ≤ d ∧ d ≤ 15 then bitAt im.header (120 + (d - 10))
      else if 16 ≤ d then bitAt im.header (96 + (d - 16)) else false) Ev.dieFailed

/-! ## Resets in progress (R508, R509) -/

/-- A reset covers a request: wider or equal scope (R509). -/
def State.resetCovers (s : State) (run req : Nat × Nat) : Bool :=
  if run.1 = 1 ∨ run.1 = 2 then true
  else if run.1 = 3 then decide (3 ≤ req.1 ∧ req.1 ≤ 5)
  else if run.1 = 4 then (req.1 == 4 && req.2 == run.2) || (req.1 == 5 && s.partOfTile req.2 == some run.2)
  else run == req

/-- A reset of wider or equal scope runs, which absorbs the request. -/
def State.resetRuns (s : State) (kind target : Nat) : Bool := s.power.resets.any fun r => s.resetCovers r (kind, target)

/-- A sleep state is entered or held. -/
def State.asleep (s : State) : Bool := s.power.entering.isSome || decide (1 ≤ s.power.mode)

/-- A request during a sleep entry or a sleep state: a wake source, performed when the wake completes (R499, R509). -/
def State.holdReset (s : State) (kind target : Nat) : State :=
  let s := s.wakeBy 7
  s.withPower { s.power with heldResets := s.power.heldResets ++ [(kind, target)] }

/-- A reset begins (R508, R509): the narrower ones it covers are abandoned, RESET_STARTED is recorded, and the covered partitions `ps` are
all-stopped with that entry as cause (R469). -/
def State.beginReset (s : State) (kind target : Nat) (ps : List Nat) : State :=
  let s := (s.withPower { s.power with
    resets := (s.power.resets.filter fun r => !s.resetCovers (kind, target) r) ++ [(kind, target)] })
  let s := s.report { code := Ev.resetStarted, die := 0, part := if kind = 4 then target else 255, items := [kind, target]
                      flags := if ps = [] then 0 else 2, stops := ps.map fun p => ⟨p, Ev.resetStarted, .done⟩ }
  ((s.wf Reg.saResetStatus 0 3 kind).wf Reg.saResetStatus 3 1 1).each (fun p s => s.haltPart p Ev.resetStarted s.modNum 0 false) ps

/-- DIE_POLL (R474, R506): one poll of die `d`: whether it answered, and whether it reports a fault of its own control state; a step of
its ready chain that overruns fails it.
A cause of 1 stands for missed polls, 2 for a reported fault. -/
def execDiePoll (d : Fin 32) (answered fault : Bool) (s : State) : Res :=
  s.act <|
    if d.val = 0 ∨ s.now % 256 ≠ 0 ∨ (s.die d).powered = false then s
    else if s.overrun d then s.dieFailed d (s.seqStep d + 2)
    else if fault then s.dieFailed d 2
    else if answered then s.updDie d fun x => { x with missed := 0 }
    else
      let s := s.updDie d fun x => { x with missed := x.missed + 1 }
      if 16 ≤ (s.die d).missed then s.dieFailed d 1 else s

/-- SA_HEARTBEAT (R475): any write is a heartbeat. -/
def execSaHeartbeat (i : Iface) (v : W32) (s : State) : Res :=
  s.act <| s.regWrite i Reg.sbSaHeartbeat false fun s =>
    let s := s.write32 Reg.sbSaHeartbeat v
    (s.withPower { s.power with heartbeat := s.clk })

/-- Every die stops its tiles and walkers (R475). -/
def State.stopEverything (s : State) : State :=
  let s := s.each (fun t s => s.stopTile t) (List.range 768)
  s.each (fun o s => s.stopWalkers o) ((List.range 32).drop 1)

/-- Port `p` is held in DOWN with the cause HOLD_DOWN, whatever its state was (R475). -/
def State.holdPort (s : State) (p : Nat) : State :=
  let s := s.portDown p 8
  ((if s.linkState p = 0 then s else s.setLink p 0).wf (Reg.lnLinkStatus p) 14 4 8).updPort p fun x =>
    { x with retrainAt := none, train := none }

/-- SB's stop: tiles and walkers on every die, every port held DOWN with cause HOLD_DOWN, FAULT_N low (R475). -/
def State.moduleStop (s : State) : State :=
  let s := s.stopEverything
  let s := s.each (fun p s => s.holdPort p) (List.range 6)
  (s.withPins { s.pins with faultN := false })

/-- SA_WATCHDOG_FIRED (R475): no heartbeat for the limit, or SA signals a fatal fault. -/
def execSaWatchdogFired (fatal : Bool) (s : State) : Res :=
  s.act <|
    let l := s.rf Reg.sbSaWatchdog 16 16
    let limit := (if l < 100 then 100 else l) * 3125
    if fatal ∨ s.power.heartbeat + limit ≤ s.clk then
      let s := (s.wf Reg.sbSaWatchdog 0 1 1).moduleStop
      (s.withPower { s.power with down := true })
    else s

end Sys2Proof.Machine
end

