-- ==== Sys2Proof/Machine/Hbm.lean ====
section
/-!
DEFINITION. Memory stacks and streams (R350 to R370).
-/
namespace Sys2Proof.Machine
open Sys2Proof

/-! ## Stacks -/

/-- Bytes of a stack (R36). -/
def stackBytes : Nat := 2 ^ 36

/-- Stack of an HBM address, and its M-die and local stack (R14, R36). -/
def stackOf (a : Nat) : Nat := a / stackBytes

/-- Channel of an HBM address (R352). -/
def hbmChannel (a : Nat) : Nat :=
  let o := a % stackBytes
  let g := fun lo w => o / 2 ^ lo % 2 ^ w
  g 8 5 ^^^ g 13 5 ^^^ g 18 5 ^^^ g 23 5 ^^^ g 28 5 ^^^ g 33 3

/-- Row of an HBM address: o[35:13], which fixes bank and row (R352; log 40). -/
def hbmRow (a : Nat) : Nat := a % stackBytes / 8192

/-- Bytes of `[a, a + n)` that lie in stack `k`. -/
def inStack (k a n : Nat) : Nat := Nat.min (a + n) ((k + 1) * stackBytes) - Nat.max a (k * stackBytes)

/-- Bytes read or written in the stacks by any initiator (R543). -/
def State.countHbm (s : State) (write : Bool) (a n : Nat) : State :=
  if regionOf a = .hbm then
    s.each (fun k s => if inStack k a n = 0 then s
      else s.add64 (if write then Reg.mnHbmWrBytes (k / 2) (k % 2) else Reg.mnHbmRdBytes (k / 2) (k % 2)) (inStack k a n))
      (List.range 32)
  else s

/-- The address lies in the range of a retired stack (R367), or in a stack or the staging SRAM of a failed M-die (R369; log 41). -/
def State.stackDead (s : State) (a : Nat) : Bool :=
  match regionOf a with
  | .hbm => bitAt (s.r (Reg.mnStackStatus (stackOf a / 2) (stackOf a % 2))) 1 || bitAt (s.r Reg.saDieFailed) (mDie (stackOf a / 2))
  | .staging => bitAt (s.r Reg.saDieFailed) (mDie ((a - 0x180000000000) / 0x2000000))
  | _ => false

/-- The parts of `[a, a + n)` that lie in one stack each, or the range itself outside HBM: start and bytes. -/
def stackParts (a n : Nat) : List (Nat × Nat) :=
  if regionOf a = .hbm then
    ((List.range 32).filter fun k => inStack k a n ≠ 0).map fun k => (Nat.max a (k * stackBytes), inStack k a n)
  else [(a, n)]

/-- The first address of `[a, a + n)` that lies in a retired stack (R367). -/
def State.deadIn (s : State) (a n : Nat) : Option Nat := ((stackParts a n).find? fun x => s.stackDead x.1).map (·.1)

/-- An access to a retired stack by initiator `who` is recorded, at most once per stack per 1 ms (R367; log 41). -/
def State.noteRetired (s : State) (who a : Nat) : State :=
  if regionOf a ≠ .hbm then s
  else s.report { code := Ev.addrStackRetired, die := mDie (stackOf a / 2), items := [who, a], unit := stackOf a, every := 3125000 }

/-- The retired stacks that an access of `who` to `[a, a + n)` reaches are recorded, and what it moves in the others is counted. -/
def State.countAccess (s : State) (who : Nat) (write : Bool) (a n : Nat) : State :=
  s.each (fun (x : Nat × Nat) s => if s.stackDead x.1 then s.noteRetired who x.1 else s.countHbm write x.1 x.2) (stackParts a n)

/-- `n` bytes from `a`, 0 where a stack is retired (R367). -/
def State.liveBytes (s : State) (a n : Nat) : List Byte :=
  (stackParts a n).flatMap fun x => if s.stackDead x.1 then List.replicate x.2 0 else s.bytes x.1 x.2

/-- Bytes written from `a` on, but for a retired stack's, where a write has no effect (R367). -/
def State.setLive (s : State) (a : Nat) (bs : List Byte) : State :=
  s.each (fun (x : Nat × Nat) s => if s.stackDead x.1 then s else s.setBytes x.1 ((bs.drop (x.1 - a)).take x.2)) (stackParts a bs.length)

/-! ## Unordered writers (R42) -/

/-- Bytes of `[a, a + n)` as memory lists them. -/
def State.snapshot (s : State) (a n : Nat) : List Host.Cell := SMap.keep (fun k => decide (a ≤ k) && decide (k < a + n)) s.mem

/-- The words of `[a, a + n)` that do not hold what memory listed in `before`. -/
def State.changed (s : State) (before : List Host.Cell) (a n : Nat) : List Nat :=
  if n = 0 then []
  else (wordsFrom (wordSpan a n).1 (wordSpan a n).2).filter fun w =>
    let lo := Nat.max a (32 * w)
    !(List.range (Nat.min (a + n) (32 * w + 32) - lo)).all fun i => SMap.get memDefault before (lo + i) == s.byte (lo + i)

/-- Writer `who` writes `[a, a + n)` of tile SRAM or HBM, or of what R42 says nothing of. -/
def State.liveBy (s : State) (who a n : Nat) (put : State → State) : State :=
  if regionOf a = .hbm ∨ regionOf a = .sram then s.writeBy who a n put else put s

/-- `bs` written from `a` on by a mover that began when memory listed `before` there: each 32-byte word that another has written since then,
or that an unordered writer wrote last, has one writer's value, and which is a free value (R42). -/
def State.raceWrite (s : State) (who : Nat) (before : List Host.Cell) (a : Nat) (bs : List Byte) : State :=
  if regionOf a = .hbm ∨ regionOf a = .sram then
    ((s.setLive a bs).mixWords s a bs.length (s.changed before a bs.length ++ s.rivals who a bs.length).eraseDups).noteWrite who a bs.length
  else s.setLive a bs

/-! ## Errors and repair -/

/-- A row becomes a repair candidate, of 64 at most (R365). -/
def State.addCandidate (s : State) (k row : Nat) : State :=
  let x := s.stack k
  if x.cands.contains row then s
  else if 64 ≤ x.cands.length then s.note (mDie (k / 2)) Ev.repairTrackerFull [k]
  else (s.setStack k { x with cands := x.cands ++ [row] }).wf (Reg.mnRepair (k / 2) (k % 2)) 0 8 (x.cands.length + 1)

/-- A corrected codeword at HBM address `a` (R361, R365): counted, written back, its row entered. -/
def State.hbmCorrected (s : State) (a : Nat) : State :=
  let k := stackOf a
  let row := hbmRow a
  let s := (s.inc (Reg.mnHbmCe (k / 2) (k % 2))).countHbm true a 128
  let n := SMap.get (fun _ => 0) (s.stack k).rows row + 1
  let s := s.updStack k fun x => { x with rows := SMap.set (fun _ => 0) x.rows row n }
  let t := s.rf (Reg.mnRepairCtrl (k / 2)) 0 8
  if (if t = 0 then 1 else t) ≤ n then s.addCandidate k row else s

/-- A miscorrected codeword at HBM address `a`: wrong data, a free value, are written back as if corrected (R361). -/
def State.hbmMiscorrected (s : State) (a : Nat) : State :=
  s.each (fun i s => let (f, s) := s.free; s.store (a / 128 * 128 + 8 * i) 8 f.toNat) (List.range 16)

/-- An uncorrectable codeword at HBM address `a` met by `reader` (R361, R365): 0 a stream, 1 a descriptor, 2 a packet
request, 3 hashing, 4 the scrubber, 5 SA (log 41). -/
def State.hbmUncorrectable (s : State) (a reader : Nat) : State :=
  let k := stackOf a
  let s := s.inc (Reg.mnHbmUe (k / 2) (k % 2))
  let s := s.noteP (mDie (k / 2)) (partNum (s.partOfQuarter (k / 2))) Ev.hbmUncorrectable [k, hbmChannel a, hbmRow a, reader]
  s.addCandidate k (hbmRow a)

/-- A read of memory at module-local address `a` came out as `ecc` to `reader` (R85, R353, R361). What was corrected is in memory
before the reader has it. -/
def State.readError (s : State) (a : Nat) (ecc : Ecc) (reader : Nat) : State :=
  match regionOf a, ecc with
  | _, .ok => s
  | .hbm, .ce => s.hbmCorrected a
  | .hbm, .mc => (s.hbmMiscorrected a).hbmCorrected a
  | .hbm, .ue w => s.hbmUncorrectable (a + 8 * (w.toNat % 32)) reader
  | .sram, .ue w =>
    let t := (a - 0x100000000000) / 0x800000
    s.noteP (cDie (t / 192)) (partNum (s.partOfTile t)) Ev.sramUncorrectable [t, (a + 8 * (w.toNat % 32)) % 0x800000]
  | .sram, _ =>
    let t := (a - 0x100000000000) / 0x800000
    s.hwSet (Reg.cnTileErr (t / 192) (t % 192)) 1
  | .staging, .ue w =>
    let m := (a - 0x180000000000) / 0x2000000
    s.noteP (mDie m) (partNum (s.partOfQuarter m)) Ev.sramUncorrectable [m, a + 8 * (w.toNat % 32)]
  | _, _ => s

/-- Word of the first uncorrectable codeword of a list that begins `k` words before what was read. -/
def firstBad (k : Nat) : List Cw → Nat → Option Nat
  | [], _ => none
  | .ue w :: _, i => some (16 * i + w.toNat - k)
  | _ :: xs, i => firstBad k xs (i + 1)

/-- A read of `n` bytes at `a` came out as `ecc`: every codeword of HBM has its effect (R361), and the reader has its data or the first
uncorrectable word. -/
def State.readSpan (s : State) (a n : Nat) (ecc : Ecc) (reader : Nat) : State × Ecc :=
  match ecc with
  | .words xs =>
    if regionOf a = .hbm then
      let xs := xs.take ((a % 128 + n + 127) / 128)
      let s := s.each (fun (x : Cw × Nat) s =>
        let b := a / 128 * 128 + 128 * x.2
        match x.1 with
        | .ok => s
        | .ce => s.readError b .ce reader
        | .mc => s.readError b .mc reader
        | .ue w => s.readError b (.ue (w.setWidth 20)) reader) xs.zipIdx
      (s, match firstBad (a % 128 / 8) xs 0 with
        | some w => .ue (BitVec.ofNat 20 w)
        | none => .ok)
    else (s, .ok)
  | e => (s.readError a e reader, e)

/-- Codewords and words that reads of `ranges` found corrected, and which of them miscorrected (R85, R361). -/
def State.corrected (s : State) (ranges : List (Nat × Nat)) (reader : Nat) (xs : List (W64 × Bool)) : State :=
  s.each (fun (x : W64 × Bool) s =>
    if ranges.any fun r => decide (r.1 ≤ x.1.toNat) && decide (x.1.toNat < r.1 + r.2) then
      (if s.stackDead x.1.toNat then s else s.readError x.1.toNat (if x.2 then .mc else .ce) reader)
    else s) xs

/-- `n` bytes at `a` are read for initiator `who` and reader `reader`: recorded where a stack is retired, counted, and how the read came
out; no error protects what is not read from SRAM or HBM (R85, R361, R367). -/
def State.readAt (s : State) (who a n : Nat) (ecc : Ecc) (reader : Nat) : State × Ecc :=
  let s := s.countAccess who false a n
  if s.stackDead a = true ∨ ¬(regionOf a = .hbm ∨ regionOf a = .sram ∨ regionOf a = .staging) then (s, .ok)
  else s.readSpan a n ecc reader

/-- The code of an uncorrectable read at `a` (R85, R361). -/
def readCode (a : Nat) : Nat := if regionOf a = .hbm then Ev.hbmUncorrectable else Ev.sramUncorrectable

/-- `n` bytes copied from `src` to `dst`: a retired stack reads as 0 and takes no write (R367). -/
def State.copyLive (s : State) (src dst n : Nat) : State :=
  s.each (fun (x : Nat × Nat) s => s.each (fun (y : Nat × Nat) s =>
    if s.stackDead y.1 then s
    else if s.stackDead x.1 then s.zeroMem y.1 y.2
    else s.copyMem (src + (y.1 - dst)) y.1 y.2) (stackParts (dst + (x.1 - src)) x.2)) (stackParts src n)

/-- An address of `bad`, where it lies in what was read of `ranges` (R367). -/
def State.badAt (s : State) (ranges : List (Nat × Nat)) (bad : Option W64) : Option Nat :=
  match bad with
  | some x => if (ranges.any fun r => decide (r.1 ≤ x.toNat) && decide (x.toNat < r.1 + r.2)) && !s.stackDead x.toNat then some x.toNat else none
  | none => none

/-- Initiator `who` reads address ranges: those in retired stacks are recorded, the others counted, and what the reads found corrected is
as R85 and R361 say. -/
def State.readRanges (s : State) (who : Nat) (rs : List (Nat × Nat)) (fixed : List (W64 × Bool)) (reader : Nat) : State :=
  (s.each (fun (r : Nat × Nat) s => s.countAccess who false r.1 r.2) rs).corrected rs reader fixed

/-! ## Streams (R354 to R357) -/

/-- STREAM_ENTRY (R224, R356): 64 ticks before its start a STREAM entry goes to the stream engine. -/
def execStreamEntry (m : Fin 16) (o : Fin 32) (s : State) : Res :=
  s.act <|
    let k := walkKey (10 + m) o 0
    let w := s.walker k
    match takeDisp (fun d => eType d.entry == 1 && d.tick == s.now + 64 && !s.beyondRestart (10 + m) d) w.dispatched with
    | none => s
    | some (d, rest) =>
      (s.setWalker k { w with dispatched := rest }).updStrm m fun xs =>
        xs ++ [{ owner := o, entry := d.entry, idx := d.idx, iters := d.iters, start := d.tick, bank := d.bank }]

/-- The first stream that satisfies `f`, and the others. -/
def takeStream (f : Stream → Bool) : List Stream → Option (Stream × List Stream)
  | [] => none
  | x :: xs => if f x then some (x, xs) else (takeStream f xs).map fun p => (p.1, x :: p.2)

/-- A stream has missed (R357): cause 0 NOT_READY, 1 DEADLINE (log 41). -/
def State.streamLate (s : State) (m : Nat) (x : Stream) (done cause : Nat) : State :=
  (s.inc (Reg.mnStreamLate m)).fail (mDie m) (x.owner - 1) Ev.streamLate [m, x.owner, x.idx, done, cause]

/-- STREAM_READY_TEST (R26, R356, R357): at S the ready token is compared with its threshold; one outside the partition reads 0. -/
def execStreamReadyTest (m : Fin 16) (o : Fin 32) (s : State) : Res :=
  s.act <|
    match takeStream (fun x => x.owner == o.val && !x.moving && x.start == s.now) (s.strm m) with
    | none => s
    | some (x, rest) =>
      let th := thresholdOf (stRthresh x.entry) (stRstep x.entry) (stRlvl x.entry) x.iters
      let k := stRtoken x.entry
      let mine := s.partOfToken k == some (x.owner - 1)
      let s := if mine then s else s.noteP (mDie m) (x.owner - 1) Ev.addrOutsidePartition [mDie m, tokenAddr k]
      if (if mine then s.tokenMeets k th else th == 0) then
        s.setStrm m (rest ++ [{ x with moving := true, before := s.snapshot (stDst x.entry) (256 * stN x.entry) }])
      else (s.setStrm m rest).streamLate m x 0 0

/-- A stream's trace record (R549). -/
def streamRec (tick m : Nat) (x : Stream) (done : Nat) (abandoned : Bool) : BitVec 256 :=
  traceRec tick 5 0 (mDie m) x.owner x.idx (done % 2 ^ 24 + b2n abandoned * 2 ^ 24)

/-- What serves a granule at address `a`: a stack's channel, an M-die's staging SRAM or a tile's external port (R352, R358). -/
def pathOf (a : Nat) : Nat :=
  match regionOf a with
  | .hbm => 32 * stackOf a + hbmChannel a
  | .staging => 0x1000 + (a - 0x180000000000) / 0x2000000
  | _ => 0x2000 + (tileOfAddr a).getD 768

/-- The granule of stream `x` is neither complete nor given up. -/
def Stream.open_ (x : Stream) (g : Nat) : Bool := decide (g < stN x.entry) && !x.done.contains g && !x.bad.contains g

/-- The path that granule `g` of stream `x` of M-die `m` waits for: its source's until it is read, its destination's once it has made
its crossings. -/
def Stream.wants (m : Nat) (x : Stream) (g : Nat) : Option Nat :=
  if x.open_ g = false ∨ x.moving = false then none
  else match x.bufs.find? fun h => h.g == g with
    | some h => if (x.way m h).isNone then some (pathOf (stDst x.entry + 256 * g)) else none
    | none => some (pathOf (if stZero x.entry then stDst x.entry + 256 * g else stSrc x.entry + 256 * g))

/-- A stream that goes before `x` has a granule waiting for path `p` (R358). -/
def State.yields (s : State) (x : Stream) (p : Nat) : Bool :=
  (List.range 16).any fun m => (s.strm m).any fun y =>
    y.goesFirst x && (List.range (stN y.entry)).any fun g => y.wants m g == some p

/-- A granule of some stream waits for path `p`: other movers leave it free (R358). -/
def State.streamWants (s : State) (p : Nat) : Bool :=
  (List.range 16).any fun m => (s.strm m).any fun y => (List.range (stN y.entry)).any fun g => y.wants m g == some p

/-- No stream granule waits for what serves `[a, a + n)` of HBM or staging SRAM (R358). -/
def State.streamsLeave (s : State) (a n : Nat) : Bool :=
  !(regionOf a = .hbm || regionOf a = .staging) ||
    (List.range ((a % 256 + n + 255) / 256)).all fun i => !s.streamWants (pathOf (a / 256 * 256 + 256 * i))

/-- Why a stream of partition `p` may not reach the granule at `a` (R26, R41). -/
def State.streamBar (s : State) (p a : Nat) : Option Nat :=
  if regionOf a = .unmapped then some Ev.addrUnmapped
  else if ¬ (regionOf a = .hbm ∨ regionOf a = .sram ∨ regionOf a = .staging) then some Ev.addrAccessClass
  else if s.inPart p a 256 then none
  else some Ev.addrOutsidePartition

/-- Place `k` takes one more granule in this tick, of `n` at most: a stream engine four, staging SRAM 16 (R350). -/
def State.tickRoom (s : State) (k n : Nat) : Bool :=
  let x := SMap.get (fun _ => (0, 0)) s.engine k
  decide (x.1 ≠ s.clk) || decide (x.2 < n)

def State.takeTick (s : State) (k : Nat) : State :=
  let x := SMap.get (fun _ => (0, 0)) s.engine k
  s.withEngine (SMap.set (fun _ => (0, 0)) s.engine k (s.clk, (if x.1 = s.clk then x.2 else 0) + 1))

/-- The M-die whose staging SRAM holds an address. -/
def stagingDie (a : Nat) : Option Nat := if regionOf a = .staging then some ((a - 0x180000000000) / 0x2000000) else none

/-- The path to `a` serves stream `x` now: no stream that goes before it waits there, and a tile's external port has room in this
external cycle (R83, R358). -/
def State.served (s : State) (x : Stream) (a : Nat) : Bool :=
  !s.yields x (pathOf a) &&
    (match tileOfAddr a, stagingDie a with
     | some t, _ => decide (0 < s.extRoom t)
     | none, some m => s.tickRoom (16 + m) 16
     | none, none => true)

/-- A granule takes its place at a tile's external port, or in staging SRAM. -/
def State.usePath (s : State) (a : Nat) : State :=
  match tileOfAddr a, stagingDie a with
  | some t, _ => s.useExt t 1
  | none, some m => s.takeTick (16 + m)
  | none, none => s

/-- Granule `g` of stream `x` is read (R26, R41, R361, R367): a read that may not reach its address, or reaches a retired stack, returns
0 and is recorded; an uncorrectable one returns nothing, and the granule never completes. -/
def State.readGranule (s : State) (m : Nat) (x : Stream) (g : Nat) (ecc : Ecc) : State × Stream :=
  let a := stSrc x.entry + 256 * g
  let buf := fun (v : Payload) => { x with bufs := x.bufs ++ [{ g := g, data := v }] }
  if stZero x.entry then (s.takeTick m, buf 0)
  else if s.served x a = false then (s, x)
  else
    let s := (s.takeTick m).usePath a
    match s.streamBar (x.owner - 1) a with
    | some c => (s.noteP (mDie m) (x.owner - 1) c [mDie m, a], buf 0)
    | none =>
      if s.stackDead a then (s.noteRetired (mDie m) a, buf 0)
      else
        let (s, ecc) := (s.countHbm false a 256).readSpan a 256 ecc 0
        if ecc.bad then (s, { x with bad := x.bad ++ [g] }) else (s, buf (BitVec.ofNat 2048 (s.load a 256)))

/-- A granule that is at its destination's C-die is written, and complete (R42, R356); a write that may not reach its address has no
effect, and its granule never completes (R26, R41, R367). -/
def State.writeGranule (s : State) (m : Nat) (x : Stream) (h : Granule) : State × Stream :=
  let a := stDst x.entry + 256 * h.g
  let gone := { x with bufs := x.bufs.erase h }
  if s.served x a = false then (s, x)
  else
    let s := s.usePath a
    match s.streamBar (x.owner - 1) a with
    | some c => (s.noteP (mDie m) (x.owner - 1) c [mDie m, a], { gone with bad := x.bad ++ [h.g] })
    | none =>
      if s.stackDead a then (s.noteRetired (mDie m) a, { gone with bad := x.bad ++ [h.g] })
      else ((s.countHbm true a 256).raceWrite (whoStream m x.owner x.idx) x.before a (bytesLE 256 h.data.toNat), { gone with done := x.done ++ [h.g] })

/-- One step of granule `g`: read if it has not been, then written if it is where it is written (R356, R358). -/
def State.stepGranule (s : State) (m : Nat) (x : Stream) (g : Nat) (ecc : Ecc) : State × Stream :=
  if x.open_ g = false then (s, x)
  else
    let p := if (x.bufs.any fun h => h.g == g) || !s.tickRoom m 4 then (s, x) else s.readGranule m x g ecc
    match p.2.bufs.find? fun h => h.g == g with
    | some h => if (p.2.way m h).isNone then p.1.writeGranule m p.2 h else p
    | none => p

/-- Granules of a stream in turn, each with how its read came out. -/
def State.stepGranules (s : State) (m : Nat) (x : Stream) : List (BitVec 24 × Ecc) → State × Stream
  | [] => (s, x)
  | g :: gs => let p := s.stepGranule m x g.1.toNat g.2; p.1.stepGranules m p.2 gs

/-- STREAM_COMPLETE (R356, R358): the engine of M-die `m` moves granules `gs` of the oldest stream of entry `idx` of owner `o` that has
granules left. With every granule complete by S + W the completion token receives its amount, where it is the partition's (R26). -/
def execStreamComplete (m : Fin 16) (o : Fin 32) (idx : BitVec 14) (gs : List (BitVec 24 × Ecc)) (s : State) : Res :=
  s.act <|
    match takeStream (fun x => x.owner == o.val && x.moving && x.idx == idx.toNat && decide (x.done.length + x.bad.length < stN x.entry))
        (s.strm m) with
    | none => s
    | some (x, rest) =>
      if x.start + stWindow x.entry < s.now then s
      else
        let p := (s.setStrm m rest).stepGranules m x gs
        let s := p.1
        let x := p.2
        if x.done.length < stN x.entry then s.setStrm m (x :: rest)
        else
          let s := (s.inc (Reg.mnStreamsDone m)).traceStream m (streamRec s.now m x (stN x.entry) false)
          let s := if crossDirs m x.entry = [] then s else s.withSpent ((m, { x with bufs := [], before := [] }) :: s.spent)
          if stAmount x.entry = 0 then s
          else if s.partOfToken (stToken x.entry) = some (x.owner - 1) then s.arrive (m / 4) (stToken x.entry) (stAmount x.entry)
          else s.noteP (mDie m) (x.owner - 1) Ev.addrOutsidePartition [mDie m, tokenAddr (stToken x.entry)]

/-- Booked movers that wait at the external port of tile `t`: ejects, platform writes, departure and operand reads, stream granules
(R84). -/
def State.bookedWaiting (s : State) (t : Nat) : Nat :=
  (s.tile t).eject.length + (s.sramReads.filter fun x => x.tile = t).length +
    ((List.range 6).map fun p => ((s.port p).toTile.filter fun z => z.tile = t ∧ z.due ≤ s.now).length).sum +
    ((List.range 16).map fun m => ((s.strm m).map fun x =>
      ((List.range (stN x.entry)).filter fun g => x.wants m g = some (0x2000 + t)).length).sum).sum

/-- Cells that unbooked movers may move through the external port of tile `t` in this cycle: what booked ones leave (R84). -/
def State.idleRoom (s : State) (t : Nat) : Nat := s.extRoom t - s.bookedWaiting t

/-- STREAM_DEADLINE (R357): at S + W the granules still incomplete are abandoned. -/
def execStreamDeadline (m : Fin 16) (o : Fin 32) (idx : BitVec 14) (s : State) : Res :=
  s.act <|
    match takeStream (fun x => x.owner == o.val && x.moving && x.idx == idx.toNat && x.start + stWindow x.entry == s.now)
        (s.strm m) with
    | none => s
    | some (x, rest) =>
      ((s.setStrm m rest).traceStream m (streamRec s.now m x x.done.length true)).streamLate m x x.done.length 1

/-! ## What SA moves in bulk (R15, R16, R358) -/

/-- The C-die that owns an address or token, if any (R320). -/
def ownerCdie (op a token : Nat) : Option Nat :=
  if op = 4 then some (token / 4096)
  else match regionOf a with
    | .hbm => some (a / 0x8000000000)
    | .sram => some ((a - 0x100000000000) / 0x800000 / 192)
    | .staging => some ((a - 0x180000000000) / 0x2000000 / 4)
    | _ => none

/-- Cells that `n` bytes at `a` make. -/
def cellCount (a n : Nat) : Nat := (a % 256 + n + 255) / 256

/-- A range's bytes on their way from its C-die to SA, and from SA to it. -/
def toSa (r : Nat × Nat) : Nat × Nat × Nat := ((ownerCdie 0 r.1 0).getD 10, 10, cellCount r.1 r.2)
def fromSa (r : Nat × Nat) : Nat × Nat × Nat := (10, (ownerCdie 0 r.1 0).getD 10, cellCount r.1 r.2)

/-- SA reads ranges `rs`, writes ranges `ws` and makes the movements `ms`; none where the last cell must wait for lanes, or its memory for
streams (R16, R358; log 71). -/
def State.bulk (s : State) (rs ws : List (Nat × Nat)) (ms : List (Nat × Nat × Nat)) : Option State :=
  let free := match (rs ++ ws).getLast? with
    | none => true
    | some r => s.streamsLeave (r.1 + r.2 - 1) 1
  if s.someJunction && free then s.crossBulk (rs.map toSa ++ ws.map fromSa ++ ms) else none

/-! ## Refresh, scrub and retirement (R362 to R367) -/

def stackReg (k : Nat) : Nat := Reg.mnStackStatus (k / 2) (k % 2)

/-- A stack is in service and awake. -/
def State.stackAwake (s : State) (k : Nat) : Bool :=
  bitAt (s.r (stackReg k)) 0 && !bitAt (s.r (stackReg k)) 1 && !bitAt (s.r (stackReg k)) 2

/-- HBM_REFRESH (R362): a per-bank refresh at the rate the stack's temperature requires. -/
def execHbmRefresh (k : Fin 32) (temp : Byte) (s : State) : Res :=
  s.act <|
    if s.stackAwake k then
      ((s.wf (stackReg k) 4 8 temp.toNat).wf (stackReg k) 3 1 (b2n (decide (85 < temp.toNat)))).updStack k fun x =>
        { x with refreshes := x.refreshes + 1 }
    else s

/-- The patrol pass is late (R363): recorded once in a pass. -/
def State.scrubLate (s : State) (k : Nat) : State :=
  let x := s.stack k
  let p := s.rf (Reg.mnScrubCtrl (k / 2)) 0 16
  if x.scrubLogged = false ∧ x.scrubStart + (if p = 0 then 1 else p) * 11250000000000 < s.clk then
    (s.setStack k { x with scrubLogged := true }).note (mDie (k / 2)) Ev.scrubLate [k]
  else s

/-- Codewords of a stack (R361). -/
def stackWords : Nat := stackBytes / 128

/-- HBM_SCRUB (R358, R363): the patrol scrubber reads the codeword of stack `k` where its pass stands, once no stream granule waits for its
channel; the last one ends the pass. -/
def execHbmScrub (k : Fin 32) (ecc : Ecc) (s : State) : Res :=
  s.act <|
    let i := (s.stack k).scrubAt
    let a := k * stackBytes + 128 * i
    if s.stackAwake k ∧ s.rf (Reg.mnScrubCtrl (k / 2)) 16 1 = 1 ∧ s.streamWants (pathOf a) = false then
      let s := ((s.countHbm false a 128).readSpan a 128 ecc 4).1.scrubLate k
      if i + 1 < stackWords then s.updStack k fun x => { x with scrubAt := i + 1 }
      else (s.inc (Reg.mnScrubDone (k / 2) (k % 2))).updStack k fun x => { x with scrubAt := 0, scrubStart := s.clk, scrubLogged := false }
    else s

/-- SA retires stack `k` (R366): cause 0 initialisation failed, 1 training lost, 2 requested (log 41). -/
def State.retireStack (s : State) (k cause : Nat) (responds : Bool) : State :=
  if bitAt (s.r (stackReg k)) 1 then s
  else
    let s := s.wf Reg.saStackActive k 1 0
    let s := (s.wf (stackReg k) 1 1 1).wf (stackReg k) 2 1 (b2n responds)
    let s := s.traceRetire k
    let ps := (List.range 16).filter fun p => s.hasQuarter p (k / 2)
    let s := s.report { code := Ev.stackRetired, die := 0, items := [k, cause], flags := if ps = [] then 0 else 2
                        stops := ps.map fun p => ⟨p, Ev.stackRetired, .fault⟩ }
    s.invalidate (fun im => bitAt im.header (128 + k)) Ev.stackRetired

/-- STACK_RETIRED (R366): a stack that lost training, or that the committed SA.STACK_RETIRE_REQ names, is retired; a stack that
does not respond is powered down. -/
def execStackRetired (k : Fin 32) (requested responds : Bool) (s : State) : Res :=
  s.act <|
    if requested then (if bitAt (s.r Reg.saStackRetireReq) k then s.retireStack k 2 responds else s)
    else s.retireStack k 1 responds

/-- The repairs of quarter `m` at a reset that covers it (R365): each candidate is remapped, or its bank has no spare row.
Whether a spare row is left is a free value (log 4). -/
def State.softRepair (s : State) (m : Nat) : State :=
  s.each (fun k s =>
    let reg := Reg.mnRepair m (k % 2)
    let s := s.each (fun row s =>
      let (f, s) := s.free
      if bitAt f 0 then (s.wf reg 16 1 1).note (mDie m) Ev.repairExhausted [k, row]
      else s.updStack k fun x => { x with soft := x.soft ++ [row], rows := SMap.set (fun _ => 0) x.rows row 0 })
      (s.stack k).cands
    let s := s.updStack k fun x => { x with cands := [] }
    (s.wf reg 0 8 0).wf reg 8 8 (Nat.min 255 (s.stack k).soft.length)) [2 * m, 2 * m + 1]

/-! ## The standby stream bank (R354, R370) -/

/-- Two banks of a unit hold the same bytes. -/
def State.banksEqual (s : State) (u : Nat) : Bool :=
  let size := if u < 6 then 0x400000 else if u < 10 then 0x100000 else 0x80000
  let part := fun b => (SMap.keep (fun k => decide (unitBank u b ≤ k) && decide (k < unitBank u b + size)) s.mem).map
    fun c => (c.1 - unitBank u b, c.2)
  part false == part true

/-- After a write of a standby bank: SAME holds only while the banks hold the same (R242). -/
def State.checkSame (s : State) (u : Nat) : State :=
  if s.bankSame u && !s.banksEqual u then s.wf (bankReg u) 4 1 0 else s

/-- The half of a 64-bit word that a 32-bit access reaches (R580). -/
def halfOf (hi : Bool) (v : W64) : Nat := if hi then fld v 32 32 else fld v 0 32

/-- ST_IND_DATA_ACCESS (R354, R370, R580): SA reads or writes the 64 bits at ADDR of the standby stream bank; the access that
includes bits [63:32] advances ADDR by 8. A bank that is DRAINING or ARMED takes no write (R244). -/
def execStIndDataAccess (i : Iface) (m : Fin 16) (wide hi write : Bool) (v : W64) (s : State) : Res :=
  s.act <|
    let u := 10 + m.val
    let key := Reg.mnStIndData m + (if !wide && hi then 4 else 0)
    let off := s.rf (Reg.mnStIndAddr m) 0 18
    let a := streamBank m (!s.bankActive u) + off
    let adv := fun (s : State) => if wide || hi then s.wf (Reg.mnStIndAddr m) 0 18 (off + 8) else s
    if write then
      s.regWrite i key wide fun s =>
        adv <|
          if s.bankStandby u = 1 ∨ s.bankStandby u = 4 then s.note (mDie m) Ev.ttActiveWrite [off]
          else if wide then (s.store a 8 v.toNat).checkSame u
          else (s.store (a + 4 * b2n hi) 4 (fld v 0 32)).checkSame u
    else
      s.regRead i key wide fun s =>
        let x : W64 := BitVec.ofNat 64 (s.load a 8)
        (if wide then x else BitVec.ofNat 64 (halfOf hi x), adv s)

end Sys2Proof.Machine
end

