-- ==== Sys2Proof/Machine/InstrWord.lean ====
section
/-!
DEFINITION. The tile instruction word: its fields (R141, R144), which words are reserved (R143), and the latency table
(R178 to R180).
-/
namespace Sys2Proof.Machine
open Sys2Proof

/-! ## Fields -/

def iOpc (w : W64) : Nat := fld w 56 8
def iPneg (w : W64) : Bool := bitAt w 55
def iPred (w : W64) : Nat := fld w 52 3
/-- Format S. -/
def sRd (w : W64) : Nat := fld w 47 5
def sRa (w : W64) : Nat := fld w 42 5
def sRb (w : W64) : Nat := fld w 37 5
def sFn (w : W64) : Nat := fld w 32 5
def sImm (w : W64) : Nat := fld w 0 32
/-- IMM sign-extended to 64 bits. -/
def sImm64 (w : W64) : W64 := BitVec.ofInt 64 (sgn 32 (sImm w))
/-- Format V. -/
def vVd (w : W64) : Nat := fld w 46 6
def vVa (w : W64) : Nat := fld w 40 6
def vVb (w : W64) : Nat := fld w 34 6
def vVc (w : W64) : Nat := fld w 28 6
def vMen (w : W64) : Bool := bitAt w 27
def vMsel (w : W64) : Nat := fld w 21 6
def vRs (w : W64) : Nat := fld w 16 5
def vFmtd (w : W64) : Nat := fld w 12 4
def vFmts (w : W64) : Nat := fld w 8 4
def vRm (w : W64) : Nat := fld w 5 3
def vFn (w : W64) : Nat := fld w 0 5
/-- Format VM. -/
def xVi (w : W64) : Nat := fld w 40 6
def xMen (w : W64) : Bool := bitAt w 39
def xMsel (w : W64) : Nat := fld w 33 6
def xRa (w : W64) : Nat := fld w 28 5
def xOff (w : W64) : Nat := fld w 0 23
/-- Format M. -/
def mAcc (w : W64) : Nat := fld w 49 3
def mInit (w : W64) : Nat := fld w 47 2
def mFmta (w : W64) : Nat := fld w 43 4
def mFmtb (w : W64) : Nat := fld w 39 4
def mRa (w : W64) : Nat := fld w 34 5
def mRb (w : W64) : Nat := fld w 29 5
def mRc (w : W64) : Nat := fld w 24 5
def mKblk (w : W64) : Nat := fld w 14 10
def mVd (w : W64) : Nat := fld w 8 6
/-- Format T. -/
def tRs1 (w : W64) : Nat := fld w 47 5
def tRs2 (w : W64) : Nat := fld w 42 5
def tRs3 (w : W64) : Nat := fld w 37 5
def tTok (w : W64) : Nat := fld w 23 14
def tTen (w : W64) : Bool := bitAt w 22
def tImm (w : W64) : Nat := fld w 0 22
def tTind (w : W64) : Bool := bitAt w 21
def tFen (w : W64) : Bool := bitAt w 16
def tTimeout (w : W64) : Nat := fld w 0 16

/-! ## Formats (R145) -/

def isMx (f : Nat) : Bool := 3 ≤ f && f ≤ 8

/-- Bits of an element of format `f`. -/
def fmtWidth (f : Nat) : Nat :=
  if f = 1 ∨ f = 2 then 16 else if f = 5 ∨ f = 6 then 6 else if f = 7 then 4 else if f = 0 ∨ f = 10 then 32 else 8

/-- Number of parts of a packed vector in format `f` (R158). -/
def fmtParts (f : Nat) : Nat :=
  match fmtWidth f with
  | 16 => 2
  | 8 => 4
  | 6 => 5
  | 4 => 8
  | _ => 1

/-- A pairing the matrix engine accepts (R112). -/
def pairingOk (a b : Nat) : Bool := (isMx a && isMx b) || (a == b && (a == 9 || a == 1 || a == 2))

/-! ## Reserved words (R143). A field that a word's own choices leave unused is reserved in it (R144, log 40). -/

def legalS (w : W64) (rd ra rb imm : Bool) (fns : Nat) : Bool :=
  (rd || sRd w == 0) && (ra || sRa w == 0) && (rb || sRb w == 0) && (imm || sImm w == 0) && decide (sFn w < fns)

def pred3 (r : Nat) : Bool := decide (r < 8)

/-- Format V with the fields of `va` to `rs` in use. -/
def legalV (w : W64) (vd va vb vc rs : Bool) (fns : Nat) : Bool :=
  (vd || vVd w == 0) && (va || vVa w == 0) && (vb || vVb w == 0) && (vc || vVc w == 0) && (rs || vRs w == 0) &&
    decide (vFn w < fns) && (vMen w || vMsel w == 0)

def legalFmt0 (w : W64) : Bool := vFmtd w == 0 && vFmts w == 0 && vRm w == 0

/-- FN of VFP that take b. -/
def vfpTakesB (fn : Nat) : Bool := fn ≤ 4 || fn == 6 || fn == 7 || 14 ≤ fn

def legalVcvt (w : W64) : Bool :=
  let n := if vFmtd w = 0 then vFmts w else vFmtd w
  let narrowing := decide (vFmtd w ≠ 0)
  let stoch := narrowing && (n == 1 || isMx n)
  decide (vFmtd w = 0 ∨ vFmts w = 0) && decide (n ≠ 0) && decide (n ≤ 10) && vFn w == 0 &&
    decide (vVb w < fmtParts n) && (isMx n || vRs w == 0) && (vMen w || vMsel w == 0) &&
    (narrowing || n == 10 || vRm w == 0) && decide (vRm w ≠ 5 ∧ vRm w ≠ 6) &&
    (if stoch && (vRm w == 4 || vRm w == 7) then decide (vVc w % 2 = 0 ∧ vVc w < 32) else vVc w == 0)

def legalVM (w : W64) (vd vi : Bool) : Bool :=
  (vd || vVd w == 0) && (vi || xVi w == 0) && fld w 23 5 == 0 && (xMen w || xMsel w == 0)

def legalM (w : W64) : Bool := fld w 0 8 == 0

/-- Token naming fields shared by ARRIVE, SET, WAITT and WAITPS. -/
def legalTok (w : W64) : Bool :=
  if tTen w then tTind w || tRs3 w == 0 else tTok w == 0 && !tTind w && tRs3 w == 0

/-- The word is one that the loader accepts, whatever the tile it stands on (R143). DESIGN CHOICE: a VSORT whose VD equals VC is refused as
reserved, since R164 says that they must differ and R143's list does not name it (log 66). -/
def legalWord (w : W64) : Bool :=
  match iOpc w with
  | 0x00 => legalS w true true true false 15
  | 0x01 => legalS w true true false true 15
  | 0x02 => legalS w true true true false 6 && pred3 (sRd w)
  | 0x03 => legalS w true true false true 6 && pred3 (sRd w)
  | 0x04 => legalS w true true true false 4 && pred3 (sRd w) && pred3 (sRa w) && pred3 (sRb w)
  | 0x05 => legalS w true false false true 1
  | 0x06 => legalS w true false false true 1
  | 0x20 => legalS w false false false true 1 && decide (sImm w < 32768)
  | 0x21 => legalS w true false false true 1 && decide (sImm w < 32768)
  | 0x22 => legalS w false true false false 1
  | 0x23 => legalS w false false false false 1
  | 0x24 => legalS w false false false false 1
  | 0x28 => legalS w true false false true 1 && decide (sImm w < 5)
  | 0x29 => legalS w false true false true 1 && decide (sImm w < 4)
  | 0x30 => legalS w true true false true 1
  | 0x31 => legalS w false true true true 1
  | 0x40 => legalV w true true (vfpTakesB (vFn w)) (vFn w == 3) false 17 && legalFmt0 w
  | 0x41 => legalV w true true false (vFn w == 3) (vfpTakesB (vFn w)) 17 && legalFmt0 w
  | 0x42 => legalV w true true true (vFn w == 13) false 17 && legalFmt0 w
  | 0x43 => legalV w true true false (vFn w == 13) true 17 && legalFmt0 w
  | 0x44 => legalV w true (vFn w == 0 || vFn w == 3) (vFn w == 3) false (vFn w == 1) 4 && legalFmt0 w
  | 0x48 => legalVcvt w
  | 0x50 => legalV w false true false false true 8 && legalFmt0 w
  | 0x52 => legalV w (vFn w == 2 || vFn w == 3) (vFn w == 1 || vFn w == 4) false false false 5 && legalFmt0 w
  | 0x60 => legalVM w true false
  | 0x61 => legalVM w true false
  | 0x62 => legalVM w true true
  | 0x63 => legalVM w true true
  | 0x64 => legalVM w true true
  | 0x65 => legalVM w false false
  | 0x66 => legalVM w false false
  | 0x70 => legalV w true true true true false 2 && vFmtd w == 0 && vRm w == 0 && (vFmts w == 0 || vFmts w == 10) &&
      decide (vVd w ≠ vVc w)
  | 0x71 => legalV w true true true true true 1 && vFmtd w == 0 && vRm w == 0 && (vFmts w == 0 || vFmts w == 10)
  | 0x78 => legalV w true false false false true 2 && legalFmt0 w && decide (vRs w % 2 = 0)
  | 0x80 => legalM w && decide (mInit w ≠ 3) && pairingOk (mFmta w) (mFmtb w) && decide (1 ≤ mKblk w) && mVd w == 0 &&
      (mInit w == 2 || mRc w == 0)
  | 0x81 => legalM w && mInit w == 0 && mFmta w == 0 && mFmtb w == 0 && mRa w == 0 && mRb w == 0 && mKblk w == 0 && mVd w == 0
  | 0x82 => legalM w && mInit w == 0 && mFmta w == 0 && mFmtb w == 0 && mRa w == 0 && mRb w == 0 && mRc w == 0 &&
      decide (mKblk w ≤ 35)
  | 0x90 => (tTen w || tTok w == 0) && decide (tImm w < 192)
  | 0x91 => tRs2 w == 0 && tTen w && legalTok w && fld w 0 21 == 0
  | 0x92 => tRs2 w == 0 && tTen w && legalTok w && fld w 0 21 == 0
  | 0x94 => tRs2 w == 0 && tRs3 w == 0 && tTok w == 0 && !tTen w && tImm w == 0
  | 0x98 => tRs2 w == 0 && tTen w && legalTok w && fld w 16 5 == 0
  | 0x99 => tRs2 w == 0 && tRs3 w == 0 && tTok w == 0 && !tTen w && tImm w == 0
  | 0x9A => legalTok w && (tTen w || tRs1 w == 0) && (tFen w || tRs2 w == 0) && (tTen w || tFen w) && fld w 17 4 == 0
  | 0x9C => tRs2 w == 0 && tRs3 w == 0 && tTok w == 0 && !tTen w && decide (tImm w < 3)
  | 0x9E => tRs2 w == 0 && tRs3 w == 0 && tTok w == 0 && !tTen w && decide (tImm w < 65536)
  | _ => false

/-- An opcode whose instruction uses the tile's SRAM port as it issues: scalar and vector loads and stores, gathers and scatters, LADD's
records, LSEND and MSEND (R83). The matrix engine's reads and drains take many cycles and keep clear of the external ones. -/
def usesTilePort (o : Nat) : Bool := o == 0x30 || o == 0x31 || (0x60 ≤ o && o ≤ 0x66) || o == 0x90 || o == 0x94

/-- Row of a C-die of a local tile number (R19). -/
def rowOf (t : Nat) : Nat := t % 192 / 8

/-- Why the loader refuses a word of logical tile `t`'s program (R143): 1 reserved, 2 a token waited remotely, 3 a line
route with more than 15 vertical hops (R86). -/
def wordRefusal (t : Nat) (w : W64) : Nat :=
  if legalWord w = false then 1
  else
    let remote := decide (tTok w / 4096 ≠ t / 192)
    let o := iOpc w
    if (o = 0x98 ∨ o = 0x9A) ∧ tTen w = true ∧ tTind w = false ∧ remote = true then 2
    else if o = 0x90 ∧ tTen w = true ∧ remote = true then 2
    else if o = 0x90 ∧ 15 < (rowOf t - rowOf (tImm w)) + (rowOf (tImm w) - rowOf t) then 3
    else 0

/-! ## Latencies (R179, R180) -/

/-- Latency under LP1 and LP2 and occupancy, before checked mode; `c` the most distinct words in one bank (GATHER). -/
def latencyRow (w : W64) (c : Nat) : Nat × Nat × Nat :=
  let o := (if mFmta w = 7 ∧ mFmtb w = 7 then 16 else if mFmta w = 1 ∨ mFmta w = 2 then 64 else 32) * mKblk w +
    (if mInit w = 2 then 18 else 0)
  let mx := isMx (vFmtd w) || isMx (vFmts w)
  match iOpc w with
  | 0x00 => if 8 ≤ sFn w ∧ sFn w ≤ 10 then (4, 3, 1) else (1, 1, 1)
  | 0x01 => if 8 ≤ sFn w ∧ sFn w ≤ 10 then (4, 3, 1) else (1, 1, 1)
  | 0x20 => (3, 2, 1)
  | 0x21 => (3, 2, 1)
  | 0x22 => (3, 2, 1)
  | 0x28 => (2, 2, 1)
  | 0x29 => (2, 2, 1)
  | 0x30 => (6, 5, 1)
  | 0x31 => (6, 5, 1)
  | 0x40 => vfpRow (vFn w)
  | 0x41 => vfpRow (vFn w)
  | 0x42 => if vFn w = 2 then (5, 4, 1) else (3, 3, 1)
  | 0x43 => if vFn w = 2 then (5, 4, 1) else (3, 3, 1)
  | 0x44 => if vFn w = 3 then (6, 6, 2) else (3, 3, 1)
  | 0x48 => if mx then (10, 9, 2) else (5, 5, 1)
  | 0x50 => if vFn w = 0 then (14, 12, 2) else (10, 9, 2)
  | 0x52 =>
    match vFn w with
    | 0 => (2, 2, 1)
    | 1 => (4, 4, 1)
    | 2 => (10, 8, 2)
    | _ => (6, 6, 2)
  | 0x60 => (8, 7, 1)
  | 0x61 => (8, 7, 1)
  | 0x62 => (12 + c, 10 + c, c)
  | 0x63 => (12 + c, 10 + c, c)
  | 0x64 => (12 + c, 10 + c, c)
  | 0x65 => (8, 8, 1)
  | 0x66 => (8, 8, 1)
  | 0x70 => (48, 44, 16)
  | 0x71 => (32, 30, 8)
  | 0x78 => (12, 10, 1)
  | 0x80 => (o + 12, o + 10, o)
  | 0x81 => (40, 36, 18)
  | 0x82 => (40, 36, 1)
  | 0x94 => (4, 4, 1)
  | 0x9C => (2, 2, 1)
  | _ => (1, 1, 1)
where
  /-- The VFP rows by FN. -/
  vfpRow (fn : Nat) : Nat × Nat × Nat :=
    if fn ≤ 3 then (6, 5, 1) else if fn = 4 then (28, 22, 8) else if fn = 5 then (30, 24, 8)
    else if fn = 10 ∨ fn = 11 then (8, 7, 1) else if fn = 12 ∨ fn = 13 then (10, 9, 1) else (3, 3, 1)

/-- Instructions that run twice in succession in checked vector mode (R135, R180). -/
def crossLane (w : W64) : Bool :=
  let o := iOpc w
  (o == 0x44 && vFn w == 3) || o == 0x50 || o == 0x70 || o == 0x71 || (0x62 ≤ o && o ≤ 0x64)

/-- Element-wise vector instructions, and LADD (R180). -/
def elementWise (w : W64) : Bool :=
  let o := iOpc w
  (0x40 ≤ o && o ≤ 0x43) || (o == 0x44 && vFn w ≠ 3) || o == 0x48 || o == 0x78 || (o == 0x52 && vFn w == 1)

/-- Latency and occupancy of a word under profile `lp` (1, 2 or 3), in checked vector mode or not. -/
def latency (w : W64) (c lp : Nat) (checked : Bool) : Nat × Nat :=
  let (a, b, o) := latencyRow w c
  let l := if lp = 1 then a else if lp = 2 then b else Nat.max a b
  if checked && crossLane w then (2 * l, 2 * o)
  else if checked && elementWise w then (l + 1, 2 * o)
  else (l, o)

end Sys2Proof.Machine
end

