-- ==== Sys2Proof/Machine/TileOps.lean ====
section
/-!
DEFINITION. What every tile instruction shares: registers of a tile, its data SRAM, issue under the guard predicate,
retirement, checked vector mode, and the fetch of the next word (R78 to R85, R135, R136, R141, R142, R152).
-/
namespace Sys2Proof.Machine
open Sys2Proof

/-! ## Registers of a tile (R78) -/

def Tile.s (x : Tile) (r : Nat) : W64 := SMap.get (fun _ => (0 : W64)) x.sregs r
def Tile.setS (x : Tile) (r : Nat) (v : W64) : Tile := { x with sregs := SMap.set (fun _ => (0 : W64)) x.sregs r v }
/-- p0 reads 1 and discards writes. -/
def Tile.p (x : Tile) (i : Nat) : Bool := i == 0 || bitAt x.preds i
def Tile.setP (x : Tile) (i : Nat) (b : Bool) : Tile := if i = 0 then x else { x with preds := setFld x.preds i 1 (b2n b) }
def Tile.v (x : Tile) (r : Nat) : Vec := SMap.get (fun _ => (0 : Vec)) x.vregs r
def Tile.setV (x : Tile) (r : Nat) (v : Vec) : Tile := { x with vregs := SMap.set (fun _ => (0 : Vec)) x.vregs r v }
def Tile.lacc (x : Tile) (g : Nat) : Lacc := SMap.get (fun _ => ({} : Lacc)) x.laccs g
def Tile.setLacc (x : Tile) (g : Nat) (l : Lacc) : Tile := { x with laccs := SMap.set (fun _ => ({} : Lacc)) x.laccs g l }
def Tile.acc (x : Tile) (a : Nat) : BitVec 294912 := SMap.get (fun _ => (0 : BitVec 294912)) x.accs a
def Tile.setAcc (x : Tile) (a : Nat) (v : BitVec 294912) : Tile :=
  { x with accs := SMap.set (fun _ => (0 : BitVec 294912)) x.accs a v }
/-- Flags raised by an instruction (R138). -/
def Tile.flag (x : Tile) (f : Nat) : Tile := { x with fpFlags := x.fpFlags ||| BitVec.ofNat 32 f }

/-- Lanes of a vector register, the lowest first. -/
def lanes (v : Vec) : List Nat := unpackLE 32 256 v.toNat

/-- A vector register of the listed lanes. -/
def ofLanes (xs : List Nat) : Vec := BitVec.ofNat 8192 (packLE 32 xs)

/-- The lane mask of an instruction (R144, R153). -/
def Tile.mask (x : Tile) (men : Bool) (msel : Nat) : List Bool :=
  if men then (lanes (x.v msel)).map (fun l => l % 2 == 1) else List.replicate 256 true

/-- Active lanes take the new value, the others keep the old one. -/
def blend (m : List Bool) (new old : List Nat) : List Nat :=
  List.zipWith (fun b (p : Nat × Nat) => if b then p.1 else p.2) m (List.zip new old)

/-- Registers that read as zero after a changeover or a reset of the tile (R79, R139), and the control registers' reset
values. -/
def Tile.cleared (x : Tile) (seed : W64) : Tile :=
  { x with sregs := [], preds := 1, vregs := [], laccs := [], accs := [], mma := [], pmode := 0, fpCtrl := 0, fpFlags := 0, seed := seed
           fetched := none, wait := none }

/-! ## Retirement -/

/-- The word has retired; the next one is at `npc`, or the program has no further word (R149). -/
def State.retire (s : State) (t npc : Nat) : State :=
  s.updTile t fun x => { x with pc := Nat.min npc 32768, fetched := none, retired := s.now }

/-- The word at `pc + 1` is next. -/
def State.advance (s : State) (t : Nat) : State := s.retire t ((s.tile t).pc + 1)

/-- LCT of tile `t`'s C-die. -/
def State.lctOf (s : State) (t : Nat) : Nat := (s.r (Reg.cnLct (t / 192))).toNat

/-- Tile `t` may issue an instruction of opcode `opc` in this tick: its core clock runs and a core cycle begins, which is no external
cycle for an access of its SRAM port (R72, R73, R83). -/
def State.cycleFor (s : State) (t opc : Nat) : Bool :=
  s.coreRuns (t / 192) && s.coreNow (t / 192) && !(usesTilePort opc && s.externalNow t)

/-- Issue on tile `t` of the fetched word, where it is `w` with opcode `opc`: `act` is what it does when its guard holds
(R142); otherwise it takes its issue cycle and nothing else. A word that the loader refuses never executes (R143). -/
def State.issue (s : State) (t : Nat) (opc : Nat) (w : W64) (act : Tile → State → State) : State :=
  let x := s.tile t
  if x.state = 1 ∧ x.fetched = some w ∧ iOpc w = opc ∧ legalWord w = true ∧ s.cycleFor t opc = true then
    (if (x.p (iPred w) != iPneg w) = true then act x s else s.advance t)
  else s

/-! ## Data SRAM (R78, R83, R85) -/

/-- Tile-local addresses are 23 bits (R150). -/
def tAddr (a : Nat) : Nat := a % 0x800000

/-- `n` bytes of tile `t` from `a`, each at its own address modulo 8 MiB. -/
def State.tBytes (s : State) (t a : Nat) : Nat → List Byte
  | 0 => []
  | n + 1 => s.byte (tileAddr t (tAddr a)) :: s.tBytes t (a + 1) n

def State.tLoad (s : State) (t a n : Nat) : Nat := ofBytesLE (s.tBytes t a n)

def State.tPut (s : State) (t a : Nat) : List Byte → State
  | [] => s
  | b :: bs => (s.setByte (tileAddr t (tAddr a)) b).tPut t (a + 1) bs

/-- The bytes of `[a, a + n)` of tile `t` before its SRAM's end, and those that stand at its beginning. -/
def tHead (a n : Nat) : Nat := Nat.min n (0x800000 - tAddr a)

/-- Store the low `n` bytes of `v` at `a` of tile `t`. -/
def State.tStore (s : State) (t a n v : Nat) : State :=
  let k := tHead a n
  (s.writeBy (whoTile t) (tileAddr t (tAddr a)) k fun s => s.tPut t a ((bytesLE n v).take k)).writeBy (whoTile t) (tileAddr t 0) (n - k)
    fun s => s.tPut t 0 ((bytesLE n v).drop k)

/-- The 256-byte cells that `[a, a + n)` touches. -/
def cellsOf (a n : Nat) : List Nat := (List.range ((a % 256 + n + 255) / 256)).map fun i => tAddr (a / 256 * 256 + 256 * i)

/-- The first unarrived platform cell in the ranges, and its train (R208). -/
def State.firstAbsent (s : State) (t : Nat) (rs : List (Nat × Nat)) : Option (Nat × Nat) :=
  if (s.tile t).absent = [] then none
  else (rs.flatMap fun r => cellsOf r.1 r.2).findSome? fun a => (s.unarrived t a).map fun k => (a, k)

/-- Addresses of the 64-bit words that `[a, a + n)` touches. -/
def wordsOf (a n : Nat) : List Nat := (List.range ((a % 8 + n + 7) / 8)).map fun i => tAddr (a / 8 * 8 + 8 * i)

/-- The address of word `w` of those that the ranges touch, counted from 0. -/
def failingWord (rs : List (Nat × Nat)) (w : Nat) : Nat :=
  let xs := rs.flatMap fun r => wordsOf r.1 r.2
  xs.getD (w % xs.length) 0

/-- A tile-port read of the listed (address, length) ranges: an uncorrectable error or an unarrived platform cell stops the
tile; a corrected error is counted (R85, R105, R208). -/
def State.reading (s : State) (t : Nat) (ecc : Ecc) (rs : List (Nat × Nat)) (act : State → State) : State :=
  match s.firstAbsent t rs, ecc with
  | _, .ue w => s.tileFault t Ev.sramUncorrectable [failingWord rs w.toNat]
  | some (a, train), _ => s.tileFault t Ev.platformUnarrived [a, train]
  | none, .ok => act s
  | none, _ => act (s.hwSet (Reg.cnTileErr (t / 192) (t % 192)) 1)

/-! ## Free values -/

/-- `n` free 64-bit words from counter `c`. -/
def freeBits : Nat → Nat → Nat
  | 0, _ => 0
  | n + 1, c => (Config.freeWord c).toNat + 2 ^ 64 * freeBits n (c + 1)

/-- The counter past `n` words. -/
def State.skipFree (s : State) (n : Nat) : State := s.withFreeCtr (s.freeCtr + n)

/-- A destination of a vector or matrix instruction. -/
inductive Dest where
  | vreg (r : Nat)
  | sreg (r : Nat)
  | lacc (g : Nat)
  | acc (a : Nat)
  | mem (a n : Nat)
deriving DecidableEq, Repr

/-- A destination takes unpredictable contents (R122, R136). -/
def State.scramble (t : Nat) (d : Dest) (s : State) : State :=
  match d with
  | .vreg r => (s.updTile t fun x => x.setV r (BitVec.ofNat 8192 (freeBits 128 s.freeCtr))).skipFree 128
  | .sreg r => (s.updTile t fun x => x.setS r (BitVec.ofNat 64 (freeBits 1 s.freeCtr))).skipFree 1
  | .lacc g => (s.updTile t fun x => x.setLacc g
      ⟨BitVec.ofNat 160 (freeBits 3 s.freeCtr), bitAt (Config.freeWord (s.freeCtr + 3)) 0,
       bitAt (Config.freeWord (s.freeCtr + 3)) 1, bitAt (Config.freeWord (s.freeCtr + 3)) 2⟩).skipFree 4
  | .acc a => (s.updTile t fun x => x.setAcc a (BitVec.ofNat 294912 (freeBits 4608 s.freeCtr))).skipFree 4608
  | .mem a n => (s.tStore t a n (freeBits ((n + 7) / 8) s.freeCtr)).skipFree ((n + 7) / 8)

/-- A vector instruction retires (R135, R136): in checked mode, where `differ`, its destinations are unpredictable and the
tile stops. -/
def State.vecDone (s : State) (t : Nat) (differ : Bool) (ds : List Dest) : State :=
  if bitAt (s.tile t).fpCtrl 4 && differ then (s.each (State.scramble t) ds).tileFault t Ev.vectorCheck []
  else s.advance t

/-! ## The sequencer -/

/-- INSTRUCTION_FETCH (R78, R80, R81, R149): the word at PC of the active bank, one in a core cycle; past the program's end the tile
stops. -/
def execInstructionFetch (t : Fin 768) (ecc : Ecc) (s : State) : Res :=
  s.act <|
    let x := s.tile t
    let k := Reg.cnTileErr (t / 192) (t % 192)
    if x.state ≠ 1 ∨ x.fetched ≠ none ∨ s.coreRuns (t / 192) = false ∨ s.coreNow (t / 192) = false ∨ x.fetchAt = some (s.lctOf t) then s
    else if x.progLen ≤ x.pc then s.tileFault t Ev.pcRange []
    else
      let w : W64 := BitVec.ofNat 64 (s.load (instrBank t x.bank + 8 * x.pc) 8)
      let took := fun (s : State) => s.updTile t fun x => { x with fetched := some w, fetchAt := some (s.lctOf t) }
      match ecc with
      | .ue _ => s.tileFault t Ev.instrUncorrectable []
      | .ok => took s
      | _ =>
        let n := s.rf k 16 16
        took (s.wf k 16 16 (if n < 65535 then n + 1 else n))

/-- SEQ_WATCHDOG (R103): in RUN with nothing retired for 312,500 ticks. -/
def execSeqWatchdog (t : Fin 768) (s : State) : Res :=
  s.act <|
    let x := s.tile t
    if x.state = 1 ∧ x.retired + 312500 ≤ s.now then s.tileFault t Ev.seqWatchdog [] else s

/-- TILE_SRAM_SCRUB (R83, R85, R353): the patrol scrubber reads the 64-bit word at module-local address `a`, in tile SRAM, where the
external port has room that nothing booked waits for, or in staging SRAM; a corrected word is written back. -/
def execTileSramScrub (a : BitVec 48) (ecc : Ecc) (s : State) : Res :=
  s.act <|
    let a := a.toNat / 8 * 8
    let ecc := match ecc with
      | .ue _ => .ue 0
      | e => e
    match regionOf a with
    | .sram =>
      let t := (a - 0x100000000000) / 0x800000
      if s.idleRoom t = 0 then s else (s.useExt t 1).readError a ecc 4
    | .staging => s.readError a ecc 4
    | _ => s

end Sys2Proof.Machine
end

