-- ==== Sys2Proof/Machine/LineToken.lean ====
section
/-!
DEFINITION. The local lines, tokens, waits and tile sleep (R86 to R103, R171 to R174).
-/
namespace Sys2Proof.Machine
open Sys2Proof

/-! ## Local lines (R86 to R92) -/

/-- Skip site of row `r` of C-die `c` (R20, R22). -/
def State.skipSite (s : State) (c r : Nat) : Nat := s.rf (Reg.cnRowMap c r) 0 4

/-- Site of logical column `k` in a row (R20). -/
def State.siteOf (s : State) (c r k : Nat) : Nat := if k < s.skipSite c r then k else k + 1

/-- LCT of line cycle 0 of tile `t`'s quarter. -/
def State.lineBase (s : State) (t : Nat) : Nat := (s.r (Reg.cnLineBase (t / 192) (t / 48 % 4))).toNat

/-- Distance of two numbers. -/
def dist (a b : Nat) : Nat := (a - b) + (b - a)

/-- Delivery cycle D of a send at line cycle T (R87). -/
def deliveryCycle (t src dst : Nat) : Nat := t + 3 + dist (rowOf src) (rowOf dst) + dist (src % 8) (dst % 8)

/-- A send after its line cycle (R90). -/
def State.lineLate (s : State) (t cycle : Nat) : State :=
  s.lineFault t Ev.lineLate [t, cycle]

/-- LSEND (R90, R171): the source cell is read at issue; a full queue stalls issue. -/
def execLsend (t : Fin 768) (w : W64) (ecc : Ecc) (s : State) : Res :=
  s.act <| s.issue t 0x90 w fun x s =>
    let a := tAddr (x.s (tRs1 w)).toNat / 256 * 256
    let cycle := (x.s (tRs3 w)).toNat
    if 8 ≤ x.sendQ.length then s
    else s.reading t ecc [(a, 256)] fun s =>
      if (cycle : Int) < s.lineCycle t then (s.lineLate t cycle).advance t
      else
        let m : LineSend := { cycle := cycle, dst := t / 192 * 192 + tImm w % 256
                              addr := tAddr (x.s (tRs2 w)).toNat / 256 * 256
                              token := if tTen w then some (tTok w) else none
                              data := BitVec.ofNat 2048 (s.tLoad t a 256) }
        (s.updTile t fun y => { y with sendQ := y.sendQ ++ [m] }).advance t

/-- A send enters its source stop at T + 2 (R87). -/
def State.enterStop (s : State) (t : Nat) (m : LineSend) : State :=
  let c := t / 192
  let b := s.lineBase t
  let cell : LineCell := { src := t, dst := m.dst, row := rowOf t, site := s.siteOf c (rowOf t) (t % 8)
                           at_ := (b + m.cycle + 2 : Nat), due := (b + deliveryCycle m.cycle t m.dst : Nat)
                           addr := m.addr, token := m.token, data := m.data }
  (s.withLineCells (s.lineCells ++ [cell]))

/-- LINE_SEND_DEPART (R87, R90): sends of tile `t` whose line cycle is now leave the queue; one past it is late. DESIGN CHOICE: the sends of a
stopped tile go on, and cells under way are delivered, since R104 says nothing of them (log 27). -/
def execLineSendDepart (t : Fin 768) (s : State) : Res :=
  s.act <|
    let n := s.lineCycle t
    let q := (s.tile t).sendQ
    let s := s.updTile t fun x => { x with sendQ := x.sendQ.filter fun m => n < (m.cycle : Int) }
    s.each (fun m s =>
      if (m.cycle : Int) = n then s.enterStop t m else if (m.cycle : Int) < n then s.lineLate t m.cycle else s) q

/-- Where a cell goes next: row, site and the link it crosses (0 north, 1 south, 2 east, 3 west), or none at its destination
stop (R86). -/
def State.nextStop (s : State) (x : LineCell) : Option (Nat × Nat × Nat) :=
  let c := x.src / 192
  let r := rowOf x.dst
  let k := x.src % 8
  let e := s.siteOf c r (x.dst % 8)
  if x.row < r then some (x.row + 1, s.siteOf c (x.row + 1) k, 1)
  else if r < x.row then some (x.row - 1, s.siteOf c (x.row - 1) k, 0)
  else if x.site < e then some (x.row, x.site + 1, 2)
  else if e < x.site then some (x.row, x.site - 1, 3)
  else none

/-- A vertical move into another quarter meets a closed boundary (R92). -/
def State.boundaryShut (s : State) (c r r' : Nat) : Bool :=
  let a := Nat.min (r / 6) (r' / 6)
  decide (r / 6 ≠ r' / 6) && !bitAt (s.r (Reg.cnLineBoundary c)) a

/-- One cell's move in this cycle, among all the cells that move (R86, R88, R92). Cells that meet are discarded, and the meeting
is recorded once. -/
def State.hopCell (s : State) (now : Nat) (old : State) (moving : List (LineCell × Nat)) (x : LineCell) : State :=
  let c := x.src / 192
  match old.nextStop x with
  | none => (s.withLineCells (s.lineCells ++ [{ x with at_ := now }]))
  | some (r, site, dir) =>
    if old.boundaryShut c x.row r then
      s.lineFault x.src Ev.lineBoundary [x.src]
    else if 1 < (moving.filter fun y => y.1.row = x.row ∧ y.1.site = x.site ∧ y.2 = dir).length then
      if moving.find? (fun y => y.1.row = x.row ∧ y.1.site = x.site ∧ y.2 = dir) ≠ some (x, dir) then s
      else s.lineFault x.src Ev.lineCollision [c, x.row * 9 + x.site, enc 64 ((now : Int) - s.lineBase x.src)]
    else (s.withLineCells (s.lineCells ++ [{ x with row := r, site := site, at_ := now }]))

/-- LINE_CELL_HOP (R86 to R88, R92): every cell of C-die `c` that is at a stop crosses one link, or is held. -/
def execLineCellHop (c : Fin 4) (s : State) : Res :=
  s.act <|
    let now := (s.r (Reg.cnLct c)).toNat
    let mine := s.lineCells.filter fun x => x.src / 192 = c.val ∧ x.at_ < (now : Int)
    let moving := mine.filterMap fun x =>
      match s.nextStop x with
      | some (r, _, d) => if s.boundaryShut c x.row r then none else some (x, d)
      | none => none
    let rest := s.lineCells.filter fun x => !(decide (x.src / 192 = c.val ∧ x.at_ < (now : Int)))
    (s.withLineCells rest).each (fun x s' => s'.hopCell now s moving x) mine

/-- LINE_EJECT (R87): cells at tile `t`'s stop whose delivery cycle has come enter its eject buffer. DESIGN CHOICE: the buffer takes any
number of them, since R78 gives it 8 cells and no rule says what a ninth does (log 67). -/
def execLineEject (t : Fin 768) (s : State) : Res :=
  s.act <|
    let now := s.lctOf t
    let ready := fun (x : LineCell) => decide (x.dst = t) && decide (x.due ≤ (now : Int)) && decide (s.nextStop x = none) &&
      decide (x.at_ ≤ (now : Int))
    (s.withLineCells (s.lineCells.filter fun x => !ready x)).updTile t fun y =>
      { y with eject := y.eject ++ s.lineCells.filter ready }

/-- An access of tile `t` outside its partition (R26). -/
def State.outside (s : State) (t a : Nat) : State :=
  s.noteP (cDie (t / 192)) (partNum (s.partOfTile t)) Ev.addrOutsidePartition [t, a]

/-- Token `k` is assigned to tile `t`'s partition (R26, R94). -/
def State.tokenMine (s : State) (t k : Nat) : Bool :=
  match s.partOfTile t, s.partOfToken k with
  | some p, some q => p == q
  | _, _ => false

/-- A tile's arrive on token `k` (R26, R98). -/
def State.tileArrive (s : State) (t k amount : Nat) : State :=
  if s.tokenMine t k then s.arrive (t / 192) k amount else s.outside t (tokenAddr k)

/-- Ejected cells of tile `t` are written, as many as its external port has room for, and their tokens bumped (R83, R84, R91). -/
def State.writeEjected (s : State) (t : Nat) : State :=
  let q := (s.tile t).eject.take (s.extRoom t)
  let s := (s.updTile t fun x => { x with eject := x.eject.drop q.length }).useExt t q.length
  s.each (fun x s =>
    let s := s.writeCell (whoTile x.src) t x.addr x.data
    match x.token with
    | some k => s.tileArrive x.src k 1
    | none => s) q

/-! ## Tokens (R94 to R98) -/

/-- The token an instruction names (R172). -/
def tokenOf (x : Tile) (w : W64) : Nat :=
  if tTind w then (tTok w + (x.s (tRs3 w)).toNat % 16384) % 16384 else tTok w

/-- A set on its way from a die (`src`: a C-die, or 4 for another) to a token's C-die (R98). -/
def State.sendSet (s : State) (src k : Nat) (v : W32) : State :=
  s.withTokOps (s.tokOps ++ [{ token := k, set := true, amount := v, src := src }])

/-- ARRIVE (R26, R172). -/
def execArrive (t : Fin 768) (w : W64) (s : State) : Res :=
  s.act <| s.issue t 0x91 w fun x s => (s.tileArrive t (tokenOf x w) (fld (x.s (tRs1 w)) 0 32)).advance t

/-- SET (R26, R172). -/
def execSet (t : Fin 768) (w : W64) (s : State) : Res :=
  s.act <| s.issue t 0x92 w fun x s =>
    let k := tokenOf x w
    (if s.tokenMine t k then s.sendSet (t / 192) k ((x.s (tRs1 w)).setWidth 32) else s.outside t (tokenAddr k)).advance t

/-- A write of 32 bits at offset `off` of token `k`'s slot: an arrive, a set, or nothing (R95). -/
def State.tokenSlotWrite (s : State) (k off : Nat) (v : W32) : State :=
  if off = 0 then s.arrive 4 k v.toNat else if off = 4 then s.sendSet 4 k v else s

/-- TOKEN_SLOT_ARRIVE (R95): SA firmware's write of width `w` to a token's ARRIVE; of another width than 32 it is refused. -/
def execTokenSlotArrive (k : Fin 16384) (w : Width) (v : W32) (s : State) : Res :=
  s.act <| if w = .w32 then s.tokenSlotWrite k 0 v else s.note 0 Ev.addrAccessClass [tokenAddr k]

/-- TOKEN_SLOT_SET (R95): a write to a token's SET. -/
def execTokenSlotSet (k : Fin 16384) (w : Width) (v : W32) (s : State) : Res :=
  s.act <| if w = .w32 then s.tokenSlotWrite k 4 v else s.note 0 Ev.addrAccessClass [tokenAddr k + 4]

/-- What SA firmware's 32-bit read of a token's slot returns (R95). -/
def State.tokenSlotRead (s : State) (k off : Nat) : Nat :=
  if off < 8 then (s.token k).val.toNat
  else if off < 12 then
    (s.tiles.filter fun p => (p.2.wait.bind (·.token)) = some k).length + 256 * b2n (s.token k).sat
  else 0

/-- Step 1 of R96 on token `k`: at most one set; of several, an unpredictable one. -/
def State.applySets (s : State) (k : Nat) (sets : List TokOp) : State :=
  match sets with
  | [] => s
  | [x] => s.setToken k { val := x.amount }
  | x :: _ =>
    let i := (Config.freeWord s.freeCtr).toNat % sets.length
    let s := s.withFreeCtr (s.freeCtr + 1)
    (s.setToken k { val := (sets.getD i x).amount }).noteP (cDie (k / 4096)) (partNum (s.partOfToken k)) Ev.tokenSetConflict [k]

/-- One arrive (R97). -/
def State.applyArrive (s : State) (k : Nat) (x : TokOp) : State :=
  let t := s.token k
  let v := t.val.toNat + x.amount.toNat
  if v < 2 ^ 32 then s.setToken k { t with val := BitVec.ofNat 32 v }
  else
    let s := s.setToken k { val := 0xFFFFFFFF, sat := true, logged := true }
    if t.logged then s else s.noteP (cDie (k / 4096)) (partNum (s.partOfToken k)) Ev.tokenSaturated [k]

/-- Tile `t`'s token comparison (R96, R102). -/
def State.compareWait (s : State) (t : Nat) : State :=
  s.updTile t fun x =>
    match x.wait with
    | none => x
    | some w =>
      match w.token with
      | none => x
      | some k =>
        if w.met = none ∧ w.outside = false ∧ s.tokenMeets k w.thresh = true then
          { x with wait := some { w with met := some (s.lctOf t, s.now) } }
        else x

/-- A token operation reaches C-die `c`, its token's: from the die itself, or from another through a J-die (R15). -/
def State.tokenReaches (s : State) (c : Nat) (x : TokOp) : Bool :=
  decide (x.token / 4096 = c) && s.ready (cDie c) && (decide (x.src = c) || s.someJunction)

/-- TOKEN_UPDATE_CYCLE (R15, R96, R97): one core cycle of C-die `c`: sets, then arrives, then the waiters' comparisons. -/
def execTokenUpdateCycle (c : Fin 4) (s : State) : Res :=
  s.act <|
    let ops := s.tokOps.filter (s.tokenReaches c)
    let s := s.withTokOps (s.tokOps.filter fun x => !s.tokenReaches c x)
    let s := if ops = [] then s else s.withRecent []
    let ks := (ops.map (·.token)).eraseDups
    let s := s.each (fun k s => s.applySets k (ops.filter fun x => x.token = k ∧ x.set = true)) ks
    let s := s.each (fun x s => if x.set then s else s.applyArrive x.token x) ops
    (s.each (fun p s => if p.1 / 192 = c.val then s.compareWait p.1 else s) s.tiles).noteBinds

/-! ## Waits (R99, R173, R174) -/

/-- The FTC at which a timeout of `n` frames ends; 0 names the quarter's default, 0xFFFF none (R99, R105). -/
def State.deadlineOf (s : State) (t n : Nat) : Option Nat :=
  if n = 0xFFFF then none
  else
    let d := s.rf (Reg.cnWaitLimit (t / 192) (t / 48 % 4)) 0 16
    some (s.now + 4096 * (if n ≠ 0 then n else if d = 0 ∨ d = 0xFFFF then 1 else d))

/-- The wait of WAITT and WAITPS on token `k` (R173): outside the partition it reads 0. -/
def State.tokenWait (s : State) (t k thresh : Nat) (deadline : Option Nat) : Wait :=
  let mine := s.tokenMine t k
  { token := some k, thresh := thresh, deadline := deadline, outside := !mine
    met := if (if mine then s.tokenMeets k thresh else thresh == 0) then some (s.lctOf t, s.now) else none }

/-- An access outside the partition is recorded at issue. -/
def State.noteOutside (s : State) (t k : Nat) : State := if s.tokenMine t k then s else s.outside t (tokenAddr k)

/-- The tile waits in `state`; the word retires when the wait ends. -/
def State.beginWait (s : State) (t state : Nat) (w : Wait) : State :=
  s.updTile t fun x => { x with state := state, wait := some w, retired := s.now }

/-- The wait of tile `t` ends and the next instruction may issue. -/
def State.endWait (s : State) (t : Nat) : State := (s.updTile t fun x => { x with state := 1, wait := none }).advance t

/-- WAITT (R26, R94, R99, R173). -/
def execWaitt (t : Fin 768) (w : W64) (s : State) : Res :=
  s.act <| s.issue t 0x98 w fun x s =>
    let k := tokenOf x w
    if k / 4096 ≠ t / 192 then s.tileFault t Ev.tokenWaitRemote [k]
    else (s.noteOutside t k).beginWait t 2 (s.tokenWait t k (fld (x.s (tRs1 w)) 0 32) (s.deadlineOf t (tTimeout w)))

/-- WAITF (R99, R173). -/
def execWaitf (t : Fin 768) (w : W64) (s : State) : Res :=
  s.act <| s.issue t 0x99 w fun x s => s.beginWait t 3 { ftc := some (x.s (tRs1 w)).toNat }

/-- FTC_WAIT_COMPLETE (R73, R99): on a core cycle at or after the count. -/
def execFtcWaitComplete (t : Fin 768) (s : State) : Res :=
  s.act <|
    let x := s.tile t
    match x.wait.bind (·.ftc) with
    | some n => if x.state = 3 ∧ n ≤ s.now ∧ s.coreRuns (t / 192) = true ∧ s.coreNow (t / 192) = true then s.endWait t else s
    | none => s

/-- TOKEN_WAIT_RESUME (R96): three core cycles after the comparison held. -/
def execTokenWaitResume (t : Fin 768) (s : State) : Res :=
  s.act <|
    let x := s.tile t
    match x.wait.bind (·.met) with
    | some (l, _) => if x.state = 2 ∧ l + 3 ≤ s.lctOf t then s.endWait t else s
    | none => s

/-- TOKEN_WAIT_TIMEOUT (R99, R104). -/
def execTokenWaitTimeout (t : Fin 768) (s : State) : Res :=
  s.act <|
    let x := s.tile t
    match x.wait with
    | some w =>
      match w.token, w.deadline with
      | some k, some d =>
        if x.state = 2 ∧ w.met = none ∧ d ≤ s.now then
          s.tileFault t Ev.tokenWaitTimeout [k, if w.outside then 0 else (s.token k).val.toNat, w.thresh]
        else s
      | _, _ => s
    | none => s

/-! ## Tile sleep (R101, R102, R174) -/

/-- WAITPS (R101, R102, R174). -/
def execWaitps (t : Fin 768) (w : W64) (s : State) : Res :=
  s.act <| s.issue t 0x9A w fun x s =>
    let k := tokenOf x w
    let deadline := s.deadlineOf t (tTimeout w)
    let ftc := if tFen w then some (x.s (tRs2 w)).toNat else none
    if x.pmode = 3 then s.tileFault t Ev.pmodeRange []
    else if tTen w = false then s.beginWait t 4 { ftc := ftc, deadline := deadline }
    else if k / 4096 ≠ t / 192 then s.tileFault t Ev.tokenWaitRemote [k]
    else (s.noteOutside t k).beginWait t 4 { s.tokenWait t k (fld (x.s (tRs1 w)) 0 32) deadline with ftc := ftc }

/-- Wake latency in ticks (R101): 4 core cycles in GATE. -/
def State.wakeLatency (s : State) (mode : Nat) : Nat :=
  match mode with
  | 0 => 2 * s.cycleHalves
  | 1 => 640
  | _ => 3125

/-- The tick at which a wake condition first held (R102), not before the tile entered its sleep. -/
def wakeTick (began now : Nat) (w : Wait) : Option Nat :=
  let c := (match w.met with | some (_, k) => [k] | none => []) ++ (w.ftc.toList) ++ (w.deadline.toList)
  (c.map fun k => Nat.max began k).foldl (fun a k =>
    if k ≤ now then (match a with | some b => some (Nat.min b k) | none => some k) else a) none

/-- What the mode loses reads as zero (R101). -/
def Tile.wokenFrom (x : Tile) (mode : Nat) : Tile :=
  if mode = 0 then x
  else if mode = 1 then { x with accs := [], mma := [] }
  else { x with accs := [], mma := [], vregs := [], laccs := [] }

/-- TILE_WAKE (R101, R102). -/
def execTileWake (t : Fin 768) (s : State) : Res :=
  s.act <|
    let x := s.tile t
    match x.wait.bind (wakeTick x.retired s.now) with
    | some k =>
      if x.state = 4 ∧ k + s.wakeLatency x.pmode ≤ s.now then (s.updTile t fun y => y.wokenFrom x.pmode).endWait t else s
    | none => s

end Sys2Proof.Machine
end

