-- ==== Sys2Proof/Machine/LockOps.lean ====
section
/-!
DEFINITION. The frame digests and train log of lock-step (R454, R455).
-/
namespace Sys2Proof.Machine
open Sys2Proof

/-- State of lock-step of partition `p`: 0 OFF, 1 ARMED, 2 COMPARING, 3 DIVERGED. -/
def State.lsState (s : State) (p : Nat) : Nat := s.rf (Reg.saLsStatus p) 0 2

/-- Frame index of a tick since the launch (R455). -/
def State.lsFrame (s : State) (p t : Nat) : Nat := (t - (s.part p).lastLaunch) / 4096

/-- The CRC register of a running digest, one cell on. -/
def crcCell (r : Nat) (data : Payload) : Nat :=
  crc32Go (if r = 0 then 0xFFFFFFFF else r - 1) (bytesLE 256 data.toNat) + 1

/-- The digest of a running CRC: 0 where nothing was taken in. -/
def crcDone (r : Nat) : Nat := if r = 0 then 0 else (r - 1) ^^^ 0xFFFFFFFF

/-- A cell of a train leaves port `p` for the first time: cell `i` of `nm1 + 1` of train `train` of partition `q` (R455). -/
def State.lsCell (s : State) (q p train i nm1 : Nat) (data : Payload) : State :=
  if s.lsState q = 0 then s
  else
    s.updLs q fun (x : LockStep) =>
      let z : Nat → Nat := fun _ => 0
      let r := crcCell (SMap.get z x.cur p) data
      let tr := crcCell (if i = 0 then 0 else SMap.get z x.curTrain p) data
      let x : LockStep := { x with cur := SMap.set z x.cur p r, curTrain := SMap.set z x.curTrain p (if i = nm1 then 0 else tr) }
      if i = nm1 then
        let mine : List LsTrain := x.trains.filter fun t => t.port = p
        let rest : List LsTrain := if 4096 ≤ mine.length then x.trains.erase (mine.headD ⟨p, 0, 0, 0, 0⟩) else x.trains
        { x with trains := rest ++ [⟨p, s.lsFrame q s.now, train, crcDone tr, nm1⟩] }
      else x

/-- A launch of partition `q` (R454, R459): the latches and counters are cleared, and LS_CTRL takes effect. -/
def State.lsLaunch (s : State) (q : Nat) : State :=
  let c := s.r (Reg.saLsCtrl q)
  let s := s.setLs q { ctrl := c }
  let s := s.w (Reg.saLsStatus q) (BitVec.ofNat 64 (b2n (bitAt c 0)))
  (((s.w (Reg.saLsGaps q) 0).w (Reg.saLsDivFrame q) 0).w (Reg.saLsDivInfo q) 0).w (Reg.saLsDivCrc q) 0

end Sys2Proof.Machine
end

