-- ==== Sys2Proof/Machine/LinkTx.lean ====
section
/-!
DEFINITION. The transmit side of a port: one cell per tick (R181, R184 to R191, R277, R278, R284 to R288, R296, R299, R333,
R334, R336, R342).
-/
namespace Sys2Proof.Machine
open Sys2Proof

/-! ## Signal cells -/

/-- Body of an IDENTITY newt (R299). -/
def State.identityBody (s : State) (p : Nat) : Nat :=
  atByte 0 4 (s.rf (Reg.lnFabricId p) 0 32) + atByte 4 8 (s.r Reg.saModuleSerial).toNat + atByte 12 2 s.coords +
    atByte 14 2 s.modNum + atByte 16 1 p + atByte 17 1 (s.rf (Reg.lnLinkStatus p) 4 3) +
    atByte 18 2 (s.rf (Reg.lnLevels p) 0 16) + atByte 20 2 1 + atByte 22 4 (s.rf Reg.saFwVersion 0 32) +
    atByte 26 8 (s.r (Reg.lnCableId p)).toNat + atByte 34 1 (s.rf (Reg.lnCableInfo p) 0 3)

/-- IDENTITY is due in this signal slot (R299, R34). -/
def State.identityDue (s : State) (p : Nat) : Bool :=
  bitAt (s.r Reg.saFabricPosition) 31 && (s.linkState p == 2 || s.linkState p == 3 || s.now % 65536 == 32831)

/-- The LANE_CTRL newt due, and the state after it (R293): answers go first; a request's period is chosen now. DESIGN CHOICE: a request
that neither CONFIRM nor REFUSE answers is not repeated (log 107). -/
def State.laneNewt (s : State) (p : Nat) : List Newt × State :=
  let x := s.port p
  match x.laneAnswers, x.rxSwap with
  | n :: ns, _ => ([n], s.setPort p { x with laneAnswers := ns })
  | [], some w =>
    if w.asked then ([], s)
    else
      let k := (s.now + s.rttEst p + 250 + s.fecPeriod p - 1) / s.fecPeriod p
      let w := { w with asked := true, at_ := k * s.fecPeriod p, seq := x.laneSeq }
      let body := atByte 0 1 1 + atByte 1 1 w.lane + atByte 2 1 w.spare + atByte 4 2 k + atByte 6 2 x.laneSeq
      ([newtOf 3 0 0 0 0 0 0 body], s.setPort p { x with rxSwap := some w, laneSeq := (x.laneSeq + 1) % 65536 })
  | [], none => ([], s)

/-- Body of a CREDIT newt (R333). -/
def State.creditBody (s : State) (p : Nat) : Nat :=
  let x := s.port p
  atByte 0 2 (x.freedAt.getD 0 0) + atByte 2 2 (x.freedAt.getD 1 0) + atByte 4 2 (x.freedAt.getD 2 0) +
    atByte 6 2 (x.freedAt.getD 3 0) + atByte 8 1 (b2n (!x.poolOn))

/-- LSEQs missing at the receive side of port `p` (R284). -/
def State.missing (s : State) (p : Nat) : List Nat :=
  let x := s.port p
  ((List.range (seqDiff x.high x.next)).map fun i => (x.next + i) % seqMod).filter fun l => !x.got.contains l

/-- Runs of consecutive LSEQs of at most 8, as (first, length). -/
def runsOf : List Nat → List (Nat × Nat)
  | [] => []
  | x :: xs =>
    match runsOf xs with
    | (f, n) :: rest => if f = (x + 1) % seqMod then (x, n + 1) :: rest else (x, 1) :: (f, n) :: rest
    | [] => [(x, 1)]

/-- Parts of 8. -/
def partsOf8 (r : Nat × Nat) : List (Nat × Nat) :=
  (List.range ((r.2 + 7) / 8)).map fun i => ((r.1 + 8 * i) % seqMod, Nat.min 8 (r.2 - 8 * i))

/-- The run that this signal cell names, if any (R284). -/
def State.nakRun (s : State) (p : Nat) : Option (Nat × Nat) :=
  let x := s.port p
  ((runsOf x.missAt).flatMap partsOf8).find? fun r =>
    match x.named.find? (fun k => k.1 == r.1) with
    | some k => decide (k.2 + s.rttEst p ≤ s.clk)
    | none => true

/-- The snapshot of 16 ticks before the signal slot (R282, R284, R333). -/
def State.snapRx (s : State) (p : Nat) : State :=
  let m := s.missing p
  s.updPort p fun x => { x with nextAt := x.next, missAt := m, freedAt := x.localFreed }

/-- The signal cell of this slot (R184, R277, R282, R284, R342). -/
def State.txSignal (s : State) (p : Nat) : Cell × State :=
  let s := s.judgePool p
  let isUp := s.linkState p = 4
  let timeN := (s.port p).newtsLocal
  let s := s.updPort p fun x => { x with newtsLocal := [] }
  let lane := s.laneNewt p
  let s := lane.2
  let ident := if s.identityDue p then [newtOf 2 0 0 0 0 0 0 (s.identityBody p)] else []
  let credit := if isUp then [newtOf 4 0 0 0 0 0 0 (s.creditBody p)] else []
  let head := (timeN ++ lane.1 ++ ident ++ credit).take 4
  let x := s.port p
  let r1 := if isUp then 4 - head.length else 0
  let a := x.newtsStop.take r1
  let b := x.newtsBcast.take (r1 - a.length)
  let c := x.newtsRouted.take (r1 - a.length - b.length)
  let ns := head ++ a ++ b ++ c
  let nak := if isUp then s.nakRun p else none
  let ack := if isUp then x.nextAt % seqMod else 0
  let tag := 2 * 2 ^ 38 + ns.length * 2 ^ 35 + ack * 2 ^ 16 +
    (match nak with
      | some r => 2 ^ 34 + seqDiff r.1 ack % 8192 * 2 ^ 3 + (r.2 - 1)
      | none => 0)
  let s := s.updPort p fun x => { x with
    newtsStop := x.newtsStop.drop a.length
    newtsBcast := x.newtsBcast.drop b.length
    newtsRouted := x.newtsRouted.drop c.length
    named := match nak with
      | some r =>
        let ls := (List.range r.2).map fun i => (r.1 + i) % seqMod
        ls.map (fun l => (l, s.clk)) ++ x.named.filter fun k => !ls.contains k.1 && x.missAt.contains k.1
      | none => x.named }
  let s := if nak = none then s else s.inc (Reg.lnNakSent p)
  (sealCell (packLE 512 (ns.map (·.toNat))) tag, s)

/-! ## Booking and free positions -/

/-- A new cell of CLASS 00 or 01 takes the next LSEQ and a place in the replay buffer (R279). -/
def State.sendNew (s : State) (p payload tagHi : Nat) : Cell × State :=
  let x := s.port p
  let c := sealCell payload (tagHi + x.nextTx * 2 ^ 16)
  (c, s.setPort p { x with nextTx := (x.nextTx + 1) % seqMod, replay := x.replay ++ [{ lseq := x.nextTx, cell := c, last := s.clk }] })

/-- Permission code of departure slot `k` (R209, R210). -/
def State.permitDep (s : State) (p k : Nat) : Nat := s.rf (Reg.lnPermitDep p (k % 4096 / 4)) (8 * (k % 4)) 5
def State.permitArr (s : State) (p k : Nat) : Nat := s.rf (Reg.lnPermitArr p (k % 4096 / 4)) (8 * (k % 4)) 5

/-- A timetabled cell that may not depart (R191). -/
def State.departDenied (s : State) (p : Nat) (d : Depart) : State :=
  let s := s.inc (Reg.lnDepartDenied p)
  let items := [p, d.tick, d.owner]
  if d.owner ≤ 16 then s.fail (lDie p) (d.owner - 1) Ev.departNotPermitted items else s.note (lDie p) Ev.departNotPermitted items

/-- The cell of a train that departs now (R184, R187, R191, R287, R296), or none where the position is idle. -/
def State.txTrain (s : State) (p : Nat) : Option Cell × State :=
  let x := s.port p
  let s := s.setPort p { x with departs := x.departs.filter fun d => s.now < d.tick }
  match x.departs.find? (fun d => d.tick == s.now) with
  | none => (none, s)
  | some d =>
    match d.data with
    | none => (none, s)
    | some data =>
      if s.portHalf p ≠ s.bankHalf p (s.bankActive p) then (none, s)
      else if s.permitDep p s.now ≠ d.owner then (none, s.departDenied p d)
      else if 8192 ≤ x.replay.length then
        (none, (s.inc (Reg.lnReplayBufFull p)).noteMs (lDie p) Ev.replayBufFull [p] p)
      else
        let r := s.sendNew p data.toNat (trainCheck d.i d.train (s.bankActive p)).toNat
        let s := if d.i = 0 then
            r.2.tracePort p 0 (traceRec s.now 3 0 (lDie p) d.owner (p + d.nm1 * 65536)
              (d.train + b2n (s.bankActive p) * 2 ^ 20 + x.nextTx * 2 ^ 32))
          else r.2
        let s := if d.owner ≤ 16 then s.lsCell (d.owner - 1) p d.train d.i d.nm1 data else s
        (some r.1, s)

/-- The oldest replay that is due (R185, R205, R286). -/
def State.txReplay (s : State) (p : Nat) : Option Cell × State :=
  match (s.port p).replay.find? (fun x => match x.due with | some k => decide (k ≤ s.clk) | none => false) with
  | none => (none, s)
  | some x =>
    let s := s.updPort p fun y => { y with replay := y.replay.map fun z =>
      if z.lseq = x.lseq then { z with last := s.clk, replays := z.replays + 1, due := none, timed := false } else z }
    (some x.cell, s.inc (Reg.lnReplays p))

/-- A packet on VC `v` may be sent (R334): in the peer's pool, or in a dedicated buffer. -/
def State.creditOk (s : State) (p v : Nat) : Bool :=
  !bitAt (s.r (Reg.lnUschedStatus p)) 1 ||
    decide ((s.rf (Reg.lnCredit p v) 0 16 + 65536 - s.rf (Reg.lnCredit p v) 16 16) % 65536 < 256)

/-- How long VC `v` has held a cell without sending (R337). -/
def State.vcWait (s : State) (p v : Nat) : Option Nat :=
  let x := s.port p
  match x.uout.filter fun q => q.vc = v with
  | [] => none
  | q :: qs => some (s.clk - Nat.max (x.lastSent.getD v 0) (qs.foldl (fun a z => Nat.min a z.since) q.since))

/-- How long VC `v` has held a cell that may be sent without sending (R336). -/
def State.vcReady (s : State) (p v : Nat) : Option Nat :=
  if s.creditOk p v then (s.vcWait p v).map fun k => Nat.min k (s.clk - (s.port p).credAt.getD v 0) else none

/-- The VC among `ready` that has waited longest, of those that have waited 4,096 ticks (R336). -/
def longest (wait : Nat → Option Nat) (ready : List Nat) : Option Nat :=
  match ready.filter fun v => match wait v with | some k => decide (4096 ≤ k) | none => false with
  | v :: vs => some (vs.foldl (fun a b => if (wait a).getD 0 < (wait b).getD 0 then b else a) v)
  | [] => ready.head?

/-- The VC chosen (R336): one that has waited, else the highest. -/
def State.pickVc (s : State) (p : Nat) : Option Nat :=
  longest (s.vcReady p) ([3, 2, 1, 0].filter fun v => (s.vcReady p v).isSome)

/-- Packets of port `p`'s outbound queue past their lifetime are discarded (R331). -/
def State.dropExpired (s : State) (p : Nat) : State :=
  let old := (s.port p).uout.filter fun q => s.packetOld q.cell
  let s := s.updPort p fun x => { x with uout := x.uout.filter fun q => !s.packetOld q.cell }
  s.each (fun _ t => (t.inc (Reg.lnPktExpired p)).noteMs (lDie p) Ev.pktExpired [p] p) old

/-- The unscheduled cell for this position (R312, R334, R336). -/
def State.txPacket (s : State) (p : Nat) : Option Cell × State :=
  let s := s.dropExpired p
  let x := s.port p
  if 8192 ≤ x.replay.length then (none, s)
  else
    match s.pickVc p with
    | none => (none, s)
    | some v =>
      let mine := x.uout.filter fun q => q.vc = v
      let order := fun (k : Nat) => (k + 6 - x.turn.getD v 6) % 7
      match mine with
      | [] => (none, s)
      | q0 :: qs =>
        let q := qs.foldl (fun a b => if order b.src < order a.src then b else a) q0
        let pooled := !bitAt (s.r (Reg.lnUschedStatus p)) 1
        let s := s.setPort p { x with uout := x.uout.erase q, turn := x.turn.set v q.src, lastSent := x.lastSent.set v s.clk
                                      stalled := x.stalled.set v false }
        let k := Reg.lnCredit p v
        let s := if pooled then s else s.wf k 0 16 (s.rf k 0 16 + 1)
        let r := s.sendNew p (fld q.cell 0 2048) (2 ^ 38 + v * 2 ^ 35 + cellEpoch q.cell * 2 ^ 34 + b2n pooled * 2 ^ 15)
        (some r.1, r.2)

/-- What a position carries when no train's cell takes it. -/
def State.txFill (s : State) (p : Nat) : Cell × State :=
  match s.txReplay p with
  | (some c, s) => (c, s)
  | (none, s) =>
    match s.txPacket p with
    | (some c, s) => (c, s)
    | (none, s) => (sealCell 0 (3 * 2 ^ 38 + (s.port p).nextTx * 2 ^ 16), s)

/-- The cell leaves the port, and is counted by its class (R543). -/
def emit (p : Nat) (r : Cell × State) : State :=
  (r.2.updPort p fun x => { x with txLast := some r.1, line := x.line.putCell r.1 }).add64 (Reg.lnTxCells p (cellClass r.1)) 1

/-- What a port's lanes do at this tick beside its cells (R271, R273, R298): in TRAINING the training frames of the 34 lanes, and
from IDENTIFY on a period's markers. -/
def State.txLine (s : State) (p : Nat) : State :=
  if s.linkState p = 1 then
    (if s.now % 125 = 0 then s.updPort p fun x => { x with line := { x.line with train := match x.train with
        | some t => t.frames (s.now / 125)
        | none => [] } } else s)
  else if 2 ≤ s.linkState p ∧ s.now % s.fecPeriod p = 0 then s.startPeriod p
  else s

/-- PORT_TX_TICK (R181, R184, R214, R271 to R273, R295, R297, R298): the cell of this tick. -/
def execPortTxTick (p : Fin 6) (s : State) : Res :=
  s.act <|
    let o := s.now % 64
    let st := s.linkState p
    let half := s.portHalf p
    let s := (if o = 47 then s.snapRx p else s).txLine p
    if st ≠ 2 ∧ st ≠ 3 ∧ st ≠ 4 then s
    else if o = 63 then emit p (s.txSignal p)
    else if half = true ∧ (o % 2 = 1 ∨ o = 62) then s
    else if st ≠ 4 then emit p (sealCell 0 (3 * 2 ^ 38), s)
    else if o < 60 then
      match s.txTrain p with
      | (some c, s') => emit p (c, s')
      | (none, s') => emit p (s'.txFill p)
    else emit p (s.txFill p)

/-- REPLAY_TIMEOUT (R285, R286, R288): the timer of the cell at OLDEST. -/
def execReplayTimeout (p : Fin 6) (s : State) : Res :=
  s.act <|
    if s.linkState p ≠ 4 then s
    else
      match (s.port p).replay with
      | [] => s
      | x :: _ =>
        if x.last + s.replayTimer p ≤ s.clk ∧ x.timed = false then
          ((s.inc (Reg.lnReplayTimeouts p)).updPort p fun y => { y with replay := y.replay.map fun z =>
            if z.lseq = x.lseq then { z with timed := true } else z }).trigger p x.lseq
        else s

/-- UNSCHED_STALL (R337): VC `v` of port `p`. -/
def State.stallVc (s : State) (p v : Nat) : State :=
  let x := s.port p
  let l := s.rf (Reg.lnProgressLimit p) 0 32
  let lim := if 3000000 < l then 3000000 else if l < 3125 then 3125 else l
  match s.vcWait p v with
  | some k =>
    if lim ≤ k ∧ x.stalled.getD v false = false then
      let c := Reg.lnCredit p v
      ((s.updPort p fun y => { y with stalled := y.stalled.set v true }).inc (Reg.lnUnschedStalls p)).note (lDie p) Ev.unschedStall
        [p, v, s.rf c 0 16, s.rf c 16 16, b2n (bitAt (s.r (Reg.lnUschedStatus p)) 1)]
    else s
  | none => s

end Sys2Proof.Machine
end

