-- ==== Sys2Proof/Machine/Unroll.lean ====
section
/-!
DEFINITION. What a loaded program books: its loops unrolled as the loader checks them, and the cells of its trains and
CONNECTs (R182, R218 to R223, R239, R251).  Ticks count from a restart at tick `restartAt`.
-/
namespace Sys2Proof.Machine
open Sys2Proof

/-- The tick programs are unrolled from: a multiple of 4,096 beyond every look-back. -/
def restartAt : Nat := 1048576

/-- A program as a tree of loops; each entry with its index in the bank. -/
inductive Node where
  | one (idx : Nat) (e : BitVec 256)
  | loop (idx : Nat) (e : BitVec 256) (endIdx : Nat) (close : BitVec 256) (body : List Node)

/-- One execution of an entry: its index, its tick (B for a control entry, R224) and the COUNT and PERIOD of the loops it stands
in, outermost first. -/
structure Booked where
  idx : Nat
  e : BitVec 256
  tick : Nat
  loops : List (Nat × Nat)
deriving DecidableEq, Repr

/-- The tree of a list of entries; none where its loops do not match or nest deeper than 4 (R251). -/
def parse : List (Nat × BitVec 256) → List (Nat × BitVec 256 × List Node) → List Node → Option (List Node)
  | [], [], acc => some acc.reverse
  | [], _ :: _, _ => none
  | x :: xs, st, acc =>
    if eType x.2 = 9 then (if st.length < 4 then parse xs ((x.1, x.2, acc) :: st) [] else none)
    else if eType x.2 = 0xA then
      match st with
      | [] => none
      | t :: rest => parse xs rest (.loop t.1 t.2.1 x.1 x.2 acc.reverse :: t.2.2)
    else parse xs st (.one x.1 x.2 :: acc)

/-- The first entry at which the loops break (TT_LOOP_NEST). -/
def nestFail : List (Nat × BitVec 256) → Nat → Nat → Option Nat
  | [], 0, _ => none
  | [], _ + 1, last => some last
  | x :: xs, d, _ =>
    if eType x.2 = 9 then (if d < 4 then nestFail xs (d + 1) x.1 else some x.1)
    else if eType x.2 = 0xA then (if d = 0 then some x.1 else nestFail xs (d - 1) x.1)
    else nestFail xs d x.1

/-- A run of the unrolling: base tick, whether the walker has parked or cannot go on, and what was executed, latest first. -/
structure Run where
  base : Nat
  stop : Bool := false
  park : Option Nat := none
  out : List Booked := []

def Run.push (r : Run) (idx : Nat) (e : BitVec 256) (tick : Nat) (ls : List (Nat × Nat)) : Run :=
  { r with out := ⟨idx, e, tick, ls⟩ :: r.out }

/-- `f` applied `n` times. -/
def repeatN (f : α → α) : Nat → α → α
  | 0, a => a
  | n + 1, a => repeatN f n (f a)

/-- Iterations of a loop that the loader checks (R251; log 46). -/
def checkedIters (count period : Nat) : Nat :=
  let cap := 64 + 65536 / Nat.max period 64
  if count = 0 then cap else Nat.min count cap

mutual
/-- Execute one node (R223). -/
def Node.run (ls : List (Nat × Nat)) : Node → Run → Run
  | .one i e, r =>
    if r.stop then r
    else if eType e = 8 then { r.push i e r.base ls with base := r.base + ePeriod e }
    else if eType e = 0xB ∧ bitAt e 33 = false then { r.push i e (r.base + eAt e) ls with stop := true, park := some (r.base + eAt e) }
    else r.push i e (r.base + eAt e) ls
  | .loop i b j c body, r =>
    if r.stop then r
    else
      let count := eAt b
      let n := checkedIters count (ePeriod c)
      let r0 := r.push i b r.base ls
      let step (r : Run) : Run :=
        let r := Node.runs (ls ++ [(count, ePeriod c)]) body r
        if r.stop then r else { r.push j c r.base ls with base := r.base + ePeriod c }
      let r1 := repeatN step n r0
      if r1.stop then r1
      else if count = 0 then { r1 with stop := true }
      else { r1 with base := r1.base + (count - n) * ((r1.base - r0.base) / n) }
/-- Execute a list of nodes. -/
def Node.runs (ls : List (Nat × Nat)) : List Node → Run → Run
  | [], r => r
  | x :: xs, r => Node.runs ls xs (Node.run ls x r)
end

/-- The entries of a program with their indexes: `n` from index `i` of bank `b` of unit `u`. -/
def State.entriesFrom (s : State) (u : Nat) (b : Bool) (i n : Nat) : List (Nat × BitVec 256) :=
  (List.range n).map fun k => (i + k, s.entry u b (i + k))

/-- The program of kind `kind` of owner `o`. -/
def State.program (s : State) (u : Nat) (b : Bool) (o kind : Nat) : List (Nat × BitVec 256) :=
  let d := s.segDesc u b o
  s.entriesFrom u b (sdBase d kind) (sdLen d kind)

/-- Where context `c` of owner `o` starts in its program (R219). -/
def State.ctxStart (s : State) (u : Nat) (b : Bool) (o kind c : Nat) : Nat :=
  let e := s.entry u b (sdCtxBase (s.segDesc u b o) + c)
  if kind = 1 then fld e 18 18 else fld e 0 18

/-- The run of context `c` of a program from base tick `x`, in execution order. -/
def State.runOf (s : State) (u : Nat) (b : Bool) (o kind c x : Nat) : Run :=
  match parse ((s.program u b o kind).drop (s.ctxStart u b o kind c)) [] [] with
  | none => { base := x, stop := true }
  | some ns =>
    let r := Node.runs [] ns { base := x }
    { r with out := r.out.reverse }

/-- One context of one program of one owner. -/
structure Prog where
  owner : Nat
  kind : Nat
  ctx : Nat
  run : Run

/-- Owners whose segment is valid in a bank. -/
def State.owners (s : State) (u : Nat) (b : Bool) : List Nat :=
  ((List.range 32).drop 1).filter fun o => sdValid (s.segDesc u b o)

/-- Every context of every program of a bank. -/
def State.progs (s : State) (u : Nat) (b : Bool) : List Prog :=
  (s.owners u b).flatMap fun o =>
    let d := s.segDesc u b o
    (List.range (sdNctx d)).flatMap fun c =>
      (if u < 6 then [0, 1] else [0]).filterMap fun k =>
        if sdLen d k = 0 then none else some ⟨o, k, c, s.runOf u b o k c restartAt⟩

/-- A cell that a program books: departure ticks are the sender's for an arrival. -/
structure Slot where
  owner : Nat
  ctx : Nat
  idx : Nat
  i : Nat
  tick : Nat
  d0 : Nat
  e : BitVec 256
  loops : List (Nat × Nat)
deriving DecidableEq, Repr

/-- The cells of the trains of one program. -/
def Prog.cells (half : Bool) (p : Prog) : List Slot :=
  (p.run.out.filter fun x => 1 ≤ eType x.e && decide (eType x.e ≤ 4)).flatMap fun x =>
    (List.range (eNm1 x.e + 1)).map fun i => ⟨p.owner, p.ctx, x.idx, i, cellTick half x.tick i, x.tick, x.e, x.loops⟩

/-- The cells of the CONNECT entries of one junction program, by junction slot (R239). -/
def Prog.connects (p : Prog) : List Slot :=
  (p.run.out.filter fun x => eType x.e == 5).flatMap fun x =>
    (List.range (eNm1 x.e + 1)).map fun i => ⟨p.owner, p.ctx, x.idx, i, x.tick + 2 * cnStride x.e * i, x.tick, x.e, x.loops⟩

/-- Two cells meet at one tick: of one owner at equal ticks from its restart, of different owners at equal ticks within the
frame (R182, R241). -/
def Slot.meets (a b : Slot) : Bool :=
  if a.owner = b.owner then a.ctx == b.ctx && a.tick == b.tick else a.tick % 4096 == b.tick % 4096

/-- The least index among the elements that satisfy `f`. -/
def leastIdx (f : Slot → Bool) (xs : List Slot) : Option Nat :=
  (xs.filter f).foldl (fun (m : Option Nat) x => match m with
    | none => some x.idx
    | some k => some (Nat.min k x.idx)) none

/-- The bank of a unit that a load concerns: the standby bank while it is LOADING, otherwise the active one. -/
def State.bankFor (s : State) (u : Nat) : Bool := if s.bankStandby u = 2 then !s.bankActive u else s.bankActive u

end Sys2Proof.Machine
end

