-- ==== Sys2Proof/Machine/Checks.lean ====
section
/-!
DEFINITION. The load-time checks of one timetable or junction bank that look at that bank alone (R251, up to
TT_TOKEN_REMOTE).  Every check answers the index of the first entry that fails it.
-/
namespace Sys2Proof.Machine
open Sys2Proof

/-- The least of a list. -/
def least : List Nat → Option Nat
  | [] => none
  | x :: xs => match least xs with
    | none => some x
    | some y => some (Nat.min x y)

/-- The first failing check of a list of (code, failing entry). -/
def firstFail : List (Nat × Option Nat) → Option (Nat × Nat)
  | [] => none
  | (c, some i) :: _ => some (c, i)
  | (_, none) :: xs => firstFail xs

/-- Some element paired with a later one satisfies `f`: the indexes `g` gives such pairs. -/
def pairFails (f : α → α → Bool) (g : α → Nat) : List α → List Nat
  | [] => []
  | x :: xs => ((xs.filter (f x)).flatMap fun y => [g x, g y]) ++ pairFails f g xs

/-- Entries in a bank of unit `u` (R216, R350). -/
def bankCap (u : Nat) : Nat := if u < 6 then 262144 else if u < 10 then 65536 else 16384

/-- An entry of a program, with its owner, its program's kind and its index in the bank. -/
structure Item where
  owner : Nat
  kind : Nat
  idx : Nat
  e : BitVec 256

/-- Every entry of every program of a bank. -/
def State.items (s : State) (u : Nat) (b : Bool) : List Item :=
  (s.owners u b).flatMap fun o =>
    (if u < 6 then [0, 1] else [0]).flatMap fun k => (s.program u b o k).map fun x => ⟨o, k, x.1, x.2⟩

/-- The first item that satisfies `f`. -/
def leastItem (f : Item → Bool) (xs : List Item) : Option Nat := least ((xs.filter f).map fun x => x.idx)

/-! ## Format and layout -/

/-- TT_FORMAT: the header's version and kind (R217). -/
def State.checkFormat (s : State) (u : Nat) (b : Bool) : Option Nat :=
  let h := s.entry u b 0
  if fld h 0 16 = 1 ∧ bitAt h 17 = (decide (6 ≤ u) && decide (u < 10)) then none else some 0

/-- The ranges of a segment: its context table and its programs (R220). -/
def State.ranges (s : State) (u : Nat) (b : Bool) (o : Nat) : List (Nat × Nat) :=
  let d := s.segDesc u b o
  ((sdCtxBase d, sdNctx d) :: (if u < 6 then [0, 1] else [0]).map fun k => (sdBase d k, sdLen d k)).filter fun r => r.2 ≠ 0

/-- TT_SEGMENT_LAYOUT: ranges at or above entry 32, inside the bank, none overlapping another (R220). -/
def State.checkLayout (s : State) (u : Nat) (b : Bool) : Option Nat :=
  let rs : List (Nat × Nat × Nat) := (s.owners u b).flatMap fun o => (s.ranges u b o).map fun r => (o, r.1, r.2)
  least (((rs.filter fun r => r.2.1 < 32 ∨ bankCap u < r.2.1 + r.2.2).map fun r => r.1) ++
    pairFails (fun (x y : Nat × Nat × Nat) => decide (x.2.1 < y.2.1 + y.2.2) && decide (y.2.1 < x.2.1 + x.2.2)) (fun x => x.1) rs)

/-! ## Reserved fields -/

/-- C-die of a lane code of R238. -/
def laneDie (c : Nat) : Nat := c / 5

/-- A CONNECT within its ranges (R238, R239). -/
def connectOk (e : BitVec 256) : Bool :=
  let a := cnSrc e
  let c := cnDst e
  eAt e % 2 == 0 && decide (a < 0x1A) && decide (c < 0x1A) && !(decide (a < 0x14) && decide (c < 0x14) && laneDie a == laneDie c) &&
    fld e 61 3 == 0 && decide (1 ≤ cnStride e) && fld e 72 56 == 0

/-- An inbound half within its ranges (R232). -/
def inboundOk (u : Nat) (e : BitVec 256) : Bool :=
  decide (paPort e ≤ 5) && paPort e != u &&
    (if paDrop e then decide (paTile e < 768) else eAddr e == 0 && paTile e == 0 && paToken e == 0 && paAmount e == 0)

/-- A control entry or MARK has zero in its reserved bits and its fields in range (R234). -/
def controlOk (e : BitVec 256) : Bool :=
  match eType e with
  | 8 => fld e 48 80 == 0
  | 9 => fld e 33 95 == 0
  | 0xA => fld e 48 80 == 0 && ePeriod e != 0
  | 0xB => fld e 34 94 == 0
  | 0xC => fld e 33 31 == 0 && fld e 111 17 == 0
  | _ => false

/-- TYPE is not reserved, reserved fields are 0 and fields lie in their ranges (R227 to R234, R239). -/
def entryOk (u kind : Nat) (e : BitVec 256) : Bool :=
  match eType e with
  | 1 => decide (dpTile e < 768)
  | 2 => decide (dpTile e < 768) && fld e 124 4 == 0
  | 3 => if kind = 1 then inboundOk u e else decide (paPort e ≤ 5) && fld e 87 41 == 0 && eAddr e == 0
  | 4 => decide (dpTile e < 768) && (decide (rdPort e ≤ 5) || rdPort e == 7) && !bitAt e 127
  | 5 => connectOk e
  | _ => controlOk e

/-- A segment descriptor within its ranges (R218); `ncol` programs: 2 in a port bank. -/
def descOk (u : Nat) (d : BitVec 256) : Bool :=
  decide (1 ≤ sdNctx d) && decide (sdNctx d ≤ 64) && decide (sdStart d < 64) && fld d 103 24 == 0 &&
    (decide (u < 6) || (fld d 36 36 == 0)) && (decide (u < 10) || fld d 128 128 == 0)

/-- A context table entry within its ranges (R219). -/
def ctxOk (u : Nat) (e : BitVec 256) : Bool := fld e 36 220 == 0 && (decide (u < 6) || fld e 18 18 == 0)

/-- Some STREAM entry of owner `o`, in the stream banks that the load concerns, crosses in the direction of CONNECT `e` (R359). -/
def State.streamCrosses (s : State) (o : Nat) (e : BitVec 256) : Bool :=
  (List.range 16).any fun m => (s.program (10 + m) (s.bankFor (10 + m)) o 0).any fun x =>
    eType x.2 == 1 && (crossDirs m x.2).contains (laneDie (cnSrc e), laneDie (cnDst e))

/-- A CONNECT between two C-dies books cells for crossing streams (R239). -/
def State.connectUsed (s : State) (o : Nat) (e : BitVec 256) : Bool :=
  eType e != 5 || decide (0x14 ≤ cnSrc e) || decide (0x14 ≤ cnDst e) || s.streamCrosses o e

/-- Descriptors and context entries of a bank that break their ranges. -/
def State.badTables (s : State) (u : Nat) (b : Bool) : List Nat :=
  (s.owners u b).flatMap fun o =>
    let d := s.segDesc u b o
    (if descOk u d then [] else [o]) ++
      ((List.range (sdNctx d)).map fun c => sdCtxBase d + c).filter fun i => !ctxOk u (s.entry u b i)

/-- TT_ENTRY_RESERVED (R217 to R219, R227 to R239). -/
def State.checkReserved (s : State) (u : Nat) (b : Bool) : Option Nat :=
  least ((if fld (s.entry u b 0) 18 110 = 0 ∧ (u < 6 ∨ bitAt (s.entry u b 0) 16 = false) then [] else [0]) ++
    s.badTables u b ++ ((s.items u b).filter fun x => !(entryOk u x.kind x.e && s.connectUsed x.owner x.e)).map fun x => x.idx)

/-- A program that R227 lets hold this TYPE. -/
def typeInProgram (u kind t : Nat) : Bool :=
  if 8 ≤ t then true
  else if 10 ≤ u then t == 1
  else if 6 ≤ u then t == 5
  else if kind = 0 then t == 1 || t == 3 else t == 2 || t == 3 || t == 4

/-- TT_WRONG_PROGRAM. -/
def State.checkProgram (s : State) (u : Nat) (b : Bool) : Option Nat :=
  leastItem (fun x => !typeInProgram u x.kind (eType x.e)) (s.items u b)

/-- TT_OWNER. -/
def State.checkOwner (s : State) (u : Nat) (b : Bool) : Option Nat := leastItem (fun x => eOwner x.e != x.owner) (s.items u b)

/-! ## Loops, ends and reading -/

/-- Every program of a bank, by owner and kind. -/
def State.programs (s : State) (u : Nat) (b : Bool) : List (Nat × Nat × List (Nat × BitVec 256)) :=
  (s.owners u b).flatMap fun o => ((if u < 6 then [0, 1] else [0]).map fun k => (o, k, s.program u b o k)).filter
    fun (x : Nat × Nat × List (Nat × BitVec 256)) => x.2.2 ≠ []

/-- TT_LOOP_NEST: the program from its first entry and from each context's start. -/
def State.checkNest (s : State) (u : Nat) (b : Bool) : Option Nat :=
  least ((s.programs u b).flatMap fun x =>
    let starts := (List.range (sdNctx (s.segDesc u b x.1))).map fun c => s.ctxStart u b x.1 x.2.1 c
    (0 :: starts).flatMap fun n => (nestFail (x.2.2.drop n) 0 0).toList)

mutual
/-- The ticks of a node's entries, each at its first execution, and the base after it (R223). -/
def Node.ticks : Node → Nat → List Nat × Nat
  | .one _ e, t => if eType e = 8 then ([t], t + ePeriod e) else ([t + eAt e], t)
  | .loop _ e _ c body, t =>
    let r := Node.listTicks body t
    (t :: r.1 ++ [r.2], t + eAt e * (r.2 - t + ePeriod c))
def Node.listTicks : List Node → Nat → List Nat × Nat
  | [], t => ([], t)
  | x :: xs, t =>
    let r := Node.ticks x t
    let q := Node.listTicks xs r.2
    (r.1 ++ q.1, q.2)
end

/-- The largest and least of a list differ by more than 65,536. -/
def wide (xs : List Nat) : Bool :=
  match least xs with
  | none => false
  | some m => decide (65536 < xs.foldl Nat.max 0 - m)

mutual
/-- Loops whose body's entries span more than 65,536 ticks. -/
def Node.wideLoops : Node → List Nat
  | .one _ _ => []
  | .loop i _ _ _ body => (if wide (Node.listTicks body 0).1 then [i] else []) ++ Node.listWide body
def Node.listWide : List Node → List Nat
  | [] => []
  | x :: xs => Node.wideLoops x ++ Node.listWide xs
end

/-- TT_LOOP_PERIOD. -/
def State.checkPeriod (s : State) (u : Nat) (b : Bool) : Option Nat :=
  least (((s.items u b).filter fun x => (eType x.e == 8 || eType x.e == 0xA) && ePeriod x.e % 64 != 0).map (fun x => x.idx) ++
    (s.programs u b).flatMap fun x => match parse x.2.2 [] [] with
      | none => []
      | some ns => Node.listWide ns)

/-- TT_NO_END (R225): the last entry parks, and every context starts inside the program. -/
def State.checkEnd (s : State) (u : Nat) (b : Bool) : Option Nat :=
  least ((s.programs u b).filterMap fun x =>
    match x.2.2.getLast? with
    | none => none
    | some (i, e) =>
      if eType e = 0xB ∧ bitAt e 33 = false ∧ ((List.range (sdNctx (s.segDesc u b x.1))).all fun c =>
        decide (s.ctxStart u b x.1 x.2.1 c < x.2.2.length)) = true then none else some i)

/-- The tick a booked entry acts at (R224). -/
def bookedAct (k : Nat) (x : Booked) : Nat := actTick k ⟨0, 0, x.e, x.tick, [], false, 0, 0, none⟩

/-- Reading a run from tick X − 4,096 at one entry per tick within the horizon (R224): the entries read too late, and those that would
be held beside 256 others which have not acted. `t` the tick of the last read, `held` the ticks at which held entries act. -/
def readFails (k : Nat) : List Booked → Nat → List Nat → List Nat
  | [], _, _ => []
  | x :: xs, t, held =>
    let r := Nat.max (t + 1) (x.tick - 65536)
    let held := held.filter fun a => r < a
    if isScheduling x.e then
      let a := bookedAct k x
      (if a ≤ r ∨ 256 ≤ held.length then [x.idx] else []) ++ readFails k xs r (a :: held)
    else readFails k xs r held

/-- TT_WALK_DENSITY. -/
def State.checkDensity (s : State) (u : Nat) (b : Bool) : Option Nat :=
  least ((s.progs u b).flatMap fun p => readFails (progKind u p.kind) p.run.out (restartAt - 4097) [])

/-! ## Booking positions -/

/-- TT_WIDTH_MISMATCH (R214). -/
def State.checkWidth (s : State) (u : Nat) (b : Bool) : Option Nat := if s.bankHalf u b = s.portHalf u then none else some 0

/-- The cells that the programs of a port bank book, departures (`kind` 0) or arrivals (1). -/
def State.bankCells (s : State) (u : Nat) (b : Bool) (kind : Nat) : List Slot :=
  ((s.progs u b).filter fun p => p.kind = kind).flatMap (Prog.cells (s.bankHalf u b))

/-- Cells whose train does not begin on a booking position (R182, R183, R214). -/
def slotReserved (half : Bool) (x : Slot) : Bool := decide (60 ≤ x.d0 % 64) || (half && x.d0 % 2 == 1)

/-- TT_SLOT_RESERVED. -/
def State.checkSlots (s : State) (u : Nat) (b : Bool) : Option Nat :=
  leastIdx (slotReserved (s.bankHalf u b)) (s.bankCells u b 0 ++ s.bankCells u b 1)

/-- TT_OVERBOOKED (R182). -/
def State.checkOverbooked (s : State) (u : Nat) (b : Bool) : Option Nat :=
  least ([0, 1].flatMap fun k => pairFails Slot.meets (fun x => x.idx) (s.bankCells u b k))

/-- Distance of two ticks round the frame. -/
def frameDist (a b : Nat) : Nat := let d := (a + 4096 - b % 4096) % 4096; Nat.min d (4096 - d)

/-- Two cells of one direction whose checks could be taken for each other (R188). DESIGN CHOICE: cells of different contexts of one owner, and
cells of the bank that is loaded and of the one it will follow, are not compared (log 111). -/
def Slot.alias (bank : Bool) (x y : Slot) : Bool :=
  let own := x.owner == y.owner
  let dist := if x.tick ≤ y.tick then y.tick - x.tick else x.tick - y.tick
  if own && x.ctx != y.ctx then false
  else if eTrain x.e = eTrain y.e ∧ x.i = y.i then (if own then decide (dist ≤ 8) else decide (frameDist x.tick y.tick ≤ 8))
  else (!own || decide (dist ≤ 16384)) && trainCheck x.i (eTrain x.e) bank == trainCheck y.i (eTrain y.e) bank

/-- TT_CHECK_ALIAS. -/
def State.checkAlias (s : State) (u : Nat) (b : Bool) : Option Nat :=
  least ([0, 1].flatMap fun k => pairFails (Slot.alias b) (fun x => x.idx) (s.bankCells u b k))

/-- PORT[p] of an image's header (R425): K, ALLOW, HALF. -/
def imgK (h : BitVec 4096) (p : Nat) : Nat := fld h (512 + 64 * p) 10
def imgAllow (h : BitVec 4096) (p : Nat) : Nat := fld h (522 + 64 * p) 14
def imgHalf (h : BitVec 4096) (p : Nat) : Bool := bitAt h (536 + 64 * p)
def imgPorts (h : BitVec 4096) : Nat := fld h 120 6

/-- TT_NO_CLASS and TT_CLASS_MISMATCH (R193) of the image being loaded, for port `u` where its PORTS_USED names it. DESIGN CHOICE: a port
whose K is 0 gives TT_NO_CLASS alone, since R193 gives both codes for it (log 64). -/
def State.checkClass (s : State) (h : BitVec 4096) (u : Nat) : List (Nat × Option Nat) :=
  let used := bitAt h (120 + u)
  [(Ev.ttClassMismatch, if used ∧ s.rf (Reg.lnLineClass u) 0 10 ≠ 0 ∧
      (imgK h u ≠ s.rf (Reg.lnLineClass u) 0 10 ∨ imgAllow h u ≠ s.rf (Reg.lnLineClass u) 14 14) then some 0 else none),
   (Ev.ttNoClass, if used ∧ s.rf (Reg.lnLineClass u) 0 10 = 0 then some 0 else none)]

/-- TT_SLOT_NOT_PERMITTED (R210). -/
def State.checkPermit (s : State) (u : Nat) (b : Bool) : Option Nat :=
  least ([0, 1].flatMap fun k =>
    ((s.bankCells u b k).filter fun x => (if k = 0 then s.permitDep u x.tick else s.permitArr u x.tick) ≠ x.owner).map fun x => x.idx)

/-! ## Tiles and tokens -/

/-- The tile, cell address and cells that an entry reaches in a tile. -/
def tileOf (kind : Nat) (e : BitVec 256) : Option Nat :=
  match eType e with
  | 1 => some (dpTile e)
  | 2 => some (dpTile e)
  | 3 => if kind = 1 ∧ paDrop e then some (paTile e) else none
  | 4 => some (dpTile e)
  | _ => none

/-- The token that an entry names. -/
def entryToken (kind : Nat) (e : BitVec 256) : Option Nat :=
  match eType e with
  | 1 => some (dpToken e)
  | 2 => some (dpToken e)
  | 3 => if kind = 1 ∧ paDrop e then some (paToken e) else none
  | 4 => some (dpToken e)
  | 0xC => if bitAt e 80 then some (fld e 81 14) else none
  | _ => none

/-- TT_PLATFORM_RANGE: cells beyond 0x7F_FFFF of their tile. -/
def State.checkPlatform (s : State) (u : Nat) (b : Bool) : Option Nat :=
  leastItem (fun x => (tileOf x.kind x.e).isSome && decide (32768 < eAddr x.e + eNm1 x.e + 1)) (s.items u b)

/-- An entry of owner `o` stays within its partition (R26), or a grant's within the junctions and ports (R420). -/
def State.entryInside (s : State) (x : Item) : Bool :=
  if x.owner ≤ 16 then
    (match tileOf x.kind x.e with | some t => s.partOfTile t == some (x.owner - 1) | none => true) &&
      (match entryToken x.kind x.e with | some k => s.partOfToken k == some (x.owner - 1) | none => true)
  else (tileOf x.kind x.e).isNone

/-- TT_OUTSIDE_PARTITION. -/
def State.checkInside (s : State) (u : Nat) (b : Bool) : Option Nat :=
  leastItem (fun x => !s.entryInside x) (s.items u b)

/-- TT_TOKEN_REMOTE: a ready token on another C-die than its tile's. -/
def State.checkTokenHome (s : State) (u : Nat) (b : Bool) : Option Nat :=
  leastItem (fun x => (eType x.e == 1 || eType x.e == 4) && dpToken x.e / 4096 != dpTile x.e / 192) (s.items u b)

end Sys2Proof.Machine
end

