-- ==== Sys2Proof/Machine/Bookings.lean ====
section
/-!
DEFINITION. The load-time checks that look at several banks: forwarded cells (R236), junction slots and SRAM reads (R240,
R241, R84), stream banks (R360), and what a changeover's tick adds (R245 order 6).
-/
namespace Sys2Proof.Machine
open Sys2Proof

/-! ## Forwarded cells (R235, R236) -/

/-- The queue of forwarded cells from inbound port `a` to port `b`, of owner `owner` in context `ctx`: the cells put into it
and those taken from it, in order of their ticks. -/
structure Queue where
  a : Nat
  b : Nat
  owner : Nat
  ctx : Nat
  ins : List Slot
  outs : List Slot

/-- An arriving cell goes on to port `b`. -/
def goesTo (b : Nat) (x : Slot) : Bool := (eType x.e == 3 && paPort x.e == b) || (eType x.e == 4 && rdPort x.e == b)

/-- A departing cell comes from port `a`. -/
def comesFrom (a : Nat) (x : Slot) : Bool := eType x.e == 3 && paPort x.e == a

/-- The queues from `a` to `b`, of the arriving cells of `a` and the departing cells of `b`. -/
def queuesOf (a b : Nat) (ins outs : List Slot) : List Queue :=
  let ins := ins.filter (goesTo b)
  let outs := outs.filter (comesFrom a)
  (((ins ++ outs).map fun x => (x.owner, x.ctx)).eraseDups).map fun k =>
    let own := fun (xs : List Slot) => sortBy (fun x => x.tick) (xs.filter fun x => x.owner = k.1 ∧ x.ctx = k.2)
    ⟨a, b, k.1, k.2, own ins, own outs⟩

/-- Release tick of an inbound cell (R198). -/
def State.releaseOf (s : State) (p : Nat) (x : Slot) : Nat := x.tick + s.classDelay p

/-- The queues that involve port `u`. -/
def State.queues (s : State) (u : Nat) : List Queue :=
  let ins := fun a => s.bankCells a (s.bankFor a) 1
  let outs := fun b => s.bankCells b (s.bankFor b) 0
  let insU := ins u
  let outsU := outs u
  (List.range 6).flatMap fun q =>
    if q = u then queuesOf u u insU outsU else queuesOf q u (ins q) outsU ++ queuesOf u q insU (outs q)

/-- The index that a check of port `u` reports for a pair: of the half that stands on `u`. -/
def pairIdx (u a : Nat) (x y : Slot) : Nat := if a = u then x.idx else y.idx

/-- Halves that do not pair: a surplus cell, other NM1, or loops of other nesting, COUNT or PERIOD. -/
def unpaired (u a : Nat) : List Slot → List Slot → List Nat
  | [], [] => []
  | x :: _, [] => [x.idx]
  | [], y :: _ => [y.idx]
  | x :: xs, y :: ys =>
    (if x.loops ≠ y.loops ∨ eNm1 x.e ≠ eNm1 y.e then [pairIdx u a x y] else []) ++ unpaired u a xs ys

/-- TT_PASS_UNPAIRED. -/
def State.checkPaired (s : State) (u : Nat) : Option Nat :=
  least ((s.queues u).flatMap fun k => unpaired u k.a k.ins k.outs)

/-- The paired cells of a queue. -/
def Queue.pairs (k : Queue) : List (Slot × Slot) := k.ins.zip k.outs

/-- TT_PASS_TOO_SOON (R192, R236). -/
def State.checkTooSoon (s : State) (u : Nat) : Option Nat :=
  least ((s.queues u).flatMap fun k => (k.pairs.filter fun x =>
    decide (x.2.tick < s.releaseOf k.a x.1 + (if eType x.1.e = 4 then 104 else 96))).map fun x => pairIdx u k.a x.1 x.2)

/-- The most elements a queue holds: after each put, a take at its tick counted first (R235). -/
def State.peak (s : State) (k : Queue) : Nat :=
  (k.pairs.map fun x =>
    let t := s.releaseOf k.a x.1
    (k.pairs.filter fun y => s.releaseOf k.a y.1 ≤ t ∧ t < y.2.tick - 16).length).foldl Nat.max 0

/-- The peak of owner `o`'s queues `ks`, over its contexts. -/
def State.ownerPeak (s : State) (ks : List Queue) (o : Nat) : Nat :=
  ((ks.filter fun k => k.owner = o).map s.peak).foldl Nat.max 0

/-- TT_FORWARD_OVERFLOW: the owners' queues of one inbound port pass 2,048 cells. DESIGN CHOICE: a queue's share is what its owner's peak
leaves of the 2,048, so the sum of the owners' separate peaks is held against it (log 65). -/
def State.checkForward (s : State) (u : Nat) : Option Nat :=
  let qs := s.queues u
  least ((List.range 6).flatMap fun q => ([(q, u), (u, q)] : List (Nat × Nat)).flatMap fun ab =>
    let ks := qs.filter fun k => k.a = ab.1 ∧ k.b = ab.2
    if 2048 < (((List.range 32).drop 1).map (s.ownerPeak ks)).sum then
      ks.flatMap fun k => k.pairs.map fun x => pairIdx u k.a x.1 x.2
    else [])

/-! ## Movements through junctions (R240) -/

/-- A movement: from and to dies (0 to 3 C-dies, 4 + p L-dies), its window, and for a tile's cell the tile and whether it is
read there after tick `from_`. -/
structure Move where
  unit : Nat
  owner : Nat
  ctx : Nat
  idx : Nat
  src : Nat
  dst : Nat
  lo : Nat
  hi : Nat
  tile : Option Nat := none
  read : Option Nat := none
deriving DecidableEq, Repr

/-- The movements of the departures and arrivals of port `u`; a forwarded cell is its inbound port's. -/
def State.movesOf (s : State) (u : Nat) : List Move :=
  let dep := (s.bankCells u (s.bankFor u) 0).filterMap fun x =>
    if eType x.e = 1 then
      some { unit := u, owner := x.owner, ctx := x.ctx, idx := x.idx, src := dpTile x.e / 192, dst := 4 + u, lo := x.d0 - 448
             hi := x.tick - 24, tile := some (dpTile x.e), read := some (x.d0 - 480) : Move }
    else none
  let arr := (s.bankCells u (s.bankFor u) 1).flatMap fun x =>
    let r := s.releaseOf u x
    let m : Move := { unit := u, owner := x.owner, ctx := x.ctx, idx := x.idx, src := 4 + u, dst := 0, lo := r + 8, hi := r + 24 }
    match eType x.e with
    | 2 => [{ m with dst := dpTile x.e / 192, tile := some (dpTile x.e) }]
    | 3 => if paDrop x.e then [{ m with dst := paTile x.e / 192, tile := some (paTile x.e) }] else []
    | 4 =>
      { m with src := dpTile x.e / 192, dst := 4 + u, lo := r - 448, hi := r - 24, tile := some (dpTile x.e), read := some (r - 480) } ::
        (if rdPort x.e = 7 then [{ m with dst := dpTile x.e / 192, lo := r + 16, hi := r + 32, tile := some (dpTile x.e) }] else [])
    | _ => []
  let fwd := (s.queues u).flatMap fun k =>
    if k.a = u then k.pairs.map fun x =>
      let r := s.releaseOf u x.1
      { unit := u, owner := x.1.owner, ctx := x.1.ctx, idx := x.1.idx, src := 4 + u, dst := 4 + k.b
        lo := r + (if eType x.1.e = 4 then 24 else 16), hi := x.2.tick - 40 : Move }
    else []
  dep ++ arr ++ fwd

/-- The CONNECT slots of every J-die: owner, context, endpoints' dies and tick, in ascending ticks. -/
def State.connectSlots (s : State) : List (Nat × Nat × Nat × Nat × Nat) :=
  sortBy (fun (x : Nat × Nat × Nat × Nat × Nat) => x.2.2.2.2) ([6, 7, 8, 9].flatMap fun u =>
    (s.progs u (s.bankFor u)).flatMap fun p => p.connects.map fun x =>
      (x.owner, x.ctx, endpointDie (cnSrc x.e), endpointDie (cnDst x.e), x.tick))

/-- The movement with the earliest deadline that slot `x` can carry, and the others. -/
def pickMove (x : Nat × Nat × Nat × Nat × Nat) (ms : List Move) : Option Move :=
  (ms.filter fun m => m.owner = x.1 ∧ m.ctx = x.2.1 ∧ m.src = x.2.2.1 ∧ m.dst = x.2.2.2.1 ∧ m.lo ≤ x.2.2.2.2 ∧ x.2.2.2.2 ≤ m.hi).foldl
    (fun (a : Option Move) m => match a with
      | none => some m
      | some b => if m.hi < b.hi then some m else some b) none

/-- Slots in ascending ticks, each to the movement of the earliest deadline: the movements with their slots, and those left
without one. -/
def assignMoves : List (Nat × Nat × Nat × Nat × Nat) → List Move → List (Move × Nat) × List Move
  | [], ms => ([], ms)
  | x :: xs, ms =>
    match pickMove x ms with
    | none => assignMoves xs ms
    | some m => let r := assignMoves xs (ms.erase m); ((m, x.2.2.2.2) :: r.1, r.2)

/-- The movements of every port with their slots, and those without. -/
def State.crossings (s : State) : List (Move × Nat) × List Move :=
  assignMoves s.connectSlots ((List.range 6).flatMap s.movesOf)

/-- TT_JUNCTION_UNBOOKED. -/
def State.checkUnbooked (s : State) (u : Nat) : Option Nat :=
  least ((s.crossings.2.filter fun m => m.unit = u).map fun m => m.idx)

/-! ## External cycles (R83, R84) -/

/-- Half ticks of a core cycle at a level (R72). -/
def levelHalves (l : Nat) : Nat := [4, 5, 6, 8].getD l 8

/-- The window of 8 core cycles that holds tick `t`, and the tick in which window `w`'s external cycle begins, at level `l`. -/
def windowOfTick (l t : Nat) : Nat := 2 * t / (8 * levelHalves l)
def externalTick (l w : Nat) : Nat := (8 * w + 7) * levelHalves l / 2

/-- The first window from `w` on with fewer than 7 cells of `used`. -/
def freeWindow (used : List Nat) : Nat → Nat → Nat
  | w, 0 => w
  | w, n + 1 => if used.count w < 7 then w else freeWindow used (w + 1) n

/-- A booked mover of R84 at a tile's external port: its bank's unit, entry and context, its tick (of its junction slot, or of R360's
accounting), and for a cell that is read ahead of a junction slot the tick it is asked for. -/
structure Mover where
  unit : Nat
  idx : Nat
  ctx : Nat
  tile : Nat
  tick : Nat
  read : Option Nat := none

/-- Movers of one tile in order of their ticks: the reads that no external cycle serves between their tick and their slot (R240). -/
def readsLate (l : Nat) : List Mover → List Nat → List Mover
  | [], _ => []
  | x :: xs, used =>
    match x.read with
    | none => readsLate l xs (freeWindow used (windowOfTick l x.tick) xs.length :: used)
    | some t =>
      let w0 := windowOfTick l t
      let w := freeWindow used (if externalTick l w0 ≤ t then w0 + 1 else w0) (used.length + 1)
      (if x.tick ≤ externalTick l w then [x] else []) ++ readsLate l xs (w :: used)

/-- JN_CONFLICT (R241) in a junction bank. -/
def State.checkConflict (s : State) (u : Nat) (b : Bool) : Option Nat :=
  least (pairFails (fun x y : Slot => x.meets y && (cnSrc x.e == cnSrc y.e || cnDst x.e == cnDst y.e)) (fun x => x.idx)
    ((s.progs u b).flatMap Prog.connects))

/-! ## Streams (R354 to R360) -/

/-- A stream as a program books it, with its start tick. -/
def State.streamsOf (s : State) (u : Nat) (b : Bool) : List (Prog × Booked) :=
  (s.progs u b).flatMap fun p => (p.run.out.filter fun x => eType x.e == 1).map fun x => (p, x)

/-- Accounting tick of granule `g` (R360). -/
def accountTick (e : BitVec 256) (start g : Nat) : Nat := start + g * stWindow e / stN e

/-- Accounted granules of a stream: tick, and the address read (none for KIND 1) and written. -/
def granules (x : Booked) : List (Nat × Option Nat × Nat) :=
  (List.range (stN x.e)).map fun g =>
    (accountTick x.e x.tick g, (if stZero x.e then none else some (stSrc x.e + 256 * g)), stDst x.e + 256 * g)

/-- The (stack, channel) pairs that a granule counts against. -/
def granuleChannels (g : Nat × Option Nat × Nat) : List (Nat × Nat) :=
  ((g.2.1.toList ++ [g.2.2]).filter fun a => regionOf a = .hbm).map fun a => (stackOf a, hbmChannel a)

/-- The granules of a bank by context, entry and frame of the accounting tick, which counts from the restart of the one
partition that the M-die serves. -/
def State.frameLoad (s : State) (u : Nat) (b : Bool) : List (Nat × Nat × Nat × (Nat × Option Nat × Nat)) :=
  (s.streamsOf u b).flatMap fun x => (granules x.2).map fun g => (x.1.ctx, x.2.idx, g.1 / 4096, g)

/-- ST_PC_OVERBOOKED: more than 230 granules of a channel in a frame. -/
def State.checkChannels (s : State) (u : Nat) (b : Bool) : Option Nat :=
  let xs := s.frameLoad u b
  least ((xs.filter fun x => (granuleChannels x.2.2.2).any fun k =>
    decide (230 < (xs.map fun y => if y.1 = x.1 ∧ y.2.2.1 = x.2.2.1 then (granuleChannels y.2.2.2).count k else 0).sum)).map fun x => x.2.1)

/-- ST_ENGINE_OVERBOOKED: more than 14,336 granules in a frame. -/
def State.checkEngine (s : State) (u : Nat) (b : Bool) : Option Nat :=
  let xs := s.frameLoad u b
  least ((xs.filter fun x => decide (14336 < (xs.filter fun y => y.1 = x.1 ∧ y.2.2.1 = x.2.2.1).length)).map fun x => x.2.1)

/-- The STREAM entries of a bank that satisfy `f` of the M-die, the owner and the entry. -/
def State.leastStream (s : State) (u : Nat) (b : Bool) (f : Nat → BitVec 256 → Bool) : Option Nat :=
  leastItem (fun x => eType x.e == 1 && f x.owner x.e) (s.items u b)

/-- The ends of a stream: source (unless zeros) and destination, with the bytes. -/
def streamEnds (e : BitVec 256) : List (Nat × Nat) :=
  (if stZero e then [] else [(stSrc e, 256 * stN e)]) ++ [(stDst e, 256 * stN e)]

/-- HBM, staging and tile addresses only; HBM and staging of M-die `m` only. -/
def endLocal (m : Nat) (x : Nat × Nat) : Bool :=
  match regionOf x.1 with
  | .hbm => x.1 / 0x2000000000 == m && (x.1 + x.2 - 1) / 0x2000000000 == m
  | .staging => decide (stagingAddr m ≤ x.1) && decide (x.1 + x.2 ≤ stagingAddr m + 0x2000000)
  | .sram => true
  | _ => false

/-- Tile addresses and tokens of partition `p`, of a STREAM entry or a MARK (R26, R360). -/
def State.streamInside (s : State) (p : Nat) (e : BitVec 256) : Bool :=
  let own := fun k => s.partOfToken k == some p
  if eType e = 1 then
    (streamEnds e).all (fun x => regionOf x.1 ≠ .sram || s.inPart p x.1 x.2) && own (stToken e) && own (stRtoken e)
  else match entryToken 0 e with
    | some k => own k
    | none => true

/-- A stream's stacks (R366). -/
def State.usesRetired (s : State) (e : BitVec 256) : Bool :=
  (streamEnds e).any fun x => regionOf x.1 = .hbm && !(bitAt (s.r Reg.saStackActive) (stackOf x.1) && bitAt (s.r Reg.saStackActive) (stackOf (x.1 + x.2 - 1)))

/-- Fields of a STREAM entry within their ranges (R355). -/
def streamOk (e : BitVec 256) : Bool :=
  decide (1 ≤ stWindow e) && fld e 57 7 == 0 && fld e 233 23 == 0 && (!stZero e || fld e 64 40 == 0)

/-- TT_ENTRY_RESERVED in a stream bank: its header, descriptors and context tables (R217 to R219, R354). -/
def State.checkStreamTables (s : State) (u : Nat) (b : Bool) : Option Nat :=
  least ((if fld (s.entry u b 0) 18 238 = 0 ∧ bitAt (s.entry u b 0) 16 = false then [] else [0]) ++ s.badTables u b)

/-- An entry of a stream bank within its ranges; TYPE 2 to 5 are reserved (R354, R355). -/
def streamEntryOk (e : BitVec 256) : Bool := if eType e = 1 then streamOk e else controlOk e && fld e 128 128 == 0

/-! ### Crossing streams (R359) -/

/-- The crossings that the streams of every M-die need: deadline, unit, index, owner, context, direction, first and last
tick, one for each granule, in ascending deadline. -/
structure Cross where
  deadline : Nat
  unit : Nat
  idx : Nat
  owner : Nat
  ctx : Nat
  dir : Nat × Nat
  lo : Nat
  hi : Nat

def State.crossNeeds (s : State) : List Cross :=
  sortBy (fun x => x.deadline) (((List.range 26).drop 10).flatMap fun u => (s.streamsOf u (s.bankFor u)).flatMap fun x =>
    (crossDirs (u - 10) x.2.e).flatMap fun d => List.replicate (stN x.2.e)
      { deadline := x.2.tick + stWindow x.2.e, unit := u, idx := x.2.idx, owner := x.1.owner, ctx := x.1.ctx, dir := d
        lo := x.2.tick + 64, hi := x.2.tick + stWindow x.2.e - 64 })

/-- Needs that find no cell, each taking the earliest one left. -/
def crossLeft : List Cross → List (Nat × Nat × Nat × Nat × Nat) → List Cross
  | [], _ => []
  | x :: xs, cells =>
    match cells.find? fun c => c.1 == x.owner && c.2.1 == x.ctx && (c.2.2.1, c.2.2.2.1) == x.dir && decide (x.lo ≤ c.2.2.2.2) && decide (c.2.2.2.2 ≤ x.hi) with
    | none => x :: crossLeft xs cells
    | some c => crossLeft xs (cells.erase c)

/-- ST_JUNCTION_UNBOOKED. -/
def State.checkCrossing (s : State) (u : Nat) : Option Nat :=
  least (((crossLeft s.crossNeeds s.connectSlots).filter fun x => x.unit = u).map fun x => x.idx)

/-! ### The external port's limit -/

/-- The booked movers that banks tell of: platform writes and departure and operand reads at their junction slots, and stream granules
at their accounting ticks (R84, R251, R360). Local-line ejects follow from tile programs, which no bank holds. -/
def State.movers (s : State) : List Mover :=
  (s.crossings.1.filterMap fun x => x.1.tile.map fun t => ⟨x.1.unit, x.1.idx, x.1.ctx, t, x.2, x.1.read⟩) ++
  ((List.range 26).drop 10).flatMap fun u => (s.streamsOf u (s.bankFor u)).flatMap fun x => (granules x.2).flatMap fun g =>
    ((g.2.1.toList ++ [g.2.2]).filterMap tileOfAddr).map fun t => ⟨u, x.2.idx, x.1.ctx, t, g.1, none⟩

/-- TT_READ_UNREACHABLE at level `floor`. -/
def State.checkReads (s : State) (floor u : Nat) : Option Nat :=
  let xs := s.movers
  least ((xs.map fun x => x.tile).eraseDups.flatMap fun t => (List.range 64).flatMap fun c =>
    ((readsLate floor (sortBy (fun (x : Mover) => x.tick) (xs.filter fun x => x.tile = t ∧ x.ctx = c)) []).filter
      fun x => x.unit = u).map fun x => x.idx)

/-- SRAM_PORT_OVERBOOKED: more than 7 cells of a tile in one window. -/
def State.checkPortLimit (s : State) (floor u : Nat) : Option Nat :=
  let xs := s.movers
  let key := fun (x : Mover) => (x.ctx, x.tile, windowOfTick floor x.tick)
  least ((xs.filter fun x => x.unit = u ∧ 7 < (xs.filter fun y => key y = key x).length).map fun x => x.idx)

/-! ## The checks of a bank in order (R251, R360, R434) -/

/-- The checks that every kind of bank shares, up to its reading. -/
def State.shapeChecks (s : State) (u : Nat) (b : Bool) : List (Nat × Option Nat) :=
  [(Ev.ttLoopNest, s.checkNest u b), (Ev.ttLoopPeriod, s.checkPeriod u b), (Ev.ttNoEnd, s.checkEnd u b), (Ev.ttWalkDensity, s.checkDensity u b)]

/-- The first check that a port or junction bank fails (R251). `h`: the header of the image being loaded. -/
def State.checkTimetable (s : State) (h : BitVec 4096) (floor u : Nat) : Option (Nat × Nat) :=
  let b := s.bankFor u
  firstFail ([(Ev.ttFormat, s.checkFormat u b), (Ev.ttSegmentLayout, s.checkLayout u b), (Ev.ttEntryReserved, s.checkReserved u b),
      (Ev.ttWrongProgram, s.checkProgram u b), (Ev.ttOwner, s.checkOwner u b)] ++ s.shapeChecks u b ++
    (if u < 6 then
      [(Ev.ttWidthMismatch, s.checkWidth u b), (Ev.ttSlotReserved, s.checkSlots u b), (Ev.ttOverbooked, s.checkOverbooked u b),
        (Ev.ttCheckAlias, s.checkAlias u b)] ++ s.checkClass h u ++
      [(Ev.ttSlotNotPermitted, s.checkPermit u b), (Ev.ttPlatformRange, s.checkPlatform u b), (Ev.ttOutsidePartition, s.checkInside u b),
        (Ev.ttTokenRemote, s.checkTokenHome u b), (Ev.ttPassUnpaired, s.checkPaired u), (Ev.ttPassTooSoon, s.checkTooSoon u),
        (Ev.ttForwardOverflow, s.checkForward u), (Ev.ttJunctionUnbooked, s.checkUnbooked u), (Ev.ttReadUnreachable, s.checkReads floor u),
        (Ev.sramPortOverbooked, s.checkPortLimit floor u)]
    else [(Ev.ttOutsidePartition, s.checkInside u b), (Ev.jnConflict, s.checkConflict u b)]))

/-- The first check that a stream bank fails (R354, R360). -/
def State.checkStreams (s : State) (floor u : Nat) : Option (Nat × Nat) :=
  let b := s.bankFor u
  let m := u - 10
  firstFail ([(Ev.ttFormat, s.checkFormat u b), (Ev.ttSegmentLayout, s.checkLayout u b), (Ev.ttEntryReserved, s.checkStreamTables u b),
      (Ev.stOwner, least (((s.owners u b).filter fun o => 16 < o) ++ ((s.items u b).filter fun x => eOwner x.e ≠ x.owner).map fun x => x.idx))] ++ s.shapeChecks u b ++
    [(Ev.stPcOverbooked, s.checkChannels u b), (Ev.stEngineOverbooked, s.checkEngine u b),
      (Ev.stWindowShort, s.leastStream u b fun _ e => decide (stWindow e < (stN e + 3) / 4 + 256)),
      (Ev.stRemoteMemory, s.leastStream u b fun _ e => !(streamEnds e).all (endLocal m)),
      (Ev.stOutsidePartition, leastItem (fun x => !s.streamInside (x.owner - 1) x.e) (s.items u b)),
      (Ev.stTokenRemote, s.leastStream u b fun _ e => stRtoken e / 4096 != m / 4),
      (Ev.imageStackRetired, s.leastStream u b fun _ e => s.usesRetired e),
      (Ev.stEntryReserved, leastItem (fun x => !streamEntryOk x.e) (s.items u b)),
      (Ev.stJunctionUnbooked, s.checkCrossing u), (Ev.sramPortOverbooked, s.checkPortLimit floor u)])

/-- The first failing check of a unit's bank. -/
def State.checkUnit (s : State) (h : BitVec 4096) (floor u : Nat) : Option (Nat × Nat) :=
  if u < 10 then s.checkTimetable h floor u else s.checkStreams floor u

/-! ## Arming (R245 order 6) -/

/-- Walker `w` of owner `o` on unit `u` reads on, at most `n` entries, up to its PARK or to the POINT at `x`; of what it dispatches only
entries that still act at or after `x` are kept. -/
def State.readOn (s : State) (u o kind x : Nat) : Nat → Walker → Walker
  | 0, w => w
  | n + 1, w =>
    if w.state ≠ 1 ∨ w.parkAt ≠ none ∨ w.points.contains x = true then w
    else
      let b := s.bankActive u
      let w := walkEntry o b (s.entry u b (sdBase (s.segDesc u b o) kind + w.idx)) w
      s.readOn u o kind x n { w with dispatched := w.dispatched.filter fun d => x ≤ s.endTick u d }

/-- Entries of the active bank of unit `u` that owner `o`'s walker dispatches before a restart at `x` and that act at or after it
(R224, R245, R248). A walker reads one entry per tick, so by `x` it has read no more than `x` ticks give. -/
def State.formerDisps (s : State) (u o kind x : Nat) : List Disp :=
  let w := s.walker (walkKey u o kind)
  (s.readOn u o kind x (x + 65536 - s.now) w).dispatched.filter fun d => decide (x ≤ s.endTick u d) &&
    (match d.after with
     | some t => decide (t < x)
     | none => true)

/-- The cells of a dispatched entry of unit `u`. -/
def State.dispSlots (s : State) (u : Nat) (d : Disp) : List Slot :=
  if eType d.entry = 5 ∨ (1 ≤ eType d.entry ∧ eType d.entry ≤ 4) then
    (List.range (eNm1 d.entry + 1)).map fun i => ⟨d.owner, 0, d.idx, i,
      if u < 6 then cellTick (s.bankHalf u d.bank) d.tick i else d.tick + 2 * cnStride d.entry * i, d.tick, d.entry, []⟩
  else []

/-- Cells that owner `o` has from the former bank of unit `u` at or after `x`: of entries dispatched by then, of trains whose ready test
is behind them, and of cells already expected. -/
def State.formerSlots (s : State) (u o kind x : Nat) : List Slot :=
  let slot := fun (i tick d0 : Nat) => (⟨o, 0, 0, i, tick, d0, 0, []⟩ : Slot)
  ((s.formerDisps u o kind x).flatMap (s.dispSlots u) ++
    (if 6 ≤ u then []
     else if kind = 0 then ((s.port u).departs.filter fun d => d.owner = o).map fun d => slot d.i d.tick d.d0
     else ((s.port u).expects.filter fun c => c.owner = o).map fun c => slot c.i c.depart c.d0)).filter fun y => x ≤ y.tick

/-- Cells of the bank being armed: of a restarting owner from `x` in its context, of the others from any restart. -/
def State.armedSlots (s : State) (u kind x ctx : Nat) (restart : Nat → Bool) : List Slot :=
  let b := !s.bankActive u
  (s.owners u b).flatMap fun o =>
    let of := fun (p : Prog) => if u < 6 then p.cells (s.bankHalf u b) else p.connects
    if sdLen (s.segDesc u b o) kind = 0 then []
    else if restart o then of ⟨o, kind, 0, s.runOf u b o kind ctx x⟩
    else (List.range (sdNctx (s.segDesc u b o))).flatMap fun c => of ⟨o, kind, c, s.runOf u b o kind c restartAt⟩

/-- Two cells of a former and a new bank meet: of one owner at one tick, of different owners at one tick of the frame (R182, R241). -/
def Slot.meetsNew (a b : Slot) : Bool := if a.owner = b.owner then a.tick == b.tick else a.tick % 4096 == b.tick % 4096

/-- The code with which an arming at `x` is refused for unit `u` (R245 order 6). -/
def State.armConflict (s : State) (u x ctx : Nat) (restart : Nat → Bool) : Option Nat :=
  let olds := fun kind => (((List.range 32).drop 1).filter restart).flatMap fun o => s.formerSlots u o kind x
  let news := fun kind => s.armedSlots u kind x ctx restart
  if u < 6 then
    (if [0, 1].any fun kind => (olds kind).any fun a => (news kind).any a.meetsNew then some Ev.ttOverbooked else none)
  else if u < 10 then
    (if (olds 0).any fun a => (news 0).any fun b => a.meetsNew b && (cnSrc a.e == cnSrc b.e || cnDst a.e == cnDst b.e) then some Ev.jnConflict
     else none)
  else none

end Sys2Proof.Machine
end

