-- ==== Sys2Proof/Machine/LinkRx.lean ====
section
/-!
DEFINITION. The receive side of a port: FEC and CRC outcomes, link sequence numbers, arrivals, packets, signal cells and
the identity exchange (R187, R197 to R207, R275, R279 to R286, R292, R293, R299, R300, R312, R329, R331, R333).
-/
namespace Sys2Proof.Machine
open Sys2Proof

/-- A lost cell (R275, R289). -/
def State.lostCell (s : State) (p : Nat) : State :=
  let k := Reg.lnErrCount p
  let n := s.rf k 0 16
  s.wf k 0 16 (if n < 65535 then n + 1 else n)

/-- The codewords that carry a cell, in turn: whether every one decodes. -/
def State.takeCodewords (s : State) (p : Nat) : List CodewordErr → Bool × State
  | [] => (true, s)
  | c :: cs =>
    let (a, s) := s.takeCodeword p c
    let (b, s) := s.takeCodewords p cs
    (a && b, s)

/-- What FEC and CRC-24 make of a cell (R272, R275, R292): whether it passes. `cws`: the codewords that hold bits of it. -/
def State.cellChecks (s : State) (p : Nat) (c : Cell) (cws : List CodewordErr) : Bool × State :=
  match s.takeCodewords p cws with
  | (false, s) => (false, s.lostCell p)
  | (true, s) =>
    if crc24 c = cellCrc c then (true, s.add64 (Reg.lnRxCells p (cellClass c)) 1)
    else (false, (s.inc (Reg.lnCrcFail p)).lostCell p)

/-- The receive side of the link layer runs (R279). -/
def State.rxRuns (s : State) (p : Nat) : Bool :=
  s.linkState p == 4 || ((s.linkState p == 2 || s.linkState p == 3) && s.rf (Reg.lnLinkStatus p) 4 3 == 1)

/-- NEXT advances past accepted LSEQs (R280). -/
def advanceNext : Nat → Nat → List Nat → Nat × List Nat
  | 0, n, got => (n, got)
  | k + 1, n, got => if got.contains n then advanceNext k ((n + 1) % seqMod) (got.erase n) else (n, got)

/-! ## Arrivals (R197 to R207) -/

/-- Distance of hold entry tick `h` from the middle of an expected cell's due window, in 1/512 tick. -/
def State.fromMid (s : State) (p h : Nat) (x : Expect) : Int := 512 * (h : Int) - s.dueMid p x

/-- Hold entry `h` lies in the expected cell's due window (R198). -/
def State.inWindow (s : State) (p h : Nat) (x : Expect) : Bool :=
  decide (-2048 ≤ s.fromMid p h x) && decide (s.fromMid p h x ≤ 2048)

/-- Apply `f` to the first element that satisfies `g`. -/
def updFirst (g : α → Bool) (f : α → α) : List α → List α
  | [] => []
  | x :: xs => if g x then f x :: xs else x :: updFirst g f xs

/-- A matched cell enters the hold, or finds it full (R200, R204). -/
def State.enterHold (s : State) (p h256 : Nat) (g : Expect → Bool) (data : Payload) (fill : Bool) : State :=
  if 12288 ≤ s.holdOcc p then
    ((s.updPort p fun y => { y with expects := updFirst g (fun x => { x with lost := true, fill := fill }) y.expects }).inc
      (Reg.lnHoldOverflow p)).note (lDie p) Ev.holdOverflow [p]
  else
    let s := s.updPort p fun y => { y with
      expects := updFirst g (fun x => { x with cell := some data, fill := fill, waits := false, entered := h256 }) y.expects }
    let n := s.holdOcc p
    if s.rf (Reg.lnHoldPeak p) 0 14 < n then s.wf (Reg.lnHoldPeak p) 0 14 n else s

/-- Slots (h − E − 4) to (h − E + 4), the nearest first (R201); DESIGN CHOICE: of two equally near the lower first (log 61). -/
def State.nearSlots (s : State) (p h : Nat) : List Nat :=
  let m := 512 * (h : Int) - 512 * 48 - s.dIn512 p
  let ks := (List.range 11).map fun d => m / 512 - 5 + (d : Int)
  let near := ks.filter fun k => decide ((512 * k - m).natAbs ≤ 2048)
  (sortBy (fun a => (512 * a - m).natAbs) near).map Int.toNat

/-- An unmatched cell of CLASS 00 (R201, R206): discarded. -/
def State.unmatched (s : State) (p h : Nat) (check : Nat) : State :=
  let s := s.updPort p fun y => { y with
    expects := y.expects.map fun x => if x.cell = none ∧ s.inWindow p h x = true then { x with clash := true } else x }
  let slots := (s.nearSlots p h).map fun k => (k, s.permitArr p k)
  let local_ := slots.filter fun k => 1 ≤ k.2 ∧ k.2 ≤ 16
  match local_ with
  | [] => (s.inc (Reg.lnForeignDrop p)).noteMs (lDie p) Ev.foreignCell [p] p
  | (_, o) :: _ =>
    if local_.any fun k => s.discards k.2 k.1 then s.inc (Reg.lnLateCellDrop p)
    else (s.inc (Reg.lnArrivalMismatch p)).note (lDie p) Ev.trainCheckMismatch [p, h, check, o]

/-- An accepted cell of CLASS 00 (R199, R200, R207), which enters the hold in this tick, `frac` 1/256 ticks after its start. -/
def State.arriveCell (s : State) (p : Nat) (frac : Byte) (c : Cell) (isNew : Bool) : State :=
  let h := s.now
  let h256 := 256 * s.now + frac.toNat
  let check := BitVec.ofNat 16 (cellCheck c)
  let es := (s.port p).expects
  if isNew then
    let g := fun (x : Expect) => decide (x.cell = none) && !x.lost && !x.waits && s.inWindow p h x && x.check == check
    if es.any g then s.enterHold p h256 g (cellData c) false else s.unmatched p h check.toNat
  else
    let pend := es.filter fun x => x.cell = none ∧ x.lost = false ∧ x.waits = true ∧ s.now ≤ x.release ∧ x.check = check
    match pend with
    | x0 :: xs =>
      let r := xs.foldl (fun a x => Nat.min a x.release) x0.release
      let g := fun (x : Expect) => decide (x.cell = none) && !x.lost && x.waits && x.check == check && x.release == r
      (s.enterHold p h256 g (cellData c) true).inc (Reg.lnReplayFill p)
    | [] =>
      if (s.port p).lateChecks.any fun k => k.1 == check then s.inc (Reg.lnLateCellDrop p)
      else s.unmatched p h check.toNat

/-! ## Packets (R312 to R314, R329, R331, R332, R335) -/

/-- Fields of a packet header (R313). -/
def pkOp (c : Cell) : Nat := fld c 0 4
def pkMcast (c : Cell) : Bool := bitAt c 4
def pkTurnback (c : Cell) : Bool := bitAt c 5
def pkDir (c : Cell) (a : Nat) : Bool := bitAt c (6 + a)
def pkAxis (c : Cell) : Nat := fld c 9 2
def pkDateline (c : Cell) : Bool := bitAt c 11
def pkResp (c : Cell) : Bool := bitAt c 12
def pkDst (c : Cell) (a : Nat) : Nat := fld c (13 + 5 * a) 5
def pkSrcModule (c : Cell) : Nat := fld c 43 12
def pkLen (c : Cell) : Nat := fld c 55 8 + 1
def pkAddr (c : Cell) : Nat := fld c 64 48
def pkToken (c : Cell) : Nat := fld c 112 14
def pkTen (c : Cell) : Bool := bitAt c 126
def pkMsgId (c : Cell) : Nat := fld c 128 16
def pkSseq (c : Cell) : Nat := fld c 162 16
def pkHops (c : Cell) : Nat := fld c 178 5
def pkMbLog2 (c : Cell) : Nat := fld c 216 5
def pkKey (c : Cell) : Nat := fld c 224 16
/-- Data byte field of a packet: `n` bytes from data byte `k`. -/
def pkData (c : Cell) (k n : Nat) : Nat := fld c (256 + 8 * k) (8 * n)

/-- The VC of this hop (R329). -/
def pkVc (c : Cell) : Nat := 2 * b2n (pkResp c) + b2n (pkDateline c)

/-- A reserved OP, a nonzero reserved field, or a tag VC other than the hop's (R312 to R314, R329). -/
def pkBad (c : Cell) : Bool :=
  decide (4 < pkOp c) || bitAt c 63 || bitAt c 127 || bitAt c 183 || fld c 188 4 ≠ 0 || fld c 221 3 ≠ 0 || fld c 240 16 ≠ 0 ||
    fld c 2072 15 ≠ 0 || cellVc c ≠ pkVc c || (pkOp c == 4 && (!pkTen c || pkAddr c ≠ 0)) || decide (223 < fld c 55 8)

/-- An accepted packet cell at port `p` (R314, R329, R331, R332, R335). -/
def State.packetIn (s : State) (p : Nat) (c : Cell) : State :=
  let q : Queued := { cell := c, vc := cellVc c, src := p, since := s.clk }
  let pooled := bitAt c 2087
  let gone := fun (s : State) => s.freeVc p { q with vc := cellVc c % 4 } pooled
  if pkBad c then gone (s.inc (Reg.lnPktBad p))
  else if s.packetOld c then gone ((s.inc (Reg.lnPktExpired p)).noteMs (lDie p) Ev.pktExpired [p] p)
  else if pooled then
    if 2048 ≤ (s.port p).pool.length then (s.inc (Reg.lnPoolOverrun p)).note (lDie p) Ev.poolOverrun [p]
    else (s.updPort p fun x => { x with pool := x.pool ++ [q] }).judgePool p
  else s.updPort p fun x => { x with vcs := x.vcs ++ [q] }

/-- Judge the LSEQ of a cell of CLASS 00 or 01 (R280), and take in what is accepted. -/
def State.acceptCell (s : State) (p : Nat) (frac : Byte) (c : Cell) : State :=
  let x := s.port p
  let d := seqDiff (cellLseq c) x.next
  if 131072 ≤ d then s.inc (Reg.lnDupDrop p)
  else if 8192 ≤ d then (s.inc (Reg.lnWindowDrop p)).noteMs (lDie p) Ev.linkWindow [p] p
  else if x.got.contains (cellLseq c) then s.inc (Reg.lnDupDrop p)
  else
    let isNew := decide (seqDiff x.high x.next ≤ d)
    let high := if isNew then (cellLseq c + 1) % seqMod else x.high
    let (n, got) := advanceNext (x.got.length + 1) x.next (cellLseq c :: x.got)
    let s := s.setPort p { x with next := n, got := got, high := high }
    if cellClass c = 0 then s.arriveCell p frac c isNew else s.packetIn p c

/-- CELL_RECEIVE (R272, R275, R278 to R280): a cell other than a signal cell reaches port `p`'s hold in this tick, `frac` 1/256
ticks after its start, in the codewords `cws`. -/
def execCellReceive (p : Fin 6) (c : Cell) (frac : Byte) (cws : List CodewordErr) (s : State) : Res :=
  s.act <|
    if s.linkState p < 2 ∨ cellClass c = 2 then s
    else
      match s.cellChecks p c cws with
      | (false, s) => s
      | (true, s) =>
        if s.rxRuns p = false then s
        else if cellClass c = 3 then
          let x := s.port p
          let d := seqDiff (fld c 2088 18) x.next
          if d ≤ 8192 ∧ seqDiff x.high x.next < d then s.setPort p { x with high := fld c 2088 18 } else s
        else s.acceptCell p frac c

/-! ## Signal cells (R282, R283, R286, R293, R299, R300, R333) -/

/-- An acknowledgement (R282). -/
def State.takeAck (s : State) (p a : Nat) : State :=
  let x := s.port p
  if seqDiff a x.oldest ≤ seqDiff x.nextTx x.oldest then
    s.setPort p { x with oldest := a, replay := x.replay.filter fun z => seqDiff a x.oldest ≤ seqDiff z.lseq x.oldest }
  else s.inc (Reg.lnAckRange p)

/-- One named LSEQ (R286): a replay of the last RTT_EST bars another. -/
def State.takeNak (s : State) (p lseq : Nat) : State :=
  match (s.port p).replay.find? (fun x => x.lseq == lseq) with
  | none => s
  | some x => if x.replays ≠ 0 ∧ s.clk < x.last + s.rttEst p then s else s.trigger p lseq

/-- The verdict on an IDENTITY body (R300): UNEXPECTED while the retention bank with EXPECT has failed (R505). -/
def State.judgeIdentity (s : State) (p : Nat) (n : Newt) : Nat :=
  let e := s.r (Reg.lnExpect p)
  if (s.port p).expectLost then 5
  else if nwBody n 0 4 ≠ s.rf (Reg.lnFabricId p) 0 32 then 2
  else if Nat.land (nwBody n 18 2) (s.rf (Reg.lnLevels p) 0 16) = 0 then 3
  else if nwBody n 20 2 ≠ 1 then 4
  else if !bitAt e 31 then 5
  else if nwBody n 16 1 % 8 ≠ fld e 15 3 ∨ nwBody n 12 2 % 32768 ≠ fld e 0 15 then 6
  else if bitAt e 18 ∧ (nwBody n 34 1 / 2 % 2 = 0 ∨ s.rf (Reg.lnCableInfo p) 1 1 = 0 ∨
      nwBody n 26 8 ≠ (s.r (Reg.lnCableId p)).toNat ∨ nwBody n 34 1 % 2 = s.rf (Reg.lnCableInfo p) 0 1) then 7
  else 1

/-- An IDENTITY newt (R279, R299, R300): PEER_IDENT, the verdict, the peer's verdict and the level. -/
def State.takeIdentity (s : State) (p : Nat) (n : Newt) : State :=
  let s := s.each (fun k s => s.w (Reg.lnPeerIdent p k) (BitVec.ofNat 64 (nwBody n (4 * k) 4))) (List.range 12)
  let old := s.rf (Reg.lnLinkStatus p) 4 3
  let was := s.rf (Reg.lnLinkStatus p) 7 3
  let v := s.judgeIdentity p n
  let k := Reg.lnLinkStatus p
  let s := ((s.wf k 4 3 v).wf k 7 3 (nwBody n 17 1)).wf k 10 4
    (Nat.log2 (Nat.land (nwBody n 18 2) (s.rf (Reg.lnLevels p) 0 16)))
  s.updPort p fun x =>
    let x := { x with recheck := false
                      judged := if v = 1 ∨ v = old then x.judged
                        else x.judged ++ [(v, [p, nwBody n 12 2 % 32768, nwBody n 16 1 % 8, nwBody n 4 8])]
                      echoLost := x.echoLost || (was == 1 && nwBody n 17 1 % 8 != 1) }
    if v = 1 ∧ old ≠ 1 then { x with next := 0, high := 0, got := [], named := [], missAt := [], nextAt := 0 } else x

/-- A CREDIT newt (R333): a VC that comes to have credit has it from now (R336). -/
def State.takeCredit (s : State) (p : Nat) (n : Newt) : State :=
  let t := s.each (fun v s => s.wf (Reg.lnCredit p v) 16 16 (nwBody n (2 * v) 2)) (List.range 4)
  let t := t.wf (Reg.lnUschedStatus p) 1 1 (nwBody n 8 1)
  t.updPort p fun x => { x with credAt := x.credAt.zipIdx.map fun y => if s.creditOk p y.2 then y.1 else s.clk }

/-- A LANE_CTRL newt (R293). DESIGN CHOICE: a request that names a lane above 33 is refused (log 107). -/
def State.takeLane (s : State) (p : Nat) (n : Newt) : State :=
  let x := s.port p
  let lane := nwBody n 1 1
  let spare := nwBody n 2 1
  let cur := s.now / s.fecPeriod p
  let ahead := (nwBody n 4 2 + 65536 - cur % 65536) % 65536
  let answer := fun op => newtOf 3 0 0 0 0 0 0
    (op + atByte 1 1 lane + atByte 2 1 spare + atByte 4 2 (nwBody n 4 2) + atByte 6 2 (nwBody n 6 2))
  match nwBody n 0 1 with
  | 1 =>
    if ahead = 0 ∨ 32768 ≤ ahead ∨ 34 ≤ lane ∨ 34 ≤ spare then s.setPort p { x with laneAnswers := x.laneAnswers ++ [answer 3] }
    else (s.setPort p { x with
      laneAnswers := x.laneAnswers ++ [answer 2]
      txSwap := some { lane := lane, spare := spare, at_ := (cur + ahead) * s.fecPeriod p, asked := true, agreed := true
                       seq := nwBody n 6 2 } }).wf (Reg.lnLaneTxFailed p) lane 1 1
  | 2 =>
    match x.rxSwap with
    | some w => if w.asked ∧ w.seq = nwBody n 6 2 then s.setPort p { x with rxSwap := some { w with agreed := true } } else s
    | none => s
  | 3 =>
    match x.rxSwap with
    | some w => if w.asked ∧ w.seq = nwBody n 6 2 then s.setPort p { x with rxSwap := some { w with asked := false } } else s
    | none => s
  | _ => s

/-- A newt type and scope that R341 permits. -/
def newtKnown (n : Newt) : Bool :=
  match nwType n, nwScope n with
  | 1, 0 => true
  | 2, 0 => true
  | 3, 0 => true
  | 4, 0 => true
  | 0x10, 2 => true
  | 0x11, 2 => true
  | 0x20, 1 => true
  | 0x21, 1 => true
  | _, _ => false

/-- A newt of a signal cell: link-local ones act here; TIME_XFER and those of VC4 are commands of their own (R341). -/
def State.takeNewt (s : State) (p : Nat) (n : Newt) : State :=
  if newtKnown n = false then s.inc (Reg.lnNewtDrop p)
  else
    match nwType n with
    | 2 => s.takeIdentity p n
    | 3 => s.takeLane p n
    | 4 => if s.linkState p = 4 then s.takeCredit p n else s
    | _ => s

/-- SIGNAL_CELL_RECEIVE (R272, R275, R277, R282, R283, R286, R299, R300, R333). DESIGN CHOICE: a cell of a reserved NEWTS value, 5 to 7, carries
no newts (log 107). -/
def execSignalCellReceive (p : Fin 6) (c : Cell) (cws : List CodewordErr) (s : State) : Res :=
  s.act <|
    if s.linkState p < 2 ∨ cellClass c ≠ 2 then s
    else
      match s.cellChecks p c cws with
      | (false, s) => s
      | (true, s) =>
        let s := s.updPort p fun x => { x with lastGood := s.clk }
        let ack := fld c 2088 18
        let s := if s.linkState p = 4 then s.takeAck p ack else s
        let s := if s.linkState p = 4 ∧ bitAt c 2106 = true then
            s.each (fun i s => s.takeNak p ((ack + fld c 2075 13 + i) % seqMod)) (List.range (fld c 2072 3 + 1))
          else s
        let n := fld c 2107 3
        s.each (fun i s => s.takeNewt p (BitVec.ofNat 512 (fld c (512 * i) 512))) (List.range (if n ≤ 4 then n else 0))

end Sys2Proof.Machine
end

