-- ==== Sys2Proof/Machine/LinkState.lean ====
section
/-!
DEFINITION. A port's state machine, its lanes and its cable (R289 to R311).
-/
namespace Sys2Proof.Machine
open Sys2Proof

/-! ## Entering states -/

/-- TRAIN_FAILS (R291). -/
def State.trainFails (s : State) (p : Nat) : Nat := s.rf (Reg.lnLinkStatus p) 18 4

/-- Training may start: DOWN, not held down, with a supported cable (R291, R304). -/
def State.mayTrain (s : State) (p : Nat) : Bool :=
  s.linkState p == 0 && s.rf (Reg.lnLinkCtrl p) 3 1 == 0 && s.rf (Reg.lnLinkStatus p) 22 1 == 1 &&
    (s.port p).cable.record.isSome && s.ready (lDie p) && !s.power.down && !bitAt (s.r Reg.saDieFailed) 1

/-- Number of ones of a 34-bit mask. -/
def ones34 (m : BitVec 34) : Nat := ((List.range 34).filter fun i => bitAt m i).length

/-- The lowest `n` set bits of a mask: the data lanes chosen. -/
def lowest (n : Nat) (m : BitVec 34) : Nat :=
  (((List.range 34).filter fun i => bitAt m i).take n).foldl (fun a i => a + 2 ^ i) 0

/-! ## Cable records (R305 to R308, R310) -/

/-- Fields of a cable record: bytes 128 + k of page 03h (R305). -/
def crField (r : BitVec 1024) (k n : Nat) : Nat := fld r (8 * k) (8 * n)

/-- RECORD_CRC over bytes 128 to 251. -/
def crGood (r : BitVec 1024) : Bool := (crc32 (bytesLE 124 r.toNat)).toNat == crField r 124 4

/-- A record with MATING and ON_HOURS increased and a new RECORD_CRC (R307). -/
def crBump (r : BitVec 1024) (mate hours : Nat) : BitVec 1024 :=
  let r := setFld (setFld r 192 32 (crField r 24 4 + mate)) 224 32 (crField r 28 4 + hours)
  setFld r 992 32 (crc32 (bytesLE 124 r.toNat)).toNat

/-- The cable registers read 0 while no cable is present (R310). -/
def State.clearCable (s : State) (p : Nat) : State :=
  (((((s.w (Reg.lnCableId p) 0).w (Reg.lnCableInfo p) 0).w (Reg.lnCableMating p) 0).w (Reg.lnCableHours p) 0).w
    (Reg.lnCableDelayAb p) 0).w (Reg.lnCableDelayBa p) 0

/-- LIFE_WARN and LIFE_EXCEEDED (R308), each recorded once per insertion. -/
def State.judgeLife (s : State) (p : Nat) (r : BitVec 1024) : State :=
  let m := crField r 24 4
  let h := crField r 28 4
  let rm := crField r 32 2
  let rh := crField r 34 4
  let warn := decide (rm * 9 ≤ m * 10) || (rh ≠ 0 && decide (rh * 9 ≤ h * 10))
  let over_ := decide (rm ≤ m) || (rh ≠ 0 && decide (rh ≤ h))
  let c := (s.port p).cable
  let s := if warn then s.wf (Reg.lnCableInfo p) 3 1 1 else s
  let s := if over_ then s.wf (Reg.lnCableInfo p) 4 1 1 else s
  let s := if warn ∧ c.warned = false then s.note (lDie p) Ev.cableLifeWarn [p] else s
  let s := if over_ ∧ c.exceeded = false then s.note (lDie p) Ev.cableLifeExceeded [p] else s
  s.updPort p fun x => { x with cable := { x.cable with warned := c.warned || warn, exceeded := c.exceeded || over_ } }

/-- The registers of a valid record, as a CMIS read shows them (R310). -/
def State.showCable (s : State) (p : Nat) (r : BitVec 1024) : State :=
  let e := crField r 12 1 % 2
  let s := (s.w (Reg.lnCableId p) (BitVec.ofNat 64 (crField r 4 8))).wf (Reg.lnCableInfo p) 0 3 (e + 2 + crField r 13 1 % 2 * 4)
  let s := (s.w (Reg.lnCableMating p) (BitVec.ofNat 64 (crField r 24 4))).w (Reg.lnCableHours p) (BitVec.ofNat 64 (crField r 28 4))
  let s := (s.w (Reg.lnCableDelayAb p) (BitVec.ofNat 64 (crField r 16 4))).w (Reg.lnCableDelayBa p) (BitVec.ofNat 64 (crField r 20 4))
  s.judgeLife p r

/-- SA sets CABLE_ASYM from a valid record, at its insertion, or where the register has been reset since (R306; log 108). -/
def State.setAsym (s : State) (p : Nat) (r : BitVec 1024) : State :=
  let ab : Int := crField r 16 4
  let ba : Int := crField r 20 4
  (s.wf (Reg.lnCableAsym p) 0 16 (enc 16 (if crField r 12 1 % 2 = 0 then ab - ba else ba - ab))).updPort p fun x =>
    { x with cable := { x.cable with asym := true } }

/-- A CMIS read of the cable end (R303, R310): the registers of a present end with a valid record are rewritten. -/
def State.readCable (s : State) (p : Nat) : State :=
  match (s.port p).cable.record with
  | some r => if crGood r then s.showCable p r else s
  | none => s

/-! ## Training (R291, R295, R298) -/

/-- Phase 2 of training begins (R298, R303): the cable has been read and brought up, and its transmitters are on. -/
def State.phaseTwo (s : State) (p : Nat) : State :=
  let s := match (s.port p).cable.record with
    | some r => if crGood r && !(s.port p).cable.asym then s.setAsym p r else s
    | none => s
  (s.readCable p).updPort p fun x => { x with
    train := some { begun := s.clk, at_ := s.clk }
    cable := { x.cable with up := true, txOnSince := if x.cable.txOnSince = none then some s.clk else x.cable.txOnSince } }

/-- Training starts (R298, R303): at phase 1 where the cable is not up, else at phase 2. -/
def State.startTraining (s : State) (p : Nat) : State :=
  if s.mayTrain p then
    let s := ((s.setLink p 1).withPins { s.pins with resetL := setFld s.pins.resetL p 1 1 }).updPort p fun x => { x with
      retrainAt := none, failing := 0, watch := [], line := {}, rxWord := 0
      train := some { phase := 1, begun := s.clk, at_ := s.clk } }
    if (s.port p).cable.up then s.phaseTwo p else s
  else s

/-- A training is due (R291): the wait in DOWN is over, and fewer than 8 attempts have failed. -/
def State.trainDue (s : State) (p : Nat) : Bool :=
  match (s.port p).retrainAt with
  | some t => decide (t ≤ s.clk) && decide (s.trainFails p < 8)
  | none => false

/-- A failed attempt (R289, R291, R298): 10 ms to the next, until 8 have failed. -/
def State.trainFailed (s : State) (p : Nat) : State :=
  let n := s.trainFails p
  let n' := if n < 15 then n + 1 else 15
  let s := ((s.setLink p 0).wf (Reg.lnLinkStatus p) 14 4 3).wf (Reg.lnLinkStatus p) 18 4 n'
  let s := s.updPort p fun x => { x with train := none, retrainAt := if n' < 8 then some (s.clk + 31250000) else none }
  s.note (lDie p) Ev.linkDown [p, 3]

/-- The bound of a training phase in ticks, and of phases 2 to 5 together (R298): 10 s, 5, 25, 5, 5 and 40 ms. -/
def phaseBound (k : Nat) : Nat := if k = 1 then 31250000000 else if k = 3 then 78125000 else 15625000
def trainBound : Nat := 125000000

/-- The phase, or the attempt, has run past its bound (R298). -/
def Train.overrun (t : Train) (now : Nat) : Bool :=
  decide (t.at_ + phaseBound t.phase < now) || (decide (2 ≤ t.phase) && decide (t.begun + trainBound < now))

/-- The good lanes that a phase 4 leaves: locked, adapted, not failing, with a marker at most 8 ticks after the earliest (R274, R298). -/
def Train.usable (t : Train) (failing : BitVec 34) (skew : List Byte) : BitVec 34 :=
  BitVec.ofNat 34 ((lanesIn (t.locked &&& t.ready &&& ~~~failing).toNat).foldl (fun a l =>
    if (skew.getD l 0).toNat ≤ 8 then a + 2 ^ l else a) 0)

/-- A phase of training ends (R298). -/
def Train.next (t : Train) (now : Nat) (failing : BitVec 34) (x : TrainStep) : Option Train :=
  match t.phase, x with
  | 2, .locked ls => some { t with phase := 3, at_ := now, locked := ls }
  | 3, .adapted ls q o a b =>
    some { t with phase := 4, at_ := now, ready := ls, precReq := q, precOn := o, coefReq := a, coefStat := b }
  | 4, .deskewed sk peer h d => some { t with phase := 5, at_ := now, rx := t.usable failing sk, tx := peer, peerHalf := h, deskew := d }
  | _, _ => none

/-- TRAINING_START (R291, R298): a port whose wait is over starts training; in TRAINING, a phase ends with what `step` brings, or
the attempt fails where its bound has passed. -/
def execTrainingStart (p : Fin 6) (step : Option TrainStep) (s : State) : Res :=
  s.act <|
    match s.linkState p, step with
    | 0, none => if s.trainDue p then s.startTraining p else s
    | 1, some x =>
      match (s.port p).train with
      | some t =>
        if t.overrun s.clk then s.trainFailed p
        else if t.phase = 1 then (if x = .broughtUp then s.phaseTwo p else s)
        else
          match t.next s.clk (s.port p).failing x with
          | some t => s.updPort p fun y => { y with train := some t }
          | none => s
      | none => s
    | _, _ => s

/-- The width that training has chosen (R295), none where it fails. DEDUCED: the port takes the smaller of its two directions' widths, so half
width needs ALLOW_HALF at both ends (log 107). -/
def State.trainWidth (s : State) (p : Nat) (t : Train) : Option Bool :=
  let worst := Nat.min (ones34 t.rx) (ones34 t.tx)
  let allow := s.rf (Reg.lnLinkCtrl p) 4 1 == 1 && t.peerHalf
  if 32 ≤ worst then some false else if 16 ≤ worst ∧ allow = true then some true else none

/-- The lowest good spare lane: one that training found good, that carries no data and has not failed. -/
def State.goodSpare (s : State) (p : Nat) : Option Nat :=
  firstP (fun l => (s.port p).rxGood.getLsbD l && !bitAt (s.r (Reg.lnLaneRxActive p)) l && !bitAt (s.r (Reg.lnLaneRxFailed p)) l)
    (List.range 34)

/-- A swap of the next data lane that is failing (R293, R294), if any. -/
def State.swapNext (s : State) (p : Nat) : State :=
  match firstP (fun l => bitAt (s.r (Reg.lnLaneRxActive p)) l && (s.port p).failing.getLsbD l) (List.range 34), s.goodSpare p with
  | some l, some k => s.updPort p fun x => { x with rxSwap := some { lane := l, spare := k } }
  | some _, none => ((s.updPort p fun x => { x with rxSwap := none }).note (lDie p) Ev.lanesExhausted [p]).portDown p 7
  | none, _ => s.updPort p fun x => { x with rxSwap := none }

/-- Training has ended (R271, R293 to R295, R297): a data lane that has failed since the lanes were chosen is swapped. -/
def State.trained (s : State) (p : Nat) (t : Train) (half : Bool) : State :=
  let w := if half then 16 else 32
  let s := s.setLink p 2
  let k := Reg.lnLinkStatus p
  let s := ((s.wf k 3 1 (b2n half)).wf k 4 3 0).wf k 7 3 0
  let s := (s.w (Reg.lnLaneRxActive p) (BitVec.ofNat 64 (lowest w t.rx))).w (Reg.lnLaneTxActive p) (BitVec.ofNat 64 (lowest w t.tx))
  let s := (s.w (Reg.lnErrCount p) 0).wf (Reg.lnTsDeskew p) 0 16 t.deskew.toNat
  (s.updPort p fun x => { x with
    lastGood := s.clk, halfStart := s.clk, rxSwap := none, txSwap := none, laneAnswers := [], judged := []
    train := none, rxGood := t.rx, txGood := t.tx, rxWord := 0, line := {}, echoLost := false
    rxMap := lanesIn (lowest w t.rx), txMap := lanesIn (lowest w t.tx) }).swapNext p

/-- TRAINING_COMPLETE (R295, R297, R298): the end of phase 5, both ends locked and `clean` with no uncorrectable codeword for 100 µs;
or the end of an attempt past its bounds. -/
def execTrainingComplete (p : Fin 6) (clean : Bool) (s : State) : Res :=
  s.act <|
    match s.linkState p, (s.port p).train with
    | 1, some t =>
      if t.overrun s.clk then s.trainFailed p
      else if t.phase = 5 ∧ clean = true ∧ t.at_ + 312500 ≤ s.clk then
        match s.trainWidth p t with
        | some half => s.trained p t half
        | none => s.trainFailed p
      else s
    | _, _ => s

/-- RETRAIN_TIMER (R291): 1 ms after entry to DOWN, or 10 ms after a failed attempt. -/
def execRetrainTimer (p : Fin 6) (s : State) : Res :=
  s.act <| if s.trainDue p then s.startTraining p else s

/-- CABLE_CHANGED where this link-up's cable identities differ from the previous one's (R309). Of the eight values that the rule names
five are recorded (R463): own CABLE_ID and END, each old and new, and the peer's old CABLE_ID (log 62). -/
def State.compareCable (s : State) (p : Nat) : State :=
  let own := s.r (Reg.lnCableId p)
  let ownEnd := s.rf (Reg.lnCableInfo p) 0 1 == 1
  let peer : W64 := BitVec.ofNat 64 (fld (s.r (Reg.lnPeerIdent p 6)) 16 16 + fld (s.r (Reg.lnPeerIdent p 7)) 0 32 * 2 ^ 16 +
    fld (s.r (Reg.lnPeerIdent p 8)) 0 16 * 2 ^ 48)
  let peerEnd := fld (s.r (Reg.lnPeerIdent p 8)) 16 1 == 1
  let now_ := (own, ownEnd, peer, peerEnd)
  let old := (s.port p).cable.prev
  let s := s.updPort p fun x => { x with cable := { x.cable with prev := some now_ } }
  match old with
  | some (a, ae, b, be) =>
    if (a, ae, b, be) = now_ then s
    else s.note 0 Ev.cableChanged [a.toNat, own.toNat, b2n ae, b2n ownEnd, b.toNat]
  | none => s

/-- LINK_UP (R279, R291, R301, R309, R333): at a frame start with both verdicts ACCEPTED. -/
def execLinkUp (p : Fin 6) (s : State) : Res :=
  s.act <|
    let st := s.linkState p
    if (st = 3 ∨ (st = 2 ∧ (s.port p).judged = [])) ∧ s.now % 4096 = 0 ∧ s.rf Reg.saFabricPosition 31 1 = 1 ∧ s.rf (Reg.lnLinkStatus p) 4 3 = 1 ∧ s.rf (Reg.lnLinkStatus p) 7 3 = 1 then
      let s := ((s.setLink p 4).inc (Reg.lnLinkUps p)).wf (Reg.lnLinkStatus p) 18 4 0
      let s := s.updPort p fun x => { x with
        oldest := 0, nextTx := 0, replay := [], localFreed := [0, 0, 0, 0], freedAt := [0, 0, 0, 0], poolOn := false
        lastSent := [s.clk, s.clk, s.clk, s.clk], credAt := [s.clk, s.clk, s.clk, s.clk], echoLost := false, stalled := [false, false, false, false] }
      let s := s.each (fun v s => s.w (Reg.lnCredit p v) 0) (List.range 4)
      let s := (s.wf (Reg.lnUschedStatus p) 1 2 3).wf (Reg.lnLineClassStatus p) 0 1 0
      s.compareCable p
    else s

/-- The event that names a verdict (R300, R301). -/
def verdictCode (v : Nat) : Nat :=
  match v with
  | 2 => Ev.fabricDiffers
  | 3 => Ev.noCommonLevel
  | 4 => Ev.ttFormatDiffers
  | 5 => Ev.unexpected
  | 6 => Ev.miscabled
  | _ => Ev.cableMismatch

/-- ENTER_SIDING (R299, R301, R505): at a frame start, where the verdict is not ACCEPTED, or has not been since the last one, or the peer's
echo has ceased to be; each new verdict is recorded with the peer's COORD, PORT and MODULE_SERIAL. While FABRIC_POSITION.VALID is 0, or
EXPECT is lost with its retention bank, a port stays in IDENTIFY. -/
def execEnterSiding (p : Fin 6) (s : State) : Res :=
  s.act <|
    let st := s.linkState p
    let v := s.rf (Reg.lnLinkStatus p) 4 3
    let pv := s.rf (Reg.lnLinkStatus p) 7 3
    if s.now % 4096 ≠ 0 ∨ ¬(st = 2 ∨ st = 3 ∨ st = 4) ∨ (st = 2 ∧ s.rf Reg.saFabricPosition 31 1 = 0) then s
    else
      let x := s.port p
      let lost := x.echoLost
      let s := s.each (fun (y : Nat × List Nat) s => s.note (lDie p) (verdictCode y.1) y.2) x.judged
      let s := s.updPort p fun x => { x with echoLost := false, judged := [] }
      if st = 2 ∧ x.expectLost = true then s
      else if st ≠ 3 ∧ (2 ≤ v ∨ x.judged ≠ [] ∨ lost = true ∨ (st = 4 ∧ pv ≠ 1)) then s.portSiding p else s

/-- SILENT_TIMEOUT (R289): 32 signal slots without a good signal cell. -/
def execSilentTimeout (p : Fin 6) (s : State) : Res :=
  s.act <| if 2 ≤ s.linkState p ∧ (s.port p).lastGood + 2048 ≤ s.clk then s.portDown p 5 else s

/-- ERROR_WINDOW_END (R289): the end of a half-window. -/
def execErrorWindowEnd (p : Fin 6) (s : State) : Res :=
  s.act <|
    if 2 ≤ s.linkState p ∧ (s.port p).halfStart + s.rf (Reg.lnErrWindow p) 0 32 / 2 ≤ s.clk then
      let c := s.rf (Reg.lnErrCount p) 0 16
      let total := c + s.rf (Reg.lnErrCount p) 16 16
      let s := (s.w (Reg.lnErrCount p) (BitVec.ofNat 64 (c * 65536))).updPort p fun x => { x with halfStart := s.clk }
      if s.rf (Reg.lnLinkCtrl p) 8 8 < total then s.portDown p 4 else s
    else s

/-! ## Lanes (R292 to R294) -/

/-- A receive lane is declared failing (R292, R294): in TRAINING it is left out of the lanes chosen (R303). -/
def State.laneFails (s : State) (p l : Nat) : State :=
  if s.linkState p = 0 ∨ (s.port p).failing.getLsbD l = true then s
  else
    let s := (s.wf (Reg.lnLaneRxFailed p) l 1 1).updPort p fun x => { x with failing := setFld x.failing l 1 1 }
    if s.linkState p = 1 then s else
    let busy := (s.port p).rxSwap.isSome
    if bitAt (s.r (Reg.lnLaneRxActive p)) l = false then
      match (s.port p).rxSwap with
      | some w => if w.spare = l then
          match s.goodSpare p with
          | some k => s.updPort p fun x => { x with rxSwap := some { lane := w.lane, spare := k } }
          | none => (s.note (lDie p) Ev.lanesExhausted [p]).portDown p 7
          else s
      | none => s
    else
      match s.goodSpare p with
      | none => (s.note (lDie p) Ev.lanesExhausted [p]).portDown p 7
      | some k => if busy then s else s.updPort p fun x => { x with rxSwap := some { lane := l, spare := k } }

/-- The period index that lane `l`'s next marker must carry, where it has had one, and its logical lane. -/
def markExpected (x : LaneWatch) (k : Nat) : Bool :=
  match x.mark with
  | some m => k == (m + x.missed + 1) % 65536
  | none => true

/-- What the receiver has seen of lane `l`, after a report (R292); and whether the lane is now failing: signal or lock lost for 32
ticks, two markers running missing or wrong, or four windows with more than 64 corrected symbols. -/
def State.judgeLane (s : State) (p l : Nat) (x : LaneReport) : LaneWatch × Bool :=
  let w := s.laneWatch p l
  match x with
  | .signal true => ({ w with lost := none }, false)
  | .signal false =>
    let t := w.lost.getD s.clk
    ({ w with lost := some t }, decide (t + 32 ≤ s.clk))
  | .marker m =>
    let logical := (s.port p).rxMap.idxOf l
    let good := match m with
      | some (n, k) => n.toNat == logical && markExpected w k.toNat
      | none => false
    if good then ({ w with mark := m.map (·.2.toNat), missed := 0 }, false)
    else ({ w with missed := w.missed + 1 }, decide (2 ≤ w.missed + 1))
  | .symbols => (w.count s.clk 0, w.noisy s.clk)

/-- LANE_FAILING (R292, R294): what the receiver of lane `l` reports; a lane that meets a condition of R292 is declared failing. -/
def execLaneFailing (p : Fin 6) (l : Fin 34) (x : LaneReport) (s : State) : Res :=
  s.act <|
    if s.linkState p < 2 then s
    else
      let r := s.judgeLane p l x
      let s := s.setWatch p l r.1
      if r.2 then s.laneFails p l else s

/-- LANE_SWITCH (R293): at the start of the agreed period the failing lane's symbols move to the spare. A failing data lane
that waits for a swap then gets one. -/
def execLaneSwitch (p : Fin 6) (s : State) : Res :=
  s.act <|
    let s := match (s.port p).txSwap with
      | some w =>
        if w.at_ ≤ s.now then
          ((s.wf (Reg.lnLaneTxActive p) w.lane 1 0).wf (Reg.lnLaneTxActive p) w.spare 1 1).updPort p fun x =>
            { x with txSwap := none, txMap := swapIn w.lane w.spare x.txMap }
        else s
      | none => s
    match (s.port p).rxSwap with
    | some w =>
      if w.agreed = true ∧ w.at_ ≤ s.now then
        let s := ((s.wf (Reg.lnLaneRxActive p) w.lane 1 0).wf (Reg.lnLaneRxActive p) w.spare 1 1).note (lDie p) Ev.laneSpared []
        (s.updPort p fun x => { x with rxMap := swapIn w.lane w.spare x.rxMap }).swapNext p
      else s
    | none => s

/-! ## Cables (R303 to R309) -/

/-- CABLE_INSERTED (R303 to R308): the end's record page, whether it has flat memory, whether the write back succeeds, and
whether the module reaches ModuleReady in time. The L-die's bring-up of the cable releases ResetL (R606). -/
def execCableInserted (p : Fin 6) (r : BitVec 1024) (flat writeOk isReady : Bool) (s : State) : Res :=
  s.act <|
    if s.ready (lDie p) = false then s
    else
    let k := Reg.lnLinkStatus p
    let s := s.withPins { s.pins with resetL := setFld s.pins.resetL p 1 1 }
    let s := ((s.clearCable p).wf k 22 1 1).wf k 18 4 0
    let s := s.updPort p fun x => { x with cable := { x.cable with present := true, up := false, asym := false, record := none, warned := false, exceeded := false } }
    if flat = true ∨ crField r 2 2 ≠ 0x474E then (s.wf k 14 4 9).note (lDie p) Ev.linkDown [p, 9]
    else
      let good := crGood r
      let r' := if good then crBump r 1 0 else r
      let s := s.updPort p fun x => { x with cable := { x.cable with record := some (if writeOk then r' else r) } }
      let s := if good then
          let s := (s.showCable p r').setAsym p r'
          if writeOk then s else s.note (lDie p) Ev.cableRecordWrite [p]
        else (s.wf (Reg.lnCableAsym p) 0 16 0).note (lDie p) Ev.cableRecordInvalid [p]
      if isReady then (s.updPort p fun x => { x with cable := { x.cable with up := true } }).startTraining p else s.trainFailed p

/-- A port without a usable cable (R289, R291, R606): with the end still in, it tries again after 1 ms. -/
def State.noCable (s : State) (p : Nat) : State :=
  let s := if s.linkState p = 1 then (s.setLink p 0).wf (Reg.lnLinkStatus p) 14 4 2 else s.portDown p 2
  s.updPort p fun x => { x with
    train := none, cable := { x.cable with up := false }, retrainAt := if s.rf (Reg.lnLinkCtrl p) 3 1 = 1 then none else some (s.clk + 3125000) }

/-- CABLE_REMOVED (R289, R310, R606). -/
def execCableRemoved (p : Fin 6) (s : State) : Res :=
  s.act <|
    let s := (s.noCable p).withPins { s.pins with resetL := setFld s.pins.resetL p 1 0 }
    ((s.clearCable p).wf (Reg.lnLinkStatus p) 22 1 0).updPort p fun x =>
      { x with retrainAt := none, cable := { x.cable with
          present := false, up := false, record := none, txOnSince := none, onTicks := 0, warned := false, exceeded := false } }

/-- CMIS_POLL (R289, R303, R310): the lanes flagged, and whether the module is in ModuleReady, which it is to reach in phase 1. -/
def execCmisPoll (p : Fin 6) (flags : BitVec 34) (isReady : Bool) (s : State) : Res :=
  s.act <|
    if s.linkState p = 0 then s
    else if isReady = false then (if (s.port p).cable.up then s.noCable p else s)
    else (s.readCable p).each (fun l s => if bitAt flags l then s.laneFails p l else s) (List.range 34)

/-- Ticks of one hour: 3.125 GHz. -/
def hourTicks : Nat := 11250000000000

/-- Ticks with the transmitters on that ON_HOURS does not hold yet. -/
def Cable.ticks (c : Cable) (now : Nat) : Nat := c.onTicks + (match c.txOnSince with | some t => now - t | none => 0)

/-- The transmitters go off (R307): with their L-die, in M3 or Off. -/
def State.cableOff (s : State) (p : Nat) : State :=
  (s.updPort p fun x => { x with cable := { x.cable with onTicks := x.cable.ticks s.clk, txOnSince := none, up := false } }).withPins
    { s.pins with resetL := setFld s.pins.resetL p 1 0 }

/-- The accumulated whole hours are added to ON_HOURS (R307). -/
def State.addHours (s : State) (p : Nat) (least : Nat) (writeOk : Bool) : State :=
  let c := (s.port p).cable
  match c.record with
  | some r =>
    let h := c.ticks s.clk / hourTicks
    if h < least ∨ h = 0 ∨ crGood r = false then s
    else
      let r' := crBump r 0 h
      let s := s.updPort p fun x => { x with cable := { x.cable with
        record := some (if writeOk then r' else r), onTicks := c.ticks s.clk - h * hourTicks
        txOnSince := c.txOnSince.map fun _ => s.clk } }
      let s := s.showCable p (if writeOk then r' else r)
      if writeOk then s else s.note (lDie p) Ev.cableRecordWrite [p]
  | none => s

/-- CABLE_HOURS_UPDATE (R307): at each 8 h of transmitter time, and at entry to M3 or Off. -/
def execCableHoursUpdate (p : Fin 6) (writeOk : Bool) (s : State) : Res :=
  s.act <| s.addHours p (if s.power.entering = some 3 ∨ s.power.entering = some 4 then 1 else 8) writeOk

/-! ## Commands (R291, R302, R310, R311) -/

/-- The counters of R215, R310, R348 and R543 that a port reset clears. -/
def portCounters (p : Nat) : List Nat :=
  [Reg.lnHoldPeak p, Reg.lnDepartNotReady p, Reg.lnDepartDenied p, Reg.lnArrivalMismatch p, Reg.lnTrainLate p, Reg.lnLateCellDrop p,
   Reg.lnForeignDrop p, Reg.lnReplayFill p, Reg.lnHoldOverflow p, Reg.lnPassVoid p, Reg.lnTtEcc p, Reg.lnReduceCells p,
   Reg.lnReduceNotReady p, Reg.lnReduceExpMismatch p, Reg.lnReduceDatapath p, Reg.lnDropCopies p] ++
  [Reg.lnErrCount p, Reg.lnFecCorrected p, Reg.lnFecUncorrectable p, Reg.lnCrcFail p, Reg.lnDupDrop p, Reg.lnWindowDrop p,
   Reg.lnNakSent p, Reg.lnReplays p, Reg.lnReplayTimeouts p, Reg.lnReplayBufFull p, Reg.lnReplayDiscard p, Reg.lnAckRange p,
   Reg.lnLinkUps p] ++ (List.range 34).map (Reg.lnLaneCe p) ++
  [Reg.lnPktExpired p, Reg.lnPktNoRoute p, Reg.lnTurnbacks p, Reg.lnTurnbackDrop p, Reg.lnPoolOverrun p, Reg.lnPktBad p,
   Reg.lnPktDestOff p, Reg.lnNewtDrop p, Reg.lnNewtDup p, Reg.lnUnschedStalls p] ++
  (List.range 4).flatMap fun c => [Reg.lnTxCells p c, Reg.lnRxCells p c]

/-- A register at its reset value. -/
def State.resetReg (s : State) (k : Nat) : State := s.w k (Reg.resetVal k)

/-- The timetable pair of port `p` after a port reset (R253): both banks empty, bank A active, walkers idle. -/
def State.clearTimetable (s : State) (p : Nat) : State :=
  let s := s.each (fun k s => s.resetReg k)
    ([Reg.lnTtBank p, Reg.lnTtArmFtc p, Reg.lnTtArmOwners p, Reg.lnTtLoadStatus p] ++
      (List.range 32).map (Reg.lnReduceFlags p))
  let s := (s.zeroMem (portBank p false) 0x400000).zeroMem (portBank p true) 0x400000
  s.each (fun o s => s.each (fun k s => (s.setWalker (walkKey p o k) {}).setPreWalker (walkKey p o k) {}) [0, 1]) (List.range 32)

/-- A port reset (R212, R253, R289, R290, R311): cause 1; training starts 1 ms later. Its hold keeps the cells it matched and those it
still expects, and cells handed back to forwarding stay with it. -/
def State.portReset (s : State) (p : Nat) : State :=
  let s := s.portDown p 1
  let s := (s.setLink p 0).w (Reg.lnLinkStatus p)
    (BitVec.ofNat 64 (2 ^ 14 + s.rf (Reg.lnLinkStatus p) 22 1 * 2 ^ 22))
  let s := s.each (fun k s => s.resetReg k) (portCounters p ++
    [Reg.lnLaneRxActive p, Reg.lnLaneRxFailed p, Reg.lnLaneTxActive p, Reg.lnLaneTxFailed p, Reg.lnReplayState p,
     Reg.lnUschedStatus p, Reg.lnPoolOcc p, Reg.lnLineClassStatus p] ++ (List.range 4).map (Reg.lnCredit p) ++
     (List.range 12).map (Reg.lnPeerIdent p))
  let s := s.clearTimetable p
  let x := s.port p
  let held := s.rf (Reg.lnLinkCtrl p) 3 1 == 1
  (s.setPort p { cable := x.cable, entered := s.clk, retrainAt := if held then none else some (s.clk + 3125000)
                 expects := x.expects, operands := x.operands, toTile := x.toTile, fwd := x.fwd, failed := x.failed
                 expLogged := x.expLogged, lateChecks := x.lateChecks, lateOf := x.lateOf
                 back := x.back, vcs := x.vcs, pool := x.pool }).forgetPeer p

/-- A port reset is asked for (R508, R509): held for a wake, absorbed by a running reset that covers it, or performed. -/
def State.askPortReset (s : State) (p : Nat) : State :=
  if s.asleep then s.holdReset 6 p
  else if s.resetRuns 6 p then s
  else (s.beginReset 6 p []).portReset p

/-- A write of `Ln.LINK_CTRL` (R289, R291, R302, R310, R311). -/
def State.writeLinkCtrl (s : State) (p : Nat) (v : W32) : State :=
  let was := s.rf (Reg.lnLinkCtrl p) 3 1
  let s := s.write32 (Reg.lnLinkCtrl p) v
  let s := if bitAt v 0 then s.askPortReset p else s
  let s := if bitAt v 2 then s.updPort p fun x => { x with recheck := true } else s
  if bitAt v 1 then
    let s := (s.wf (Reg.lnLinkCtrl p) 3 1 0).wf (Reg.lnLinkStatus p) 18 4 0
    (s.portDown p 10).startTraining p
  else if bitAt v 3 then
    (s.portDown p 8).updPort p fun x => { x with retrainAt := none }
  else if was = 1 ∧ s.linkState p = 0 then s.updPort p fun x => { x with retrainAt := some (x.entered + 3125000) }
  else s

/-- A write of `Ln.LINK_CTRL` by an interface, with bit `b` of it 1. -/
def State.linkCommand (s : State) (i : Iface) (p : Nat) (v : W32) (b : Nat) : State :=
  s.regWrite i (Reg.lnLinkCtrl p) false fun s => s.writeLinkCtrl p (setFld v b 1 1)

/-- PORT_RESET (R311): a write of LINK_CTRL with PORT_RESET. -/
def execPortReset (i : Iface) (p : Fin 6) (v : W32) (s : State) : Res := s.act (s.linkCommand i p v 0)

/-- RETRAIN (R291). -/
def execRetrain (i : Iface) (p : Fin 6) (v : W32) (s : State) : Res := s.act (s.linkCommand i p v 1)

/-- RECHECK (R302). -/
def execRecheck (i : Iface) (p : Fin 6) (v : W32) (s : State) : Res := s.act (s.linkCommand i p v 2)

/-- HOLD_DOWN (R289). -/
def execHoldDown (i : Iface) (p : Fin 6) (v : W32) (s : State) : Res := s.act (s.linkCommand i p v 3)

end Sys2Proof.Machine
end

