-- ==== Sys2Proof/Machine/Power.lean ====
section
/-!
DEFINITION. Performance levels, power and thermal limits, regulators and AVSBus (R486 to R495, R503, R514 to R517).
-/
namespace Sys2Proof.Machine
open Sys2Proof

/-! ## Floors and targets (R487, R493) -/

/-- FLOOR of an image (R425). -/
def imageFloor (im : Option Image) : Nat :=
  match im with
  | some im => fld im.header 72 8 % 4
  | none => 3

/-- The fastest floor partition `p` imposes: of its active image while running or parked, and of the incoming image while armed
(R487, R489). -/
def State.partFloor (s : State) (p : Nat) : Nat :=
  let st := s.partState p
  let x := s.part p
  if st < 2 ∨ 4 < st then 3
  else Nat.min (if st = 2 then 3 else imageFloor x.active) (if x.armed.any (fun a => a.restart) then imageFloor x.standby else 3)

/-- The effective floor F_eff (R487). -/
def State.floorEff (s : State) : Nat := ((List.range 16).map s.partFloor).foldl Nat.min 3

def State.level (s : State) : Nat := s.rf Reg.sbPlStatus 0 2
def State.withdrawn (s : State) (l : Nat) : Bool := bitAt (s.r Reg.sbPlStatus) (8 + l)
def State.powerStep (s : State) : Nat := s.rf Reg.sbPlStatus 12 2
def State.thermStep (s : State) : Nat := s.rf Reg.sbPlStatus 14 2

/-- The level for target `t` that is not withdrawn (R487): none where R493 applies. -/
def State.allowed (s : State) (f t : Nat) : Option Nat :=
  if s.withdrawn t = false then some t
  else match ((List.range t).reverse).find? (fun l => !s.withdrawn l) with
    | some l => some l
    | none => (List.range 4).find? fun l => decide (t < l) && decide (l ≤ f) && !s.withdrawn l

/-- SB's target level (R487). -/
def State.targetLevel (s : State) : Option Nat :=
  let f := s.floorEff
  let t := Nat.max (s.rf Reg.saPlRequest 0 2) (Nat.max s.powerStep s.thermStep)
  s.allowed f (Nat.min t f)

/-- SA all-stops a partition for SB, with the cause reported first (R491 to R493); its tiles stop with the report (R468). -/
def State.stopFor (s : State) (p code : Nat) : State :=
  (s.fail 1 p code []).haltPart p code s.modNum 0 false

/-- Every partition whose FLOOR equals F_eff stops. -/
def State.emergency (s : State) (code : Nat) : State :=
  let f := s.floorEff
  s.each (fun p s => if 2 ≤ s.partState p ∧ s.partState p ≤ 4 ∧ s.partFloor p = f then s.stopFor p code else s) (List.range 16)

/-! ## Rails (R598) -/

/-- Rail `16 · master + RailSel`: its die, the first of the four for a rail of HBM, and its nominal mV and full rating in units of 0.1 A; none where
no rail answers there. -/
def railSpec (r : Nat) : Option (Nat × Nat × Nat) :=
  let m := r / 16
  let k := r % 16
  if m = 7 then
    match k with
    | 0 => some (0, 750, 220)
    | 1 => some (1, 750, 220)
    | 2 => some (0, 750, 30)
    | 3 => some (0, 1800, 40)
    | 4 => some (0, 1800, 2)
    | _ => none
  else if m = 6 then (if k < 4 then some (jDie k, 750, 520) else none)
  else if m = 4 ∨ m = 5 then
    (if k < 3 then some (lDie (3 * (m - 4) + k), 750, 300)
     else if k < 6 then some (lDie (3 * (m - 4) + (k - 3)), 900, 360) else none)
  else if m < 4 then
    match k with
    | 0 => some (cDie m, 800, 5600)
    | 1 => some (cDie m, 850, 900)
    | 6 => some (mDie (4 * m), 1050, 1200)
    | 7 => some (mDie (4 * m), 750, 1100)
    | 8 => some (mDie (4 * m), 1800, 140)
    | _ => if 2 ≤ k ∧ k ≤ 5 then some (mDie (4 * m + (k - 2)), 750, 220) else none
  else none

/-- The dies a rail serves: a rail of HBM serves the stacks of four M-dies (R598). -/
def railDies (r : Nat) : List Nat :=
  match railSpec r with
  | none => []
  | some (d, _, _) => if r / 16 < 4 ∧ 6 ≤ r % 16 then [d, d + 1, d + 2, d + 3] else [d]

/-- The core rail of a die, which the margin plan sets (R521, R598). -/
def dieRail (d : Nat) : Nat :=
  if d ≤ 1 then 0x70 + d else if d ≤ 5 then 16 * (d - 2) else if d ≤ 9 then 0x60 + (d - 6)
  else if d ≤ 15 then 16 * (4 + (d - 10) / 3) + (d - 10) % 3 else 16 * ((d - 16) / 4) + 2 + (d - 16) % 4

def railNominal (r : Nat) : Nat :=
  match railSpec r with
  | some (_, v, _) => v
  | none => 0

/-- The voltage commanded on a rail. -/
def State.volt (s : State) (r : Nat) : Nat := SMap.get railNominal s.power.volts r
def State.setVolt (s : State) (r v : Nat) : State :=
  (s.withPower { s.power with volts := SMap.set railNominal s.power.volts r v })

/-- The core rail of C-die `c`. -/
def coreRail (c : Nat) : Nat := 16 * c

/-! ## AVSBus (R494, R495) -/

def State.avsQ (s : State) (m : Nat) : List AvsReq := SMap.get (fun _ => []) s.power.avs m
def State.setAvsQ (s : State) (m : Nat) (q : List AvsReq) : State :=
  (s.withPower { s.power with avs := SMap.set (fun _ => []) s.power.avs m q })

/-- A request joins its master's queue; the one at the head is outstanding. -/
def State.avsAsk (s : State) (kind rail mv : Nat) : State :=
  let m := rail / 16
  s.setAvsQ m (s.avsQ m ++ [{ kind := kind, rail := rail, mv := mv, sent := s.clk }])

/-- The head request leaves; the next one is sent. -/
def State.avsPop (s : State) (m : Nat) : State :=
  match s.avsQ m with
  | [] => s
  | [_] => s.setAvsQ m []
  | _ :: y :: ys => s.setAvsQ m ({ y with sent := s.clk } :: ys)

/-- A step of the ready chain failed (R506): the die has failed with `cause`; a failure of SA leaves the module down. -/
def State.chainFailed (s : State) (d cause : Nat) : State :=
  let s := s.dieFailed d cause
  if d = 0 then (s.moduleStop.withPower { s.moduleStop.power with down := true }) else s

/-- A rail's target as its sense point is judged: the voltage last commanded, and while the output moves the lower of the old and the new
one (R517; log 100). -/
def State.railTarget (s : State) (r : Nat) : Nat :=
  match s.avsQ (r / 16) with
  | q :: _ => if q.rail = r ∧ q.kind ≤ 3 ∧ q.acked.isSome then Nat.min q.mv (s.volt r) else s.volt r
  | [] => s.volt r

/-- A rail has lost power-good while its dies run (R495, R506, R517). -/
def State.railLost (s : State) (r : Nat) : State :=
  s.each (fun d s => if s.ready d then s.chainFailed d 7 else s) (railDies r)

/-! ## Level changes (R488) -/

def State.setChange (s : State) (c : Option LevelChange) : State := s.withPower { s.power with change := c }

/-- The C-dies that run. -/
def State.runningC (s : State) : List Nat := (List.range 4).filter fun c => s.ready (cDie c)

/-- A change toward level `t` begins, where none is in progress; none toward a faster level while a master is unresponsive. -/
def State.startChange (s : State) (t : Nat) : State :=
  if s.power.change ≠ none ∨ t = s.level ∨ s.power.trip = true then s
  else if t < s.level then
    let cs := s.runningC
    if cs.any fun c => bitAt (s.r Reg.sbAvsStatus) c then s
    else
      let s := s.setChange (some { level := t, left := cs.map coreRail })
      let s := if cs = [] then s else s.wf Reg.sbPlStatus 4 1 1
      s.each (fun c s => s.avsAsk 0 (coreRail c) (s.planVolt (cDie c) t)) cs
  else s.setChange (some { level := t, left := [] })

/-- SB chooses its target and moves toward it; where no level is permitted, floors stop (R487, R493). -/
def State.retarget (s : State) : Nat → State
  | 0 => s
  | n + 1 =>
    match s.targetLevel with
    | some t => s.startChange t
    | none => (s.emergency Ev.levelEmergencyStop).retarget n

/-- A level change completes. -/
def State.endChange (s : State) : State :=
  let s := s.withPower { s.power with change := none, lastChange := some s.clk }
  (s.wf Reg.sbPlStatus 4 1 0).retarget 5

/-- A rail of the change has completed; CHANGING is 0 once the last regulator request has. -/
def State.railDone (s : State) (rail old : Nat) : State :=
  match s.power.change with
  | none => s
  | some c =>
    let c := { c with left := c.left.erase rail, moved := (rail, old) :: c.moved }
    let s := s.setChange (some c)
    if c.left = [] then (if c.switched then s.endChange else s.wf Reg.sbPlStatus 4 1 0) else s

/-- The raises of a failed change leave master `m`'s queue: one already sent goes on as a plain write, and its rail goes back after it. -/
def State.dropRaises (s : State) (m : Nat) : State :=
  let rest := (s.avsQ m).filter fun q => q.kind ≠ 0
  match s.avsQ m with
  | q :: _ =>
    if q.kind = 0 then (s.setAvsQ m ({ q with kind := 2 } :: rest)).avsAsk 2 q.rail (s.volt q.rail) else s.setAvsQ m rest
  | [] => s

/-- A raise of `q` has failed: every rail already moved or commanded to move goes back, and the level stays (R495). -/
def State.rollBack (s : State) (q : AvsReq) : State :=
  match s.power.change with
  | none => s
  | some c =>
    let s := s.each (fun m s => s.dropRaises m) (List.range 8)
    let s := if q.acked = none then s else s.avsAsk 2 q.rail (s.volt q.rail)
    let s := s.each (fun (x : Nat × Nat) s => s.avsAsk 2 x.1 x.2) c.moved
    (s.setChange none).wf Reg.sbPlStatus 4 1 0

/-! ### Powering down (R498, R502, R503, R507) -/

/-- The isolation cells of die `d` clamp its outputs: it is READY no more, and nothing passes it (R502). -/
def State.isolate (s : State) (d : Nat) : State :=
  ((s.wf Reg.saDieReady d 1 0).setSeq d (if s.seqStep d = 6 then 6 else 0)).updDie d fun x => { x with released := false, stopped := false }

/-- A clamped die loses power (R502, R507). -/
def State.dieOff (s : State) (d : Nat) : State :=
  let s := (s.isolate d).updDie d fun x => { x with powered := false }
  if 2 ≤ seqEntry d then (s.withPins { s.pins with railEn := setFld s.pins.railEn (seqEntry d) 1 0 }) else s

/-- The power-down request of the next die of the walk goes to its master (R498, R507). -/
def State.offNext (s : State) : State :=
  match s.power.offWalk with
  | [] => s
  | d :: _ => s.avsAsk 4 (dieRail d) 0

/-- Where POWER_ON is low and every other die is down, HBM_EN goes low and groups 1 and 0 lose power (R605). -/
def State.lastOff (s : State) : State :=
  if s.pins.powerOn ∨ s.power.offWalk ≠ [] then s
  else
    ((s.withPins { s.pins with hbmEn := 0, railEn := 0 }).withPower
      { s.power with mode := 4, retain := [], avs := [], down := true }).withPcieUp false

/-- The power-down request of the walk's first die has ended; after a failure the die stays powered, and isolated (R495). A thermal trip
and a fall of POWER_ON go on at once, every other walk after the delay of the next entry (R503, R507). -/
def State.offDone (s : State) (ok : Bool) : State :=
  match s.power.offWalk with
  | [] => s
  | d :: ds =>
    let s := if ok then s.dieOff d else s
    let s := s.withPower { s.power with offWalk := ds, offAt := s.clk }
    let s := if s.power.trip ∧ 16 ≤ d ∧ d % 4 = 0 then s.withPins { s.pins with hbmEn := setFld s.pins.hbmEn ((d - 16) / 4) 1 0 } else s
    if s.power.trip then s.offNext.lastOff else s

/-- What a completed request changes: a rail's voltage or transition rate, a telemetry reading, the walk down. `data`: what the slave
returned. -/
def State.avsDone (s : State) (q : AvsReq) (data : Nat) : State :=
  let p := s.power
  let z : Nat → Nat := fun _ => 0
  match q.kind with
  | 0 => (s.setVolt q.rail q.mv).railDone q.rail (s.volt q.rail)
  | 1 => (s.setVolt q.rail q.mv).railDone q.rail (s.volt q.rail)
  | 2 => s.setVolt q.rail q.mv
  | 3 => s.setVolt q.rail q.mv
  | 4 => s.offDone true
  | 5 => s.withPower { p with railMv := SMap.set z p.railMv q.rail data, railFail := SMap.set z p.railFail q.rail 0 }
  | 6 => s.withPower { p with railCa := SMap.set z p.railCa q.rail data, railFail := SMap.set z p.railFail q.rail 0 }
  | 8 => s.withPower { p with slew := SMap.set z p.slew q.rail q.mv }
  | _ => s

/-- The record of a request that failed after its retry (R494): the master is marked, and the entry names the master, the rail and the
command, numbered as AvsReq numbers its kinds (log 82). -/
def State.avsRecord (s : State) (rail kind : Nat) (fault : Bool) : State :=
  let m := rail / 16
  let n := s.rf Reg.sbAvsStatus 16 16
  (((s.wf Reg.sbAvsStatus m 1 1).wf Reg.sbAvsStatus (8 + m) 1 (b2n fault)).wf Reg.sbAvsStatus 16 16
    (if n < 65535 then n + 1 else n)).note 1 (if fault then Ev.regulatorFault else Ev.regulatorTimeout) [m, rail % 16, kind]

/-- A request has failed after its retry (R494, R495). -/
def State.avsFailed (s : State) (m : Nat) (q : AvsReq) (fault : Bool) : State :=
  let s := (s.avsPop m).avsRecord q.rail q.kind fault
  let z : Nat → Nat := fun _ => 0
  match q.kind with
  | 0 => s.rollBack q
  | 1 => s.railDone q.rail (s.volt q.rail)
  | 3 => s.each (fun d s => s.chainFailed d 3) (railDies q.rail)
  | 4 => s.offDone false
  | 5 => s.withPower { s.power with railFail := SMap.set z s.power.railFail q.rail (SMap.get z s.power.railFail q.rail + 1) }
  | 6 => s.withPower { s.power with railFail := SMap.set z s.power.railFail q.rail (SMap.get z s.power.railFail q.rail + 1) }
  | _ => s

/-- A request on master `m` has completed: a mark clears, and faster targets may be attempted again (R495). -/
def State.avsGood (s : State) (m : Nat) : State :=
  if bitAt (s.r Reg.sbAvsStatus) m then (s.wf Reg.sbAvsStatus m 1 0).retarget 5 else s

/-- The request outstanding on master `m` is sent again, or has failed; a power-down of a thermal trip is not sent again (R503). -/
def State.avsRetry (s : State) (m : Nat) (fault : Bool) : State :=
  match s.avsQ m with
  | [] => s
  | q :: qs =>
    if q.retried || (q.kind == 4 && s.power.trip) then s.avsFailed m q fault
    else s.setAvsQ m ({ q with retried := true, sent := s.clk, acked := none } :: qs)

/-- When the outstanding request has failed: 50 µs without a response, or the bound of R495 after its acknowledgement. -/
def State.avsDue (s : State) (q : AvsReq) : Nat :=
  match q.acked with
  | none => q.sent + 156250
  | some t => t + (q.mv - s.volt q.rail + (s.volt q.rail - q.mv)) * 625 / 2 + 156250

/-- AVS_RESPONSE (R494, R495): master `m`'s slave answers with acknowledge code `code` and `data`: the reading of a voltage in mV or of a
current in 10 mA; for a voltage write bit 0 of the rail's status, its output is at its target; `lost`: a rail that reports a loss of
power-good. -/
def execAvsResponse (m : Fin 8) (code : BitVec 2) (data : BitVec 16) (lost : Option (Fin 128)) (s : State) : Res :=
  s.act <|
    let s :=
      match s.avsQ m with
      | [] => s
      | q :: qs =>
        if code ≠ 0 then s.avsRetry m true
        else if 4 ≤ q.kind ∨ bitAt data 0 = true then ((s.avsPop m).avsDone q data.toNat).avsGood m
        else if q.acked = none then s.setAvsQ m ({ q with acked := some s.clk } :: qs)
        else s
    match lost with
    | some r => s.railLost r
    | none => s

/-- AVS_TIMEOUT (R494, R495): no response in 50 µs, or an output that has not reached its target within its bound. -/
def execAvsTimeout (m : Fin 8) (s : State) : Res :=
  s.act <|
    match s.avsQ m with
    | [] => s
    | q :: _ => if s.avsDue q ≤ s.clk then s.avsRetry m false else s

/-- AVS_STATUS_POLL (R495): once every 1 ms SB asks a marked master for its status; the mark clears after the first request that
completes. -/
def execAvsStatusPoll (m : Fin 8) (s : State) : Res :=
  s.act <|
    let last := SMap.get (fun _ => 0) s.power.avsPolled m
    if bitAt (s.r Reg.sbAvsStatus) m = false ∨ s.clk < last + 3125000 then s
    else
      (s.withPower { s.power with avsPolled := SMap.set (fun _ => 0) s.power.avsPolled m s.clk }).avsAsk 7 (16 * m.val) 0

/-- The binds note the slowest level in force since they began (R447). -/
def State.noteLevel (s : State) (l : Nat) : State :=
  s.each (fun p s => s.updPart p fun x => { x with binds := x.binds.map fun b => { b with level := Nat.max b.level l } })
    (List.range 16)

/-- LEVEL_SWITCH (R488): at a multiple of 61,440 the C-die clocks switch. With no change in progress SB judges its target there, since
F_eff follows the partitions' states (log 83). -/
def execLevelSwitch (s : State) : Res :=
  s.act <|
    match s.power.change with
    | none => if s.now % 61440 = 0 then s.retarget 5 else s
    | some c =>
      if s.now % 61440 ≠ 0 ∨ c.switched = true ∨ c.left ≠ [] then s
      else
        let old := s.level
        if old < c.level ∧ s.floorEff < c.level then (s.setChange none).retarget 5
        else
          let s := (s.wf Reg.sbPlStatus 0 2 c.level).note 1 Ev.plChanged [old, c.level, s.now]
          let s := s.noteLevel c.level
          let cs := s.runningC
          if c.level < old ∨ cs = [] then s.endChange
          else
            let s := (s.setChange (some { c with left := cs.map coreRail, switched := true })).wf Reg.sbPlStatus 4 1 1
            s.each (fun k s => s.avsAsk 1 (coreRail k) (s.planVolt (cDie k) c.level)) cs

/-- PL_REQUEST_WRITE (R487): a request slower than F_eff is clamped and recorded. -/
def execPlRequestWrite (i : Iface) (v : W32) (s : State) : Res :=
  s.act <| s.regWrite i Reg.saPlRequest false fun s =>
    let s := s.write32 Reg.saPlRequest v
    let s := if s.floorEff < fld v 0 2 then s.note 1 Ev.plRequestClamped [fld v 0 2, s.floorEff] else s
    s.retarget 5

/-! ## Power (R490, R491) -/

/-- Module power cap of a level in W (R486). -/
def levelCap (l : Nat) : Nat := [3000, 2500, 2000, 1300].getD l 1300

/-- SB.POWER_LIMIT as it acts (R512). -/
def State.powerLimit (s : State) : Nat := Nat.max 1000 (Nat.min 3000 (s.rf Reg.sbPowerLimit 0 16))

/-- A level change is recent (R491): until 1 ms after it completed. -/
def State.changeRecent (s : State) : Bool :=
  s.power.change.isSome || match s.power.lastChange with
  | some t => decide (s.clk < t + 3125000)
  | none => false

/-- The regulated rails (R598). -/
def allRails : List Nat := (List.range 128).filter fun r => (railSpec r).isSome

/-- SB asks for the voltage and the current of rail `r`, where it is not still asking (R490, R494). -/
def State.askTelemetry (s : State) (r : Nat) : State :=
  if (s.avsQ (r / 16)).any fun q => q.rail == r && (q.kind == 5 || q.kind == 6) then s else (s.avsAsk 5 r 0).avsAsk 6 r 0

/-- Power of a rail in mW as SB counts it: the product of its last good readings, or after 10 failed reads in a row its rated maximum
(R490, R495). -/
def State.railPower (s : State) (r : Nat) : Nat :=
  let z : Nat → Nat := fun _ => 0
  match railSpec r with
  | none => 0
  | some (_, mv, a) =>
    if 10 ≤ SMap.get z s.power.railFail r then mv * a / 10
    else SMap.get z s.power.railMv r * SMap.get z s.power.railCa r / 100

/-- The grace at the floor (R491, R492): over the limit with no slower level, since when, and the stop at its end. -/
def State.graceOver (s : State) (since : Option Nat) (ms code : Nat) : Bool × Option Nat × State :=
  match since with
  | none => (true, some s.clk, s)
  | some t =>
    if t + (if ms = 0 then 1 else ms) * 3125000 ≤ s.clk then (false, none, s.emergency code) else (false, some t, s)

/-- A step moves one level slower where F_eff permits. -/
def State.slower (s : State) (lo code : Nat) : State :=
  let st := s.rf Reg.sbPlStatus lo 2
  if st < 3 ∧ st + 1 ≤ s.floorEff then (s.wf Reg.sbPlStatus lo 2 (st + 1)).note 1 code [st + 1] else s

/-- POWER_SAMPLE (R490, R491): every 312,500 ticks the sample of the rails' last good telemetry, the power step, and the reads for the
next sample (log 101). -/
def execPowerSample (s : State) : Res :=
  s.act <|
    if s.clk % 312500 ≠ 0 ∨ s.power.trip = true then s
    else
    let w := (allRails.map s.railPower).foldl (· + ·) 0 / 1000
    let s := s.each (fun r s => s.askTelemetry r) allRails
    let xs := (s.power.samples ++ [w])
    let xs := xs.drop (xs.length - 10)
    let avg := xs.foldl (· + ·) 0 / xs.length
    let s := s.withPower { s.power with samples := xs }
    let s := (s.wf Reg.sbPowerNow 0 16 w).wf Reg.sbPowerNow 16 16 avg
    let lim := Nat.min (levelCap s.level) s.powerLimit
    let st := s.powerStep
    let next := Nat.min (levelCap (st - 1)) s.powerLimit
    let n : Nat := if st ≠ 0 ∧ avg * 10 < 8 * next then s.power.underRun + 1 else 0
    let s :=
      if lim < avg then
        if s.changeRecent then s
        else if st < 3 ∧ st + 1 ≤ s.floorEff then
          ((s.slower 12 Ev.powerLimited).withPower { (s.slower 12 Ev.powerLimited).power with grace := none })
        else
          let (first, since, s) := s.graceOver s.power.grace (s.rf Reg.sbPowerCtrl 0 8) Ev.powerEmergencyStop
          let s := s.withPower { s.power with grace := since }
          if first then s.note 1 Ev.powerAtFloor []
          else if since = none then s.slower 12 Ev.powerLimited else s
      else s.withPower { s.power with grace := none }
    let s := if s.powerStep ≠ st then s.withPower { s.power with underRun := 0 }
      else if 100 ≤ n then (s.wf Reg.sbPlStatus 12 2 (st - 1)).withPower { s.power with underRun := 0 }
      else s.withPower { s.power with underRun := n }
    s.retarget 5

/-! ## Temperature (R492, R503, R514 to R516) -/

/-- Thermal class of a die (R524). -/
def thermClass (d : Nat) : Nat :=
  if d ≤ 1 then 4 else if d ≤ 5 then 0 else if d ≤ 9 then 3 else if d ≤ 15 then 2 else 1

/-- WARN, THROTTLE and TRIP of a class in quarter degrees. -/
def State.thermLimit (s : State) (c k : Nat) : Int := 4 * (s.rf (Reg.sbThermLimits c) (8 * k) 8 : Nat)

/-- A 12-bit reading in quarter degrees. -/
def quarterDeg (v : BitVec 12) : Int := v.toInt

/-- Sensors of a die (R514). -/
def sensorCount (d : Nat) : Nat := if d ≤ 1 then 4 else if d ≤ 5 then 64 else if d ≤ 9 then 4 else 8

/-- What the sensors of die `d` read in a sample: as `rs` gives them, and the others as they read before (R514). -/
def State.readings (s : State) (rs : List (Fin 32 × List (BitVec 12))) (d : Nat) : List (BitVec 12) :=
  let xs := match rs.find? fun x => x.1.val == d with
    | some x => x.2
    | none => []
  (List.range (sensorCount d)).map fun i =>
    xs.getD i (BitVec.ofNat 12 (SMap.get (fun _ => ({} : Sensor)) s.mon.sensors (d * 64 + i)).last)

/-- Sensor `i` of die `d` reads `rs[i]` (R515): whether it fails now. -/
def State.sensorStep (s : State) (d i : Nat) (rs : List (BitVec 12)) : State :=
  let k := d * 64 + i
  let z : Nat → Sensor := fun _ => {}
  let x := SMap.get z s.mon.sensors k
  let v := (rs.getD i 0)
  let qs := rs.map quarterDeg
  let span := if 0 < x.run ∧ x.last = v.toNat then (x.span.zip qs).map fun y => (min y.1.1 y.2, max y.1.2 y.2) else qs.map fun q => (q, q)
  let far := (List.range span.length).any fun j => j ≠ i && decide (8 ≤ (span.getD j (0, 0)).2 - (span.getD j (0, 0)).1)
  let x : Sensor := { last := v.toNat, run := if 0 < x.run ∧ x.last = v.toNat then x.run + 1 else 1, span := span, moved := far }
  let s := s.withMon { s.mon with sensors := SMap.set z s.mon.sensors k x }
  let bad := decide (quarterDeg v < -160) || decide (600 < quarterDeg v) || (decide (100000 ≤ x.run) && x.moved)
  if bad = true ∧ bitAt (s.r (Reg.sbTempSensorFailed d)) i = false then
    (s.wf (Reg.sbTempSensorFailed d) i 1 1).note 1 Ev.sensorFailed [d, i]
  else s

/-- The reading of die `d` (R514, R515). -/
def State.dieTemp (s : State) (d : Nat) (rs : List (BitVec 12)) : Int :=
  let ok := (List.range rs.length).filter fun i => bitAt (s.r (Reg.sbTempSensorFailed d)) i = false
  match ok.map fun i => quarterDeg (rs.getD i 0) with
  | [] => s.thermLimit (thermClass d) 1
  | t :: ts => ts.foldl max t

/-- Register window of a die. -/
def windowOf (d : Nat) : Nat := if d ≤ 1 then d else if d ≤ 9 then d + 2 else if d ≤ 15 then d + 6 else d + 16

/-- The registers of window `w` return to their reset values but for those `keep` names. -/
def State.dropWindow (s : State) (w : Nat) (keep : Nat → Bool) : State :=
  (s.withRegs (SMap.keep (fun k => k / 0x1000000 ≠ w || keep (k % 0x1000000)) s.regs))

/-- What a die's going down takes with it: tiles, tokens, walkers and streams of C- and M-dies, and their SRAM (R510). -/
def State.computeLost (s : State) : State :=
  let s := ((((((s.withTiles []).withTokens []).withTokOps []).withLineCells []).withStreams []).withSpent []).withRecent []
  let s := (s.zeroMem (tileAddr 0 0) 0x180000000).zeroMem (stagingAddr 0) 0x20000000
  s.each (fun u s => s.each (fun o s => (s.setWalker (walkKey u o 0) {}).setPreWalker (walkKey u o 0) {}) (List.range 32))
    ((List.range 26).drop 10)

/-- The die of an entry of the sequencing table (R507). -/
def entryDie (e : Nat) : Nat := if e ≤ 1 then e else if e ≤ 27 then e + 4 else e - 26

/-- The dies of entries `lo` and up, in reverse table order (R507). -/
def offOrder (lo : Nat) : List Nat := (((List.range 32).drop lo).reverse).map entryDie

/-- The stop mark goes down the tick tree, every port is held DOWN and the C-, M-, L- and J-dies are clamped, saving nothing (R503 steps 1
to 3); no stack stays initialised (R43, R600). -/
def State.clampAll (s : State) : State :=
  let s := s.moduleStop.computeLost.w Reg.saStackActive 0
  s.each (fun d s => (s.isolate d).dropWindow (windowOf d) fun _ => false) ((List.range 32).drop 2)

/-- Every die but SA and SB loses power, in reverse table order (R507, R605). -/
def State.powerCut (s : State) : State := s.clampAll.each (fun d s => s.dieOff d) (offOrder 2)

/-- Steps 1 to 4 of R503, which preempt every other sequence: SB powers the clamped dies down in reverse table order, each as soon as the
request before it has ended. -/
def State.emergencyOff (s : State) : State :=
  let s := s.withPower { s.power with
    trip := true, entering := none, begun := false, wake := none, resets := [], heldResets := [], change := none, avs := [] }
  let s := ((s.wf Reg.saResetStatus 3 1 0).wf Reg.sbPlStatus 4 1 0).clampAll
  (s.withPower { s.power with offWalk := (offOrder 2).filter fun d => (s.die d).powered, offAt := s.clk }).offNext

/-- THERMAL_TRIP (R503, R509). -/
def State.thermalTrip (s : State) : State :=
  if s.power.trip then s else (s.report { code := Ev.thermalTrip, die := 1, flags := 2 }).emergencyOff

/-- Every reading of a sample with its class and source: dies, and the stacks in service (32 + k). -/
def State.tempReadings (s : State) (rs : List (Nat × List (BitVec 12))) : List (Nat × Nat × Int) :=
  (rs.map fun (x : Nat × List (BitVec 12)) => (x.1, thermClass x.1, s.dieTemp x.1 x.2)) ++
  ((List.range 32).filter fun k => bitAt (s.r Reg.saStackActive) k).map fun (k : Nat) =>
    ((32 + k, 5, (4 * (s.rf (stackReg k) 4 8 : Nat) : Int)) : Nat × Nat × Int)

/-- The dies whose sensors answer: SA, SB and those that are powered (R514). -/
def State.sensedDies (s : State) : List Nat := (List.range 32).filter fun d => decide (d ≤ 1) || (s.die d).powered

/-- THERMAL_SAMPLE (R492, R514 to R516): every 31,250 ticks the sensors of every die, and the thermal step. `rs`: the readings that differ
from those of the sample before, by die. -/
def execThermalSample (rs : List (Fin 32 × List (BitVec 12))) (s : State) : Res :=
  s.act <|
    if s.power.trip = true ∨ s.clk % 31250 ≠ 0 then s
    else
      let rs := s.sensedDies.map fun d => (d, s.readings rs d)
      let s := s.each (fun (x : Nat × List (BitVec 12)) s => s.each (fun i s => s.sensorStep x.1 i x.2) (List.range x.2.length)) rs
      let s := s.each (fun (x : Nat × List (BitVec 12)) s => s.w (Reg.sbTemp x.1) (BitVec.ofNat 64 (enc 12 (s.dieTemp x.1 x.2)))) rs
      let all := s.tempReadings rs
      let hot : List (Nat × Nat × Int) := all.filter fun x => s.thermLimit x.2.1 2 ≤ x.2.2
      let trip := hot.any fun x => s.power.tripLast.contains x.1
      let s := s.withPower { s.power with tripLast := hot.map fun (x : Nat × Nat × Int) => x.1 }
      if trip then s.thermalTrip
      else
        let s := s.each (fun (x : Nat × Nat × Int) s =>
          if s.thermLimit x.2.1 0 ≤ x.2.2 then
            s.report { code := Ev.thermalWarn, die := 1, items := [x.1], unit := x.1, every := 3125000000 }
          else s) all
        let hotNow : Bool := all.any fun x => decide (s.thermLimit x.2.1 1 ≤ x.2.2)
        let cool : Bool := all.all fun x => decide (x.2.2 + 20 ≤ s.thermLimit x.2.1 1)
        let st := s.thermStep
        let s := s.withPower ({ s.power with thermUnder := if cool then s.power.thermUnder + 1 else 0 })
        let s : State :=
          if hotNow = true then
            (if s.changeRecent then s
             else if st < 3 ∧ st + 1 ≤ s.floorEff then
               ((s.slower 14 Ev.thermalLimited).withPower { (s.slower 14 Ev.thermalLimited).power with thermGrace := none })
             else
               let (_, since, s) := s.graceOver s.power.thermGrace (s.rf Reg.sbPowerCtrl 8 8) Ev.thermalEmergencyStop
               let s := s.withPower { s.power with thermGrace := since }
               if since = none then s.slower 14 Ev.thermalLimited else s)
          else (s.withPower { s.power with thermGrace := none })
        let s : State := if cool = true ∧ 1000 ≤ s.power.thermUnder ∧ st ≠ 0 then
            ((s.wf Reg.sbPlStatus 14 2 (st - 1)).withPower { s.power with thermUnder := 0 })
          else s
        s.retarget 5

/-- A write of `SB.THERM_LIMITS[c]` (R524). -/
def State.writeThermLimits (s : State) (key : Nat) (v : W32) : State :=
  if fld v 0 8 < fld v 8 8 ∧ fld v 8 8 < fld v 16 8 then s.write32 key v else s.note 1 Ev.thermLimitsRange []

/-! ## Supply voltage (R517) -/

/-- VOLTAGE_SENSE (R517): every 3,125 ticks a rail's sense point, on a die that is powered, reads `half` units of 0.5 mV; the record gives
target and reading in these units (log 100). -/
def execVoltageSense (rail : Fin 128) (half : BitVec 13) (s : State) : Res :=
  s.act <|
    match railSpec rail with
    | none => s
    | some _ =>
      if s.clk % 3125 ≠ 0 ∨ ((railDies rail).any s.sensedDies.contains) = false then s
      else
      let z : Nat → Nat := fun _ => 0
      let t := s.railTarget rail
      let low := if half.toNat + 100 < 2 * t then SMap.get z s.mon.lowRun rail + 1 else 0
      let gone := if half.toNat + 200 < 2 * t then SMap.get z s.mon.lostRun rail + 1 else 0
      let s := s.withMon { s.mon with lowRun := SMap.set z s.mon.lowRun rail low, lostRun := SMap.set z s.mon.lostRun rail gone }
      let s := if 10 ≤ low then
          s.report { code := Ev.voltageLow, die := 1, items := [rail, 2 * t, half.toNat], unit := rail, every := 3125000 }
        else s
      if 10 ≤ gone then s.railLost rail else s

end Sys2Proof.Machine
end

