-- ==== Sys2Proof/Machine/Image.lean ====
section
/-!
DEFINITION. Images: header, section table, sections, token map and rota (R424 to R433), and the checks of R434 that read
the image alone or the module's registers.
-/
namespace Sys2Proof.Machine
open Sys2Proof

/-! ## Bytes -/

/-- The first `n` bytes, zeros where there are fewer. -/
def takeBytes : Nat → List Byte → List Byte
  | 0, _ => []
  | n + 1, [] => 0 :: takeBytes n []
  | n + 1, b :: bs => b :: takeBytes n bs

/-- The little-endian field of `n` bytes at byte `a`. -/
def field (bs : List Byte) (a n : Nat) : Nat := ofBytesLE (takeBytes n (bs.drop a))

/-! ## Header (R425, R426) -/

/-- The header of an image. -/
def headerOf (img : List Byte) : BitVec 4096 := BitVec.ofNat 4096 (field img 0 512)

def hProfiles (h : BitVec 4096) : Nat := fld h 64 3
def hFloor (h : BitVec 4096) : Nat := fld h 72 8
def hChecked (h : BitVec 4096) : Bool := bitAt h 80
def hRota (h : BitVec 4096) : Bool := bitAt h 82
def hVariant (h : BitVec 4096) : Bool := bitAt h 83
def hOwner (h : BitVec 4096) : Nat := fld h 88 8
def hQuarters (h : BitVec 4096) : Nat := fld h 96 16
def hJunctions (h : BitVec 4096) : Nat := fld h 112 4
def hStacks (h : BitVec 4096) : Nat := fld h 128 32
def hModules (h : BitVec 4096) : Nat := fld h 160 12
def hSections (h : BitVec 4096) : Nat := fld h 208 16
def hSeed (h : BitVec 4096) : W64 := BitVec.ofNat 64 (fld h 256 64)
def hExcluded (h : BitVec 4096) (q r : Nat) : Bool := bitAt h (320 + 6 * q + r % 6)
def hLost (h : BitVec 4096) : Nat := fld h 1152 8

/-- PORT[p] of a header is well formed (R425, R426). -/
def portFieldOk (h : BitVec 4096) (p : Nat) : Bool :=
  if bitAt h (120 + p) then
    decide (2 ≤ imgK h p) && decide (256 ≤ imgAllow h p) && decide (imgAllow h p ≤ 12160) && fld h (537 + 64 * p) 39 == 0
  else fld h (512 + 64 * p) 64 == 0

/-- The job's extents and this module's place in them (R425, R426). -/
def shapeOk (h : BitVec 4096) : Bool :=
  (fld h 176 5 + 1) * (fld h 181 5 + 1) * (fld h 186 5 + 1) == hModules h + 1 &&
    decide (fld h 192 5 ≤ fld h 176 5) && decide (fld h 197 5 ≤ fld h 181 5) && decide (fld h 202 5 ≤ fld h 186 5)

/-- The header is well formed (R426): MAGIC "HFIM", the format versions, every reserved bit 0. -/
def headerOk (h : BitVec 4096) : Bool :=
  fld h 0 32 == 0x4D494648 && fld h 32 16 == 1 && fld h 48 16 == 1 &&
    fld h 67 5 == 0 && decide (hFloor h ≤ 3) && fld h 84 4 == 0 && fld h 116 4 == 0 && fld h 126 2 == 0 &&
    !bitAt h 172 && !bitAt h 173 && !bitAt h 174 && !bitAt h 175 && !bitAt h 191 && !bitAt h 207 &&
    fld h 224 32 == 0 && fld h 416 96 == 0 && fld h 1160 2936 == 0 && fld h 1155 4 == 0 &&
    shapeOk h && (List.range 6).all (portFieldOk h) &&
    (hOwner h == 0 || (decide (0x11 ≤ hOwner h) && decide (hOwner h ≤ 0x1F))) &&
    (hVariant h == bitAt h 1159) && (hVariant h || (hLost h == 0 && fld h 896 256 == 0)) &&
    (!hVariant h || (decide (hLost h % 8 < 6) && !bitAt h (120 + hLost h % 8))) &&
    decide (1 ≤ hSections h) && decide (hSections h ≤ 4096)

/-! ## Sections (R427, R428) -/

/-- An entry of the section table. -/
structure Sec where
  type : Nat
  unit : Nat
  ctx : Nat
  off : Nat
  len : Nat
  digest : Nat
  reserved : Nat
deriving DecidableEq, Repr

/-- The section table of an image. -/
def sectionsOf (img : List Byte) : List Sec :=
  (List.range (hSections (headerOf img))).map fun i =>
    let a := 512 + 64 * i
    { type := field img a 2, unit := field img (a + 2) 2, ctx := field img (a + 4) 1, off := field img (a + 8) 8
      len := field img (a + 16) 8, digest := field img (a + 32) 32, reserved := field img (a + 5) 3 + field img (a + 24) 8 }

/-- The bytes of a section. -/
def Sec.bytes (img : List Byte) (x : Sec) : List Byte := takeBytes x.len (img.drop x.off)

/-- UNIT and LENGTH of a section's type (R428, R430), and its CONTEXT: programs, context regions and annotations have one (log 47). A
grant image's stream segment is refused by R420. -/
def Sec.kindOk (h : BitVec 4096) (x : Sec) : Bool :=
  match x.type with
  | 1 => decide (x.unit < 768) && x.len % 8 == 0 && decide (x.len ≤ 262144) && decide (x.ctx < 64)
  | 2 => decide (x.unit < 6) && bitAt h (120 + x.unit) && x.len % 16 == 0 && x.ctx == 0
  | 3 => decide (x.unit < 4) && bitAt h (112 + x.unit) && x.len % 16 == 0 && x.ctx == 0
  | 4 => decide (x.unit < 16) && (hOwner h != 0 || bitAt h (96 + x.unit)) && x.len % 32 == 0 && x.ctx == 0
  | 5 => x.unit == 0 && x.len % 8 == 0 && x.ctx == 0
  | 6 => x.unit == 0 && x.ctx == 0 && decide (8 ≤ x.len)
  | 7 => decide (x.unit < 64) && decide (328 ≤ x.len) && decide (x.ctx < 64)
  | 8 => decide (x.ctx < 64)
  | _ => false

/-- The section table keeps R427 and R428. -/
def tableOk (img : List Byte) : Bool :=
  let h := headerOf img
  let xs := sectionsOf img
  decide (512 + 64 * hSections h ≤ img.length) &&
    xs.all (fun x => x.kindOk h && x.reserved == 0 && x.off % 4096 == 0 && decide (1 ≤ x.len) &&
      decide (512 + 64 * hSections h ≤ x.off) && decide (x.off + x.len ≤ img.length)) &&
    pairFails (fun (a b : Sec) => (decide (a.off < b.off + b.len) && decide (b.off < a.off + a.len)) ||
      (a.type == b.type && a.unit == b.unit && a.ctx == b.ctx)) (fun _ => 0) xs == []

/-- The sections of one type. -/
def ofType (img : List Byte) (t : Nat) : List Sec := (sectionsOf img).filter fun x => x.type = t

/-! ## Rota sections (R410, R433) -/

/-- The ROTA section's bytes, empty in an image without one. -/
def rotaBytes (img : List Byte) : List Byte :=
  match ofType img 6 with
  | x :: _ => x.bytes img
  | [] => []

/-- Full-static (MODE 1), contexts, entries. -/
def rotaFull (img : List Byte) : Bool := field (rotaBytes img) 0 1 % 2 == 1
def rotaNctx (img : List Byte) : Nat := if hRota (headerOf img) then field (rotaBytes img) 1 1 else 1
def rotaNent (img : List Byte) : Nat := field (rotaBytes img) 2 2
/-- SAVE_BYTES and QUIESCE of each context. -/
def rotaCtxs (img : List Byte) : List (Nat × Nat) :=
  if hRota (headerOf img) then
    (List.range (rotaNctx img)).map fun c => (field (rotaBytes img) (8 + 16 * c) 4, field (rotaBytes img) (12 + 16 * c) 4)
  else []
/-- The rota table. -/
def rotaTable (img : List Byte) : List W64 :=
  if hRota (headerOf img) then
    (List.range (rotaNent img)).map fun i => BitVec.ofNat 64 (field (rotaBytes img) (8 + 16 * rotaNctx img + 8 * i) 8)
  else []

def reCtx (e : W64) : Nat := fld e 0 6
def reFrames (e : W64) : Nat := fld e 8 24

/-- The ROTA section and CONTEXT_REGIONS sections are as FLAGS.ROTA and MODE ask (R428, R433). -/
def rotaFormOk (img : List Byte) : Bool :=
  let b := rotaBytes img
  let regs := ofType img 7
  if hRota (headerOf img) then
    (ofType img 6 != []) && decide (field b 0 1 < 2) && decide (1 ≤ rotaNctx img) && decide (rotaNctx img ≤ 64) &&
      decide (1 ≤ rotaNent img) && decide (rotaNent img ≤ 256) && field b 4 4 == 0 &&
      decide (8 + 16 * rotaNctx img + 8 * rotaNent img ≤ b.length) &&
      (List.range (rotaNctx img)).all (fun c => field b (16 + 16 * c) 8 == 0 &&
        field b (8 + 16 * c) 4 % 256 == 0 && decide (field b (8 + 16 * c) 4 ≤ 0x800000)) &&
      (if rotaFull img then regs == [] else (List.range (rotaNctx img)).all (fun c => decide ((regs.filter fun x => x.unit = c).length = 1)) &&
        regs.all fun x => decide (x.unit < rotaNctx img))
  else (ofType img 6 == []) && regs == [] && (sectionsOf img).all fun x => x.ctx == 0

/-- The entries of the rota table keep R410. -/
def rotaEntriesOk (img : List Byte) : Bool :=
  (rotaTable img).all fun e => decide (reCtx e < rotaNctx img) && fld e 6 2 == 0 && fld e 32 32 == 0 && decide (1 ≤ reFrames e)

/-- The CONTEXT_REGIONS bytes of a context. -/
def regionBytes (img : List Byte) (c : Nat) : List Byte :=
  match (ofType img 7).filter fun x => x.unit = c with
  | x :: _ => x.bytes img
  | [] => []

/-- A context's SRAM region, token ranges and memory regions, each a start and a length. -/
def sramRegion (img : List Byte) (c : Nat) : Nat × Nat := (field (regionBytes img c) 0 4, field (regionBytes img c) 4 4)
def tokenRanges (img : List Byte) (c : Nat) : List (Nat × Nat) :=
  ((List.range 16).map fun i => (field (regionBytes img c) (8 + 4 * i) 2 % 16384, field (regionBytes img c) (10 + 4 * i) 2)).filter
    fun x => x.2 ≠ 0
def memRegions (img : List Byte) (c : Nat) : List (Nat × Nat) :=
  ((List.range 16).map fun i => (field (regionBytes img c) (72 + 16 * i) 8, field (regionBytes img c) (80 + 16 * i) 8)).filter
    fun x => x.2 ≠ 0

/-- Regions of SRAM come in multiples of 256 bytes (R433). -/
def regionsOk (img : List Byte) : Bool :=
  (ofType img 7).all fun x => field (x.bytes img) 0 4 % 256 == 0 && field (x.bytes img) 4 4 % 256 == 0

/-! ## Tile programs (R428, R429) -/

/-- END (R149). -/
def endWord : W64 := 0x2300000000000000

/-- The words of a section. -/
def words (bs : List Byte) (n : Nat) : List W64 := (List.range n).map fun i => BitVec.ofNat 64 (field bs (8 * i) 8)

/-- The program of tile `t` in context `c`: one END word where the image has none (R429). -/
def tileWords (img : List Byte) (c t : Nat) : List W64 :=
  match (ofType img 1).filter fun x => x.unit = t ∧ x.ctx = c with
  | x :: _ => words (x.bytes img) (x.len / 8)
  | [] => [endWord]

/-- The tiles of an image's quarters. -/
def imageTiles (h : BitVec 4096) : List Nat := (List.range 768).filter fun t => bitAt h (96 + t / 48)

/-- Quarter and row of a tile are used by an image. -/
def tileUsed (h : BitVec 4096) (t : Nat) : Bool := bitAt h (96 + t / 48) && !hExcluded h (t / 48) (rowOf t)

/-- Every program of every context. -/
def tileProgs (img : List Byte) : List TileProg :=
  (List.range (rotaNctx img)).flatMap fun c => (imageTiles (headerOf img)).map fun t => ⟨c, t, tileWords img c t⟩

/-- Index of the first word of tile `t`'s programs that fails check `k` of R143. -/
def firstWord (img : List Byte) (t k : Nat) : Option Nat :=
  (List.range (rotaNctx img)).findSome? fun c => (tileWords img c t).findIdx? fun w => wordRefusal t w == k

/-- Step 11 of R434: the first failing check of the first failing tile: its code, the tile and the word (R143). A section of another type
whose CONTEXT is no context of the rota (R429) is judged before the tiles, and named as tile 0 (log 47). -/
def progCheck (img : List Byte) : Option (Nat × Nat × Nat) :=
  let h := headerOf img
  let secs := ofType img 1
  if hRota h && (sectionsOf img).any fun x => x.type != 1 && decide (rotaNctx img ≤ x.ctx) then some (Ev.imageTileRange, 0, 0)
  else (sortBy (fun x => x) (secs.map (fun x => x.unit) ++ imageTiles h)).findSome? fun t =>
    if secs.any fun x => x.unit == t && (!tileUsed h t || decide (rotaNctx img ≤ x.ctx)) then some (Ev.imageTileRange, t, 0)
    else [(1, Ev.imageInstrReserved), (2, Ev.tokenWaitRemote), (3, Ev.lineRouteRange)].findSome? fun k =>
      (firstWord img t k.1).map fun i => (k.2, t, i)

/-! ## Segments (R430) -/

/-- The unit a segment section belongs to, if it is one. -/
def Sec.segUnit (x : Sec) : Option Nat :=
  match x.type with
  | 2 => some x.unit
  | 3 => some (x.unit + 6)
  | 4 => some (x.unit + 10)
  | _ => none

/-- The units in die index order: J-dies, L-dies, M-dies (R12). -/
def dieOrder : List Nat := [6, 7, 8, 9, 0, 1, 2, 3, 4, 5] ++ (List.range 26).drop 10

/-- Units for which an image holds segments, in die index order. -/
def segUnits (img : List Byte) : List Nat :=
  dieOrder.filter fun u => (sectionsOf img).any fun x => x.segUnit == some u

/-- The segment section of a unit. -/
def segBytes (img : List Byte) (u : Nat) : List Byte :=
  match (sectionsOf img).filter fun x => x.segUnit = some u with
  | x :: _ => x.bytes img
  | [] => []

/-- The entries of a unit's segment section. -/
def segEntries (img : List Byte) (u : Nat) : List (BitVec 256) :=
  let n := entryBytes u
  (List.range ((segBytes img u).length / n)).map fun i => BitVec.ofNat 256 (field (segBytes img u) (n * i) n)

/-- The entries of a unit's programs, each with its program's kind: those the descriptor names (R218, R430). -/
def segItems (img : List Byte) (u : Nat) : List (Nat × BitVec 256) :=
  let es := segEntries img u
  let d := es.getD 0 0
  (if u < 6 then [0, 1] else [0]).flatMap fun k => ((es.drop (1 + sdBase d k)).take (sdLen d k)).map fun e => (k, e)

/-- Owner code of an image's segments (R402, R430). -/
def imgOwner (h : BitVec 4096) (p : Nat) : Nat := if hOwner h = 0 then p + 1 else hOwner h

/-! ## Token map (R431, R432) -/

/-- The entries of the token map. -/
def tokenMap (img : List Byte) : List W64 :=
  match ofType img 5 with
  | x :: _ => words (x.bytes img) (x.len / 8)
  | [] => []

def tmToken (e : W64) : Nat := fld e 0 14
def tmInit (e : W64) : Bool := bitAt e 14
def tmWaited (e : W64) : Bool := bitAt e 15

/-- Strictly rising. -/
def rising : List Nat → Bool
  | [] => true
  | [_] => true
  | a :: b :: xs => decide (a < b) && rising (b :: xs)

/-- Tokens that must be listed as waited: of WAITT and WAITPS with TIND = 0, and ready tokens (R431). -/
def neededTokens (img : List Byte) : List Nat :=
  ((tileProgs img).flatMap fun x => x.words.filterMap fun w =>
    if (iOpc w = 0x98 ∨ iOpc w = 0x9A) ∧ tTen w = true ∧ tTind w = false then some (tTok w) else none) ++
  (segUnits img).flatMap fun u => (segItems img u).filterMap fun x =>
    if u < 6 ∧ (eType x.2 = 1 ∨ eType x.2 = 4) then some (dpToken x.2)
    else if 10 ≤ u ∧ eType x.2 = 1 then some (stRtoken x.2) else none

/-- Step 9 of R434. A grant image has no partition whose tokens it could list (R420). -/
def State.tokenCheck (s : State) (p : Nat) (img : List Byte) : Option Nat :=
  let m := tokenMap img
  if !rising (m.map tmToken) || m.any (fun e => fld e 18 14 != 0) then some Ev.imageFormat
  else if m.any fun e => hOwner (headerOf img) != 0 || s.partOfToken (tmToken e) != some p then some Ev.tokenMapOutside
  else if m.any fun e => tmWaited e && tmToken e / 4096 != fld e 16 2 then some Ev.tokenWaitRemote
  else if (neededTokens img).any fun k => !(m.any fun e => tmWaited e && tmToken e == k) then some Ev.tokenMapMissing
  else
    let busy := 2 ≤ s.partState p ∧ s.partState p ≤ 4
    match (s.part p).active with
    | some a => if busy ∧ (m.any fun e => tmInit e && a.tokens.any fun x => tmToken x == tmToken e) = true then some Ev.tokenMapBusy else none
    | none => none

/-! ## The header's checks against the module (R4, R420, R434 steps 1 to 8) -/

/-- A grant's image holds timetable and junction banks alone (R420). -/
def grantOnly (img : List Byte) (weights : Nat) : Bool :=
  (ofType img 1 == []) && (ofType img 4 == []) && weights == 0 &&
    (segUnits img).all fun u => decide (6 ≤ u) || (segItems img u).all fun x => (tileOf x.1 x.2).isNone

/-- Steps 4 and 5: who may load the image, and for which quarters. `pf`: it comes from the PF. -/
def State.imageOwner (s : State) (p : Nat) (pf : Bool) (img : List Byte) (weights : Nat) : Option Nat :=
  let h := headerOf img
  let g := hOwner h - 0x10
  if hOwner h = 0 then (if hQuarters h = s.quarters p then none else some Ev.imageShape)
  else if pf = false then some Ev.descNotPermitted
  else if bitAt (s.r (Reg.saGrant g)) 6 = false then some Ev.grantUndefined
  else if imgPorts h ||| s.rf (Reg.saGrant g) 0 6 ≠ s.rf (Reg.saGrant g) 0 6 then some Ev.grantPort
  else if grantOnly img weights = false ∨ hQuarters h ≠ 0 ∨ hStacks h ≠ 0 then some Ev.ttOutsidePartition
  else none

/-- Steps 6 to 8: a level, the rows, stacks and dies that the image uses. -/
def State.imageUnitsOk (s : State) (img : List Byte) : Option Nat :=
  let h := headerOf img
  let failed := fun d => bitAt (s.r Reg.saDieFailed) d
  if ((List.range (hFloor h + 1)).all fun l => s.withdrawn l) then some Ev.imageFloorUnavailable
  else if (List.range 96).any fun k =>
      bitAt h (96 + k / 6) && bitAt (s.r (Reg.cnRowMap (k / 24) (k % 24))) 9 && !hExcluded h (k / 6) (k % 6) then some Ev.imageRowExhausted
  else if (List.range 32).any fun k => bitAt h (128 + k) && !bitAt (s.r Reg.saStackActive) k then some Ev.imageStackRetired
  else if (List.range 4).any fun j => bitAt h (112 + j) && failed (jDie j) then some Ev.imageJunctionFailed
  else if (List.range 6).any fun p => bitAt h (120 + p) && failed (lDie p) then some Ev.imagePortFailed
  else none

/-- Steps 1 to 3: profile, form, digests. -/
def State.imageForm (s : State) (img : List Byte) : Option Nat :=
  let h := headerOf img
  if img.length ≤ 8 then some Ev.imageFormat
  else if fld h 64 8 % 8 &&& (s.rf Reg.saDeviceId 4 4 ||| 4) = 0 then some Ev.imageProfileMismatch
  else if img.length < 512 then some Ev.imageFormat
  else if headerOk h = false then some Ev.imageFormat
  else if tableOk img = false then some Ev.imageFormat
  else if rotaFormOk img = false ∨ regionsOk img = false then some Ev.imageFormat
  else if (sectionsOf img).any fun x => ofBytesLE (sha256 (x.bytes img)) != x.digest then some Ev.imageSectionDigest
  else none

/-! ## Excluded rows (R434 step 13) -/

/-- Rows that a line route from `a` to `b` passes: vertically in the source's column, then along `b`'s row (R86). -/
def routeRows (a b : Nat) : List Nat := (List.range 24).filter fun r => Nat.min (rowOf a) (rowOf b) ≤ r ∧ r ≤ Nat.max (rowOf a) (rowOf b)

/-- A row of tile `t`'s C-die is excluded. -/
def rowExcluded (h : BitVec 4096) (c r : Nat) : Bool := hExcluded h (4 * c + r / 6) r

/-- A tile lies in an excluded row. -/
def tileExcluded (h : BitVec 4096) (t : Nat) : Bool := rowExcluded h (t / 192) (rowOf t)

/-- Tiles of a stream's ends. -/
def streamTiles (e : BitVec 256) : List Nat :=
  (streamEnds e).flatMap fun x =>
    match tileOfAddr x.1, tileOfAddr (x.1 + x.2 - 1) with
    | some a, some b => (List.range (b - a + 1)).map (a + ·)
    | some a, none => [a]
    | _, _ => []

/-- Something of the image names a tile of an excluded row, or a line route passes one's stop. -/
def usesExcluded (img : List Byte) : Bool :=
  let h := headerOf img
  ((tileProgs img).any fun x => x.words.any fun w => iOpc w == 0x90 && (routeRows x.tile (tImm w)).any (rowExcluded h (x.tile / 192))) ||
  (segUnits img).any fun u => (segItems img u).any fun x =>
    if u < 6 then (match tileOf x.1 x.2 with | some t => tileExcluded h t | none => false)
    else decide (10 ≤ u) && eType x.2 == 1 && (streamTiles x.2).any (tileExcluded h)

/-! ## Rota checks (R406, R409, R412, R413, R415) -/

/-- Two ranges intersect. -/
def overlap (a b : Nat × Nat) : Bool := decide (0 < a.2) && decide (0 < b.2) && decide (a.1 < b.1 + b.2) && decide (b.1 < a.1 + a.2)

/-- `[a, a + n)` lies in one of `rs`. -/
def within (rs : List (Nat × Nat)) (a n : Nat) : Bool := rs.any fun r => decide (r.1 ≤ a) && decide (a + n ≤ r.1 + r.2)

/-- SWAP_FRAMES of a slice followed by the next (R412). -/
def swapFrames (full : Bool) (eOut eIn : Nat) : Nat := if full then (8192 + (eOut + eIn + 18) / 19 + 4095) / 4096 else 0

/-- SWAP_FRAMES of entry `k` of a rota. -/
def Image.swapOf (im : Image) (k : Nat) : Nat :=
  let n := im.rota.length
  let save := fun i => (im.ctxs.getD (reCtx (im.rota.getD (i % n) 0)) (0, 0)).1
  swapFrames im.rotaMode (save k) (save (k + 1))

/-- Longest program of context `c`, in bytes, on any tile (R414). -/
def longestProg (xs : List TileProg) (c : Nat) : Nat := ((xs.filter fun x => x.ctx = c).map fun x => 8 * x.words.length).foldl Nat.max 0

/-- Fill time of context `c` (R414). -/
def fillTime (xs : List TileProg) (c : Nat) : Nat := 12500 + (3 * longestProg xs c + 3) / 4

/-- ROTA_SLICE_SHORT (R415). -/
def sliceShort (im : Image) (xs : List TileProg) : Bool :=
  let n := im.rota.length
  (List.range n).any fun k =>
    let next := reCtx (im.rota.getD ((k + 1) % n) 0)
    decide (4096 * reFrames (im.rota.getD k 0) <
      Nat.max (fillTime xs next) (if k = 0 then 73728 else 0) + 8192 + 4096 * im.swapOf k)

/-- The runs of owner `o`'s programs in context `c`, over every unit of the image. -/
def State.ctxRuns (s : State) (im : Image) (o c : Nat) : List (Nat × Prog) :=
  im.units.flatMap fun u => ((s.progs u (s.bankFor u)).filter fun p => p.owner = o ∧ p.ctx = c).map fun p => (u, p)

/-- A program is through with its slice `d` ticks after its restart: parked, streams complete, and in full-static mode its
expected cells released (R413). -/
def State.sliceDone (s : State) (full : Bool) (d : Nat) (x : Nat × Prog) : Bool :=
  (match x.2.run.park with | some t => decide (t ≤ restartAt + d) | none => false) &&
    (if 10 ≤ x.1 then x.2.run.out.all fun y => eType y.e != 1 || decide (y.tick + stWindow y.e ≤ restartAt + d)
     else if x.1 < 6 ∧ x.2.kind = 1 ∧ full = true then
       (x.2.cells (s.bankHalf x.1 (s.bankFor x.1))).all fun y => decide (s.releaseOf x.1 y ≤ restartAt + d)
     else true)

/-- ROTA_SWAP_OVERLAP (R413). -/
def State.swapOverlap (s : State) (im : Image) (o : Nat) : Bool :=
  (List.range im.rota.length).any fun k =>
    let e := im.rota.getD k 0
    !((s.ctxRuns im o (reCtx e)).all (s.sliceDone im.rotaMode (4096 * (reFrames e - im.swapOf k))))

/-- The names that an entry of context `c` uses lie in the context's regions (R406). -/
def entryInCtx (img : List Byte) (c u kind : Nat) (e : BitVec 256) : Bool :=
  let toks := tokenRanges img c
  let mems := memRegions img c
  let sram := [sramRegion img c]
  if 10 ≤ u then
    eType e != 1 || (within toks (stToken e) 1 && within toks (stRtoken e) 1 &&
      (match tileOfAddr (stDst e) with
       | some _ => within sram (stDst e % 0x800000) (256 * stN e)
       | none => within mems (stDst e) (256 * stN e)))
  else
    (match tileOf kind e with
     | some _ => within sram (256 * eAddr e) (256 * (eNm1 e + 1))
     | none => true) &&
    (match entryToken kind e with
     | some k => within toks k 1
     | none => true)

/-- R406 for a slot-static rota. -/
def State.regionCheck (s : State) (img : List Byte) (im : Image) (o : Nat) : Option Nat :=
  let cs := List.range (rotaNctx img)
  let pairs := fun (f : Nat → Nat → Bool) => pairFails f (fun x => x) cs ≠ []
  if im.rotaMode then none
  else if pairs fun a b => overlap (sramRegion img a) (sramRegion img b) then some Ev.rotaSramOverlap
  else if pairs fun a b => (tokenRanges img a).any (fun x => (tokenRanges img b).any (overlap x)) ||
      (memRegions img a).any (fun x => (memRegions img b).any (overlap x)) then some Ev.rotaTokenOverlap
  else if cs.any fun c => (s.ctxRuns im o c).any fun x => x.2.run.out.any fun y => !entryInCtx img c x.1 x.2.kind y.e then
    some Ev.rotaRegion
  else none

/-- Step 14 of R434. DESIGN CHOICE: R410 names no code for an entry that breaks it; the model gives IMAGE_FORMAT (log 47). -/
def State.rotaCheck (s : State) (img : List Byte) (im : Image) (o : Nat) : Option Nat :=
  if im.rota = [] then none
  else match s.regionCheck img im o with
    | some c => some c
    | none =>
      if im.ctxs.any fun x => decide (6250 < x.2) then some Ev.rotaQuiesceLong
      else if rotaEntriesOk img = false then some Ev.imageFormat
      else if s.swapOverlap im o then some Ev.rotaSwapOverlap
      else if sliceShort im (tileProgs img) then some Ev.rotaSliceShort
      else none

/-- What the module keeps of an image (R399, R410, R424). -/
def imageOf (img : List Byte) : Image :=
  { header := headerOf img, digest := sha256Word img, units := segUnits img, tokens := tokenMap img
    rotaMode := rotaFull img && hRota (headerOf img), ctxs := rotaCtxs img, rota := rotaTable img }

end Sys2Proof.Machine
end

