-- ==== Sys2Proof/Machine/Jobs.lean ====
section
/-!
DEFINITION. Descriptors that a ring has dispatched: which one a command acts on, and the ways it ends (R380 to R385).
-/
namespace Sys2Proof.Machine
open Sys2Proof

/-- OPC of a descriptor. -/
def dOpc (d : Desc) : Nat := fld d 0 8

/-- Bytes `k` to `k + n - 1` of a descriptor. -/
def dField (d : Desc) (k n : Nat) : Nat := fld d (8 * k) (8 * n)

/-- The partition a descriptor of function `f` acts on (R382). -/
def dPart (f : Nat) (d : Desc) : Nat := if f = 0 then fld d 16 4 else f - 1

/-- The oldest job of a list that satisfies `g`. -/
def findJob (g : Job → Bool) : List Job → Option Job
  | [] => none
  | j :: js => if g j then some j else findJob g js

/-- The oldest dispatched and not yet started descriptor of a ring, where it has this OPC: descriptors start in ring order (R379). -/
def State.jobOf (s : State) (f r opc : Nat) : Option Job :=
  match findJob (fun j => j.phase == 0) (s.ring (ringKey f r)).jobs with
  | some j => if dOpc j.desc = opc then some j else none
  | none => none

/-- A job ends as OK with RESULT. -/
def State.jobOk (s : State) (f r : Nat) (j : Job) (result : Nat) : State := s.finishJob f r j.id 0 0 0 result 0

/-- A job is refused at dispatch. -/
def State.jobRefused (s : State) (f r : Nat) (j : Job) (code : Nat) : State := s.finishJob f r j.id 1 code 0 0 0

/-- A job fails, with its details. -/
def State.jobFailed (s : State) (f r : Nat) (j : Job) (code d0 d1 : Nat) : State := s.finishJob f r j.id 2 code d0 0 d1

/-- A job goes on: what it waits for is elsewhere in the state. -/
def State.jobRuns (s : State) (f r : Nat) (j : Job) : State :=
  s.updRing (ringKey f r) fun q => { q with jobs := updJob j.id (fun x => { x with phase := 1, begun := s.clk }) q.jobs }

/-- The standby banks of a failed load become EMPTY (R244). -/
def State.emptyBanks (s : State) (us : List Nat) : State :=
  s.each (fun u s => (s.setStandby u 0).wf (bankReg u) 4 1 0) us

/-- The partition's, or the grant's, loaded image is gone. -/
def State.emptyPart (s : State) (k : Nat) : State := s.updPart k fun x => { x with standby := none, tileStandby := 0 }

/-- LOADs of `js` that end while their regions are being hashed leave their standby banks EMPTY (R244). -/
def State.abortLoads (s : State) (js : List Job) : State :=
  s.each (fun (j : Job) s => match j.load with
    | some x => if j.phase = 1 then (s.emptyBanks x.units).emptyPart x.part else s
    | none => s) js

/-- The partition is being scrubbed (R404) or has lost its context (R505). -/
def State.scrubbing (s : State) (p : Nat) : Bool := bitAt (s.r (Reg.saPartStatus p)) 3
def State.contextLost (s : State) (p : Nat) : Bool := bitAt (s.r (Reg.saPartStatus p)) 12

/-- A rota of the partition runs (R417): neither halted nor ended. -/
def State.rotaRuns (s : State) (p : Nat) : Bool := (s.part p).rota.isSome && s.rf (Reg.saRotaStatus p) 14 2 == 1

/-- A stop-dump of the partition runs (R561). -/
def State.dumping (s : State) (p : Nat) : Bool :=
  match s.dump with
  | some d => d.part == p
  | none => false

end Sys2Proof.Machine
end

