-- ==== Sys2Proof/Machine/Load.lean ====
section
/-!
DEFINITION. The loader: LOAD, MIRROR and REHASH (R243, R354, R368, R387 to R389, R400, R434).
-/
namespace Sys2Proof.Machine
open Sys2Proof

/-! ## Filling a standby bank (R243, R430) -/

/-- Bytes of a bank of unit `u`. -/
def bankBytes (u : Nat) : Nat := bankCap u * entryBytes u

/-- The standby bank takes the active bank's contents and becomes LOADING (R243 step 2). -/
def State.copyBank (s : State) (u : Nat) : State :=
  (s.copyMem (unitBank u (s.bankActive u)) (unitBank u (!s.bankActive u)) (bankBytes u)).setStandby u 2

/-- Entry `e` of bank `b` of unit `u` set to `v`. -/
def State.setEntry (s : State) (u : Nat) (b : Bool) (e : Nat) (v : BitVec 256) : State :=
  s.store (unitBank u b + e * entryBytes u) (entryBytes u) v.toNat

/-- Entries set from index `e` on. -/
def State.setEntries (s : State) (u : Nat) (b : Bool) (e : Nat) : List (BitVec 256) → State
  | [] => s
  | x :: xs => (s.setEntry u b e x).setEntries u b (e + 1) xs

/-- The header the loader gives a bank (R217, R430). -/
def bankHeader (h : BitVec 4096) (u : Nat) : BitVec 256 :=
  BitVec.ofNat 256 (1 + (if u < 6 then b2n (imgHalf h u) * 2 ^ 16 else if u < 10 then 2 ^ 17 else 0))

/-- The lowest base at which `n` entries fit beside the ranges `rs` (R220). -/
def firstFit (cap n : Nat) (rs : List (Nat × Nat)) : Nat :=
  let cands := sortBy (fun x => x) (32 :: rs.map fun r => r.1 + r.2)
  (cands.find? fun c => decide (c + n ≤ cap) && rs.all fun r => !overlap (c, n) r).getD cap

/-- A segment descriptor placed at entry `b0` (R430). -/
def placeDesc (u b0 : Nat) (d : BitVec 256) : BitVec 256 :=
  let d := setFld d 0 18 (sdBase d 0 + b0)
  let d := if u < 6 then setFld d 36 18 (sdBase d 1 + b0) else d
  setFld d 72 18 (sdCtxBase d + b0)

/-- A segment's ranges stand inside its section (R430). -/
def segFits (u : Nat) (es : List (BitVec 256)) : Bool :=
  let d := es.getD 0 0
  let n := es.length - 1
  decide (sdCtxBase d + sdNctx d ≤ n) && decide (sdBase d 0 + sdLen d 0 ≤ n) && (decide (6 ≤ u) || decide (sdBase d 1 + sdLen d 1 ≤ n))

/-- Where the segment of unit `u` for owner `o` goes among the unchanged owners' (R220), none where its ranges leave its section or no place
is left. -/
def State.segBase (s : State) (img : List Byte) (o u : Nat) : Option Nat :=
  let b := !s.bankActive u
  let es := segEntries img u
  let b0 := firstFit (bankCap u) (es.length - 1) (((s.owners u b).filter fun x => x ≠ o).flatMap fun x => s.ranges u b x)
  if segFits u es = true ∧ b0 < bankCap u then some b0 else none

/-- What the loader refuses of a segment itself, before the checks of its bank (R251, R430): its place, and a START_CTX other than 0. -/
def State.segRefusal (s : State) (img : List Byte) (o u : Nat) : Option Nat :=
  if (s.segBase img o u).isNone then some Ev.ttSegmentLayout
  else if fld ((segEntries img u).getD 0 0) 97 6 ≠ 0 then some (if u < 10 then Ev.ttEntryReserved else Ev.stEntryReserved)
  else none

/-- The segment of unit `u` for owner `o` written into its standby bank beside the unchanged owners' (R243 step 3). -/
def State.placeSegment (s : State) (img : List Byte) (o u : Nat) : State :=
  let b := !s.bankActive u
  let s := s.setEntry u b 0 (bankHeader (headerOf img) u)
  let es := segEntries img u
  match s.segBase img o u with
  | none => s
  | some b0 => (s.setEntry u b o (placeDesc u b0 (es.getD 0 0))).setEntries u b b0 (es.drop 1)

/-- The trial: every segment of the image in its standby bank. -/
def State.placeAll (s : State) (img : List Byte) (o : Nat) : State :=
  s.each (fun u s => (s.copyBank u).placeSegment img o u) (segUnits img)

/-- A tile's standby instruction bank takes a program (R388). -/
def State.fillTile (s : State) (t : Nat) (ws : List W64) : State :=
  let a := instrBank t (!(s.tile t).bank)
  let s := (s.zeroMem a 0x40000).setBytes a (ws.flatMap fun w => bytesLE 8 w.toNat)
  s.updTile t fun x => { x with stbyLen := ws.length }

/-- The standby instruction banks of partition `p` take the programs of context `c`. -/
def State.fillTiles (s : State) (xs : List TileProg) (c : Nat) : State :=
  s.each (fun (x : TileProg) s => s.fillTile x.tile x.words) (xs.filter fun x => x.ctx = c)

/-! ## Refusals -/

/-- A standby bank that no load may use (R243 step 1). -/
def State.bankBusy (s : State) (u : Nat) : Bool := s.bankStandby u == 1 || s.bankStandby u == 2 || s.bankStandby u == 4

/-- The failing entry in a unit's load status: ENTRY, BANK, FAILED (R253, R254, R370). DESIGN CHOICE: the registers have no field for the
code that R243 step 5 records there, and it stands in the completion alone (log 47). -/
def State.setLoadStatus (s : State) (u i : Nat) : State :=
  let (n, k) := if u < 6 then (18, 18) else if u < 10 then (16, 18) else (14, 14)
  s.w (loadStatusReg u) (BitVec.ofNat 64 (i % 2 ^ n + b2n (!s.bankActive u) * 2 ^ k + 2 ^ (k + 1)))

/-- Every unit of a load that has failed shows it (R253, R254, R370). -/
def State.markFailed (s : State) (us : List Nat) : State := s.each (fun u s => s.setLoadStatus u 0) us

/-- Steps 1 to 10 of R434: the first that fails. -/
def State.firstSteps (s : State) (p : Nat) (pf : Bool) (img : List Byte) (weights : Nat) : Option Nat :=
  let part := hOwner (headerOf img) = 0
  (s.imageForm img).orElse fun _ => (s.imageOwner p pf img weights).orElse fun _ => (s.imageUnitsOk img).orElse fun _ =>
    (s.tokenCheck p img).orElse fun _ =>
    (if ((segUnits img).any fun u => s.bankBusy u) ||
        (decide part && ((s.part p).tileStandby == 1 || (s.part p).tileStandby == 2 || (s.part p).tileStandby == 4)) then
      some Ev.ttStandbyBusy else none)

/-- Step 12: the first failing unit, in die index order, with its code and entry. A port that the image uses without a segment is held
to its class alone (R193). -/
def State.bankSteps (s : State) (img : List Byte) (o : Nat) : Option (Nat × Nat × Nat) :=
  let h := headerOf img
  let seg := segUnits img
  (dieOrder.filter fun u => seg.contains u || (decide (u < 6) && bitAt h (120 + u))).findSome? fun u =>
    (if seg.contains u then ((s.segRefusal img o u).map fun c => (c, o)).orElse fun _ => s.checkUnit h (hFloor h) u
     else (s.checkClass h u).findSome? fun x => x.2.map fun i => (x.1, i)).map fun x => (u, x.1, x.2)

/-! ## Weights (R368, R387) -/

/-- A weight region: host source, HBM destination, bytes. -/
structure Weight where
  src : Nat
  dst : Nat
  len : Nat

/-- The weight region list. -/
def weightsOf (bs : List Byte) (n : Nat) : List Weight :=
  (List.range n).map fun i => ⟨field bs (32 * i) 8, field bs (32 * i + 8) 8, field bs (32 * i + 16) 8⟩

/-- The list keeps R387. -/
def weightsOk (bs : List Byte) (n : Nat) : Bool :=
  (List.range n).all (fun i => field bs (32 * i + 24) 8 == 0) && (weightsOf bs n).all fun w =>
    regionOf w.dst = .hbm && w.dst % 0x100000 == 0 && decide (1 ≤ w.len) && decide (w.dst % stackBytes + w.len ≤ stackBytes)

/-- Chunks of a region: start and bytes (R368). -/
def chunks (a n : Nat) : List (Nat × Nat) :=
  (List.range ((n + 0xFFFFF) / 0x100000)).map fun i => (a + 0x100000 * i, Nat.min 0x100000 (n - 0x100000 * i))

/-- Leaves of the regions, as their M-dies read them back. -/
def State.leaves (s : State) (rs : List (Nat × Nat)) : List (List Byte) :=
  rs.flatMap fun r => (chunks r.1 r.2).map fun c => sha256 (0 :: s.liveBytes c.1 c.2)

/-- The M-dies of the regions report what they hashed: all their chunks, or the failure of the one that met address `bad`
(R370). -/
def State.hashDone (s : State) (rs : List (Nat × Nat)) (bad : Option Nat) : State :=
  s.each (fun m s =>
    let cs := (rs.flatMap fun r => chunks r.1 r.2).filter fun c => stackOf c.1 / 2 = m
    let hit := match bad with
      | some a => stackOf a / 2 == m
      | none => false
    if cs = [] then s
    else s.w (Reg.mnHashStatus m) (BitVec.ofNat 64 ((if hit then 3 else 2) +
      (if hit then (cs.filter fun c => c.1 + c.2 ≤ bad.getD 0).length else cs.length) * 256))) (List.range 16)

/-- The uncorrectable byte that hashing met, where it lies in its region and its stack answers: region and address. -/
def State.hashMiss (s : State) (rs : List (Nat × Nat)) (hash : Option (Nat × Nat)) : Option (Nat × Nat) :=
  match hash with
  | none => none
  | some (i, o) =>
    let x := rs.getD i (0, 0)
    if o < x.2 ∧ s.stackDead (x.1 + o) = false then some (i, x.1 + o) else none

/-- The weights root of regions (R368). -/
def State.weightsRoot (s : State) (rs : List (Nat × Nat)) : List Byte := treeRoot 64 (s.leaves rs)

/-- The first region outside the partition (step 2 of R388, R26). -/
def State.badRegion (s : State) (p : Nat) (ws : List Weight) : Option Nat := ws.findIdx? fun w => !s.inPart p w.dst w.len

/-- The regions with a source take their data for function `f`, the first `n` of them; a retired stack takes none (R367). -/
def State.copyWeights (s : State) (who f : Nat) (ws : List Weight) (data : List (List Byte)) (n : Nat) : State :=
  s.each (fun (x : Weight × List Byte) s =>
    if x.1.src = 0 then s else ((s.reachHost f x.1.src x.1.len).countAccess f true x.1.dst x.1.len).liveBy who x.1.dst x.1.len fun s =>
      s.setLive x.1.dst (takeBytes x.1.len x.2)) ((ws.zip data).take n)

/-- Tokens with INIT take their initial values (R100, R432). -/
def State.initTokens (s : State) (m : List W64) : State :=
  s.each (fun (e : W64) s => if tmInit e then s.setToken (tmToken e) { val := (e >>> 32).setWidth 32 } else s) m

/-! ## The commands -/

/-- A LOAD that fails after its checks passed: FAILED, banks EMPTY (R388). `d0`, `d1`: the region and the index of its M-die; a region lies in
no bank, and [8] of DETAIL1 is 0. -/
def State.loadFailed (s : State) (f r : Nat) (j : Job) (k : Nat) (us : List Nat) (code d0 d1 : Nat) : State :=
  (((s.emptyBanks us).emptyPart k).markFailed us).jobFailed f r j code d0 d1

/-- The M-die of an HBM range. -/
def regionDie (a : Nat) : Nat := mDie (stackOf a / 2)

/-- A LOAD that is refused at step 12 or later: REFUSED, banks EMPTY, the failing entry in the completion (R243 step 5). -/
def State.loadRefused (s : State) (f r : Nat) (j : Job) (k : Nat) (us : List Nat) (code : Nat) (at_ : Option (Nat × Nat)) : State :=
  let s := ((s.emptyBanks us).emptyPart k).markFailed us
  match at_ with
  | none => s.jobRefused f r j code
  | some (u, i) => (s.setLoadStatus u i).finishJob f r j.id 1 code i 0 (unitDie u + 256 * b2n (!s.bankActive u))

/-- What the partition keeps of a LOAD that succeeded. -/
def State.keepImage (s : State) (p : Nat) (img root : List Byte) (rs : List (Nat × Nat)) : State :=
  let h := headerOf img
  let im := { imageOf img with root := BitVec.ofNat 256 (ofBytesLE root) }
  if hOwner h = 0 then
    let s := s.updPart p fun x => { x with
      standby := some im, tileStandby := 3, progs := tileProgs img, root := im.root, regions := rs }
    let s := if s.partState p = 0 then s.setPartState p 1 else s
    (s.wf (Reg.saPartStatus p) 4 1 (b2n (hRota h))).wf (Reg.saPartStatus p) 5 1 (b2n im.rotaMode)
  else s.updPart (hOwner h) fun x => { x with standby := some im, root := im.root, regions := rs }

/-- The M-dies that hash a range of `rs` do so now (R370). -/
def State.hashBegin (s : State) (rs : List (Nat × Nat)) : State :=
  s.each (fun m s => if rs.any fun r => stackOf r.1 / 2 == m then s.w (Reg.mnHashStatus m) 1 else s) (List.range 16)

/-- Steps 2 and 3 of R388 for an image whose checks have passed; `t` holds its segments in the standby banks. Then the M-dies begin to hash.
`bad`: the region whose copy met a failing host access, and the address. -/
def State.loadBody (t : State) (f r : Nat) (j : Job) (p : Nat) (img : List Byte) (ws : List Weight) (data : List (List Byte))
    (root : BitVec 256) (bad : Option (Nat × W64)) : State :=
  let h := headerOf img
  let us := segUnits img
  let k := if hOwner h = 0 then p else hOwner h
  let t := t.initTokens (if hOwner h = 0 then tokenMap img else [])
  match t.badRegion p ws with
  | some i =>
    let a := (ws.map (·.dst)).getD i 0
    ((t.copyWeights (whoJob f r j.id) f ws data i).noteP 0 p Ev.addrOutsidePartition [f, a]).loadFailed f r j k us Ev.addrOutsidePartition i
      (regionDie a)
  | none =>
    match bad with
    | some (i, a) =>
      ((t.copyWeights (whoJob f r j.id) f ws data i).hostError f p a.toNat).loadFailed f r j k us Ev.hostAccessError i
        (regionDie ((ws.map (·.dst)).getD i 0))
    | none =>
      let t := t.copyWeights (whoJob f r j.id) f ws data ws.length
      let c0 := match rotaTable img with
        | e :: _ => reCtx e
        | [] => 0
      let t := if hOwner h = 0 then t.fillTiles (tileProgs img) c0 else t
      let rs := ws.map fun w => (w.dst, w.len)
      let held : LoadHeld := { img := img, regions := rs, root := if dField j.desc 48 8 = 0 then none else some root, units := us, part := k }
      let t := if hOwner h = 0 then t.updPart p fun x => { x with tileStandby := 2 } else t
      ((t.hashBegin rs).jobRuns f r j).updRing (ringKey f r) fun q => { q with jobs := updJob j.id (fun y => { y with load := some held }) q.jobs }

/-- Step 4 of R388. `hash`: the region whose hashing met an uncorrectable chunk, and the offset; `fixed`: what hashing found corrected.
DESIGN CHOICE: a root that differs has no region and no die; its details are 0 (log 47). -/
def State.loadHash (s : State) (f r : Nat) (j : Job) (x : LoadHeld) (hash : Option (Nat × Nat)) (fixed : List (W64 × Bool)) : State :=
  let p := dPart f j.desc
  let t := s.readRanges f x.regions fixed 3
  match t.hashMiss x.regions hash with
  | some (i, a) =>
    let t := t.hashDone x.regions (some a)
    ((t.hbmUncorrectable a 3).noteP (regionDie a) p Ev.hashReadError [i, a]).loadFailed f r j x.part x.units Ev.hashReadError i (regionDie a)
  | none =>
    let t := t.hashDone x.regions none
    let got := t.weightsRoot x.regions
    if (match x.root with | some w => BitVec.ofNat 256 (ofBytesLE got) != w | none => false) then
      (t.noteP 0 p Ev.loadDigestMismatch []).loadFailed f r j x.part x.units Ev.loadDigestMismatch 0 0
    else
      let t := t.each (fun u t => (((t.setStandby u 3).wf (bankReg u) 4 1 0).w (loadStatusReg u) 0)) x.units
      (t.keepImage p x.img got x.regions).jobOk f r j (ofBytesLE (got.take 8))

/-- What a LOAD moves from SA beside its weights: each program to its C-die, each segment toward its unit (R15). -/
def loadMoves (img : List Byte) : List (Nat × Nat × Nat) :=
  ((tileProgs img).map fun x => (10, x.tile / 192, cellCount 0 (8 * x.words.length))) ++
    (segUnits img).filterMap fun u =>
      let n := cellCount 0 (entryBytes u * (segEntries img u).length)
      if u < 6 then some (10, 4 + u, n) else if u < 10 then none else some (10, (u - 10) / 4, n)

/-- The descriptor of ring `r` whose LOAD or REHASH the M-dies are hashing for. -/
def State.hashing (s : State) (f r opc : Nat) : Option Job :=
  findJob (fun j => j.phase == 1 && dOpc j.desc == opc) (s.ring (ringKey f r)).jobs

/-- LOAD (R16, R387, R388, R434): a LOAD of ring `r` of function `f` whose regions are being hashed has its roots formed; else the oldest one
begins, and its checks and copies are made. The host's memory gives the image, the weight list, the regions' data and the expected root;
`bad` is a host access that failed, in region `i` or before any; `hash` an uncorrectable chunk met while hashing; `fixed` what hashing found
corrected. DESIGN CHOICE: of a refused program DETAIL0 is the word and DETAIL1 the C-die and its standby bank; the completion names no tile
(log 47). -/
def execLoad (f : Fin 17) (r : Fin 4) (image wlist : List Byte) (data : List (List Byte)) (root : BitVec 256)
    (bad : Option (Option (Fin 4096) × W64)) (hash : Option (Fin 4096 × BitVec 36)) (fixed : List (W64 × Bool)) (s : State) : Res :=
  s.act <|
    match s.hashing f r 1 with
    | some j => (match j.load with
      | some x => if (s.bulk [] [] []).isNone then s else s.loadHash f r j x (hash.map fun x => (x.1.val, x.2.toNat)) fixed
      | none => s)
    | none =>
    match s.jobOf f r 1 with
    | none => s
    | some j =>
      let p := dPart f j.desc
      let n := dField j.desc 40 2
      let img := takeBytes (dField j.desc 24 8) image
      let ws := weightsOf wlist n
      if s.dumping p then s.jobRefused f r j Ev.dumpBusy
      else if s.contextLost p then s.jobRefused f r j Ev.partContextLost
      else if s.scrubbing p then s.jobRefused f r j Ev.partScrubbing
      else if s.rotaRuns p then s.jobRefused f r j Ev.rotaActive
      else if weightsOk wlist n = false then s.jobRefused f r j Ev.descReserved
      else match s.bulk [] ((ws.filter fun w => w.src ≠ 0).map fun w => (w.dst, w.len)) (loadMoves img) with
      | none => s
      | some s =>
        match bad with
        | some (none, a) => (s.hostError f p a.toNat).jobRefused f r j Ev.hostAccessError
        | _ =>
          let s := (s.reachHost f (dField j.desc 16 8) (dField j.desc 24 8)).reachHost f (dField j.desc 32 8) (32 * n)
          match s.firstSteps p (decide (f.val = 0)) img n, progCheck img with
          | some c, _ => s.jobRefused f r j c
          | none, some (c, t, i) => s.finishJob f r j.id 1 c i 0 (cDie (t / 192) + 256 * b2n (!(s.tile t).bank))
          | none, none =>
            let o := imgOwner (headerOf img) p
            let k := if hOwner (headerOf img) = 0 then p else hOwner (headerOf img)
            let t := s.placeAll img o
            match t.bankSteps img o with
            | some (u, c, i) => s.loadRefused f r j k (segUnits img) c (some (u, i))
            | none =>
              if usesExcluded img then s.loadRefused f r j k (segUnits img) Ev.imageRowExhausted none
              else
                match t.rotaCheck img (imageOf img) o with
                | some c => s.loadRefused f r j k (segUnits img) c none
                | none =>
                  t.loadBody f r j p img ws data root
                    (match bad with
                     | some (some i, a) => some (i.val, a)
                     | _ => none)

/-- MIRROR (R389, R243): the named standby banks take the active banks' contents, VALID with SAME = 1. -/
def execMirror (f : Fin 17) (r : Fin 4) (s : State) : Res :=
  s.act <|
    match s.jobOf f r 2 with
    | none => s
    | some j =>
      let us := (List.range 26).filter fun u =>
        if u < 6 then bitAt j.desc (128 + u) else if u < 10 then bitAt j.desc (136 + (u - 6)) else bitAt j.desc (144 + (u - 10))
      if us.any fun u => s.bankBusy u then s.jobRefused f r j Ev.ttStandbyBusy
      else (s.each (fun u s => ((s.copyBank u).setStandby u 3).wf (bankReg u) 4 1 1) us).jobOk f r j 0

/-- REHASH (R400, R368): the oldest one begins to hash, or the one that hashes has its root formed. `hash` is an uncorrectable chunk met,
`fixed` what the reads found corrected. -/
def execRehash (f : Fin 17) (r : Fin 4) (hash : Option (Fin 4096 × BitVec 36)) (fixed : List (W64 × Bool)) (s : State) : Res :=
  s.act <|
    match s.hashing f r 0x13 with
    | none => (match s.jobOf f r 0x13 with
      | none => s
      | some j => (s.hashBegin (s.part (dPart f j.desc)).regions).jobRuns f r j)
    | some j =>
      let p := dPart f j.desc
      let rs := (s.part p).regions
      let s := s.readRanges f rs fixed 3
      match s.hashMiss rs (hash.map fun x => (x.1.val, x.2.toNat)) with
      | some (i, a) =>
        let s := s.hashDone rs (some a)
        ((s.hbmUncorrectable a 3).noteP (mDie (stackOf a / 2)) p Ev.hashReadError [i, a]).jobFailed f r j Ev.hashReadError i 0
      | none =>
        let s := s.hashDone rs none
        let got := s.weightsRoot rs
        if BitVec.ofNat 256 (ofBytesLE got) = (s.part p).root then s.jobOk f r j (ofBytesLE (got.take 8))
        else
          let s := s.noteP 0 p Ev.weightsChanged []
          s.finishJob f r j.id 2 Ev.weightsChanged 0 (ofBytesLE (got.take 8)) 0

end Sys2Proof.Machine
end

