-- ==== Sys2Proof/Machine/Arm.lean ====
section
/-!
DEFINITION. Arming and changing over: LAUNCH_AT, CHANGEOVER, CANCEL, the armed tick, and rotas (R63, R64, R82, R89, R245 to
R250, R392, R393, R402 to R418, R489).
-/
namespace Sys2Proof.Machine
open Sys2Proof

/-! ## Arming (R245) -/

/-- Units an image's programs stand on: of the loaded image, or of the active one where only mirrors are armed. -/
def Part.units (x : Part) : List Nat :=
  match x.standby, x.active with
  | some im, _ => im.units
  | none, some im => im.units
  | none, none => []

/-- The units whose banks an arming names (R245, R250, R392). -/
def State.namedUnits (s : State) (p : Nat) (a : Armed) : List Nat :=
  ((if a.restart then (s.part p).units else []) ++ (List.range 6).filter (fun q => a.ports / 2 ^ q % 2 = 1) ++
    ((a.owners p).filter fun o => 16 < o).flatMap fun o => (s.part o).units).eraseDups

/-- A segment as its owner's walkers see it: contexts and programs. -/
def State.segment (s : State) (u : Nat) (b : Bool) (o : Nat) : Option (List (BitVec 256) × List (BitVec 256) × List (BitVec 256)) :=
  let d := s.segDesc u b o
  if sdValid d then
    some ((List.range (sdNctx d)).map (fun c => s.entry u b (sdCtxBase d + c)), (s.program u b o 0).map (·.2),
      if u < 6 then (s.program u b o 1).map (·.2) else [])
  else none

/-- Why R245 refuses an arming: orders 1 to 6. -/
def State.armRefusal (s : State) (p : Nat) (a : Armed) : Option Nat :=
  let os := a.owners p
  let b := fun u => !s.bankActive u
  if a.tick % 4096 ≠ 0 then some Ev.ttArmMisaligned
  else if a.tick < s.now + 8192 then some Ev.ttArmLate
  else if (a.units.any fun u => s.bankStandby u != 3) || (a.restart && !a.byRota && (s.part p).tileStandby != 3) then
    some Ev.ttStandbyBusy
  else if a.units.any fun u => ((List.range 32).drop 1).any fun o =>
      !os.contains o && s.segment u (b u) o != s.segment u (!b u) o then some Ev.ttSegmentDiffers
  else if a.units.any fun u => os.any fun o =>
      sdValid (s.segDesc u (b u) o) && decide (sdNctx (s.segDesc u (b u) o) ≤ a.ctx) then some Ev.ttContextRange
  else a.units.findSome? fun u => s.armConflict u a.tick a.ctx os.contains

/-- The level in force or being changed to is slower than the incoming image's FLOOR (R489). -/
def State.aboveLevel (s : State) (p : Nat) : Bool :=
  let x := s.part p
  let f := imageFloor (match x.standby with | some im => some im | none => x.active)
  decide (f < s.level) || (match s.power.change with | some c => decide (f < c.level) | none => false)

/-- The banks are armed and START_CTX written (R245). -/
def State.armBanks (s : State) (p : Nat) (a : Armed) : State :=
  let os := a.owners p
  s.each (fun u s =>
    let b := !s.bankActive u
    let s := s.each (fun o s =>
      let d := s.segDesc u b o
      if sdValid d then s.setEntry u b o (setFld d 97 6 a.ctx) else s) os
    let mask := (os.map fun o => 2 ^ o).sum
    ((s.setStandby u 4).w (armFtcReg u) (BitVec.ofNat 64 a.tick)).w (armOwnersReg u) (BitVec.ofNat 64 mask)) a.units

/-- An accepted arming takes its place. -/
def State.arm (s : State) (p : Nat) (a : Armed) : State :=
  let s := s.armBanks p a
  let st := s.partState p
  let s := s.updPart p fun x => { x with armed := x.armed ++ [a], tileStandby := if a.restart then 4 else x.tileStandby }
  if a.restart && st != 3 && st != 4 then s.setPartState p 2 else s

/-- What a descriptor's operands arm (R392). -/
def State.armedOf (s : State) (f r : Nat) (j : Job) (launch : Bool) : Armed :=
  let p := dPart f j.desc
  let a : Armed := { tick := dField j.desc 16 8, launch := launch, restart := launch || bitAt j.desc 200, ctx := fld j.desc 192 6
                     grants := dField j.desc 26 2, ports := fld j.desc 224 6, prev := s.partState p, ring := some (f, r, j.id) }
  { a with units := s.namedUnits p a }

/-- Why R63 refuses a launch. -/
def State.launchRefusal (s : State) (l : Nat) : Option Nat :=
  if l % 4096 ≠ 0 then some Ev.launchMisaligned
  else if s.timeState ≠ 2 then some Ev.launchNoTime
  else if l < s.now + 8192 then some Ev.launchLate
  else if s.now + 2 ^ 38 < l then some Ev.launchTooFar
  else none

/-- A rota image launched in another context than its entry 0's (R410). -/
def State.rotaStart (s : State) (p ctx : Nat) : Bool :=
  match (match (s.part p).standby with | some im => some im | none => (s.part p).active) with
  | some im => (match im.rota with | e :: _ => reCtx e != ctx | [] => false)
  | none => false

/-- The oldest launch or changeover of a ring that SA may judge: none while the module enters a state or sleeps, since SA then
dispatches nothing and M3 is entered with no launch armed (R62, R498; log 72). -/
def State.armJob (s : State) (f r opc : Nat) : Option Job :=
  if s.power.entering = none ∧ s.power.mode = 0 then s.jobOf f r opc else none

/-- LAUNCH_AT (R62, R63, R245, R392, R410, R489, R505). -/
def execLaunchAt (f : Fin 17) (r : Fin 4) (s : State) : Res :=
  s.act <|
    match s.armJob f r 4 with
    | none => s
    | some j =>
      let p := dPart f j.desc
      let a := s.armedOf f r j true
      if s.dumping p then s.jobRefused f r j Ev.dumpBusy
      else if s.contextLost p then s.jobRefused f r j Ev.partContextLost
      else match s.launchRefusal a.tick with
        | some c => s.jobRefused f r j c
        | none =>
          match s.armRefusal p a with
          | some c => s.jobRefused f r j c
          | none =>
            if s.rotaStart p a.ctx then s.jobRefused f r j Ev.rotaStart
            else if s.aboveLevel p then s.jobRefused f r j Ev.floorAboveLevel
            else (s.jobRuns f r j).arm p a

/-- CHANGEOVER (R245, R392, R417, R489, R505). -/
def execChangeover (f : Fin 17) (r : Fin 4) (s : State) : Res :=
  s.act <|
    match s.armJob f r 5 with
    | none => s
    | some j =>
      let p := dPart f j.desc
      let a := s.armedOf f r j false
      if a.restart && s.contextLost p then s.jobRefused f r j Ev.partContextLost
      else if a.restart && s.rotaRuns p then s.jobRefused f r j Ev.rotaActive
      else match s.armRefusal p a with
        | some c => s.jobRefused f r j c
        | none =>
          if a.restart && s.aboveLevel p then s.jobRefused f r j Ev.floorAboveLevel
          else (s.jobRuns f r j).arm p a

/-- CANCEL (R245, R393, R417). -/
def execCancel (f : Fin 17) (r : Fin 4) (s : State) : Res :=
  s.act <|
    match s.jobOf f r 6 with
    | none => s
    | some j =>
      let p := dPart f j.desc
      let x := dField j.desc 16 8
      match (s.part p).armed.filter fun a => a.tick = x with
      | [] => s.jobRefused f r j Ev.nothingArmed
      | as =>
        if as.any fun a => a.byRota then s.jobRefused f r j Ev.rotaActive
        else if x ≤ s.now + 4096 then s.jobRefused f r j Ev.ttArmLate
        else (s.each (fun (a : Armed) s => (s.disarmOne p a).finishArmed a 5 Ev.cancelledByHost 0) as).jobOk f r j 0

/-! ## Rotas (R410 to R417) -/

/-- Entry `k` of a partition's rota. -/
def State.rotaEntry (s : State) (p k : Nat) : W64 :=
  match (s.part p).active with
  | some im => im.rota.getD (k % im.rota.length) 0
  | none => 0

/-- Tick of the next slice of a rota at slice `k` (R411). -/
def State.nextSlice (s : State) (p : Nat) (x : Rota) : Nat := x.x + 4096 * reFrames (s.rotaEntry p x.k)

/-- Context `c` is enabled (R416). -/
def State.ctxOn (s : State) (p c : Nat) : Bool := bitAt (s.r (Reg.saRotaMask p)) c

/-- A slice begins: the mask is read for the next, and the status shows it (R416, R423). -/
def State.beginSlice (s : State) (p : Nat) (x : Rota) : State :=
  let n := match (s.part p).active with
    | some im => im.rota.length
    | none => 1
  let x := { x with nextOn := s.ctxOn p (reCtx (s.rotaEntry p (x.k + 1))), filled := false, swapped := false }
  let s := s.updPart p fun y => { y with rota := some x }
  let slices := s.rf (Reg.saRotaStatus p) 16 32
  let s := ((s.wf (Reg.saRotaStatus p) 0 8 (x.k % n)).wf (Reg.saRotaStatus p) 8 6 (reCtx (s.rotaEntry p x.k))).wf
    (Reg.saRotaStatus p) 16 32 (Nat.min (slices + 1) 0xFFFFFFFF)
  s.w (Reg.saRotaNextX p) (if x.halted then 0 else BitVec.ofNat 64 (s.nextSlice p x))

/-- A rota starts with slice 0 at its launch tick (R411), every context's first slice still to come. -/
def State.startRota (s : State) (p x : Nat) : State :=
  let s := (s.w (Reg.saRotaCtrl p) 0).w (Reg.saRotaStatus p) 0
  match (s.part p).active with
  | some im =>
    if im.rota = [] then s.updPart p fun y => { y with rota := none }
    else (s.wf (Reg.saRotaStatus p) 14 2 1).beginSlice p { k := 0, x := x }
  | none => s

/-! ## The changeover (R247 to R250) -/

/-- Cells of unit `u` that depart at or after `x` carry the new bank's letter (R247). -/
def State.relabel (s : State) (u x : Nat) (b : Bool) : State :=
  if u < 6 then s.updPort u fun q => { q with expects := q.expects.map fun d =>
    if x ≤ d.depart then { d with bank := b, check := trainCheck d.i (eTrain (d.entry.setWidth 256)) b } else d }
  else s

/-- The armed bank of unit `u` becomes active at `x` (R247, R249). -/
def State.flipBank (s : State) (u x : Nat) : State :=
  let b := !s.bankActive u
  let s := (s.wf (bankReg u) 0 1 (b2n b)).setStandby u (if s.bankSame u then 3 else 1)
  (((s.w (armFtcReg u) 0).w (armOwnersReg u) 0)).relabel u x b

/-- A cell of a train of owner `o` that its walker of `kind` on port `u` has dispatched from the present bank departs at or after `x`, from
this module or from the sender: one of an entry still to act, one that waits in the departure buffer, or one that is expected (R248). -/
def State.leavesLate (s : State) (u o kind x : Nat) : Bool :=
  let b := s.bankActive u
  decide (u < 6) &&
    (((s.walker (walkKey u o kind)).dispatched.any fun d => d.bank == b && decide (1 ≤ eType d.entry ∧ eType d.entry ≤ 4) &&
      decide (x ≤ cellTick (s.bankHalf u b) d.tick (eNm1 d.entry))) ||
    (if kind = 0 then (s.port u).departs.any fun d => d.owner == o && d.bank == b && decide (x ≤ d.tick)
      else (s.port u).expects.any fun d => d.owner == o && d.bank == b && decide (x ≤ d.depart)))

/-- A walker of a restarting owner is elsewhere than R248 asks at `x`. `free`: a stopped partition that is launched again (R467). -/
def State.walkerBusy (s : State) (u o kind x : Nat) (free : Bool) : Bool :=
  let w := s.walker (walkKey u o kind)
  let leaves := s.leavesLate u o kind x
  match w.state, w.parkAt with
  | 0, _ => false
  | 3, _ => !free
  | 2, _ => leaves
  | _, some t => if t ≤ x then leaves else !w.points.contains x
  | _, none => !w.points.contains x

/-- The busy walkers of an arming: unit, owner, entry index. -/
def State.busyWalkers (s : State) (p : Nat) (a : Armed) : List (Nat × Nat × Nat) :=
  a.units.flatMap fun u => (a.owners p).flatMap fun o => (if u < 6 then [0, 1] else [0]).filterMap fun k =>
    if s.walkerBusy u o k a.tick (a.launch && decide (o ≤ 16)) then some (u, o, (s.walker (walkKey u o k)).idx) else none

/-- A tile that may change over (R82): idle or waiting; at a launch also a stopped one (R467). -/
def changeable (launch : Bool) (t : Tile) : Bool :=
  t.state == 0 || t.state == 2 || t.state == 3 || t.state == 4 || (launch && (t.state == 5 || t.state == 6))

/-- What the restarting owners' former entries beyond a POINT have prepared goes (R197, R225). -/
def State.dropFormer (s : State) (u x : Nat) (os : List Nat) : State :=
  let b := s.bankActive u
  if u < 6 then s.updPort u fun q => { q with
    expects := q.expects.filter fun d => !(os.contains d.owner && d.bank == b && decide (x ≤ d.depart)) }
  else s

/-- The walkers of owner `o` on unit `u` restart at `x` (R222, R247); its former entries act as dispatched (R224). -/
def State.restartWalkers (s : State) (u o x : Nat) : State :=
  s.each (fun k s =>
    let key := walkKey u o k
    let keep := (s.walker key).dispatched.filter fun d => match d.after with
      | some t => decide (t < x)
      | none => true
    let pre := s.preWalker key
    let fresh := if pre.state ≠ 0 then some pre else s.freshWalker u (s.bankActive u) o k x
    let s := s.setPreWalker key {}
    match fresh with
    | some w => s.setWalker key { w with dispatched := keep }
    | none => s.setWalker key { dispatched := keep }) (if u < 6 then [0, 1] else [0])

/-- LCT of line cycle 0 of a job that starts now on C-die `c` (R89): this core cycle, if one has just begun, else the next. -/
def State.cycleZero (s : State) (c : Nat) : Nat := (s.r (Reg.cnLct c)).toNat + (if s.coreNow c then 0 else 1)

/-- A tile starts word 0 of its new bank (R79, R80, R139); sends already queued keep their cycles (R149). -/
def Tile.restart (x : Tile) (seed : W64) (now oldBase newBase : Nat) : Tile :=
  { x.cleared seed with
    bank := !x.bank, progLen := x.stbyLen, stbyLen := 0, pc := 0, state := 1, fault := 0, retired := now
    sendQ := x.sendQ.map fun m => { m with cycle := m.cycle + oldBase - newBase } }

/-- The tiles of partition `p` that are not busy restart, and line cycle 0 is set (R80, R89). -/
def State.restartTiles (s : State) (p : Nat) (seed : W64) (ts : List Nat) : State :=
  let s := s.each (fun t s => s.updTile t fun x => x.restart seed s.now (s.lineBase t) (s.cycleZero (t / 192))) ts
  s.each (fun q s => if s.hasQuarter p q then s.w (Reg.cnLineBase (q / 4) (q % 4)) (BitVec.ofNat 64 (s.cycleZero (q / 4))) else s)
    (List.range 16)

/-- The incoming image is the active one (R247, R388, R399): its context, its tiles' banks. -/
def State.adopt (s : State) (p : Nat) (a : Armed) : State :=
  let s := s.updPart p fun x => { x with
    active := (match x.standby with | some im => some im | none => x.active), standby := none, tileStandby := 0 }
  (s.wf (Reg.saPartStatus p) 6 6 a.ctx).setPartState p 3

/-- What a launch adds (R64, R249 and the rules that name a launch): its tick, the stop withdrawn, flags cleared, lock-step and
rota started. Held cells are discarded only after a stop, up to the launch that ended it (R206, R467). -/
def State.launched (s : State) (p x : Nat) : State :=
  let s := s.latchLock p
  let s := (s.w (Reg.saStopStatus p) 0).withRecent []
  let s := s.updPart p fun y => { y with lastLaunch := x, firstStop := 0, discardBefore := y.discardBefore.map fun d => Nat.min d x, errors := 0 }
  let s := s.each (fun q s => (s.w (Reg.lnReduceFlags q (p + 1)) 0).takeAgain q (p + 1)) (List.range 6)
  (s.lsLaunch p).startRota p x

/-- Seed of the image that partition `p` starts. -/
def Part.seed (x : Part) : W64 :=
  match x.standby, x.active with
  | some im, _ => hSeed im.header
  | none, some im => hSeed im.header
  | none, none => 0

/-- The busy tiles stop, with them the partition's tiles on their C-dies, and are recorded (R82, R104). -/
def State.busyTiles (s : State) (p : Nat) (ts : List Nat) : State :=
  s.each (fun t s => (s.stopOnDie p (t / 192)).fail (cDie (t / 192)) p Ev.changeoverTileBusy [t, (s.tile t).pc % 32768]) ts

/-- The busy walkers are recorded: a partition owner stops, a grant dispatches nothing further (R248). -/
def State.busyReport (s : State) (bs : List (Nat × Nat × Nat)) : State :=
  s.each (fun (b : Nat × Nat × Nat) s =>
    let items := [if b.1 < 6 then b.1 else if b.1 < 10 then b.1 - 6 else b.1 - 10, b.2.1, b.2.2]
    if b.2.1 ≤ 16 then s.fail (unitDie b.1) (b.2.1 - 1) Ev.ttChangeoverBusy items
    else (s.note (unitDie b.1) Ev.ttChangeoverBusy items).stopWalkers b.2.1) bs

/-- A partition restarts at its armed tick: `ts` its tiles that are busy. A launch abandons its binds whose token has not met its
threshold (R391, R451). -/
def State.restartPart (s : State) (p : Nat) (a : Armed) (ts : List Nat) : State :=
  let s := if a.launch then s.dropBinds p else s.noteBinds
  let seed := (s.part p).seed
  let go := (s.tilesOf p).filter fun t => !ts.contains t
  let s := (s.restartTiles p seed go).adopt p a
  if a.launch then s.launched p a.tick else s

/-- The slice that an arming of the rota begins (R411, R414): a disabled context restarts nothing. -/
def State.rotaStep (s : State) (p : Nat) (a : Armed) : State :=
  if a.byRota then
    match (s.part p).rota with
    | some x => s.beginSlice p { x with k := x.k + 1, x := a.tick, on := x.nextOn }
    | none => s
  else s

/-- The walkers of a partition that an all-stop has stopped on units without a segment of the image it launches are walkers no longer
(R250, R467). -/
def State.dropStopped (s : State) (p : Nat) (us : List Nat) : State :=
  s.each (fun uk s =>
    if us.contains uk.1 then s else s.updWalker (walkKey uk.1 (p + 1) uk.2) fun w => if w.state = 3 then {} else w) walkUnits

/-- An armed command of partition `p` takes place on the units whose banks are armed for it (R64, R247, R248, R250). A rota's disabled
context restarts nothing, and the outgoing one is held to R82 and R248 all the same (R413). What an all-stop has already halted is not
busy; a stop that waited for this changeover follows it (R398, R467). -/
def State.fire (s : State) (p : Nat) (a : Armed) : State :=
  let halted := match (s.part p).stopAfter with
    | some d => d.done
    | none => false
  let armed := a
  let a := { a with units := a.units.filter fun u => s.bankStandby u = 4 ∧ (s.r (armFtcReg u)).toNat = a.tick }
  let os := a.owners p
  let ws := (s.busyWalkers p { a with restart := a.restart || a.byRota }).filter fun b => !(halted && b.2.1 == p + 1)
  let ts := if (a.restart || a.byRota) && !halted then (s.tilesOf p).filter fun t => !changeable a.launch (s.tile t) else []
  let s := s.updPart p fun x => { x with armed := x.armed.erase armed }
  let s := s.each (fun u s => (s.dropFormer u a.tick os).flipBank u a.tick) a.units
  let s := s.each (fun u s => s.each (fun o s => s.restartWalkers u o a.tick) os) a.units
  let s := s.each (fun o s => s.updPart o fun x => { x with
    active := (match x.standby with | some im => some im | none => x.active), standby := none
    discardBefore := x.discardBefore.map fun d => Nat.min d a.tick }) (os.filter fun o => 16 < o)
  let s := if a.launch then s.dropStopped p a.units else s
  let s := if a.restart then s.restartPart p a ts else s
  let s := ((s.rotaStep p a).busyTiles p ts).busyReport ws
  let s := if ts = [] ∧ (ws.filter fun b => b.2.1 ≤ 16) = [] then s.finishArmed a 0 0 a.tick
    else s.finishArmed a 2 (if ts = [] then Ev.ttChangeoverBusy else Ev.changeoverTileBusy) 0
  s.stopFollows p

/-- CHANGEOVER_TICK (R247): everything armed for the tick that has come. -/
def execChangeoverTick (s : State) : Res :=
  s.act <|
    s.each (fun p s => s.each (fun (a : Armed) s => if a.tick ≤ s.now then s.fire p a else s) (s.part p).armed) (List.range 16)

/-! ## What a rota does in a slice (R412 to R417) -/

/-- The units of a running partition's programs. -/
def State.rotaUnits (s : State) (p : Nat) : List Nat :=
  match (s.part p).active with
  | some im => im.units
  | none => []

/-- The arming of the next slice. -/
def State.rotaArmed (s : State) (p : Nat) (x : Rota) : Armed :=
  { tick := s.nextSlice p x, units := s.rotaUnits p, launch := false, restart := x.nextOn
    ctx := reCtx (s.rotaEntry p (x.k + 1)), grants := 0, ports := 0, byRota := true, prev := s.partState p }

/-- ROTA_FILL_DONE (R414): the fill of the next context's programs is complete, and at launch the mirror; the rota arms the next
changeover, at the latest 8,192 ticks ahead (R415). A refusal stops the partition with its code (R245). -/
def execRotaFillDone (p : Fin 16) (s : State) : Res :=
  s.act <|
    match (s.part p).rota with
    | none => s
    | some x =>
      if s.rotaRuns p = false ∨ x.filled = true ∨ s.nextSlice p x < s.now + 8192 ∨ (x.mirrored = false ∧ (s.rotaUnits p).any (fun u => s.bankBusy u) = true) then s
      else
        let c := reCtx (s.rotaEntry p (x.k + 1))
        let s := if x.nextOn then (s.fillTiles (s.part p).progs c).updPart p fun y => { y with tileStandby := 3 } else s
        let s := if x.mirrored then s
          else s.each (fun u s => ((s.copyBank u).setStandby u 3).wf (bankReg u) 4 1 1) (s.rotaUnits p)
        let x := { x with filled := true, mirrored := true }
        let s := s.updPart p fun y => { y with rota := some x }
        let a := s.rotaArmed p x
        match s.armRefusal p a with
        | some code => s.fail 0 p code [a.tick]
        | none => if x.nextOn && s.aboveLevel p then s.fail 0 p Ev.floorAboveLevel [a.tick] else s.arm p a

/-- ROTA_FILL_LATE (R415): at X − 8,192 nothing is armed for the next slice. -/
def execRotaFillLate (p : Fin 16) (s : State) : Res :=
  s.act <|
    match (s.part p).rota with
    | none => s
    | some x =>
      if s.rotaRuns p = true ∧ x.filled = false ∧ s.nextSlice p x ≤ s.now + 8192 then s.fail 0 p Ev.rotaFillLate [s.nextSlice p x] else s

/-- Key of the saved value of token `k` in context `c` (R412). -/
def tokenSave (c k : Nat) : Nat := saveArea 64 0 + (c * 16384 + k) * 4

/-- The outgoing context is saved: the first `n` bytes of every tile, and the tokens (R412). -/
def State.saveCtx (s : State) (p c n : Nat) : State :=
  let s := s.each (fun t s => s.copyMem (tileAddr t 0) (saveArea c t) n) (s.tilesOf p)
  s.each (fun k s => s.store (tokenSave c k) 4 (s.token k).val.toNat) (s.tokensOf p)

/-- The incoming context is restored: as it was saved, or in its first slice zeros and the token map's values (R412). -/
def State.restoreCtx (s : State) (p c n : Nat) (first : Bool) (m : List W64) : State :=
  let s := s.each (fun t s => if first then s.zeroMem (tileAddr t 0) n else s.copyMem (saveArea c t) (tileAddr t 0) n) (s.tilesOf p)
  s.each (fun k s =>
    let v : W32 := if first then
        (match m.find? fun e => tmToken e == k && tmInit e with
          | some e => (e >>> 32).setWidth 32
          | none => 0)
      else BitVec.ofNat 32 (s.load (tokenSave c k) 4)
    s.setToken k { val := v }) (s.tokensOf p)

/-- ROTA_SWAP_START (R412, R413, R416): at S_k in full-static mode. A tile that is busy stops the partition; a disabled slice
restores nothing, and after one nothing is saved. -/
def execRotaSwapStart (p : Fin 16) (s : State) : Res :=
  s.act <|
    match (s.part p).rota, (s.part p).active with
    | some x, some im =>
      if im.rotaMode = false ∨ x.swapped = true ∨ s.partState p ≠ 3 ∨ x.filled = false ∨ s.now < s.nextSlice p x - 4096 * im.swapOf x.k then s
      else
        let busy := (s.tilesOf p).filter fun t => !changeable false (s.tile t)
        if busy ≠ [] then
          s.each (fun t s => s.fail (cDie (t / 192)) p Ev.rotaSwapBusy [t, (s.tile t).pc % 32768]) (busy.take 1)
        else
          let c := reCtx (s.rotaEntry p x.k)
          let d := reCtx (s.rotaEntry p (x.k + 1))
          let save := fun c => (im.ctxs.getD c (0, 0)).1
          let s := if x.on then s.saveCtx p c (save c) else s
          let saved := if x.on then c :: x.saved else x.saved
          let s := if x.nextOn then s.restoreCtx p d (save d) (!saved.contains d) im.tokens else s
          s.updPart p fun y => { y with rota := some { x with swapped := true, saved := saved } }
    | _, _ => s

/-- ROTA_HALT (R417): the rota arms nothing further; what is armed takes place. -/
def execRotaHalt (i : Iface) (p : Fin 16) (v : W32) (s : State) : Res :=
  s.act <| s.regWrite i (Reg.saRotaCtrl p) false fun s =>
    let s := s.write32 (Reg.saRotaCtrl p) v
    if bitAt v 0 && s.rotaRuns p then
      let s := s.wf (Reg.saRotaStatus p) 14 2 2
      let s := if (s.part p).armed.any fun a => a.byRota then s else s.w (Reg.saRotaNextX p) 0
      s.updPart p fun y => { y with rota := y.rota.map fun x => { x with halted := true } }
    else s

/-- PART_SCRUBBED (R404): the scrub of reassigned quarters has finished. -/
def execPartScrubbed (s : State) : Res :=
  s.act <|
    let ps := (List.range 16).filter fun p => s.scrubbing p
    if ps = [] then s
    else
      let mask := (ps.map fun p => (s.part p).scrubMask).foldl Nat.lor 0
      let s := s.each (fun p s => (s.wf (Reg.saPartStatus p) 3 1 0).updPart p fun x => { x with scrubMask := 0 }) ps
      s.note 0 Ev.partScrubbed [mask]

end Sys2Proof.Machine
end

