-- ==== Sys2Proof/Machine/Convert.lean ====
section
/-!
DEFINITION. Conversions between FP32 and every other format (R110, R129 to R134, R158), Philox4x32-10 (R133), and the long
accumulators (R125 to R128).
-/
namespace Sys2Proof.Machine
open Sys2Proof

/-! ## Philox (R133) -/

/-- One round on (c0, c1, c2, c3) with key (k0, k1). -/
def philoxRound (c : Nat × Nat × Nat × Nat) (k0 k1 : Nat) : Nat × Nat × Nat × Nat :=
  let p := 0xD2511F53 * c.1
  let q := 0xCD9E8D57 * c.2.2.1
  (Nat.xor (Nat.xor (q / 2 ^ 32) c.2.1) k0, q % 2 ^ 32, Nat.xor (Nat.xor (p / 2 ^ 32) c.2.2.2) k1, p % 2 ^ 32)

/-- `n` rounds, the key bumped between them. -/
def philoxRounds : Nat → Nat × Nat × Nat × Nat → Nat → Nat → Nat × Nat × Nat × Nat
  | 0, c, _, _ => c
  | n + 1, c, k0, k1 => philoxRounds n (philoxRound c k0 k1) ((k0 + 0x9E3779B9) % 2 ^ 32) ((k1 + 0xBB67AE85) % 2 ^ 32)

/-- The random word of position `p` under stream `t`, seed and c3. -/
def philoxWord (seed : W64) (p t c3 : Nat) : Nat :=
  let c := philoxRounds 10 (p / 4 % 2 ^ 32, p / 2 ^ 34 % 2 ^ 30, t % 2 ^ 32, c3) (fld seed 0 32) (fld seed 32 32)
  match p % 4 with
  | 0 => c.1
  | 1 => c.2.1
  | 2 => c.2.2.1
  | _ => c.2.2.2

/-! ## Narrowing -/

/-- UNDERFLOW is set for a subnormal or zero result of a nonzero value (R138). -/
def FFmt.satRound (f : FFmt) (mode r : Nat) (neg : Bool) (n d : Nat) : Nat × Nat :=
  if n = 0 then (f.signed neg 0, 0)
  else
    let (q, k) := f.roundMag mode r neg n d
    let c := f.codeOf q k
    let top := if f.special then f.infBits - 1 else if f = e4m3 then 0x7E else 2 ^ (f.ew + f.fw) - 1
    let v := fracOf q k
    if top < c then (f.signed neg top, fCvtSat + fInexact)
    else (f.signed neg c, (if v.1 * d = n * v.2 then 0 else fInexact) + (if c < 2 ^ f.fw then fUnderflow else 0))

/-- A magnitude rounded to an integer and saturated to `w` bits two's complement, with its sign; a nonzero one that rounds to 0
underflows (R138). -/
def satInt (w mode r : Nat) (neg : Bool) (n d : Nat) : Nat × Nat :=
  let q := roundInt mode r neg n d
  let x : Int := if neg then -(q : Int) else q
  let lo : Int := -(2 ^ (w - 1) : Nat)
  let hi : Int := (2 ^ (w - 1) : Nat) - 1
  if x < lo then (enc w lo, fCvtSat + fInexact)
  else if hi < x then (enc w hi, fCvtSat + fInexact)
  else (enc w x, (if q * d = n then 0 else fInexact) + (if q = 0 ∧ n ≠ 0 then fUnderflow else 0))

/-- An FP32 code converted to an integer of `w` bits (R130, R158). DESIGN CHOICE: an infinity saturates with INVALID and CVT_SAT and leaves
INEXACT clear, since R138 does not say whether that result counts as not exact (log 69). -/
def toInt (w mode : Nat) (a : Nat) : Nat × Nat :=
  let mode := if mode = 4 then 0 else mode
  match fp32.decode a with
  | .nan => (0, fInvalid)
  | .inf neg => (if neg then 2 ^ (w - 1) else 2 ^ (w - 1) - 1, fInvalid + fCvtSat)
  | .fin neg m e => let v := fracOf m e; satInt w mode 0 neg v.1 v.2

/-- An FP32 code converted to bfloat16 or binary16 (R130). -/
def toHalf (f : FFmt) (mode r : Nat) (ftz : Bool) (a : Nat) : Nat × Nat :=
  match fp32.decode a with
  | .nan => (f.nanBits, 0)
  | .inf neg => (f.signed neg f.infBits, 0)
  | .fin neg m e =>
    let v := fracOf m e
    let x := f.round (if mode = 4 ∧ f ≠ bf16 then 0 else mode) r neg v.1 v.2
    if ftz && decide (f = bf16) && decide (x.1 % 2 ^ 15 < 2 ^ 7) && decide (m ≠ 0) then
      (f.signed neg 0, fUnderflow + fInexact)
    else x

/-- The floating-point MX element formats by code (R145). -/
def mxFmt (k : Nat) : FFmt :=
  match k with
  | 3 => e4m3
  | 4 => e5m2
  | 5 => e3m2
  | 6 => e2m3
  | _ => e2m1

/-- emax of R131. -/
def mxEmax (k : Nat) : Int :=
  match k with
  | 3 => 8
  | 4 => 15
  | 5 => 4
  | 6 => 2
  | 7 => 2
  | _ => 0

/-- floor(log2) of a finite nonzero FP32 magnitude's bits. -/
def floorLog2 (mag : Nat) : Int :=
  match fp32.decode mag with
  | .fin _ m e => (Nat.log2 m : Int) + e
  | _ => 0

/-- An MX element code from an FP32 code under scale X (R131). DESIGN CHOICE: an MXINT8 element that rounds to −2.0 stays i = −128 and does
not saturate, since R108 counts −2 in the format and R131 does not say whether it lies beyond the largest finite value (log 68). -/
def toMx (k mode r x a : Nat) : Nat × Nat :=
  match fp32.decode a with
  | .fin neg m e =>
    let v := fracOf m (e - ((x : Int) - 127))
    if k = 8 then satInt 8 mode r neg (v.1 * 64) v.2
    else (mxFmt k).satRound mode r neg v.1 v.2
  | _ => (0, 0)

/-- The scale of a block of FP32 codes, and whether the block holds a NaN or an infinity (R131). -/
def mxScale (k : Nat) (vs : List Nat) : Nat × Bool :=
  if vs.any (fun a => fp32.infBits ≤ a % 2 ^ 31) then (0xFF, true)
  else
    let amax := (vs.map (· % 2 ^ 31)).foldl Nat.max 0
    if amax = 0 then (0, false) else ((floorLog2 amax - mxEmax k + 127).toNat, false)

/-! ## Widening -/

/-- Value of an MX element code (R108, R110). -/
def mxVal (k c : Nat) : FVal :=
  if k = 8 then let i := sgn 8 c; .fin (decide (i < 0)) i.natAbs (-6) else (mxFmt k).decode c

/-- A decoded value as an FP32 code, exact or rounded once (R132). -/
def valTo32 (mode : Nat) (v : FVal) : Nat × Nat :=
  match v with
  | .nan => (nan32, 0)
  | .inf neg => (fp32.signed neg fp32.infBits, 0)
  | .fin neg m e => let x := fracOf m e; fp32.round mode 0 neg x.1 x.2

/-- An element of format `k` (1 to 10) to FP32; `x` is the scale of an MX block. -/
def toFp32 (k mode x c : Nat) : Nat × Nat :=
  if k = 1 then valTo32 0 (bf16.decode c)
  else if k = 2 then valTo32 0 (fp16.decode c)
  else if k = 9 then let i := sgn 8 c; valTo32 0 (.fin (decide (i < 0)) i.natAbs 0)
  else if k = 10 then let i := sgn 32 c; valTo32 (if mode = 4 then 0 else mode) (.fin (decide (i < 0)) i.natAbs 0)
  else if x = 0xFF then (nan32, 0)
  else
    match mxVal k c with
    | .fin neg m e => valTo32 0 (.fin neg m (e + ((x : Int) - 127)))
    | v => valTo32 0 v

/-! ## Long accumulators (R125 to R128) -/

/-- L as an integer. -/
def Lacc.int (l : Lacc) : Int := l.val.toInt

/-- L set to an exact sum, which wraps (R126). -/
def Lacc.put (l : Lacc) (x : Int) : Lacc :=
  { l with val := BitVec.ofInt 160 x, ovf := l.ovf || decide (x < -(2 ^ 159 : Int)) || decide ((2 ^ 159 : Int) ≤ x) }

/-- What one FP32 value adds, and its OVER, UNDER and NAN. -/
def laccTerm (a : Nat) : Int × Bool × Bool × Bool :=
  match fp32.decode a with
  | .nan => (0, false, false, true)
  | .inf _ => (0, true, false, false)
  | .fin neg m e =>
    let v := fracOf m (e + 80)
    if 2 ^ 159 * v.2 ≤ v.1 then (0, true, false, false)
    else
      let q : Int := (v.1 / v.2 : Nat)
      (if neg then -q else q, false, decide (v.1 % v.2 ≠ 0), false)

/-- The values of one lane group enter together (R126). -/
def Lacc.add (l : Lacc) (xs : List Nat) : Lacc :=
  let ts := xs.map laccTerm
  let l := l.put (l.int + (ts.map (·.1)).foldl (· + ·) 0)
  { l with ovf := l.ovf || ts.any (·.2.1), unf := l.unf || ts.any (·.2.2.1), nan := l.nan || ts.any (·.2.2.2) }

/-- The read value and FP_FLAGS (R127, R138). -/
def Lacc.read (l : Lacc) : Nat × Nat :=
  let f := b2n l.ovf * 128 + b2n l.unf * 256 + b2n l.nan * 512
  if l.nan || l.ovf then (nan32, f + fInvalid)
  else
    let x := valTo32 0 (.fin (decide (l.int < 0)) l.int.natAbs (-80))
    (x.1, f + x.2)

/-- The 24-byte record (R128) and the merge of one. -/
def Lacc.record (l : Lacc) : Nat := l.val.toNat + (b2n l.ovf + 2 * b2n l.unf + 4 * b2n l.nan) * 2 ^ 160

def Lacc.merge (l : Lacc) (rec_ : Nat) : Lacc :=
  let l := l.put (l.int + (BitVec.ofNat 160 rec_).toInt)
  let f := rec_ / 2 ^ 160
  { l with ovf := l.ovf || f % 2 == 1, unf := l.unf || f / 2 % 2 == 1, nan := l.nan || f / 4 % 2 == 1 }

end Sys2Proof.Machine
end

