-- ==== Sys2Proof/Machine/Routing.lean ====
section
/-!
DEFINITION. Routing of packets and newts, the two routing tables and their flip (R326 to R331, R338 to R346).
-/
namespace Sys2Proof.Machine
open Sys2Proof

/-! ## Tables (R327, R344) -/

/-- Coordinate of this module on axis `a`. -/
def State.coord (s : State) (a : Nat) : Nat := s.coords / 32 ^ a % 32

/-- Extent of axis `a` in version `v`, and its VALID bit. -/
def State.extent (s : State) (v a : Nat) : Nat := s.rf (Reg.saRouteExt v) (6 * a) 6
def State.routeValid (s : State) (v : Nat) : Bool := bitAt (s.r (Reg.saRouteExt v)) 31

/-- Entry of version `v` for axis `a` and coordinate `c`. -/
def State.routeEntry (s : State) (v a c : Nat) : Nat :=
  let e := 32 * a + c
  s.rf (Reg.saRoute v (e / 4)) (8 * (e % 4)) 8

def State.injectEpoch (s : State) : Nat := s.rf Reg.saRouteCtrl 0 1

/-- Packet lifetime in frames. -/
def State.lifetime (s : State) : Nat :=
  let l := s.rf Reg.saRouteCtrl 16 16
  if l = 0 then 1 else l

/-- A version that may not be written (R344). -/
def State.versionBusy (s : State) (v : Nat) : Bool :=
  v == s.injectEpoch ||
    (match s.flipPrev with
     | some f => decide (s.now < f + 4096 * s.lifetime)
     | none => false)

/-- A write of `SA.ROUTE[v][i]` or `SA.ROUTE_EXT[v]` (R344). -/
def State.writeRoute (s : State) (key : Nat) (wide : Bool) (x : W64) : State :=
  let v := key % 0x100 / 0x80
  if s.versionBusy v then s.note 0 Ev.routeVersionBusy [0x300000000000 + key] else s.writeReg key wide x

/-- The destination (15 bits of coordinates) lies within the extents of version `v`, which is valid (R327). -/
def State.routable (s : State) (v dst : Nat) : Bool :=
  s.routeValid v && (List.range 3).all fun a => decide (dst / 32 ^ a % 32 < s.extent v a)

/-- The port of a direction on an axis: 0 XP, 1 XM, 2 YP, 3 YM, 4 ZP, 5 ZM. -/
def dirPort (a : Nat) (minus : Bool) : Nat := 2 * a + b2n minus

/-- A direction is a candidate (R328). -/
def State.candidate (s : State) (v a c : Nat) (minus : Bool) : Bool :=
  decide (s.routeEntry v a c / 2 ^ b2n minus % 2 = 1) && s.linkState (dirPort a minus) == 4

/-- The direction chosen at a turn point (R328), none where neither is a candidate; the counter moves only where both are. -/
def State.turnChoice (s : State) (v a c : Nat) : Option Bool × State :=
  match s.candidate v a c false, s.candidate v a c true with
  | true, true =>
    let e := s.routeEntry v a c
    let k := a * 32 + c
    let n := SMap.get (fun _ => 0) s.spray k
    let p0 := e / 4 % 8
    let m0 := e / 32 % 8
    let wp := if p0 + m0 = 0 then 1 else p0
    let wm := if p0 + m0 = 0 then 1 else m0
    (some (decide (wp ≤ n % (wp + wm))), (s.withSpray (SMap.set (fun _ => 0) s.spray k ((n + 1) % 8))))
  | true, false => (some false, s)
  | false, true => (some true, s)
  | false, false => (none, s)

/-- The hop in direction `minus` of axis `a` crosses the wrap link (R329). -/
def State.wraps (s : State) (v a : Nat) (minus : Bool) : Bool :=
  if minus then s.coord a == 0 else s.coord a + 1 == s.extent v a

/-- The header for the next hop: DIR, AXIS and DATELINE, and the tag's VC (R326, R329). -/
def State.setHop (s : State) (c : Cell) (v a : Nat) (minus : Bool) : Cell :=
  let c := setFld (setFld c (6 + a) 1 (b2n minus)) 9 2 a
  let c := if s.wraps v a minus then setFld c 11 1 1 else c
  setFld c 2107 3 (pkVc c)

/-! ## Where a packet stands -/

/-- Its destination is this module. -/
def State.atDest (s : State) (c : Cell) : Bool := decide (fld c 13 15 = s.coords)

/-- A multicast packet that goes on past this module (R338). -/
def goesOn (c : Cell) : Bool := pkMcast c && decide (1 < pkHops c)

/-- The first axis whose coordinate differs. -/
def State.nextAxis (s : State) (c : Cell) : Nat :=
  if pkDst c 0 ≠ s.coord 0 then 0 else if pkDst c 1 ≠ s.coord 1 then 1 else 2

/-- What routing decides. -/
inductive Hop where
  /-- To port `p` with this header. -/
  | go (p : Nat) (c : Cell) (turned : Bool)
  | noRoute
  /-- Discarded (R330); where it reversed first and met a second port not in UP, that port. -/
  | turnbackDrop (turned : Option Nat)
deriving DecidableEq, Repr

/-- A packet going on in its direction on axis `a`: the port, or the reversal where it is not in UP (R330). -/
def State.carryOn (s : State) (c : Cell) (v a : Nat) : Hop :=
  let d := pkDir c a
  if s.linkState (dirPort a d) = 4 then .go (dirPort a d) (s.setHop c v a d) false
  else if pkTurnback c || pkMcast c then .turnbackDrop none
  else if s.linkState (dirPort a (!d)) = 4 then .go (dirPort a (!d)) (setFld (s.setHop c v a (!d)) 5 1 1) true
  else .turnbackDrop (some (dirPort a (!d)))

/-- The next hop of a packet that does not end here (R326 to R330). `fresh`: from an injection unit, whose module is its
first turn point. -/
def State.hopOf (s : State) (c : Cell) (fresh : Bool) : Hop × State :=
  let v := cellEpoch c
  if s.routable v (fld c 13 15) = false then (.noRoute, s)
  else if pkMcast c then (s.carryOn c v (pkAxis c), s)
  else
    let cur := pkAxis c
    if fresh = false ∧ cur < 3 ∧ pkDst c cur ≠ s.coord cur then (s.carryOn c v cur, s)
    else
      let a := s.nextAxis c
      match s.turnChoice v a (pkDst c a) with
      | (none, s) => (.noRoute, s)
      | (some d, s) => (.go (dirPort a d) (s.setHop (setFld (setFld c 5 1 0) 11 1 0) v a d) false, s)

/-! ## Newts that travel (R340 to R343) -/

/-- The port a routed newt leaves by: dimension order, the candidate with the fewer hops, plus when equal (R343). -/
def State.newtPort (s : State) (dst : Nat) : Option Nat :=
  let v := s.injectEpoch
  if s.routable v dst = false ∨ dst = s.coords then none
  else
    let d := fun a => dst / 32 ^ a % 32
    let a := if d 0 ≠ s.coord 0 then 0 else if d 1 ≠ s.coord 1 then 1 else 2
    let e := s.extent v a
    let up := (d a + e - s.coord a) % e
    let down := (s.coord a + e - d a) % e
    match s.candidate v a (d a) false, s.candidate v a (d a) true with
    | true, true => some (dirPort a (decide (down < up)))
    | true, false => some (dirPort a false)
    | false, true => some (dirPort a true)
    | false, false => none

/-- Put a newt in a port's routed queue of 64, else count it; whether it entered. -/
def State.queueRouted (s : State) (p : Nat) (n : Newt) : Bool × State :=
  if (s.port p).newtsRouted.length < 64 then (true, s.updPort p fun x => { x with newtsRouted := x.newtsRouted ++ [n] })
  else (false, s.inc (Reg.lnNewtDrop p))

/-- Originate a routed newt (R340, R396): whether it entered a port's queue. -/
def State.originateRouted (s : State) (type dst body : Nat) : Bool × State :=
  match s.newtPort dst with
  | none => (false, s)
  | some p =>
    let s := s.withNseq (s.nseq + 1)
    s.queueRouted p (newtOf type 1 dst s.coords s.modNum s.nseq.toNat 64 body)

/-- ROUTED_NEWT (R343): a routed newt of port `p` goes one hop on, or is delivered to SA: a CTRL to the PF's notify ring
(R396); a LOCKSTEP acts through LOCKSTEP_NEWT. -/
def execRoutedNewt (p : Fin 6) (n : Newt) (s : State) : Res :=
  s.act <|
    if nwScope n ≠ 1 ∨ newtKnown n = false then s
    else if nwDst n = s.coords then
      (if nwType n = 0x20 then (s.wakeBy 5).addNote 2 (nwOrigin n) 255 (nwBody n 0 48) else s)
    else if nwTtl n ≤ 1 then s.inc (Reg.lnNewtDrop p)
    else match s.newtPort (nwDst n) with
      | some q => (s.queueRouted q (nwHop n)).2
      | none => s.inc (Reg.lnNewtDrop p)

/-- BROADCAST_NEWT (R343): a new broadcast newt other than ALL_STOP is forwarded on every other port in UP. -/
def execBroadcastNewt (p : Fin 6) (n : Newt) (s : State) : Res :=
  s.act <|
    if nwType n ≠ 0x11 ∨ nwScope n ≠ 2 then s
    else if s.newtNew p n = false then s.inc (Reg.lnNewtDup p)
    else
      let s := s.sawNewt p n
      if nwTtl n ≤ 1 then s.inc (Reg.lnNewtDrop p)
      else s.each (fun q s =>
        if q ≠ p.val ∧ s.linkState q = 4 ∧ s.newtNew q n = true then (s.sawNewt q n).queueBcast q (nwHop n) else s)
        (List.range 6)

/-! ## The flip (R345, R346) -/

/-- An EPOCH_SET is checked, and accepted or recorded as refused with its origin (R345). -/
def State.epochSet (s : State) (fabricOk : Bool) (flip epoch origin : Nat) : State :=
  if fabricOk = false then s.note 0 Ev.epochFabricDiffers [origin]
  else if flip % 4096 ≠ 0 ∨ flip < s.now + 8192 then s.note 0 Ev.epochLate [origin]
  else if epoch = s.injectEpoch ∨ bitAt (s.r Reg.saRouteCtrl) 1 = true ∨ s.versionBusy epoch = true then
    s.note 0 Ev.epochBusy [origin]
  else if s.routeValid epoch = false then s.note 0 Ev.epochNoTable [origin]
  else (s.wf Reg.saRouteCtrl 1 1 1).w Reg.saRouteFlipFtc (BitVec.ofNat 64 flip)

/-- EPOCH_SET (R343, R345): SA acts on the first copy of an EPOCH_SET newt that reaches it, here by port `p`. -/
def execEpochSet (p : Fin 6) (n : Newt) (s : State) : Res :=
  s.act <|
    if nwType n ≠ 0x11 ∨ nwScope n ≠ 2 ∨ s.newtNew 6 n = false then s
    else
      let fab := decide (nwBody n 9 4 = s.rf (Reg.lnFabricId p) 0 32)
      (s.sawNewt 6 n).epochSet fab (nwBody n 0 8) (nwBody n 8 1 % 2) (nwOrigin n)

/-- EPOCH_FLIP (R345): at FLIP_FTC the injection epoch changes. -/
def execEpochFlip (s : State) : Res :=
  s.act <|
    if bitAt (s.r Reg.saRouteCtrl) 1 ∧ (s.r Reg.saRouteFlipFtc).toNat = s.now then
      (((s.wf Reg.saRouteCtrl 1 1 0).wf Reg.saRouteCtrl 0 1 (1 - s.injectEpoch)).withFlipPrev (some s.now))
    else s

/-- EPOCH_CMD (R346): a write of SA.EPOCH_CMD; with GO it originates an EPOCH_SET, broadcasts it and applies it here. -/
def execEpochCmd (i : Iface) (v : W32) (s : State) : Res :=
  s.act <| s.regWrite i Reg.saEpochCmd false fun s =>
    let s := s.write32 Reg.saEpochCmd v
    if bitAt v 1 then
      let flip := (s.r Reg.saEpochCmdFtc).toNat
      let e := fld v 0 1
      let s := s.withNseq (s.nseq + 1)
      let n := newtOf 0x11 2 0 s.coords s.modNum s.nseq.toNat 64
        (atByte 0 8 flip + atByte 8 1 e + atByte 9 4 (s.rf Reg.saFabricId 0 32))
      let s := (s.sawNewt 6 n).each (fun p s => if s.linkState p = 4 then (s.sawNewt p n).queueBcast p n else s) (List.range 6)
      s.epochSet true flip e s.modNum
    else s

end Sys2Proof.Machine
end

