-- ==== Sys2Proof/Machine/Packets.lean ====
section
/-!
DEFINITION. Messages, injection units, packets on their way and their delivery (R312 to R325, R331, R332, R337 to R339).
-/
namespace Sys2Proof.Machine
open Sys2Proof

/-! ## Messages (R314 to R319) -/

/-- Packets of a message. -/
def Msg.packets (m : Msg) : Nat := if m.op = 2 ∨ m.op = 4 then 1 else (m.len + 223) / 224

/-- A global address names this module (R29, R34). -/
def State.isLocal (s : State) (g : Nat) : Bool :=
  if bitAt (s.r Reg.saFabricPosition) 31 then g / 2 ^ 52 == s.modNum else g / 2 ^ 52 == 0

/-- Coordinates of module `m` (R30). -/
def State.coordsOf (s : State) (m : Nat) : Nat := s.rf (Reg.saModnumMap m) 0 15

/-- What R28, R31 and R34 refuse of a global address: the code. -/
def State.globalRefused (s : State) (g : Nat) : Option Nat :=
  if g / 2 ^ 48 % 16 ≠ 0 then some Ev.addrReservedBits
  else if s.isLocal g then none
  else if bitAt (s.r Reg.saFabricPosition) 31 = false then some Ev.moduleNumberUnset
  else if bitAt (s.r (Reg.saModnumMap (g / 2 ^ 52))) 31 = false then some Ev.addrModuleUnknown
  else none

/-- Axis and direction of a multicast. -/
def Msg.axis (m : Msg) : Nat := m.mcast / 2 % 4
def Msg.minus (m : Msg) : Bool := m.mcast / 8 % 2 == 1
def Msg.multi (m : Msg) : Bool := m.mcast % 2 == 1

/-- Coordinates of the last receiving module of a multicast (R338). -/
def State.lastHop (s : State) (m : Msg) : Nat :=
  let a := m.axis
  let e := s.extent s.injectEpoch a
  let c := s.coord a
  let c' := if m.minus then (c + e * 32 - m.hops) % e else (c + m.hops) % e
  s.coords - c * 32 ^ a + c' * 32 ^ a

/-- Destination coordinates of a message. -/
def State.msgDst (s : State) (m : Msg) : Nat :=
  if m.multi then s.lastHop m else if s.isLocal m.dest then s.coords else s.coordsOf (m.dest / 2 ^ 52)

/-- Values of a descriptor that are out of range (R314, R316, R324). -/
def State.msgRange (s : State) (m : Msg) : Bool :=
  decide (m.op ≤ 4) && decide (1 ≤ m.len) && decide (m.len ≤ 65536) && decide (m.mbLog2 ≤ 16) &&
  (!(m.op == 1) || m.dest % 256 == 0) &&
  (!(m.op == 4) || (m.len == 4 && bitAt (BitVec.ofNat 16 m.token) 15 && m.dest % 2 ^ 48 == 0)) &&
  (!m.multi || (decide (m.axis < 3) && decide (1 ≤ m.hops) && decide (m.hops < s.extent s.injectEpoch m.axis)))

/-- Why an injection unit refuses a descriptor (R317, R327, R339): its reason (log 42) and the address code recorded with
it, if any. 1 reserved or out of range, 2 LOCAL_TOKEN, 3 MCAST with another OP, 4 address, 5 job key 0, 6 MCAST_NO_PATH, 7
no route. -/
def State.msgRefusal (s : State) (u : Nat) (m : Msg) (reservedOk : Bool) : Option (Nat × Option Nat) :=
  if reservedOk = false ∨ s.msgRange m = false then some (1, none)
  else if (match m.localToken with | some k => decide (1 ≤ u ∧ k / 4096 + 1 ≠ u) | none => false) then some (2, none)
  else if m.multi ∧ m.op ≠ 0 then some (3, none)
  else match s.globalRefused m.dest with
    | some c => some (4, some c)
    | none =>
      if m.key = 0 then some (5, none)
      else
        let v := s.injectEpoch
        if m.multi then
          (if s.routeValid v = false then some (7, none)
           else if s.candidate v m.axis (s.lastHop m / 32 ^ m.axis % 32) m.minus = false then some (6, none) else none)
        else if s.isLocal m.dest = false ∧ s.routable v (s.msgDst m) = false then some (7, none)
        else none

/-- The die of an injection unit. -/
def injDie (u : Nat) : Nat := if u = 0 then 0 else cDie (u - 1)

/-- A refused descriptor (R317, R349): counted and recorded with the unit, the reason and its first word. -/
def State.msgRefused (s : State) (u part word : Nat) (why : Nat × Option Nat) : State :=
  let s := s.inc (if u = 0 then Reg.saInjRefused else Reg.cnInjRefused (u - 1))
  let s := match why.2 with
    | some c => s.note (injDie u) c [word]
    | none => s
  s.noteP (injDie u) part Ev.msgRefused [u, why.1, word]

/-- Throttle level register of a unit (R349). -/
def injThrottleReg (u : Nat) : Nat := if u = 0 then Reg.saInjThrottle else Reg.cnInjThrottle (u - 1)

def clampLevel (x : Nat) : Nat := if x = 0 then 1 else if 1024 < x then 1024 else x

/-- The unit is throttled (R319). -/
def State.throttled (s : State) (u : Nat) : Bool := decide ((s.inj u).level ≤ (s.inj u).cells.length)

/-! ## Packets enter the queue -/

/-- Data of packet `i` of a message as a number (R314, R323). -/
def State.packetData (s : State) (m : Msg) (i n : Nat) : Nat :=
  match m.op with
  | 2 => atByte 0 8 m.retAddr + atByte 8 2 m.retToken + atByte 10 2 m.retMsg + atByte 12 4 m.len
  | 4 => atByte 0 4 m.amount
  | _ => ofBytesLE (if m.resp then (m.got.drop (224 * i)).take n else s.liveBytes (m.data + 224 * i) n)

/-- A response's data are read whole before its first packet enters the queue (R323): where the next part of them stands, and its bytes. -/
def Msg.part_ (m : Msg) : Nat × Nat := (m.data + m.got.length, Nat.min 224 (m.len - m.got.length))

/-- Some of a response's data has still to be read. -/
def Msg.reads (m : Msg) : Bool := m.resp && decide (m.got.length < m.len)

/-- Data bytes of packet `i`. -/
def Msg.bytesOf (m : Msg) (i : Nat) : Nat :=
  if m.op = 2 then 16 else if m.op = 4 then 4 else Nat.min 224 (m.len - 224 * i)

/-- Packet `i` of a message of unit `u`, stamped as it enters the queue (R312, R313, R319). DESIGN CHOICE: every packet of a MAILBOX message
carries the mailbox's own ADDR, so that R324's alignment holds for each (log 42). -/
def State.packet (s : State) (u : Nat) (m : Msg) (i sseq : Nat) : Cell :=
  let n := m.bytesOf i
  let w0 := m.op + b2n m.multi * 16 + (if m.multi then b2n m.minus * 2 ^ (6 + m.axis) + m.axis * 2 ^ 9 else 0) +
    b2n m.resp * 2 ^ 12 + s.msgDst m * 2 ^ 13 + s.coords * 2 ^ 28 + s.modNum * 2 ^ 43 + (n - 1) * 2 ^ 55
  let addr := m.dest % 2 ^ 48 + (if m.op = 1 then 0 else 224 * i)
  let w1 := addr % 2 ^ 48 + m.token % 2 ^ 14 * 2 ^ 48 + m.token / 2 ^ 15 % 2 * 2 ^ 62
  let w2 := m.msgId % 2 ^ 16 + i * 2 ^ 16 + (m.packets - 1) * 2 ^ 25 + sseq * 2 ^ 34 + (if m.multi then m.hops else 0) * 2 ^ 50 +
    u * 2 ^ 56
  let w3 := s.now / 4096 % 2 ^ 24 + (if m.op = 1 then m.mbLog2 else 0) * 2 ^ 24 + m.key % 2 ^ 16 * 2 ^ 32
  let p := w0 % 2 ^ 64 + w1 % 2 ^ 64 * 2 ^ 64 + w2 % 2 ^ 64 * 2 ^ 128 + w3 % 2 ^ 64 * 2 ^ 192 +
    s.packetData m i n % 2 ^ 1792 * 2 ^ 256
  BitVec.ofNat 2112 (p + (2 ^ 62 + 2 * b2n m.resp * 2 ^ 59 + s.injectEpoch * 2 ^ 58) * 2 ^ 2048)

def updMsg (id : Nat) (f : Msg → Msg) : List Msg → List Msg
  | [] => []
  | m :: ms => if m.id = id then f m :: ms else m :: updMsg id f ms

/-- The next packet of the message carries data of this module, which are read as it enters the queue. -/
def Msg.hasData (m : Msg) : Bool := m.op != 2 && m.op != 4 && !m.resp

/-- Tile cells that `n` bytes at module-local address `a` touch. -/
def tileCells (a n : Nat) : Nat := if regionOf a = .sram then (a + n - 1) / 256 - a / 256 + 1 else 0

/-- `n` bytes at `a` may move through the external port of their tile now, beside what is booked (R83, R84, R318). -/
def State.portRoom (s : State) (a n : Nat) : Bool :=
  match tileOfAddr a with
  | some t => decide (tileCells a n ≤ s.idleRoom t)
  | none => true

/-- `n` bytes at `a` may move now: their tile's port has room, or no stream granule waits for their channels or staging SRAM (R83, R84, R358). -/
def State.pathFree (s : State) (a n : Nat) : Bool := s.portRoom a n && s.streamsLeave a n

/-- They take their places there. -/
def State.takePort (s : State) (a n : Nat) : State :=
  match tileOfAddr a with
  | some t => s.useExt t (tileCells a n)
  | none => s

/-- What a unit reads next for a message: address and bytes, none where the next packet needs no read. -/
def Msg.nextRead (m : Msg) : Option (Nat × Nat) :=
  if m.reads then some m.part_ else if m.hasData then some (m.data + 224 * m.next, m.bytesOf m.next) else none

/-- The next packet of a message may enter the queue, or the next part of a response be read: the data can be read now. -/
def State.packetReady (s : State) (m : Msg) : Bool :=
  decide (m.next < m.packets) && (match m.nextRead with
    | some x => s.pathFree x.1 x.2
    | none => true)

/-- Word `w` of the data of packet `i` of message `m` could not be read (R85): the packet is not sent; of a read response nothing is
(R323), and the movement that the message belongs to has failed at that byte (R394). -/
def State.packetLost (s : State) (u : Nat) (m : Msg) (i w : Nat) : State :=
  let stops := fun (z : Msg) => if m.job.isSome then z.job == m.job else z.id == m.id && m.resp
  let next := fun (z : Msg) =>
    if stops z then { z with next := z.packets, job := none } else if z.id = m.id then { z with next := i + 1 } else z
  let s := s.updInj u fun x => { x with msgs := x.msgs.map next }
  match m.job with
  | some (f, r, id) => s.finishJob f r id 2 (readCode (m.data + 224 * i)) (m.base + 224 * i + 8 * w) 0 0
  | none => s

/-- The next packet enters unit `u`'s queue, where it has room and the data of some message's next packet can be read; `ecc`: how that
read comes out (R85, R319). -/
def State.enterPacket (s : State) (u : Nat) (ecc : Ecc) : State :=
  let x := s.inj u
  if 1024 ≤ x.cells.length then s
  else
    match x.msgs.find? s.packetReady with
    | none => s
    | some m =>
      let i := m.next
      let (s, ecc) := match m.nextRead with
        | some (a, n) => (s.takePort a n).readAt (match m.job with | some j => j.1 | none => injDie u) a n ecc (if m.job.isSome then 1 else 2)
        | none => (s, .ok)
      match ecc with
      | .ue w => s.packetLost u m i (w.toNat % 32)
      | _ =>
        if m.reads then s.updInj u fun x => { x with
          msgs := updMsg m.id (fun z => { z with got := z.got ++ s.liveBytes m.part_.1 m.part_.2 }) x.msgs }
        else
        let k := m.part * 4096 + m.dest / 2 ^ 52
        let c := SMap.get (fun _ => 0) x.sseq k
        let p := s.packet u m i (if m.op = 1 then c else 0)
        s.setInj u { x with
          msgs := updMsg m.id (fun z => { z with next := i + 1 }) x.msgs
          cells := x.cells ++ [{ cell := p, vc := pkVc p, src := m.id, since := s.clk }]
          level := clampLevel (s.rf (injThrottleReg u) 0 11)
          sseq := if m.op = 1 then SMap.set (fun _ => 0) x.sseq k ((c + 1) % 65536) else x.sseq }

/-- As many packets as fit enter the queue, `n` at most (R319). -/
def State.fillQueue (s : State) (u : Nat) (eccs : List Ecc) : Nat → State
  | 0 => s
  | n + 1 => (s.enterPacket u (eccs.headD .ok)).fillQueue u eccs.tail n

/-- A message is accepted by unit `u`; `eccs`: how the reads of its first packets come out. -/
def State.addMsg (s : State) (u : Nat) (m : Msg) (eccs : List Ecc) : State :=
  let x := s.inj u
  let m := { m with id := x.nextId }
  (s.setInj u { x with
    msgs := x.msgs ++ [m]
    nextId := x.nextId + 1
    progress := if x.cells = [] then s.clk else x.progress }).fillQueue u eccs (if m.resp then 2 * m.packets else m.packets)

/-- EXTERNAL_CYCLE (R83, R84, R91, R318): in an external cycle of tile `t` its ejected cells are written, as many as the port has room
for, and their tokens bumped; then cells asked of it are read, and what room is left reads packets of its C-die's unit, eight at most, and
then of SA's. `eccs`: how those reads come out, in turn. -/
def execExternalCycle (t : Fin 768) (eccs : List Ecc) (s : State) : Res :=
  s.act <|
    if s.externalNow t then
      let s := s.writeEjected t
      let n := s.readsNow t
      ((s.takeReads t eccs).fillQueue (t / 192 + 1) (eccs.drop n) 8).fillQueue 0 (eccs.drop (n + 8)) 8
    else s

/-- A message presented to unit `u` (R317): accepted, or refused; whether it was accepted. -/
def State.postMsg (s : State) (u : Nat) (m : Msg) (reservedOk : Bool) (word : Nat) (eccs : List Ecc) : Bool × State :=
  match s.msgRefusal u m reservedOk with
  | some why => (false, s.msgRefused u m.part word why)
  | none => (true, s.addMsg u m eccs)

/-- A 16-bit TOKEN field with TEN in [15] has its reserved bit [14] at 0. -/
def tokField (x : Nat) : Bool := x / 2 ^ 14 % 2 == 0

/-- The message that an MSEND descriptor names (R316), and whether its reserved fields are 0. -/
def msgOf (d : Desc) (t part key : Nat) : Msg × Bool :=
  let b := fun k n => fld d (8 * k) (8 * n)
  let src := b 8 4
  let lt := b 40 2
  ({ id := 0, op := b 20 1, dest := b 0 8, data := tileAddr t (src % 2 ^ 23), len := b 12 4, token := b 16 2, msgId := b 18 2
     mcast := b 21 1, hops := b 22 1, mbLog2 := b 23 1, amount := b 24 4, retAddr := b 28 8, retToken := b 36 2, retMsg := b 38 2
     localToken := if lt / 2 ^ 15 = 1 then some (lt % 2 ^ 14) else none, part := part, key := key },
   decide (src < 2 ^ 23) && (b 20 1 == 2 || b 20 1 == 4 || decide (src + b 12 4 ≤ 2 ^ 23)) && tokField (b 16 2) && tokField lt && (!(b 20 1 == 2) || tokField (b 36 2)) &&
     decide (b 21 1 < 16) && b 42 22 == 0 && b 20 1 ≠ 3)

/-- MSEND (R26, R176, R316 to R319): stalls while its C-die's unit is throttled. The message's data are read in external cycles. A LOCAL_TOKEN
outside the partition takes no arrive (R26; log 110). -/
def execMsend (t : Fin 768) (w : W64) (ecc : Ecc) (s : State) : Res :=
  s.act <| s.issue t 0x94 w fun x s =>
    let u := t / 192 + 1
    if s.throttled u then s
    else
      let a := tAddr (x.s (tRs1 w)).toNat / 64 * 64
      s.reading t ecc [(a, 64)] fun s =>
        let d : Desc := BitVec.ofNat 512 (s.tLoad t a 64)
        let part := partNum (s.partOfTile t)
        let (m, ok) := msgOf d t part (if part < 16 then s.jobKey part else 0)
        let out := m.localToken.filter fun k => !s.tokenMine t k
        match s.postMsg u (if out.isSome then { m with localToken := none } else m) ok (fld d 0 64) [] with
        | (true, s) => (match out with
            | some k => s.outside t (tokenAddr k)
            | none => s).advance t
        | (false, s) => s.advance t

/-- MESSAGE_INJECTED (R318): the last packet of a message of unit `u` has left the queue; LOCAL_TOKEN receives 1, and a
descriptor of which no message remains finishes (R394). -/
def execMessageInjected (u : Fin 5) (s : State) : Res :=
  s.act <|
    let x := s.inj u
    match x.msgs.find? (fun m => decide (m.packets ≤ m.next) && x.cells.all fun c => c.src ≠ m.id) with
    | none => s
    | some m =>
      let s := s.setInj u { x with msgs := x.msgs.filter fun z => z.id ≠ m.id }
      let s := match m.localToken with
        | some k => s.arrive (if u.val = 0 then 4 else u - 1) k 1
        | none => s
      match m.job with
      | some (f, r, id) => if (s.inj u).msgs.any fun z => z.job == m.job then s else s.finishJob f r id 0 0 0 0 0
      | none => s

/-! ## Buffers -/

/-- The packets of a source: 0 to 5 a port (list 0 its dedicated buffers, 1 its pool, 2 what a port that left UP handed back,
R290), 6 to 10 an injection unit's queue. -/
def State.buf (s : State) (src list : Nat) : List Queued :=
  if 6 ≤ src then (s.inj (src - 6)).cells
  else if list = 0 then (s.port src).vcs else if list = 1 then (s.port src).pool else (s.port src).back

def State.setBuf (s : State) (src list : Nat) (q : List Queued) : State :=
  if 6 ≤ src then s.updInj (src - 6) fun x => { x with cells := q }
  else s.updPort src fun x =>
    if list = 0 then { x with vcs := q } else if list = 1 then { x with pool := q } else { x with back := q }

/-- Packet `k` leaves its buffer (R332, R333); an injection queue fills again, and `ecc` is how that read comes out. -/
def State.leave (s : State) (src list k : Nat) (q : Queued) (ecc : Ecc) : State :=
  let s := s.setBuf src list ((s.buf src list).eraseIdx k)
  if 6 ≤ src then (s.updInj (src - 6) fun x => { x with progress := s.clk, stalled := false }).fillQueue (src - 6) [ecc] 1
  else if list = 2 then s else s.freeVc src q (decide (list = 1))

/-- A packet past its lifetime is discarded at the junction slot (R331). -/
def State.expire (s : State) (src list k : Nat) (q : Queued) : State :=
  ((s.leave src list k q .ok).inc (Reg.lnPktExpired src)).noteMs (lDie src) Ev.pktExpired [src] src

/-- A count of port `src`, where the packet came in by one, else of port `fallback`. DESIGN CHOICE: R330 names no port; TURNBACKS,
TURNBACK_DROP and PKT_NO_ROUTE count at the port a packet came in by, and for an injection unit's at the one it would leave by (log 42). -/
def State.incPort (s : State) (src : Nat) (reg : Nat → Nat) (fallback : Nat) : State :=
  s.inc (reg (if src < 6 then src else fallback))

/-! ## Junction slots for packets (R16, R320, R336) -/

/-- The end of a J-die's links that a source stands on: 0 to 3 a C-die, 4 + p an L-die, 10 SA. -/
def endOfSrc (src : Nat) : Nat := if src < 6 then 4 + src else if src = 6 then 10 else src - 7

/-- The slot of a MAILBOX packet (R324). -/
def mailSlot (c : Cell) : Nat := pkAddr c + 256 * (pkSseq c % 2 ^ pkMbLog2 c)

/-- What a packet of source `src` reaches at this module: address and bytes. -/
def pktPlace (c : Cell) : Nat × Nat :=
  if pkOp c = 1 then (mailSlot c, 256) else if pkOp c = 2 then (pkAddr c, pkData c 12 4)
  else if pkOp c = 4 then (0, 1) else (pkAddr c, pkLen c)

/-- Packet `q` of list `list` of source `src` still has to be delivered here (R320, R338). -/
def State.landsHere (s : State) (src list : Nat) (q : Queued) : Bool :=
  ((s.atDest q.cell && !pkMcast q.cell) || (pkMcast q.cell && decide (src < 6))) && !q.copied && !(decide (src < 6) && list == 2)

/-- It still has to go one hop on. -/
def State.hopsOn (s : State) (src list : Nat) (q : Queued) : Bool :=
  let inbound := decide (src < 6) && decide (list < 2)
  let mc := goesOn q.cell && inbound
  !((s.atDest q.cell && !(pkMcast q.cell && !inbound)) || (pkMcast q.cell && !mc && inbound) || q.passed)

/-- What a packet is for has room now: its memory's path what a write moves (R83, R84, R358), its C-die's read queue a request of 256
(R323). -/
def State.landRoom (s : State) (c : Cell) : Bool :=
  let x := pktPlace c
  if pkOp c = 2 then decide (((s.inj ((ownerCdie 2 x.1 0).getD 0 + 1)).msgs.filter fun m => m.resp).length < 256)
  else pkOp c == 4 || s.pathFree x.1 x.2

/-- The ends to which packet `q` may cross in this slot: its destination's C-die, or its next port's L-die. -/
def State.wantsEnds (s : State) (src list : Nat) (q : Queued) : List Nat :=
  (if s.landsHere src list q && s.landRoom q.cell then (ownerCdie (pkOp q.cell) (pktPlace q.cell).1 (pkToken q.cell)).toList else []) ++
    (if s.hopsOn src list q then
      (match (s.hopOf q.cell (decide (6 ≤ src))).1 with
       | .go p _ _ => [4 + p]
       | _ => [])
     else [])

/-- A packet that could cross to an end in the present slot: its source, its VC and since when it waits. -/
structure Bidder where
  src : Nat
  vc : Nat
  since : Nat

/-- The packets that could cross to end `b` now. -/
def State.bidders (s : State) (b : Nat) : List Bidder :=
  (List.range 11).flatMap fun src =>
    if endOfSrc src ≠ b ∧ (s.crossOther (endOfSrc src) b).isNone then []
    else (List.range (if src < 6 then 3 else 1)).flatMap fun list => (s.buf src list).filterMap fun q =>
      if (s.wantsEnds src list q).contains b then some ⟨src, q.vc, q.since⟩ else none

/-- The source and tick of the last slot granted toward end `b` on VC `v`. -/
def State.granted (s : State) (b v : Nat) : Nat × Nat := SMap.get (fun _ => (6, 0)) s.grants (4 * b + v)

/-- How long VC `v` has held a packet for end `b` without a slot (R336). -/
def State.bidWait (s : State) (b : Nat) (xs : List Bidder) (v : Nat) : Option Nat :=
  match xs.filter fun x => x.vc = v with
  | [] => none
  | y :: ys => some (s.clk - Nat.max (s.granted b v).2 (ys.foldl (fun a z => Nat.min a z.since) y.since))

/-- A packet on VC `v` of source `src` has the turn toward end `b` (R336): a VC that has waited 4,096 ticks, else the highest; within
it the sources in turn, the injection units as one. -/
def State.hasTurn (s : State) (b src v : Nat) : Bool :=
  let xs := s.bidders b
  match longest (s.bidWait b xs) ([3, 2, 1, 0].filter fun w => xs.any fun x => x.vc = w) with
  | none => true
  | some w =>
    let order := fun (k : Nat) => (Nat.min k 6 + 6 - (s.granted b w).1) % 7
    v == w && (xs.filter fun x => x.vc = w).all fun x => decide (order src ≤ order x.src)

/-- Packet `q` of source `src` crosses to end `b`, where it has the turn and a J-die has lanes free (R15, R16, R336). -/
def State.crossPacket (s : State) (src b : Nat) (q : Queued) : Option State :=
  if endOfSrc src = b then some s
  else if s.hasTurn b src q.vc = false then none
  else (s.crossOther (endOfSrc src) b).map fun t => t.withGrants (SMap.set (fun _ => (6, 0)) t.grants (4 * b + q.vc) (Nat.min src 6, s.clk))

/-- A packet that has not left its unit and whose version no longer reaches its destination is refused as its descriptor would be
(R317, R327). -/
def State.packetRefused (s : State) (u : Nat) (q : Queued) : State :=
  match (s.inj u).msgs.find? fun m => m.id = q.src with
  | some m => s.msgRefused u m.part m.dest (7, none)
  | none => s.msgRefused u 255 0 (7, none)

/-- PACKET_FORWARD (R16, R326 to R332, R336, R338): packet `k` of a source goes one hop on, through a junction slot to its next port's
L-die. `ecc`: how the read comes out for the packet that enters an injection queue in its place. -/
def execPacketForward (src : Fin 11) (list : Fin 3) (k : BitVec 12) (ecc : Ecc) (s : State) : Res :=
  s.act <|
    match (s.buf src list)[k.toNat]? with
    | none => s
    | some q =>
      let c := q.cell
      let mc := goesOn c && decide (src.val < 6) && decide (list.val < 2)
      if s.hopsOn src list q = false then s
      else if src.val < 6 ∧ s.packetOld c = true then s.expire src list k.toNat q
      else
        let (h, t) := s.hopOf c (decide (6 ≤ src.val))
        let done := fun (s : State) =>
          if mc && !q.copied then
            s.setBuf src list ((s.buf src list).set k.toNat { q with passed := true })
          else s.leave src list k.toNat q ecc
        match h with
        | .noRoute =>
          if 6 ≤ src.val ∧ s.routable (cellEpoch c) (fld c 13 15) = false then done (s.packetRefused (src - 6) q)
          else done (t.incPort src Reg.lnPktNoRoute (dirPort (s.nextAxis c) false))
        | .turnbackDrop turned =>
          let t := match turned with
            | some p => t.incPort src Reg.lnTurnbacks p
            | none => t
          done (t.incPort src Reg.lnTurnbackDrop (dirPort (pkAxis c) (pkDir c (pkAxis c))))
        | .go p c' turned =>
          match s.crossPacket src (4 + p) q with
          | none => s
          | some x =>
            let s := x.withSpray t.spray
            let c' := if mc then setFld c' 178 5 (pkHops c - 1) else c'
            let s := if turned then s.incPort src Reg.lnTurnbacks p else s
            let s := done s
            s.updPort p fun x => { x with
              uout := x.uout ++ [{ cell := c', vc := pkVc c', src := Nat.min src 6, since := s.clk }] }

/-! ## Delivery (R320 to R324) -/

/-- A partition whose key is `key` holds what `f` asks for. -/
def State.keyed (s : State) (key : Nat) (f : Nat → Bool) : Bool :=
  key ≠ 0 && (List.range 16).any fun p => s.jobKey p == key && f p

/-- Why a packet has no effect (R37, R41, R321): the code. `n` bytes at `a`; none for a packet that names a token alone. -/
def State.pktRefused (s : State) (c : Cell) (a n : Nat) : Option Nat :=
  let range := pkOp c ≠ 4
  let cls := fun (r : Region) => r ≠ .hbm ∧ r ≠ .sram
  if range ∧ (regionOf a = .unmapped ∨ regionOf (a + n - 1) = .unmapped) then some Ev.addrUnmapped
  else if range ∧ (cls (regionOf a) ∨ cls (regionOf (a + n - 1))) then some Ev.addrAccessClass
  else if range ∧ s.keyed (pkKey c) (fun p => s.inPart p a n) = false then some Ev.pktKeyMismatch
  else if pkTen c = true ∧ pkOp c ≠ 2 ∧ s.keyed (pkKey c) (fun p => s.partOfToken (pkToken c) == some p) = false then
    some Ev.pktKeyMismatch
  else none

/-- A refused packet is recorded, at most once per 1 ms per code. -/
def State.pktRefuse (s : State) (src : Nat) (c : Cell) (code : Nat) : State :=
  s.noteMs (if src < 6 then lDie src else injDie (src - 6)) code [pkSrcModule c, pkAddr c] 0

/-- The partition that a packet is for, of those whose key it carries. -/
def State.pktPart (s : State) (c : Cell) (a n : Nat) : Nat :=
  partNum (firstP (fun p => s.jobKey p == pkKey c && (if pkOp c = 4 then s.partOfToken (pkToken c) == some p else s.inPart p a n))
    (List.range 16))

/-- The partition is all-stopped (R467). -/
def State.stopped (s : State) (p : Nat) : Bool := decide (p < 16) && bitAt (s.r (Reg.saStopStatus p)) 0

/-- A packet for a stopped partition is counted (R467 step 4). -/
def State.countDiscarded (s : State) (p : Nat) : State :=
  s.wf (Reg.saStopStatus p) 32 32 (satInc32 (s.rf (Reg.saStopStatus p) 32 32))

/-- The C-die is off for deliveries (R320): not ready, or in compute reset. -/
def State.destOff (s : State) (d : Nat) : Bool := !s.ready (cDie d) || (s.die (cDie d)).stopped

/-- Packet `k` of a source is delivered to this module, through a junction slot to the C-die that owns its target: `act` is its effect
where that may be reached. -/
def State.deliverPacket (s : State) (src list k op : Nat) (act : State → Cell → State) : State :=
  match (s.buf src list)[k]? with
  | none => s
  | some q =>
    let c := setFld q.cell 9 2 3
    if pkOp c ≠ op ∨ s.landsHere src list q = false then s
    else
      let finish := fun (s : State) =>
        if goesOn c && !q.passed then s.setBuf src list ((s.buf src list).set k { q with copied := true })
        else s.leave src list k q .ok
      let a := (pktPlace c).1
      let n := (pktPlace c).2
      if src < 6 ∧ s.packetOld c = true then s.expire src list k q
      else if src < 6 ∧ s.routable (cellEpoch c) (fld c 13 15) = false then finish (s.inc (Reg.lnPktNoRoute src))
      else
        let owner := ownerCdie op a (pkToken c)
        if (match owner with | some d => s.destOff d | none => false) then
          (if src < 6 then ((finish s).inc (Reg.lnPktDestOff src)).noteMs (lDie src) Ev.pktDestOff [src] src else finish s)
        else
          match s.pktRefused c a n with
          | some code => finish (s.pktRefuse src c code)
          | none =>
            if s.stopped (s.pktPart c a n) then finish (s.countDiscarded (s.pktPart c a n))
            else if s.landRoom c = false then s
            else
              match s.crossPacket src (owner.getD 0) q with
              | none => s
              | some x => finish (act x c)

/-- The completion arrive of an applied packet (R322), sent by the C-die that owns its address. -/
def State.pktArrive (s : State) (c : Cell) : State := if pkTen c then s.arrive ((ownerCdie (pkOp c) (pktPlace c).1 (pkToken c)).getD 4) (pkToken c) 1 else s

/-- The message of a packet as a writer (R42): its source module and unit and its MSG_ID. -/
def pkWriter (c : Cell) : Nat := 2 ^ 64 + (pkSrcModule c * 16 + fld c 184 4) * 65536 + pkMsgId c

/-- `bs` of a packet are written at `a` (R84, R314, R367), and then its token receives its arrive (R322). DESIGN CHOICE: it does so too where
the write fell in a retired stack and had no effect (log 42). -/
def State.writePacket (s : State) (c : Cell) (a : Nat) (bs : List Byte) : State :=
  (((s.takePort a bs.length).countAccess (0x1000 + pkSrcModule c) true a bs.length).liveBy (pkWriter c) a bs.length
    fun s => s.setLive a bs).pktArrive c

/-- WRITE (R314, R320 to R322). -/
def execWrite (src : Fin 11) (list : Fin 3) (k : BitVec 12) (s : State) : Res :=
  s.act <| s.deliverPacket src list k.toNat 0 fun s c => s.writePacket c (pkAddr c) (bytesLE (pkLen c) (pkData c 0 (pkLen c)))

/-- A response of `n` bytes to a remote read of a DMA: the module gives a DMA's requests its id as MSG_ID, `d1` counts the
bytes received, and the descriptor finishes with its last byte (R394). -/
def State.dmaGot (s : State) (c : Cell) : State :=
  let hit := fun (j : Job) => j.phase == 1 && dOpc j.desc == 8 && j.id % 65536 == pkMsgId c &&
    decide (dField j.desc 24 8 % 2 ^ 48 ≤ pkAddr c) && decide (pkAddr c < dField j.desc 24 8 % 2 ^ 48 + dField j.desc 32 4)
  let step := fun (j : Job) =>
    if hit j then
      (if dField j.desc 32 4 ≤ j.d1 + pkLen c then { j with phase := 2, cls := 0, d1 := 0 } else { j with d1 := j.d1 + pkLen c })
    else j
  s.each (fun k s => s.updRing k fun q => { q with jobs := q.jobs.map step }) (s.rings.map fun x => x.1)

/-- READ_RESP (R314, R320 to R323). -/
def execReadResp (src : Fin 11) (list : Fin 3) (k : BitVec 12) (s : State) : Res :=
  s.act <| s.deliverPacket src list k.toNat 3 fun s c =>
    (s.writePacket c (pkAddr c) (bytesLE (pkLen c) (pkData c 0 (pkLen c)))).dmaGot c

/-- MAILBOX (R324): the whole cell goes to its slot, the bytes beyond its data as 0. -/
def execMailbox (src : Fin 11) (list : Fin 3) (k : BitVec 12) (s : State) : Res :=
  s.act <| s.deliverPacket src list k.toNat 1 fun s c =>
    s.writePacket c (mailSlot c) (bytesLE 256 (fld c 0 (256 + 8 * pkLen c)))

/-- TOKEN_ARRIVE (R314). -/
def execTokenArrive (src : Fin 11) (list : Fin 3) (k : BitVec 12) (s : State) : Res :=
  s.act <| s.deliverPacket src list k.toNat 4 fun s c => s.arrive (pkToken c / 4096) (pkToken c) (pkData c 0 4)

/-- READ_REQ (R323): the request joins the read queue of the C-die that owns the range, which injects the data as READ_RESP
packets; `eccs`: how the first reads come out. -/
def execReadReq (src : Fin 11) (list : Fin 3) (k : BitVec 12) (eccs : List Ecc) (s : State) : Res :=
  s.act <| s.deliverPacket src list k.toNat 2 fun s c =>
    let a := pkAddr c
    let n := pkData c 12 4
    let u := (ownerCdie 2 a 0).getD 0 + 1
    let m : Msg := { id := 0, op := 3, dest := pkData c 0 8, data := a, len := n, token := pkData c 8 2, msgId := pkData c 10 2
                     part := s.pktPart c a n, key := pkKey c, resp := true }
    (s.postMsg u m (tokField (pkData c 8 2)) (pkData c 0 8) eccs).2

/-! ## Progress (R337) -/

/-- The limit of a progress watchdog of port `p` in ticks (R348). -/
def State.progressLimit (s : State) (p : Nat) : Nat :=
  let l := s.rf (Reg.lnProgressLimit p) 0 32
  if 3000000 < l then 3000000 else if l < 3125 then 3125 else l

/-- The watchdog of injection unit `u` (R337): the oldest packet of its queue, counted at the port it is to leave by; a packet for this
module leaves by none, and is counted at none (log 70). -/
def State.stallUnit (s : State) (u : Nat) : State :=
  let y := s.inj u
  match y.cells.head? with
  | none => s
  | some q =>
    let port := match (s.hopOf q.cell true).1 with
      | .go p _ _ => if s.atDest q.cell && !pkMcast q.cell then none else some p
      | _ => none
    if y.stalled = true ∨ s.clk < Nat.max y.progress q.since + s.progressLimit (port.getD 0) then s
    else
      let s := s.setInj u { y with stalled := true }
      match port with
      | some p =>
        let c := Reg.lnCredit p q.vc
        (s.inc (Reg.lnUnschedStalls p)).note (injDie u) Ev.unschedStall
          [6 + u, q.vc, s.rf c 0 16, s.rf c 16 16, b2n (bitAt (s.r (Reg.lnUschedStatus p)) 1)]
      | none => s.note (injDie u) Ev.unschedStall [6 + u, q.vc]

/-- UNSCHED_STALL (R337): VC `v` of port `x`, or injection unit `x − 6`. -/
def execUnschedStall (x : Fin 11) (v : Fin 4) (s : State) : Res :=
  s.act <| if x.val < 6 then s.stallVc x v else s.stallUnit (x - 6)

end Sys2Proof.Machine
end

