-- ==== Sys2Proof/Machine/Reset.lean ====
section
/-!
DEFINITION. Bring-up of the dies and the six kinds of reset (R23, R93, R365, R404, R506 to R510, R584, R597 to R605).
-/
namespace Sys2Proof.Machine
open Sys2Proof

/-! ## Lines and rows (R20 to R24, R93) -/

/-- Key of the SRAM of the site of row `r` of C-die `c` that holds no logical tile (R24): reached only by a dump. -/
def skipArea (c r : Nat) : Nat := 0x10000000000000 + (c * 24 + r) * 0x800000

/-- The logical tile that stands on site `x` of a row whose skip site is `skip` (R20). -/
def siteTile (c r skip x : Nat) : Nat := c * 192 + r * 8 + (if x < skip then x else x - 1)

/-- REQ_SITE becomes SKIP_SITE (R23). Where the skip site changes, the row's tile SRAM is zeroed and the contents of the site
that now holds no tile stay behind it (R24, R510, log 44). -/
def State.applyRow (s : State) (c r : Nat) : State :=
  let k := Reg.cnRowMap c r
  let skip := s.rf k 0 4
  let req := s.rf k 4 4
  let s := s.wf k 8 1 0
  if req = skip then s
  else
    let s := s.withSkipScrub (s.skipScrub.filter fun x => x ≠ c * 24 + r)
    let s := (s.wf k 0 4 req).copyMem (tileAddr (siteTile c r skip req) 0) (skipArea c r) 0x800000
    s.zeroMem (tileAddr (c * 192 + r * 8) 0) (8 * 0x800000)

/-- What a reset that covers quarter `q` applies: its row shifts and the soft repairs of its stacks (R23, R365). -/
def State.applyQuarter (s : State) (q : Nat) : State :=
  (s.each (fun r s => s.applyRow (q / 4) (6 * (q % 4) + r)) (List.range 6)).softRepair q

/-- A line stop of row `r` of C-die `c` has failed (R93). -/
def State.lineStopFails (s : State) (c r : Nat) : State := (s.exhaust c r).note (cDie c) Ev.lineStopFailed [c, r]

/-- LINE_STOP_FAILED (R93): a parity error on a line stop's state at run time. -/
def execLineStopFailed (c : Fin 4) (r : Fin 24) (s : State) : Res :=
  s.act <| if s.ready (cDie c) then s.lineStopFails c r else s

/-- A write of `Cn.ROW_MAP[r]` (R22, R23): REQ_SITE from 9 to 15 is refused. -/
def State.writeRowMap (s : State) (c r : Nat) (v : W32) : State :=
  let k := Reg.cnRowMap c r
  if 9 ≤ fld v 4 4 then s.note (cDie c) Ev.rowMapRange [c, r]
  else
    let s := s.write32 k v
    s.wf k 8 1 (b2n (decide (s.rf k 4 4 ≠ s.rf k 0 4)))

/-! ## Bring-up (R506, R507, R600) -/

/-- The entry before `d`'s has seen power-good, or its die has failed, and the delay of `d`'s entry has passed since (R507). -/
def State.mayPower (s : State) (d : Nat) : Bool :=
  let e := seqEntry d
  d ≤ 1 || (decide (2 ≤ s.seqStep (entryDie (e - 1))) &&
    decide (s.power.pgAt + s.rf (Reg.sbSeqTable e) 16 16 * 3125 ≤ s.clk))

/-- The walk of the sequencing table is under way: powered, no trip, and awake or waking (R498, R503, R507). -/
def State.walking (s : State) : Bool :=
  s.pins.powerOn && s.pins.aux && !s.power.trip && !bitAt (s.r Reg.saDieFailed) 1 && s.power.entering == none &&
    (decide (s.power.mode ≤ 1) || (decide (s.power.mode ≤ 3) && s.power.wake.isSome))

/-- The memory step of M-die `m` (R364, R366, R498): its stacks are trained or leave self-refresh, a bad one is retired; bits 2 and 3 of
`bad`: it does not respond, and is powered down. -/
def State.stackStep (s : State) (m : Nat) (bad : BitVec 4) : State :=
  s.each (fun k s =>
    let reg := stackReg k
    if bitAt (s.r reg) 1 then s
    else if bitAt bad (k % 2) then
      (if bitAt (s.r reg) 2 then s else s.note (mDie m) Ev.stackInitFailed [k]).retireStack k 0 (!bitAt bad (2 + k % 2))
    else ((s.wf reg 0 1 1).wf reg 2 1 0).wf Reg.saStackActive k 1 1) [2 * m, 2 * m + 1]

/-- A die's ready chain is complete and its isolation released (R43, R502, R506). -/
def State.dieReady (s : State) (d : Nat) : State :=
  let s := ((s.setSeq d 5).wf Reg.saDieReady d 1 1).updDie d fun x =>
    { x with stopped := false, powered := true, released := true, ringRead := true, missed := 0 }
  if 10 ≤ d ∧ d ≤ 15 ∧ s.linkState (d - 10) = 0 then
    s.updPort (d - 10) fun x => { x with entered := s.clk, retrainAt := some (s.clk + 3125000) }
  else s

/-- The fused process code of a die: the register of a C-die; the counterparts of the others are fuses (R520). -/
def State.processFused (s : State) (d : Nat) : Nat :=
  if 2 ≤ d ∧ d ≤ 5 then s.rf (Reg.cnProcessCode (d - 2)) 0 16 else (Config.processCode d).toNat

/-- The process corner, read in the first ready chain since cold reset, differs by more than 5% from the fused one (R520). -/
def State.drifted (s : State) (d ring : Nat) : Bool :=
  let f := s.processFused d
  !(s.die d).ringRead && decide (f < 20 * (ring - f + (f - ring)))

/-- The regulator request of die `d`'s ready chain is still on its master. -/
def State.railAsked (s : State) (d : Nat) : Bool :=
  (s.avsQ (dieRail d / 16)).any fun q => q.kind == 3 && q.rail == dieRail d

/-- The regulator requests of die `d`'s ready chain (R494, R506): the transition rate, and the PL3 voltage of a C-die, the plan's of every
other. SA's and SB's, up from the standby supply, go to theirs with SB's chain. -/
def State.askRails (s : State) (d : Nat) : State :=
  if d = 0 then s
  else if d = 1 then
    (((s.avsAsk 8 0x70 10).avsAsk 8 0x71 10).avsAsk 2 0x70 (s.planVolt 0 0)).avsAsk 2 0x71 (s.planVolt 1 0)
  else (s.avsAsk 8 (dieRail d) 10).avsAsk 3 (dieRail d) (s.planVolt d (if d ≤ 5 then 3 else 0))

/-- The walk down (R498, R507): the power-down request of die `d`, where it is next and the delay of its entry has passed since the die
before it. -/
def State.walkDown (s : State) (d : Nat) : State :=
  if s.power.begun = true ∧ s.power.offWalk.head? = some d ∧ ((s.avsQ (dieRail d / 16)).any fun q => q.kind == 4) = false ∧
      s.power.offAt + s.rf (Reg.sbSeqTable (seqEntry d)) 16 16 * 3125 ≤ s.clk then s.offNext
  else s

/-- READY_CHAIN_STEP (R43, R93, R364, R498, R506, R507, R520, R600): die `d` finishes its current step with `ok` and power-good
`pg`; `bad` its stacks that fail, `stops` its rows with a failed line stop, `ring` its process corner as its ring oscillators read. The
regulator step raises the die's core rail through AVSBus. A step that has overrun its bound fails. In the entry into a sleep state SB
walks the table down with it. -/
def execReadyChainStep (d : Fin 32) (ok pg : Bool) (bad : BitVec 4) (ring : BitVec 16) (stops : List (Fin 24)) (s : State) : Res :=
  s.act <|
    if s.power.entering.isSome then s.walkDown d
    else if s.walking = false ∨ bitAt (s.r Reg.saDieFailed) d = true then s
    else
      let ok := ok && !s.overrun d
      match s.seqStep d with
      | 0 =>
        if s.mayPower d then
          let e := seqEntry d
          let s := s.enterStep d 1
          let p := s.pins
          let s := if 2 ≤ e then (s.withPins ({ p with
              railEn := setFld p.railEn e 1 1
              hbmEn := if 12 ≤ e ∧ e ≤ 27 then setFld p.hbmEn ((e - 12) / 4) 1 1 else p.hbmEn })) else s
          let s := s.updDie d fun x => { x with powered := true }
          s.askRails d
        else s
      | 1 =>
        if pg = false then s.chainFailed d 7
        else if ok = false then s.chainFailed d 3
        else if s.railAsked d then s
        else (s.enterStep d 2).withPower { s.power with pgAt := s.clk }
      | 2 => if ok then s.enterStep d 3 else s.chainFailed d 4
      | 3 =>
        if ok then
          let s := if 16 ≤ d.val then s.stackStep (d.val - 16) bad else s
          s.enterStep d 4
        else s.chainFailed d 5
      | 4 =>
        if ok then
          let s := if 2 ≤ d.val ∧ d.val ≤ 5 then s.each (fun r s => s.lineStopFails (d.val - 2) r.val) stops else s
          let s := if s.drifted d ring.toNat then s.note 1 Ev.processDrift [d.val] else s
          s.dieReady d
        else s.chainFailed d 6
      | _ => s

/-! ## Resets (R508 to R510) -/

/-- The dies a kind of reset covers: all, or the C- and M-dies. -/
def resetDies (kind : Nat) : List Nat :=
  if kind = 3 then [2, 3, 4, 5] ++ (List.range 16).map mDie else (List.range 32).drop 2

/-- A port's configuration (R504): what a warm reset keeps and M3 saves. -/
def portKept (o : Nat) : Bool :=
  o == 0x1000 || o == 0x1008 || (0x1010 ≤ o && o < 0x101C) || o == 0x2000 || o == 0x2004 || o == 0x200C || o == 0x3000 ||
    o == 0x5068 || (0x8000 ≤ o && o < 0xA000)

/-- What a warm reset keeps of a window's registers (R510, R584). -/
def keepWarm (w o : Nat) : Bool :=
  if w = 0 then
    (o < 0x800000 && !(0x201200 ≤ o && o < 0x201210)) || (0x810000 ≤ o && o < 0x810010) || o == 0x810218 ||
      (0x810220 ≤ o && o < 0x900000) || 0x900100 ≤ o
  else if w = 1 then (0x1000 ≤ o && o < 0x2000) || o == 0x3004 || (0x4000 ≤ o && o < 0x4200 && o ≠ 0x4004 && o ≠ 0x400C) ||
    (0x5100 ≤ o && o < 0x5200)
  else if w ≤ 7 then (0x100 ≤ o && o < 0x160) || o == 0x200 || (0x300 ≤ o && o < 0x340) || (0x9800 ≤ o && o < 0x9900)
  else if w ≤ 11 then false
  else if w ≤ 21 then
    portKept o || o == 0x1004 || (0x3008 ≤ o && o < 0x3100) || (0x3120 ≤ o && o < 0x3128) || (0x3400 ≤ o && o < 0x3418)
  else (0x120 ≤ o && o < 0x128) || (0x200 ≤ o && o < 0x300)

/-- A compute reset keeps the bank registers of the M-dies as well. -/
def keepCompute (w o : Nat) : Bool := keepWarm w o || (32 ≤ w && 0x100 ≤ o && o < 0x120)

/-- The trace unit of C-die `c` after a reset or a state that covers its die (R555). -/
def State.traceStops (s : State) (c : Nat) (keep : Bool) : State :=
  let s := if s.traceOn c then s.wf (Reg.cnTraceStatus c) 0 3 4 else s
  let s := s.wf (Reg.cnTraceCtrl c) 0 1 0
  s.updTr c fun t => if keep then { t with queue := [], staged := [], trigs := [] } else {}

/-- Units of the C-dies and M-dies cleared: tiles, tokens, lines, streams, SRAM (R510). `banks`: instruction and stream banks
are cleared too; `fwd`: the junctions and ports go on. -/
def State.clearCompute (s : State) (banks fwd : Bool) : State :=
  let keepT (x : Tile) : Tile :=
    if banks then {} else { ({} : Tile) with bank := x.bank, progLen := x.progLen, stbyLen := x.stbyLen }
  let s := s.each (fun (x : Nat × Tile) s => s.setTile x.1 (keepT x.2)) s.tiles
  let s := (((((s.withLineCells []).withTokens []).withTokOps []).withStreams []).withSpent []).withRecent []
  let s := s.withTransits (if fwd then s.transits.filter fun x => 16 < x.owner else [])
  let s := (s.withSramReads []).withEngine []
  let s := s.withWalkers
    (if fwd then SMap.keep (fun k => decide (k < walkKey 10 0 0 ∧ 16 < k % 64 / 2)) s.walkers else [])
  let s := s.each (fun u s => s.setInj u {}) [1, 2, 3, 4]
  let s := (s.zeroMem 0x100000000000 0x180000000).zeroMem 0x180000000000 0x20000000
  let s := s.zeroMem (skipArea 0 0) (96 * 0x800000)
  if banks then (s.zeroMem (instrBank 0 false) (768 * 0x100000)).zeroMem (streamBank 0 false) (16 * 0x1000000) else s

/-- Descriptors of partition `p` in flight end as ABORTED, with the reset as the condition that ends them (R383, R510). -/
def abortJobs (pf : Bool) (p : Nat) : List Job → List Job
  | [] => []
  | j :: js =>
    (if j.phase ≠ 2 ∧ (!pf || fld j.desc 16 4 == p) = true then { j with phase := 2, cls := 4, code := Ev.resetStarted } else j) ::
      abortJobs pf p js

def State.abortAll (s : State) (p : Nat) : State :=
  s.each (fun r s =>
    let s := (s.abortLoads (s.ring (ringKey (p + 1) r)).jobs).abortLoads ((s.ring (ringKey 0 r)).jobs.filter fun j => dPart 0 j.desc = p)
    (s.updRing (ringKey (p + 1) r) fun q => { q with jobs := abortJobs false p q.jobs }).updRing (ringKey 0 r) fun q =>
      { q with jobs := abortJobs true p q.jobs }) (List.range 4)

/-- A dump in progress is abandoned (R561). -/
def State.abandonDump (s : State) : State :=
  match s.dump with
  | none => s
  | some d =>
    (((s.wf Reg.saDumpStatus 0 2 3).wf Reg.saDumpStatus 16 16 Ev.dumpAbandoned).withDump none).noteP 0 d.part Ev.dumpAbandoned []

/-- What a partition reset clears of partition `p`, and a warm reset of every partition (R206, R324, R365, R391, R423, R451, R466, R510). -/
def State.partitionClear (s : State) (p : Nat) : State :=
  let ts := s.tilesOf p
  let s := if s.dumping p then s.abandonDump else s
  let s := (((((s.disarm p).dropBinds p).endRota p 0).wf (Reg.saRotaStatus p) 14 2 0).w (Reg.saRotaNextX p) 0).abortAll p
  let s := ((s.clearPorts (p + 1)).dropStreams (p + 1)).dropInject p Ev.resetStarted
  let s := s.each (fun uk s => s.setWalker (walkKey uk.1 (p + 1) uk.2) {}) walkUnits
  let s := s.each (fun t s => s.setTile t {}) ts
  let s := s.each (fun t s => s.zeroMem (instrBank t false) 0x100000) ts
  let s := ((s.withTokens (SMap.keep (fun k => decide (s.partOfToken k ≠ some p)) s.tokens)).withTokOps
    (s.tokOps.filter fun o => s.partOfToken o.token ≠ some p)).withLineCells
    (s.lineCells.filter fun x => s.partOfTile x.src ≠ some p)
  let s := s.each (fun u s => s.updInj u fun x => { x with sseq := SMap.keep (fun k => decide (k / 4096 ≠ p)) x.sseq }) [1, 2, 3, 4]
  let s := s.each (fun q s => s.takeAgain q (p + 1)) (List.range 6)
  let s := s.each (fun q s => if s.hasQuarter p q then s.applyQuarter q else s) (List.range 16)
  ((s.updPart p fun x => { ({} : Part) with binds := x.binds, scrubMask := x.scrubMask }).setPartState p 0).wf (Reg.saPartStatus p) 4 2 0

/-- A partition reset of partition `p`: its stop is over, and its lock-step STATE becomes OFF (R484, R510). -/
def State.partitionReset (s : State) (p : Nat) : State :=
  (((s.partitionClear p).w (Reg.saStopStatus p) 0).wf (Reg.saLsStatus p) 0 2 0).setLs p {}

/-- The partitions that a reset of `kind` with `target` stops (R508). -/
def State.resetParts (s : State) (kind target : Nat) : List Nat :=
  if kind = 2 ∨ kind = 3 then (List.range 16).filter fun p => s.quarters p ≠ 0
  else if kind = 4 then (if s.quarters target = 0 then [] else [target]) else []

/-- Why a transaction is discarded: its entry (R532). -/
def State.discardTxn (s : State) (t : Txn) (code : Nat) : State := s.note 0 Ev.txnDiscarded [t.id, code]

/-- The requests of an abandoned level change leave master `m`'s queue; one already sent goes on as a plain write. -/
def State.dropChange (s : State) (m : Nat) : State :=
  match s.avsQ m with
  | q :: qs => s.setAvsQ m ((if q.kind ≤ 1 then { q with kind := 2 } else q) :: qs.filter fun q => 1 < q.kind)
  | [] => s

/-- The level after a reset of the C-dies (R447, R486, R509, R510): PL3, no change in progress, and the C-dies' rails asked for its
voltages. -/
def State.levelReset (s : State) : State :=
  let s := s.each (fun m s => s.dropChange m) (List.range 8)
  let s := s.each (fun c s => if (s.die (cDie c)).powered then s.avsAsk 2 (coreRail c) (s.planVolt (cDie c) 3) else s) (List.range 4)
  let s := (s.noteLevel 3).withPower { (s.noteLevel 3).power with
    change := none
    lastChange := none
    samples := []
    underRun := 0
    grace := none
    thermUnder := 0
    thermGrace := none }
  (s.wf Reg.sbPlStatus 0 2 3).wf Reg.sbPlStatus 4 1 0

/-- Die `d` starts its ready chain again at the memory step, with its power kept. -/
def State.restartDie (s : State) (d : Nat) : State :=
  if bitAt (s.r Reg.saDieFailed) d then s
  else ((s.wf Reg.saDieReady d 1 0).enterStep d 3).updDie d fun x => { x with stopped := true, queue := [], dropped := 0, missed := 0 }

/-- A die of the compute or warm reset: its registers, and its ready chain. -/
def State.resetDie (s : State) (kind d : Nat) : State :=
  let s := s.dropWindow (windowOf d) fun o => if kind = 3 then keepCompute (windowOf d) o else keepWarm (windowOf d) o
  let s := if 2 ≤ d ∧ d ≤ 5 then (s.traceStops (d - 2) true).w (Reg.cnLct (d - 2)) 0 else s
  (s.setTrq d []).restartDie d

/-- A port DOWN with cause RESET and its state cleared, where its L-die is reset or powered down (R289, R510): the cable stays. -/
def State.clearPort (s : State) (p : Nat) : State :=
  let s := s.portDown p 1
  let v := s.rf (Reg.lnLinkStatus p) 22 1
  (s.setPort p { ({} : Port) with cable := (s.port p).cable }).w (Reg.lnLinkStatus p) (BitVec.ofNat 64 (2 ^ 14 + v * 2 ^ 22))

/-- Slot `k` is booted (R538, R590): the version is the slot's; the SVN of an image not booted before is a free value (log 4). -/
def State.bootSlot (s : State) (k : Nat) : State :=
  let v := s.rf Reg.saFwStatus (32 + 16 * k) 16
  let s := s.wf Reg.saFwStatus 0 1 k
  if s.rf Reg.saFwVersion 24 1 = k then s.wf Reg.saFwVersion 0 16 v
  else
    let (f, s) := s.free
    s.w Reg.saFwVersion (BitVec.ofNat 64 (v + fld f 0 8 * 65536 + k * 2 ^ 24))

/-- SA's boot (R538): bits 0 and 1 of `boot` say that slots A and B pass the boot ROM's test. -/
def State.bootSa (s : State) (boot : BitVec 4) : State :=
  let want := s.rf Reg.saStageActivate 0 1
  let s := (s.wf Reg.saFwStatus 1 1 (b2n (bitAt boot 0))).wf Reg.saFwStatus 2 1 (b2n (bitAt boot 1))
  if bitAt boot want then s.bootSlot want
  else
    let s := s.note 0 Ev.fwBootFallback [want]
    if bitAt boot (1 - want) then s.bootSlot (1 - want)
    else
      let s := s.moduleStop
      (s.withPower { s.power with down := true })

/-- A warm reset (R62, R508, R510). DESIGN CHOICE: a LOCKED root passes through HOLDOVER as every module does, since R62 and R510 except
none, though it has no upstream to lose (log 74). -/
def State.warmReset (s : State) (boot : BitVec 4) : State :=
  let s := s.each (fun p s => s.partitionClear p) (List.range 16)
  let s := s.each (fun q s => s.applyQuarter q) (List.range 16)
  let s := s.clearCompute true false
  let s := (s.zeroMem (portBank 0 false) 0x6000000).zeroMem (junctionBank 0 false) 0x4000000
  let s := ((((((s.withWalkers []).withPreWalkers []).withRings []).withNotify []).withNotes []).withPtime []).withWfg {}
  let s := (s.withJn []).withGrants []
  let s := s.withRegs (SMap.keep (fun k => decide (k < 0x40000000)) s.regs)
  let s := s.each (fun d s => s.resetDie 2 d) (resetDies 2)
  let s := s.each (fun p s => s.clearPort p) (List.range 6)
  let s := if s.timeState = 2 then s.enterHoldover else s
  let s := (s.dropWindow 0 (keepWarm 0)).dropWindow 1 (keepWarm 1)
  let s := s.setInj 0 {}
  let s := s.abandonDump
  let s := match s.txn with
    | some t => (s.withTxn none).discardTxn t 1
    | none => s
  let s := (((s.withArmedTxns []).withSnapAt none)).each (fun t s => s.discardTxn t 1) s.armedTxns
  s.levelReset.bootSa boot

/-- A compute reset (R508, R510): partitions that ran keep their image but stand stopped. -/
def State.computeReset (s : State) : State :=
  let s := s.abandonDump
  let s := s.each (fun p s => ((s.disarm p).dropBinds p).abortAll p) (List.range 16)
  let s := s.each (fun p s => if 2 ≤ s.partState p ∧ s.partState p ≤ 4 then s.setPartState p 5 else s) (List.range 16)
  let s := s.each (fun q s => s.applyQuarter q) (List.range 16)
  let s := s.clearCompute false true
  let s := s.each (fun d s => s.resetDie 3 d) (resetDies 3)
  let gone := s.armedTxns.filter fun t => t.entries.any fun e =>
    let w := e.addr / 0x1000000 % 256
    (4 ≤ w && w ≤ 7) || 32 ≤ w
  let s := s.withArmedTxns (s.armedTxns.filter fun t => !gone.contains t)
  (s.each (fun t s => s.discardTxn t 2) gone).levelReset

/-- The candidates that stood before a cold reset are repaired at it, and the soft repairs then in force are lost (R365; log 73). -/
def State.coldRepair (s : State) (old : SMap Stack) : State :=
  let s := s.withHbm (old.filterMap fun x => if x.2.cands = [] then none else some (x.1, { ({} : Stack) with cands := x.2.cands }))
  s.each (fun m s => s.softRepair m) (List.range 16)

/-- What a cold reset of the state `o` does to port `p`, whatever its state was (R289, R307, R478): DOWN with cause RESET. Its cable end stays
and is brought up again in training. -/
def State.coldPort (s o : State) (p : Nat) : State :=
  let c := (o.port p).cable
  let s := s.updPort p fun x => { x with cable := { c with onTicks := c.ticks o.clk, txOnSince := none, up := false, asym := false } }
  let s := s.w (Reg.lnLinkStatus p) (BitVec.ofNat 64 (2 ^ 14 + o.rf (Reg.lnLinkStatus p) 22 1 * 2 ^ 22))
  if 2 ≤ o.linkState p ∧ o.linkState p ≤ 4 then s.note (lDie p) Ev.linkDown [p, 1] else s

/-- What a cold reset of the state `o` records (R51, R508, R532). -/
def State.coldRecords (s o : State) : State :=
  let s := s.note 0 Ev.resetStarted [1, 0]
  let s := if o.timeState = 0 then s else s.note 1 Ev.timeStateChange [o.timeState, 0, o.rf Reg.sbTimeStatus 3 3]
  s.each (fun t s => s.discardTxn t 1) (o.txn.toList ++ o.armedTxns)

/-- A cold reset (R33, R36, R43, R289, R365, R508, R510, R521, R538, R540, R561): what survives is in fuses, in management flash or outside.
Bits 2 and 3 of `boot`: the stored margin plan reads back as it was written, the derived identity key fits the device certificate. -/
def State.coldReset (s : State) (boot : BitVec 4) : State :=
  let o := s
  let flash (k : Nat) : Bool := decide (k = Reg.saAuthKeyStatus ∨ k = Reg.saFuseStatus ∨ k = Reg.saFwStatus ∨
    k = Reg.saStageActivate ∨ k = Reg.saFwVersion ∨ k = Reg.saModuleSerial ∨ (0x810300 ≤ k ∧ k < 0x810400) ∨
    (0x810500 ≤ k ∧ k < 0x810540) ∨ k = Reg.saOperHours ∨ (0x700100 ≤ k ∧ k < 0x700200))
  let s : State := { State.reset with
    pending := o.pending
    freeCtr := o.freeCtr + 1
    prot := { o.prot with burning := [], idFault := !bitAt boot 3, bootId := o.freeCtr }
    regs := SMap.keep flash o.regs
    mem := SMap.keep (fun k => decide (stageArea ≤ k) && decide (k < skipArea 0 0)) o.mem
    hostOut := o.hostOut
    irqs := o.irqs
    ethOut := o.ethOut
    pcieUp := false
    power := { State.reset.power with resets := [(1, 0)] }
    pins := { o.pins with faultN := true, refclk := true, railEn := 3, hbmEn := 0 } }
  let s := (s.wf Reg.saResetStatus 0 3 1).wf Reg.saResetStatus 3 1 1
  let s := (s.wf Reg.saFuseStatus 0 1 0).wf Reg.saFuseStatus 16 16 0
  let s := (s.coldRecords o).each (fun p s => s.coldPort o p) (List.range 6)
  let s := s.each (fun (x : Nat × Nat) s => s.w (Reg.cnRowMap (x.1 / 24) (x.1 % 24)) (BitVec.ofNat 64 (x.2 % 16 * 17))) s.prot.rowFuses
  let s := s.each (fun k s => if bitAt s.prot.stackFuses k then s.wf (stackReg k) 1 1 1 else s) (List.range 32)
  let s := s.coldRepair o.hbm
  let s := if bitAt boot 2 ∧ o.prot.planCrc = some (crc32 o.planBytes) then s.wf Reg.sbPlStatus 8 4 (o.rf Reg.sbPlStatus 8 4)
    else ((s.each (fun d s => s.w (Reg.saMarginPlan d) 0) (List.range 32)).withProt { s.prot with planCrc := none }).note 0
      Ev.marginPlanReset []
  let s := if bitAt boot 3 then s else s.note 0 Ev.identityKeyFault []
  let s := (s.withDump o.dump).abandonDump
  s.bootSa boot

/-! ## SA.RESET_CMD (R508, R509) -/

/-- A target lies in the range of its kind. -/
def resetTargetOk (kind target : Nat) : Bool :=
  match kind with
  | 4 => target < 16
  | 5 => target < 768
  | 6 => target < 6
  | _ => true

/-- A reset begins. -/
def State.startReset (s : State) (kind target : Nat) (boot : BitVec 4) : State :=
  if kind = 5 ∧ ((s.tile target).state ≠ 0 ∧ (s.tile target).state ≠ 5 ∧ (s.tile target).state ≠ 6) then
    s.note 0 Ev.resetRefused [kind, target]
  else
    let s := s.beginReset kind target (s.resetParts kind target)
    match kind with
    | 2 => s.warmReset boot
    | 3 => s.computeReset
    | 4 => s.partitionReset target
    | 5 => s.updTile target fun x => { ({} : Tile) with bank := x.bank, progLen := x.progLen, stbyLen := x.stbyLen }
    | 6 => s.portReset target
    | _ => s

/-- A reset request (R509): refused, held for a wake, absorbed by a running reset of wider or equal scope, or started. After a thermal
trip the module stays as it is until cold reset (R503). -/
def State.requestReset (s : State) (kind target : Nat) (boot : BitVec 4) : State :=
  if s.power.trip then s
  else if kind = 0 ∨ kind = 7 ∨ resetTargetOk kind target = false then s.note 0 Ev.resetRefused [kind, target]
  else if s.asleep then s.holdReset kind target
  else if s.resetRuns kind target then s
  else s.startReset kind target boot

/-- A value written to SA.RESET_CMD asks for a reset. -/
def asksReset (v : W32) : Bool := bitAt v 3 && fld v 0 3 != 0 && fld v 0 3 != 7 && resetTargetOk (fld v 0 3) (fld v 4 10)

/-- A write of SA.RESET_CMD that asks for a reset is the wake source RESET, whichever interface makes it (R499). -/
def State.wakeReset (s : State) (i : Iface) (v : W32) : State :=
  if asksReset v = true ∧ s.offline i = false ∧ s.regDenied i Reg.saResetCmd true false = none then s.wakeBy 7 else s

/-- A write of SA.RESET_CMD over interface `i` whose KIND is `kind`; with GO it performs the reset. -/
def State.resetCmd (s : State) (i : Iface) (kind : Nat) (v : W32) (boot : BitVec 4) : State :=
  (s.wakeReset i v).regWrite i Reg.saResetCmd false fun s =>
    if fld v 0 3 = kind then
      let s := s.write32 Reg.saResetCmd v
      if bitAt v 3 then s.requestReset kind (fld v 4 10) boot else s
    else s

/-- COLD_RESET (R503, R508, R509, R604, R605): `pin` RESET_N low for 1 µs, otherwise a write of SA.RESET_CMD with KIND 1, which a cold reset
that runs absorbs, and which acts while POWER_ON is high. `boot` as at State.coldReset. -/
def execColdReset (pin : Bool) (i : Iface) (v : W32) (boot : BitVec 4) (s : State) : Res :=
  s.act <|
    if pin then (if s.pins.powerOn && s.pins.aux then s.coldReset boot else s)
    else (s.wakeReset i v).regWrite i Reg.saResetCmd false fun s =>
      if fld v 0 3 = 1 then
        let s := s.write32 Reg.saResetCmd v
        if bitAt v 3 then
          (if s.asleep = true ∧ s.power.trip = false then s.holdReset 1 0 else if s.resetRuns 1 0 ∨ s.pins.powerOn = false then s else s.coldReset boot)
        else s
      else s

/-- WARM_RESET (R508, R538). -/
def execWarmReset (i : Iface) (v : W32) (boot : BitVec 4) (s : State) : Res := s.act (s.resetCmd i 2 v boot)

/-- COMPUTE_RESET (R508). -/
def execComputeReset (i : Iface) (v : W32) (s : State) : Res := s.act (s.resetCmd i 3 v 0)

/-- PARTITION_RESET (R508). -/
def execPartitionReset (i : Iface) (v : W32) (s : State) : Res := s.act (s.resetCmd i 4 v 0)

/-- TILE_RESET (R508). -/
def execTileReset (i : Iface) (v : W32) (s : State) : Res := s.act (s.resetCmd i 5 v 0)

/-- RESET_CMD_PORT (R311, R508). -/
def execResetCmdPort (i : Iface) (v : W32) (s : State) : Res := s.act (s.resetCmd i 6 v 0)

/-- The dies a running reset waits for are ready or failed. -/
def State.resetComplete (s : State) (r : Nat × Nat) : Bool :=
  if r.1 = 1 then (resetDies 1).all fun d => s.ready d || bitAt (s.r Reg.saDieFailed) d
  else if r.1 = 2 ∨ r.1 = 3 then
    (resetDies r.1).all fun d => s.ready d || bitAt (s.r Reg.saDieFailed) d || s.seqStep d == 0
  else true

/-- RESET_DONE (R508): the oldest reset in progress that is complete ends and is recorded. -/
def execResetDone (s : State) : Res :=
  s.act <|
    match s.power.resets.find? s.resetComplete with
    | none => s
    | some r =>
      let rest := s.power.resets.erase r
      let s := s.withPower { s.power with resets := rest }
      let s := s.wf Reg.saResetStatus 3 1 (b2n (decide (rest ≠ [])))
      s.note 0 Ev.resetDone [r.1, r.2]

/-! ## Power and clock pins (R507, R602, R605) -/

/-- POWER_ON (R507, R605): its rise is a cold reset; SA and SB come up first. -/
def execPowerOn (boot : BitVec 4) (s : State) : Res :=
  s.act <|
    if s.pins.powerOn = false ∧ s.pins.aux = true then
      (s.withPins { s.pins with powerOn := true }).coldReset boot
    else s

/-- POWER_ON_FALL (R503, R605): SB powers the dies down, drives HBM_EN low and removes groups 1 and 0 last. -/
def execPowerOnFall (s : State) : Res :=
  s.act <|
    if s.pins.powerOn = false then s
    else
      let s := s.withPins { s.pins with powerOn := false }
      (if s.power.trip then s else s.emergencyOff).lastOff

/-- AUX_POWER_LOST (R605): everything stops at once. -/
def execAuxPowerLost (back : Bool) (boot : BitVec 4) (s : State) : Res :=
  s.act <|
    if back then
      (if s.pins.aux then s else
        let s := s.withPins { s.pins with aux := true }
        if s.pins.powerOn then s.coldReset boot else s)
    else
      let s := s.powerCut
      ((s.withPins { s.pins with aux := false, hbmEn := 0, railEn := 0 }).withPower
        { s.power with mode := 4, entering := none, begun := false, retain := [], offWalk := [], avs := [], down := true }).withPcieUp false

/-- REFCLK_LOST (R475, R602): a fatal fault of SB, which SA declares failed with cause 9. -/
def execRefclkLost (s : State) : Res :=
  s.act <|
    if bitAt (s.r Reg.saDieFailed) 1 then s
    else
      let s := s.withPins { s.pins with refclk := false }
      s.moduleStop.dieFailed 1 9

end Sys2Proof.Machine
end

