-- ==== Sys2Proof/Machine/Host.lean ====
section
/-!
DEFINITION. Host rings: their registers, dispatch and completion, and the resets of the host interface (R371 to R386, R401).
-/
namespace Sys2Proof.Machine
open Sys2Proof

/-! ## Functions and ring pages (R372, R375, R376) -/

/-- Function `f` answers: the link is up, the VF is enabled, it is in D0, SA runs (R371, R372; log 105). -/
def State.fnUp (s : State) (f : Nat) : Bool :=
  s.pcieUp && decide (f ≤ s.vfs) && !(s.pcieFn f).d3 && decide (s.power.mode ≠ 4) && !s.power.down

/-- A write to a ring page of function `f`, which is a wake source (R499); during a warm reset it has no effect (R510). -/
def State.page (s : State) (f : Nat) (act : State → State) : State := if s.fnUp f && !s.warmBusy then act (s.wakeBy 1) else s

/-- The partition an event of function `f` concerns (R372). -/
def fnPart (f : Nat) : Nat := if f = 0 then 255 else f - 1

/-- A ring's condition recorded: its function and its ring, 4 for the notify ring. -/
def State.ringNote (s : State) (f r code : Nat) : State := s.noteP 0 (fnPart f) code [f, r]

/-- STATE of a submission ring: 0 DISABLED, 1 RUNNING, 2 ERROR, 3 DRAINING. -/
def State.sqState (s : State) (f r : Nat) : Nat := s.rf (Reg.rgSqStatus f r) 0 2

/-- Entries of a submission ring. -/
def State.sqSize (s : State) (f r : Nat) : Nat := 2 ^ s.rf (Reg.rgSqCtrl f r) 0 5

/-- The ring stops in ERROR (R377, R379). -/
def State.ringError (s : State) (f r code : Nat) : State :=
  (s.w (Reg.rgSqStatus f r) (BitVec.ofNat 64 (2 + code * 65536))).ringNote f r code

/-- TAIL moves to `t`, where that is valid (R377). -/
def State.moveTail (s : State) (f r t : Nat) : State :=
  let n := s.sqSize f r
  let h := s.rf (Reg.rgSqHead f r) 0 16
  let q := s.ring (ringKey f r)
  if n ≤ t ∨ (t + n - h) % n < (q.tail + n - h) % n then s.ringError f r Ev.ringTailInvalid
  else s.setRing (ringKey f r) { q with tail := t }

/-- DOORBELL (R376, R377): a write of `v` to SQ_DOORBELL. -/
def execDoorbell (f : Fin 17) (r : Fin 4) (v : W32) (s : State) : Res :=
  s.act <| s.page f fun s =>
    if s.sqState f r ≠ 1 ∨ s.rf (Reg.rgSqCtrl f r) 6 1 = 1 then s else s.moveTail f r (fld v 0 16)

/-- SHADOW_POLL (R374, R377): the module reads the shadow tail, none where the access fails. -/
def execShadowPoll (f : Fin 17) (r : Fin 4) (v : Option W32) (s : State) : Res :=
  s.act <|
    let q := s.ring (ringKey f r)
    let us := s.rf (Reg.rgSqCtrl f r) 8 8
    if s.fnUp f = false ∨ s.sqState f r ≠ 1 ∨ s.rf (Reg.rgSqCtrl f r) 6 1 = 0 ∨
        s.clk < q.polled + (if us = 0 then 1 else us) * 3125 then s
    else
      let s := s.setRing (ringKey f r) { q with polled := s.clk }
      match v with
      | none => s.hostError f (fnPart f) (s.r (Reg.rgSqShadow f r)).toNat
      | some t => (s.reachHost f (s.r (Reg.rgSqShadow f r)).toNat 4).moveTail f r t.toNat

/-! ## Enabling and disabling (R378) -/

/-- A CTRL value over the old one: LOG2SIZE and the bits of `fixed` keep their value in an enabled ring. -/
def ctrlMerge (old v mask fixed : Nat) : W64 :=
  (BitVec.ofNat 64 v &&& BitVec.ofNat 64 mask &&& ~~~ BitVec.ofNat 64 fixed) ||| (BitVec.ofNat 64 old &&& BitVec.ofNat 64 fixed)

/-- A write to SQ_CTRL with ENABLE = 1. -/
def State.sqEnable (s : State) (f r : Nat) (v : W32) : State :=
  let k := Reg.rgSqCtrl f r
  let old := (s.r k).toNat
  if s.sqState f r = 3 then s.ringNote f r Ev.ringBusy
  else if bitAt (s.r k) 5 then
    let s := if fld v 0 5 ≠ fld (s.r k) 0 5 ∨ bitAt v 6 ≠ bitAt (s.r k) 6 then s.ringNote f r Ev.ringBusy else s
    s.w k (ctrlMerge old v.toNat 0xFF7F 0x5F)
  else
    let s := s.w k (ctrlMerge old v.toNat 0xFF5F 0)
    let n := fld v 0 5
    if n < 6 ∨ 16 < n ∨ s.rf (Reg.rgSqBase f r) 0 12 ≠ 0 ∨ (bitAt v 6 = true ∧ s.rf (Reg.rgSqShadow f r) 0 3 ≠ 0) then
      s.ringNote f r Ev.ringCfgRange
    else
      let s := ((s.wf k 5 1 1).w (Reg.rgSqHead f r) 0).w (Reg.rgSqStatus f r) 1
      s.updRing (ringKey f r) fun q => { q with tail := 0, jobs := [], polled := s.clk }

/-- A write to CQ_CTRL (`r` below 4) or NR_CTRL (4) with ENABLE = 1. -/
def State.cqEnable (s : State) (f r : Nat) (v : W32) : State :=
  let k := if r < 4 then Reg.rgCqCtrl f r else Reg.rgNrCtrl f
  let old := (s.r k).toNat
  if bitAt (s.r k) 5 then
    let s := if fld v 0 5 ≠ fld (s.r k) 0 5 then s.ringNote f r Ev.ringBusy else s
    s.w k (ctrlMerge old v.toNat 0xFFFFFF3F 0x1F)
  else
    let s := s.w k (ctrlMerge old v.toNat 0xFFFFFF1F 0)
    let n := fld v 0 5
    if n < 6 ∨ (if r < 4 then 16 else 12) < n ∨ s.rf (if r < 4 then Reg.rgCqBase f r else Reg.rgNrBase f) 0 12 ≠ 0 then
      s.ringNote f r Ev.ringCfgRange
    else if r < 4 then
      let s := ((s.wf k 5 1 1).w (Reg.rgCqHead f r) 0).w (Reg.rgCqTail f r) 0x10000
      s.updRing (ringKey f r) fun q => { q with irqPend := 0, irqFirst := none }
    else
      let s := (((s.wf k 5 1 1).w (Reg.rgNrHead f) 0).w (Reg.rgNrTail f) 0x10000).w (Reg.rgNrLost f) 0
      s.setNotif f {}

/-- RING_ENABLE (R378): a write of `v`, with ENABLE as 1, to a CTRL register: 0 to 3 SQ_CTRL, 4 to 7 CQ_CTRL, 8 NR_CTRL. -/
def execRingEnable (f : Fin 17) (which : Fin 9) (v : W32) (s : State) : Res :=
  s.act <| s.page f fun s => if which.val < 4 then s.sqEnable f which v else s.cqEnable f (which - 4) v

/-- An armed launch or changeover that ring `r` of function `f` dispatched (R378). -/
def State.ringArmed (s : State) (f r : Nat) : Bool :=
  (List.range 16).any fun p => (s.part p).armed.any fun a => match a.ring with
    | some (g, q, _) => g == f && q == r
    | none => false

/-- A draining ring with nothing in flight is DISABLED (R378). -/
def State.settle (s : State) (f r : Nat) : State :=
  if s.sqState f r = 3 ∧ (s.ring (ringKey f r)).jobs = [] then s.wf (Reg.rgSqStatus f r) 0 2 0 else s

/-- A write to SQ_CTRL with ENABLE = 0. -/
def State.sqDisable (s : State) (f r : Nat) (v : W32) : State :=
  let k := Reg.rgSqCtrl f r
  let old := (s.r k).toNat
  if bitAt (s.r k) 5 then
    if s.ringArmed f r then s.ringNote f r Ev.ringBusy
    else
      let s := if fld v 0 5 ≠ fld (s.r k) 0 5 ∨ bitAt v 6 ≠ bitAt (s.r k) 6 then s.ringNote f r Ev.ringBusy else s
      let s := (s.w k (ctrlMerge old v.toNat 0xFF5F 0x5F)).wf (Reg.rgSqStatus f r) 0 2 3
      (s.updRing (ringKey f r) fun q => { q with jobs := abortWaits Config.disableCode.toNat q.jobs }).settle f r
  else s.w k (ctrlMerge old v.toNat 0xFF5F 0)

/-- A write to CQ_CTRL or NR_CTRL with ENABLE = 0. -/
def State.cqDisable (s : State) (f r : Nat) (v : W32) : State :=
  let k := if r < 4 then Reg.rgCqCtrl f r else Reg.rgNrCtrl f
  let old := (s.r k).toNat
  if bitAt (s.r k) 5 then
    if r < 4 ∧ s.sqState f r ≠ 0 then s.ringNote f r Ev.ringBusy
    else
      let s := if fld v 0 5 ≠ fld (s.r k) 0 5 then s.ringNote f r Ev.ringBusy else s
      s.w k (ctrlMerge old v.toNat 0xFFFFFF1F 0x1F)
  else s.w k (ctrlMerge old v.toNat 0xFFFFFF1F 0)

/-- RING_DISABLE (R378): a write of `v`, with ENABLE as 0, to a CTRL register numbered as in RING_ENABLE. -/
def execRingDisable (f : Fin 17) (which : Fin 9) (v : W32) (s : State) : Res :=
  s.act <| s.page f fun s => if which.val < 4 then s.sqDisable f which v else s.cqDisable f (which - 4) v

/-! ## Dispatch (R379, R382, R385) -/

def zeroBytes (d : Desc) (k n : Nat) : Bool := dField d k n == 0

/-- Operands of a command, reserved fields and ranges included (R386 to R400). -/
def operandsOk (d : Desc) : Bool :=
  let b := dField d
  let z := zeroBytes d
  match dOpc d with
  | 0x00 => z 16 48
  | 0x01 => b 16 8 % 4096 == 0 && decide (b 24 8 ≤ 0x40000000) && b 32 8 % 64 == 0 && decide (b 40 2 ≤ 4096) &&
      (decide (b 40 2 ≠ 0) || z 32 8) && z 42 6 && z 56 8
  | 0x02 => decide (b 16 1 < 64) && decide (b 17 1 < 16) && z 20 44
  | 0x03 => decide (b 20 2 ≤ 256) && decide (1 ≤ b 22 2) && decide (b 22 2 ≤ 256) && decide (b 32 2 < 0x4000) && z 34 2 &&
      b 40 8 % 4096 == 0 && z 48 16
  | 0x04 => decide (b 24 1 < 64) && z 25 1 && b 26 2 % 2 == 0 && decide (b 28 1 < 64) && z 29 35
  | 0x05 => decide (b 24 1 < 64) && decide (b 25 1 < 2) && b 26 2 % 2 == 0 && decide (b 28 1 < 64) && z 29 35
  | 0x06 => z 24 40
  | 0x08 => b 32 4 % 4 == 0 && decide (4 ≤ b 32 4) && decide (b 36 1 < 4) && z 37 1 && b 38 2 / 0x4000 % 2 == 0 && z 40 24
  | 0x0A => b 20 2 / 0x4000 % 2 == 0 && decide (b 22 1 < 2) && z 23 1 && z 36 28 && (decide (0x8000 ≤ b 20 2) || b 22 1 == 1)
  | 0x0C => decide (b 8 2 < 0x8000)
  | 0x10 => decide (b 24 1 < 4) && z 25 39
  | 0x11 => z 16 48
  | 0x12 => b 16 8 % 256 == 0 && z 24 40
  | 0x13 => z 16 48
  | _ => false

/-- The common bytes keep R382. -/
def commonOk (f : Nat) (d : Desc) : Bool :=
  decide (dField d 1 1 < 4) && decide (dField d 2 1 < (if f = 0 then 16 else 1)) && zeroBytes d 3 1 && zeroBytes d 10 2

/-- An address of a DMA stands where its region lets it (R611). -/
def State.dmaAligned (s : State) (a : Nat) (global : Bool) : Bool :=
  !global || (a % 4 == 0 && (!(s.isLocal a && regionOf (a % 2 ^ 48) = .bank) || a % 16 == 0))

/-- A token operand outside the partition is refused (R26, R385): the token. -/
def State.tokenOutside (s : State) (p : Nat) (d : Desc) : Option Nat :=
  let out := fun (x : Nat) => decide (0x8000 ≤ x) && decide (s.partOfToken (x % 0x4000) ≠ some p)
  if dOpc d ≠ 0x0C ∧ out (dField d 8 2) = true then some (dField d 8 2 % 0x4000)
  else if dOpc d = 0x0A ∧ out (dField d 20 2) = true then some (dField d 20 2 % 0x4000)
  else none

/-- Why a descriptor is refused at dispatch (R385). -/
def State.descRefusal (s : State) (f : Nat) (d : Desc) : Option Nat :=
  let o := dOpc d
  let p := dPart f d
  if commonOk f d = false ∨ operandsOk d = false then some Ev.descReserved
  else if o = 8 ∧ (s.dmaAligned (dField d 16 8) (bitAt d 288) = false ∨ s.dmaAligned (dField d 24 8) (bitAt d 289) = false) then
    some Ev.descReserved
  else if f ≠ 0 ∧ (o = 2 ∨ o = 0x0C ∨ ((o = 4 ∨ o = 5) ∧ (dField d 26 2 ≠ 0 ∨ dField d 28 1 ≠ 0))) then some Ev.descNotPermitted
  else if o ≠ 2 ∧ o ≠ 0x0C ∧ !(o = 0 ∧ dField d 8 2 < 0x8000) ∧ s.quarters p = 0 then some Ev.partEmpty
  else if (s.tokenOutside p d).isSome then some Ev.addrOutsidePartition
  else none

/-- A ring waits for its turn: but for a FENCE, the descriptor at its HEAD may be dispatched (R379, R498). -/
def State.ringWaits (s : State) (f r : Nat) : Bool :=
  let js := (s.ring (ringKey f r)).jobs
  s.fnUp f && s.sqState f r == 1 && decide (s.rf (Reg.rgSqHead f r) 0 16 ≠ (s.ring (ringKey f r)).tail) &&
    decide (js.length < 64) && !(js.any fun j => dOpc j.desc == 0x0A) && s.power.mode == 0 && s.power.entering == none

/-- It is the turn of a ring: none that waits comes between the one served last and it (R379). -/
def State.ringTurn (s : State) (f r : Nat) : Bool :=
  let after := fun (k : Nat) => (k + 68 - (s.turn + 1) % 68) % 68
  (List.range 68).all fun k => !(decide (after k < after (ringKey f r)) && s.ringWaits (k / 4) (k % 4))

/-- FENCE holds a descriptor of the ring back (R379). -/
def State.fenced (s : State) (f r : Nat) (d : Desc) : Bool := bitAt d 8 && !(s.ring (ringKey f r)).jobs.isEmpty

/-- DESCRIPTOR_DISPATCH (R374, R379, R382, R385): the descriptor at HEAD is `d`, none where the read fails. One that its FENCE holds back
gives up the ring's turn (log 106). -/
def execDescriptorDispatch (f : Fin 17) (r : Fin 4) (d : Option Desc) (s : State) : Res :=
  s.act <|
    if s.ringWaits f r = false ∨ s.ringTurn f r = false then s
    else if s.fenced f r (d.getD 0) then s.withTurn (ringKey f r)
    else
      let s := s.withTurn (ringKey f r)
      let h := s.rf (Reg.rgSqHead f r) 0 16
      match d with
      | none => (s.hostError f (fnPart f) ((s.r (Reg.rgSqBase f r)).toNat + 64 * h)).ringError f r Ev.ringFetchError
      | some d =>
        let q := s.ring (ringKey f r)
        let p := dPart f d
        let j : Job := { id := q.nextId, desc := d, begun := s.clk }
        let s := s.reachHost f ((s.r (Reg.rgSqBase f r)).toNat + 64 * h) 64
        let s := s.setRing (ringKey f r) { q with jobs := q.jobs ++ [j], nextId := q.nextId + 1 }
        let s := s.wf (Reg.rgSqHead f r) 0 16 ((h + 1) % s.sqSize f r)
        match s.descRefusal f d with
        | none => s
        | some c =>
          let s := s.jobRefused f r j c
          match (if c = Ev.addrOutsidePartition then s.tokenOutside p d else none) with
          | some k => s.noteP 0 p c [f, 0x3F0000000000 + 16 * k]
          | none => s

/-! ## Completion (R380, R383) -/

/-- A completion entry (R383). -/
def completionOf (j : Job) (head phase : Nat) : Nat :=
  atByte 0 4 (dField j.desc 4 4) + atByte 4 2 head + atByte 6 1 (dOpc j.desc) + atByte 7 1 j.cls + atByte 8 2 j.code +
    atByte 12 4 j.d0 + atByte 16 8 j.result + atByte 24 4 j.d1 + atByte 31 1 phase

/-- The vector of a completion ring is signalled. -/
def State.signalRing (s : State) (f r : Nat) : State :=
  let s := s.signal f (s.rf (Reg.rgCqCtrl f r) 8 8)
  s.updRing (ringKey f r) fun q => { q with irqPend := 0, irqFirst := none }

/-- A written completion counts toward the interrupt (R380). -/
def State.countIrq (s : State) (f r : Nat) (j : Job) : State :=
  if bitAt j.desc 9 ∧ j.cls = 0 then s
  else
    let s := s.updRing (ringKey f r) fun q => { q with
      irqPend := q.irqPend + 1, irqFirst := (match q.irqFirst with | some t => some t | none => some s.clk) }
    let n := s.rf (Reg.rgCqCtrl f r) 16 8
    if (if n = 0 then 1 else n) ≤ (s.ring (ringKey f r)).irqPend then s.signalRing f r else s

/-- The completion ring has room (R380). -/
def State.cqRoom (s : State) (f r : Nat) : Bool :=
  s.rf (Reg.rgCqCtrl f r) 5 1 == 1 &&
    decide ((s.rf (Reg.rgCqTail f r) 0 16 + 1) % 2 ^ s.rf (Reg.rgCqCtrl f r) 0 5 ≠ s.rf (Reg.rgCqHead f r) 0 16)

/-- A finished descriptor has a token operation to apply (R385). -/
def Job.tokenDue (j : Job) : Bool := j.phase == 2 && j.cls == 0 && dOpc j.desc != 0x0C && bitAt j.desc 79

/-- The token operation of a descriptor is sent (R98, R385). -/
def State.sendToken (s : State) (f r : Nat) (j : Job) : State :=
  let k := dField j.desc 8 2 % 0x4000
  let s := if bitAt j.desc 78 then s.sendSet 4 k (BitVec.ofNat 32 (dField j.desc 12 4)) else s.arrive 4 k (dField j.desc 12 4)
  s.updRing (ringKey f r) fun q => { q with jobs := updJob j.id (fun x => { x with phase := 3 }) q.jobs }

/-- The completion of `j` is written (R380); `ok`: the host takes the write. -/
def State.writeCompletion (s : State) (f r : Nat) (j : Job) (ok : Bool) : State :=
  let tail := s.rf (Reg.rgCqTail f r) 0 16
  let phase := s.rf (Reg.rgCqTail f r) 16 1
  let a := (s.r (Reg.rgCqBase f r)).toNat + 32 * tail
  let s := if ok then s.entryToHost f a (bytesLE 32 (completionOf j (s.rf (Reg.rgSqHead f r) 0 16) phase))
    else s.hostError f (fnPart f) a
  let t := (tail + 1) % 2 ^ s.rf (Reg.rgCqCtrl f r) 0 5
  let s := s.w (Reg.rgCqTail f r) (BitVec.ofNat 64 (t + (if t = 0 then 1 - phase else phase) * 65536))
  let s := s.updRing (ringKey f r) fun q => { q with jobs := q.jobs.filter fun x => x.id ≠ j.id }
  (s.countIrq f r j).settle f r

/-- COMPLETION_WRITE (R98, R374, R380, R385): the first finished descriptor of a ring: its token operation, then, once that has
been applied and the ring has room, its completion. -/
def execCompletionWrite (f : Fin 17) (r : Fin 4) (ok : Bool) (s : State) : Res :=
  s.act <|
    match findJob (fun j => decide (2 ≤ j.phase)) (s.ring (ringKey f r)).jobs with
    | none => s
    | some j =>
      let k := dField j.desc 8 2 % 0x4000
      if j.tokenDue then s.sendToken f r j
      else if j.phase = 3 ∧ s.ready (cDie (k / 4096)) = true ∧ (s.tokOps.any fun o => o.token == k) = true then s
      else if s.fnUp f && s.cqRoom f r then s.writeCompletion f r j ok
      else s

/-- CQ_HEAD_WRITE (R380): a write to CQ_HEAD of ring 0 to 3, or to NR_HEAD. -/
def execCqHeadWrite (f : Fin 17) (which : Fin 5) (v : W32) (s : State) : Res :=
  s.act <| s.page f fun s =>
    let r := which.val
    let n := 2 ^ s.rf (if r < 4 then Reg.rgCqCtrl f r else Reg.rgNrCtrl f) 0 5
    let k := if r < 4 then Reg.rgCqHead f r else Reg.rgNrHead f
    let t := s.rf (if r < 4 then Reg.rgCqTail f r else Reg.rgNrTail f) 0 16
    let h := fld v 0 16
    let old := s.rf k 0 16
    if n ≤ h ∨ (t + n - old % n) % n < (t + n - h % n) % n then s.ringNote f r Ev.ringCfgRange
    else s.wf k 0 16 h

/-- IRQ_DELAY_EXPIRY (R380). -/
def execIrqDelayExpiry (f : Fin 17) (r : Fin 4) (s : State) : Res :=
  s.act <|
    let us := s.rf (Reg.rgCqCtrl f r) 24 8
    match (s.ring (ringKey f r)).irqFirst with
    | some t => if us ≠ 0 ∧ t + us * 3125 ≤ s.clk ∧ s.fnUp f = true then s.signalRing f r else s
    | none => s

/-! ## Commands that touch no memory of the module -/

/-- PING (R386): RESULT the FTC, DETAIL0 the ring's INFLIGHT. -/
def execPing (f : Fin 17) (r : Fin 4) (s : State) : Res :=
  s.act <|
    match s.jobOf f r 0 with
    | none => s
    | some j => s.finishJob f r j.id 0 0 (s.ring (ringKey f r)).jobs.length s.now 0

/-- WAIT (R395): the oldest incomplete WAIT of a ring is judged. -/
def execWait (f : Fin 17) (r : Fin 4) (s : State) : Res :=
  s.act <|
    match findJob (fun j => decide (j.phase ≤ 1) && dOpc j.desc == 0x0A) (s.ring (ringKey f r)).jobs with
    | none => s
    | some j =>
      let ten := decide (0x8000 ≤ dField j.desc 20 2)
      let v := (s.token (dField j.desc 20 2 % 0x4000)).val.toNat
      let us := dField j.desc 32 4
      if ten && decide (dField j.desc 16 4 ≤ v) then s.jobOk f r j v
      else if bitAt j.desc 176 && decide (dField j.desc 24 8 ≤ s.now) then s.jobOk f r j s.now
      else if us ≠ 0 ∧ j.begun + us * 3125 ≤ s.clk then
        s.finishJob f r j.id 3 Ev.waitTimeout 0 (if ten then v else s.now) 0
      else s

/-- NEWT (R396). -/
def execNewt (f : Fin 17) (r : Fin 4) (s : State) : Res :=
  s.act <|
    match s.jobOf f r 0x0C with
    | none => s
    | some j =>
      match s.originateRouted 0x20 (dField j.desc 8 2 % 0x8000) (dField j.desc 16 48) with
      | (true, s) => s.jobOk f r j 0
      | (false, s) => s.jobFailed f r j Ev.newtDrop 0 0

/-- STOP (R398): HOST_STOP is asked for, and stays in INFLIGHT until every tile of the partition has stopped. -/
def execStop (f : Fin 17) (r : Fin 4) (s : State) : Res :=
  s.act <|
    match s.jobOf f r 0x11 with
    | none => s
    | some j => (s.jobRuns f r j).hostStop (dPart f j.desc)

/-- Partition state as QUERY and PART_STATUS report it (R399): a running partition whose walkers have all parked and whose
tiles are all idle is parked. -/
def State.partView (s : State) (p : Nat) : Nat :=
  if s.partState p = 3 ∧ (walkUnits.all fun uk => (s.walker (walkKey uk.1 (p + 1) uk.2)).state != 1) = true ∧
      ((s.tilesOf p).all fun t => (s.tile t).state == 0) = true then 4 else s.partState p

/-- The status block of partition `p` (R399). -/
def State.statusBlock (s : State) (p : Nat) : Nat :=
  let x := s.part p
  let dig := fun (im : Option Image) => match im with | some i => i.digest.toNat | none => 0
  let tick := match (x.armed.filter fun a => a.restart) ++ x.armed with
    | a :: _ => a.tick
    | [] => 0
  let stopped := ((s.tilesOf p).filter fun t => 5 ≤ (s.tile t).state).length
  atByte 0 8 s.now + atByte 8 1 s.timeState + atByte 9 1 (s.partView p) + atByte 10 1 (s.rf (Reg.saPartStatus p) 6 6) +
    atByte 11 1 s.level + atByte 12 2 (s.quarters p) + atByte 14 2 x.tileStandby + atByte 16 32 (dig x.active) +
    atByte 48 32 (dig x.standby) + atByte 80 32 x.root.toNat + atByte 112 8 tick + atByte 120 8 x.lastLaunch +
    atByte 128 2 stopped + atByte 130 2 x.firstStop

/-- QUERY (R374, R399); `ok`: the host takes the write. -/
def execQuery (f : Fin 17) (r : Fin 4) (ok : Bool) (s : State) : Res :=
  s.act <|
    match s.jobOf f r 0x12 with
    | none => s
    | some j =>
      let a := dField j.desc 16 8
      if ok then (s.toHost f a (bytesLE 256 (s.statusBlock (dPart f j.desc)))).jobOk f r j 0
      else (s.hostError f (dPart f j.desc) a).jobFailed f r j Ev.hostAccessError 0 0

/-! ## Resets of the host interface (R401, R532) -/

/-- Every ring of function `f` is DISABLED; descriptors end without completions; its cached translations and its PCIe control go (log 35). -/
def State.ringsOff (s : State) (f : Nat) : State :=
  let s := s.each (fun r s =>
    ((((s.abortLoads (s.ring (ringKey f r)).jobs).wf (Reg.rgSqCtrl f r) 5 1 0).wf (Reg.rgSqStatus f r) 0 2 0).wf (Reg.rgCqCtrl f r) 5 1 0).updRing (ringKey f r)
      fun q => { q with jobs := [], irqPend := 0, irqFirst := none }) (List.range 4)
  let s := s.wf (Reg.rgNrCtrl f) 5 1 0
  (s.withAts (SMap.keep (fun k => decide (k ≠ f)) s.ats)).setPcieFn f {}

/-- The PF's open transaction is discarded (R532). -/
def State.dropPfTxn (s : State) : State :=
  match s.txn with
  | some t => if t.owner = Iface.pf.code then (s.withTxn none).discardTxn t 3 else s
  | none => s

/-- FLR_VF (R401): of VF `n + 1`. -/
def execFlrVf (n : Fin 16) (s : State) : Res :=
  s.act (if s.fnUp (n + 1) then (s.hostStop n).ringsOff (n + 1) else s)

/-- FLR_PF (R401, R532). -/
def execFlrPf (s : State) : Res := s.act (if s.fnUp 0 then (s.ringsOff 0).dropPfTxn else s)

/-- The rings of all functions are DISABLED. -/
def State.allRingsOff (s : State) : State := (s.each (fun f s => s.ringsOff f) (List.range 17)).dropPfTxn

/-- HOT_RESET (R401, R532). -/
def execHotReset (s : State) : Res := s.act (if s.fnUp 0 then s.allRingsOff else s)

/-- PCIE_LINK_DOWN (R401, R532). -/
def execPcieLinkDown (s : State) : Res := s.act (if s.pcieUp then (s.allRingsOff.withPcieUp false) else s)

end Sys2Proof.Machine
end

