-- ==== Sys2Proof/Machine/HostData.lean ====
section
/-!
DEFINITION. Host commands that move the module's data: BIND and its record, DMA, CHECKPOINT (R390, R391, R394, R397, R447 to
R451, R611).
-/
namespace Sys2Proof.Machine
open Sys2Proof

/-! ## BIND and its record (R390, R391, R447 to R451) -/

/-- Address ranges of a list of 16-byte entries, from entry `i` on. -/
def rangesOf (bs : List Byte) (i n : Nat) : List (Nat × Nat) :=
  (List.range n).map fun k => (field bs (16 * (i + k)) 8, field bs (16 * (i + k) + 8) 8)

/-- SHA-256 over address ranges concatenated (R390); a retired stack reads as 0 (R367). -/
def State.digestOf (s : State) (rs : List (Nat × Nat)) : BitVec 256 := sha256Word (rs.flatMap fun r => s.liveBytes r.1 r.2)

/-- BIND (R374, R390): `list` is what the host holds at LIST_ADDR, none where that read fails; `bad` an input byte whose read is
uncorrectable, `fixed` the corrected ones. A DONE_TOKEN outside the partition reads 0, and is recorded here (R26; log 110). -/
def execBind (f : Fin 17) (r : Fin 4) (list : Option (List Byte)) (bad : Option W64) (fixed : List (W64 × Bool)) (s : State) : Res :=
  s.act <|
    match s.jobOf f r 3 with
    | none => s
    | some j =>
      let p := dPart f j.desc
      let d := dField j.desc
      match list with
      | none => (s.hostError f p (d 24 8)).jobFailed f r j Ev.hostAccessError 0 0
      | some bs =>
        let s := s.reachHost f (d 24 8) (16 * (d 20 2 + d 22 2))
        let ins := rangesOf bs 0 (d 20 2)
        let outs := rangesOf bs (d 20 2) (d 22 2)
        match (ins ++ outs).find? fun x => !s.inPart p x.1 (Nat.max x.2 1) with
        | some x => (s.noteP 0 p Ev.addrOutsidePartition [f, x.1]).jobRefused f r j Ev.addrOutsidePartition
        | none =>
          if 16 ≤ (s.part p).binds.length then s.jobRefused f r j Ev.bindFull
          else match s.bulk ins [] [] with
          | none => s
          | some s =>
            let k := d 32 2
            let s := if s.partOfToken k = some p then s else s.noteP 0 p Ev.addrOutsidePartition [f, tokenAddr k]
            let s := s.readRanges f ins fixed 3
            match s.badAt ins bad with
            | some a => (s.readError a (.ue 0) 3).jobFailed f r j (readCode a) 0 0
            | none =>
              let dig := s.digestOf ins
              let b : Bind := { sub := d 16 4, ins := ins, outs := outs, token := d 32 2, thresh := d 36 4, rec_ := d 40 8
                                inDigest := dig, fn := f, begun := s.now, level := s.level
                                traced := (List.range 4).any fun c => bitAt (s.r (Reg.cnTraceCtrl c)) 0 &&
                                  ((List.range 4).any fun q => s.hasQuarter p (4 * c + q)) }
              (s.updPart p fun x => { x with binds := x.binds ++ [s.meetBind p b] }).jobOk f r j (dig.toNat % 2 ^ 64)

/-- The identity public key as the 97 bytes of an uncompressed SEC1 point (R447). -/
def sec1Key : List Byte := 4 :: (List.range 12).flatMap fun i => bytesLE 8 (Config.identityKey i).toNat

/-- Bytes 0 to 319 of the record of bind `b` of partition `p`, of the run in which its token met its threshold (R447, R451). -/
def State.recordBody (s : State) (p : Nat) (b : Bind) (seq : Nat) (out : BitVec 256) : List Byte :=
  let m := b.met.getD (s.runNow p)
  let im := m.image.getD { header := 0, digest := 0 }
  let h := fun k n => fld im.header (8 * k) (8 * n)
  let lock := if (s.part p).lastLaunch = m.launch then s.lockFlags p else m.lock
  bytesLE 320 (0x52504648 + atByte 4 2 1 + atByte 6 2 320 + atByte 8 8 (s.r Reg.saModuleSerial).toNat +
    atByte 16 2 s.modNum + atByte 18 2 s.coords + atByte 20 1 p +
    atByte 21 1 m.ctx + atByte 22 1 (s.rf Reg.saDeviceId 8 8) +
    atByte 23 1 (h 8 1) + atByte 24 1 (h 9 1) + atByte 25 1 b.level + atByte 26 1 (h 10 1) +
    atByte 27 1 (b2n b.traced + lock) + atByte 28 6 (h 20 6) +
    atByte 34 2 b.ins.length + atByte 36 4 b.sub + atByte 40 8 m.launch + atByte 48 8 b.begun + atByte 56 8 s.now +
    atByte 64 32 im.digest.toNat + atByte 96 32 (h 112 32) + atByte 128 32 im.root.toNat + atByte 160 32 b.inDigest.toNat +
    atByte 192 32 out.toNat + atByte 224 8 (hSeed im.header).toNat + atByte 232 8 (s.r Reg.sbWtbSec).toNat +
    atByte 240 4 s.time.wtbNs.toNat + atByte 244 4 (s.rf Reg.saFwVersion 0 32) + atByte 248 32 (ofBytesLE (sha256 sec1Key)) +
    atByte 280 8 seq + atByte 288 16 (Config.bootId s.prot.bootId).toNat + atByte 304 2 b.outs.length + atByte 308 4 m.errors)

/-- BIND_DONE (R391, R447 to R451, R540): the bind at `i` of partition `p`, once its token has met its threshold, gets its record. `bad`:
an output byte whose read is uncorrectable; `fixed`: the corrected ones; `ok`: the host takes the write. -/
def execBindDone (p : Fin 16) (i : Fin 16) (bad : Option W64) (fixed : List (W64 × Bool)) (ok : Bool) (s : State) : Res :=
  s.act <|
    match (s.part p).binds[i.val]? with
    | none => s
    | some b =>
      match (if s.bindMet p b then s.bulk b.outs [] [] else none) with
      | none => s
      | some s =>
        let s := (s.updPart p fun x => { x with binds := x.binds.eraseIdx i }).readRanges b.fn b.outs fixed 3
        match s.badAt b.outs bad with
        | some a => (s.readError a (.ue 0) 3).notifyRecord p b.sub 1 0 b.rec_
        | none =>
          let out := s.digestOf b.outs
          let s := if s.prot.idFault then s else s.add64 Reg.saProvSeq 1
          let m := s.recordBody p b (s.r Reg.saProvSeq).toNat out
          let sig := if s.prot.idFault then List.replicate 96 0 else bytesBE 96 (Config.signP384 m).toNat
          if ok then (s.toHost b.fn b.rec_ (m ++ sig ++ List.replicate 3680 0)).notifyRecord p b.sub 0 out b.rec_
          else (s.hostError b.fn p b.rec_).notifyRecord p b.sub 1 out b.rec_

/-! ## DMA (R394, R611) -/

/-- A side of a movement: host memory, this module, another module. -/
inductive Side where
  | host | here | remote
deriving DecidableEq, Repr

def State.sideOf (s : State) (global : Bool) (a : Nat) : Side :=
  if global then (if s.isLocal a then .here else .remote) else .host

/-- The timetable or junction bank that holds an address: unit and bank. -/
def bankOf (a : Nat) : Nat × Bool :=
  if a < 0x200010000000 then ((a - 0x200000000000) / 0x1000000, decide (0x400000 ≤ a % 0x1000000))
  else (6 + (a - 0x200010000000) / 0x1000000, decide (0x100000 ≤ a % 0x1000000))

/-- The bank that holds `a` is a standby bank in state EMPTY or VALID (R242, R611). -/
def State.bankOpen (s : State) (a : Nat) : Bool :=
  let (u, b) := bankOf a
  b != s.bankActive u && (s.bankStandby u == 0 || s.bankStandby u == 3)

/-- Why `n` bytes at `a` of this module may not be reached by a descriptor of function `f` for partition `p` (R26, R37, R41,
R611). -/
def State.dmaRefusal (s : State) (f p a n : Nat) (write : Bool) : Option Nat :=
  let e := a + n - 1
  if a < 0x3F0000040000 ∧ 0x3F0000000000 ≤ e then some Ev.addrAccessClass
  else if regionOf a = .unmapped ∨ regionOf e = .unmapped then some Ev.addrUnmapped
  else if regionOf a = .regs ∨ regionOf e = .regs then some Ev.addrAccessClass
  else if regionOf a = .bank ∨ regionOf e = .bank then
    (if f ≠ 0 then some Ev.addrOutsidePartition
     else if write = false then some Ev.addrAccessClass
     else if regionOf a = .bank ∧ bankOf a = bankOf e ∧ s.bankOpen a = true then none
     else some Ev.ttActiveWrite)
  else if s.inPart p a n then none
  else some Ev.addrOutsidePartition

/-- Where the model keeps a descriptor's host data until its packets have left. -/
def dmaArea (f r id : Nat) : Nat := 0x1000000000000000 + ((id * 17 + f) * 4 + r) * 0x100000000

/-- Message `i` of a movement to another module. -/
def State.dmaWrite (s : State) (f r : Nat) (j : Job) (base i : Nat) : Msg :=
  let p := dPart f j.desc
  let n := dField j.desc 32 4
  { id := 0, op := 0, dest := dField j.desc 24 8 + 65536 * i, data := base + 65536 * i, len := Nat.min 65536 (n - 65536 * i)
    token := dField j.desc 38 2, msgId := j.id % 65536, part := p, key := s.jobKey p
    job := some (f, r, j.id), base := 65536 * i }

/-- Request `i` of a movement from another module. -/
def State.dmaRead (s : State) (f : Nat) (j : Job) (i : Nat) : Msg :=
  let p := dPart f j.desc
  let n := dField j.desc 32 4
  { id := 0, op := 2, dest := dField j.desc 16 8 + 65536 * i, data := 0, len := Nat.min 65536 (n - 65536 * i), token := 0
    msgId := j.id % 65536, retAddr := s.modNum * 2 ^ 52 + dField j.desc 24 8 % 2 ^ 48 + 65536 * i, retToken := 0
    retMsg := j.id % 65536, part := p, key := s.jobKey p }

/-- Messages of a movement. -/
def dmaBlocks (n : Nat) : Nat := (n + 65535) / 65536

/-- A movement to another module starts (R394). `data` are the host's bytes, `bad` the offset at which a read of them fails; `eccs`: how
the reads of the first packets of a local source come out. -/
def State.dmaSend (s : State) (f r : Nat) (j : Job) (fromHost : Bool) (data : List Byte) (bad : Option Nat) (eccs : List Ecc) : State :=
  let n := dField j.desc 32 4
  let src := dField j.desc 16 8
  let base := if fromHost then dmaArea f r j.id else src % 2 ^ 48
  let k := dmaBlocks n
  match s.msgRefusal 0 (s.dmaWrite f r j base 0) true with
  | some why => (s.msgRefused 0 (dPart f j.desc) (dField j.desc 24 8) why).jobRefused f r j (why.2.getD Ev.msgRefused)
  | none =>
    let s := if fromHost then (s.reachHost f src n).setBytes base (takeBytes n data) else s
    match (if fromHost then bad else none) with
    | some off =>
      let off := Nat.min off (n - 1)
      let s := s.each (fun i s => s.addMsg 0 { s.dmaWrite f r j base i with job := none } []) (List.range (off / 65536))
      (s.hostError f (dPart f j.desc) (src + off)).jobFailed f r j Ev.hostAccessError off 0
    | none =>
      (s.jobRuns f r j).each (fun i s => s.addMsg 0 (s.dmaWrite f r j base i) eccs) (List.range k)

/-- A movement from another module starts (R394). -/
def State.dmaFetch (s : State) (f r : Nat) (j : Job) : State :=
  match s.msgRefusal 0 (s.dmaRead f j 0) true with
  | some why => (s.msgRefused 0 (dPart f j.desc) (dField j.desc 16 8) why).jobRefused f r j (why.2.getD Ev.msgRefused)
  | none =>
    (s.jobRuns f r j).each (fun i s => s.addMsg 0 (s.dmaRead f j i) []) (List.range (dmaBlocks (dField j.desc 32 4)))

/-- Why a DMA is refused at dispatch: the code and the address recorded with it (R28, R31, R34, R394, R404, R611). -/
def State.dmaCheck (s : State) (f : Nat) (j : Job) : Option (Nat × Option Nat) :=
  let p := dPart f j.desc
  let a := dField j.desc 16 8
  let b := dField j.desc 24 8
  let ga := bitAt j.desc 288
  let gb := bitAt j.desc 289
  let n := dField j.desc 32 4
  let src := s.sideOf ga a
  let dst := s.sideOf gb b
  let refuse := fun (g : Bool) (x : Nat) => if g then (s.globalRefused x).map fun c => (c, some x) else none
  let reach := fun (x : Side) (y : Nat) (w : Bool) =>
    if x = .here then (s.dmaRefusal f p (y % 2 ^ 48) n w).map fun c => (c, some (y % 2 ^ 48)) else none
  if s.scrubbing p then some (Ev.partScrubbing, none)
  else (refuse ga a).orElse fun _ => (refuse gb b).orElse fun _ =>
    (if (src = .host ∧ dst = .host) ∨ (src = .remote ∧ dst ≠ .here) then some (Ev.dmaSpace, none) else none).orElse fun _ =>
    (reach src a false).orElse fun _ => reach dst b true

/-- A movement's destination address, within this module where it is there. -/
def State.dmaTo (s : State) (j : Job) : Nat :=
  let b := dField j.desc 24 8
  if s.sideOf (bitAt j.desc 289) b = .here then b % 2 ^ 48 else b

/-- A DMA starts (R394): what its destination holds is kept, for the writers that race with it (R42). -/
def State.dmaStart (s : State) (f r : Nat) (j : Job) (data : List Byte) (bad : Option Nat) (eccs : List Ecc) : State :=
  let p := dPart f j.desc
  match s.dmaCheck f j with
  | some (c, some x) => (s.noteP 0 p c [f, x]).jobRefused f r j c
  | some (c, none) => s.jobRefused f r j c
  | none =>
    let src := s.sideOf (bitAt j.desc 288) (dField j.desc 16 8)
    let dst := s.sideOf (bitAt j.desc 289) (dField j.desc 24 8)
    if dst = .remote then (if s.throttled 0 then s else s.dmaSend f r j (decide (src = .host)) data bad eccs)
    else if src = .remote then (if s.throttled 0 then s else s.dmaFetch f r j)
    else
      let x := if dst = .here then s.snapshot (s.dmaTo j) (dField j.desc 32 4) else []
      (s.jobRuns f r j).updRing (ringKey f r) fun q => { q with jobs := updJob j.id (fun y => { y with before := x }) q.jobs }

/-- The end of the J-dies' links behind which a side of a movement stands: SA for host memory and, through its own link, for a
junction bank; a C-die; the L-die of a timetable bank (R15). -/
def Side.stop (x : Side) (a : Nat) : Nat :=
  match x, ownerCdie 0 a 0 with
  | .here, some c => c
  | .here, none => if regionOf a = .bank ∧ (bankOf a).1 < 6 then 4 + (bankOf a).1 else 10
  | _, _ => 10

/-- A movement's bytes may pass its end now: a tile's external port has room (R83, R84), streams leave the memory's path free (R358), or the J-die of a junction bank is ready; and
they take their places there. -/
def State.passEnd (s : State) (x : Side) (a n : Nat) : Option State :=
  if x ≠ .here then some s
  else if regionOf a = .bank ∧ 6 ≤ (bankOf a).1 then (if s.ready (unitDie (bankOf a).1) then some s else none)
  else if s.pathFree a n then some (s.takePort a n)
  else none

/-- `n` bytes go from `a` through SA to `b` now (R15, R16, R394); none where they must wait. -/
def State.dmaPass (s : State) (src dst : Side) (a b n : Nat) : Option State :=
  (s.passEnd src a n).bind fun s => (s.passEnd dst b n).bind fun s =>
    (s.crossOther (src.stop a) 10).bind fun s => s.crossOther 10 (dst.stop b)

/-- Cell `i` of a movement has been moved; the last one completes it. -/
def State.dmaMoved (s : State) (f r : Nat) (j : Job) (i : Nat) : State :=
  if j.moved.length + 1 = (dField j.desc 32 4 + 255) / 256 then s.jobOk f r j 0
  else s.updRing (ringKey f r) fun q => { q with jobs := updJob j.id (fun x => { x with moved := i :: x.moved }) q.jobs }

/-- Cell `i` of a movement between host memory and this module, or within it (R42, R85, R361, R367, R394, R611): `data` are the host's
bytes there, `bad` the byte of the cell at which the host's access fails, `ecc` how a read of the module's memory comes out. -/
def State.dmaCell (s : State) (f r : Nat) (j : Job) (i : Nat) (data : List Byte) (bad : Option Nat) (ecc : Ecc) : State :=
  let p := dPart f j.desc
  let n := dField j.desc 32 4
  let src := s.sideOf (bitAt j.desc 288) (dField j.desc 16 8)
  let dst := s.sideOf (bitAt j.desc 289) (dField j.desc 24 8)
  let o := 256 * i
  let k := Nat.min 256 (n - o)
  let a := (if src = .here then dField j.desc 16 8 % 2 ^ 48 else dField j.desc 16 8) + o
  let b := s.dmaTo j + o
  let toBank := dst = .here && regionOf b = .bank
  if n ≤ o ∨ j.moved.contains i = true then s
  else if toBank && !s.bankOpen b then (s.noteP 0 p Ev.ttActiveWrite [f, b]).jobFailed f r j Ev.ttActiveWrite o 0
  else
    match s.dmaPass src dst a b k with
    | none => s
    | some s =>
      match (if src = .host ∨ dst = .host then bad else none) with
      | some x =>
        let x := Nat.min x (k - 1)
        (s.hostError f p ((if src = .host then a else b) + x)).jobFailed f r j Ev.hostAccessError (o + x) 0
      | none =>
        let (s, ecc) := if src = .here then s.readAt f a k ecc 1 else (s, .ok)
        match ecc with
        | .ue w => s.jobFailed f r j (readCode a) (o + Nat.min (8 * (w.toNat % 32)) (k - 1)) 0
        | _ =>
          let bs := if src = .here then s.liveBytes a k else takeBytes k data
          let s := if src = .host then s.reachHost f a k else s
          let s := if dst = .here then (s.countAccess f true b k).raceWrite (whoJob f r j.id) j.before b bs else s.toHost f b bs
          (if toBank then s.checkSame (bankOf b).1 else s).dmaMoved f r j i

/-- DMA (R26, R41, R374, R394, R611): movement `n` of a ring that has not finished starts, or, where it runs, moves its cell `i`, or times
out. `data` is what the host holds there (at the start of a movement to another module, at SRC); `bad` the byte at which the host's
access fails; `eccs` how reads of the module's memory come out. -/
def execDma (f : Fin 17) (r : Fin 4) (n : Fin 64) (i : BitVec 24) (data : List Byte) (bad : Option W32) (eccs : List Ecc) (s : State) :
    Res :=
  s.act <|
    match ((s.ring (ringKey f r)).jobs.filter fun j => dOpc j.desc == 8 && decide (j.phase ≤ 1))[n.val]? with
    | none => s
    | some j =>
      if j.phase = 0 then s.dmaStart f r j data (bad.map (·.toNat)) eccs
      else if s.sideOf (bitAt j.desc 289) (dField j.desc 24 8) = .remote then s
      else if s.sideOf (bitAt j.desc 288) (dField j.desc 16 8) = .remote then
        (if j.begun + s.lifetime * 4096 < s.clk then s.finishJob f r j.id 3 Ev.dmaReadTimeout 0 j.d1 0 else s)
      else s.dmaCell f r j i.toNat data (bad.map (·.toNat)) (eccs.headD .ok)

/-! ## CHECKPOINT (R397) -/

/-- The header and the tokens of a save. -/
def State.ckptHead (s : State) (p : Nat) : List Byte :=
  let ks := s.tokensOf p
  bytesLE 4096 (1 + atByte 2 2 (s.quarters p) + atByte 4 2 (ks.length / 256) + atByte 8 8 s.now + atByte 16 32 (s.activeDigest p)) ++
    ks.flatMap fun k => bytesLE 4 (s.token k).val.toNat

/-- Quarters in a mask. -/
def quarterCount (m : Nat) : Nat := ((List.range 16).filter fun q => m.testBit q).length

/-- Why a checkpoint is refused. -/
def State.ckptRefusal (s : State) (f p : Nat) (j : Job) (head : List Byte) : Option (Nat × Option Nat) :=
  let restore := bitAt j.desc 192
  let global := bitAt j.desc 193
  let a := dField j.desc 16 8
  let n := 4096 + 4 * (s.tokensOf p).length + 0x800000 * (s.tilesOf p).length
  if s.dumping p then some (Ev.dumpBusy, none)
  else if s.scrubbing p then some (Ev.partScrubbing, none)
  else if restore ∧ s.contextLost p then some (Ev.partContextLost, none)
  else if s.partView p = 3 ∨ s.rotaRuns p = true then some (Ev.ckptState, none)
  else (if global then (s.globalRefused a).map fun c => (c, some a) else none).orElse fun _ =>
    (if global ∧ s.isLocal a = false then some (Ev.dmaSpace, none) else none).orElse fun _ =>
    (if global then (s.dmaRefusal f p (a % 2 ^ 48) n (!restore)).map fun c => (c, some (a % 2 ^ 48)) else none).orElse fun _ =>
    (if restore ∧ (quarterCount (field head 2 2) ≠ quarterCount (s.quarters p) ∨ field head 16 32 ≠ s.activeDigest p) then
      some (Ev.ckptShape, none) else none)

/-- Bytes of a checkpoint of partition `p` before its tiles' SRAM. -/
def State.ckptSize (s : State) (p : Nat) : Nat := 4096 + 4 * (s.tokensOf p).length

/-- What a checkpoint reads of the module: its tiles' SRAM, or the save. -/
def State.ckptReads (s : State) (p a : Nat) (restore global : Bool) : List (Nat × Nat) :=
  let ts := s.tilesOf p
  if restore = false then ts.map fun t => (tileAddr t 0, 0x800000)
  else if global then [(a, s.ckptSize p + 0x800000 * ts.length)]
  else []

/-- What a checkpoint writes of the module: its save, or its tiles' SRAM. -/
def State.ckptWrites (s : State) (p a : Nat) (restore global : Bool) : List (Nat × Nat) :=
  let ts := s.tilesOf p
  if restore then ts.map fun t => (tileAddr t 0, 0x800000)
  else if global then [(a, s.ckptSize p + 0x800000 * ts.length)]
  else []

/-- A save is written at `a`, by writer `who`. -/
def State.ckptSave (s : State) (who f p a : Nat) (global : Bool) : State :=
  let head := s.ckptHead p
  let ts := s.tilesOf p
  let b := a + head.length
  if global then
    ((s.countAccess f true a (head.length + 0x800000 * ts.length)).liveBy who a (head.length + 0x800000 * ts.length) fun s =>
      (s.setLive a head).each
        (fun (x : Nat × Nat) s => s.copyLive (tileAddr x.1 0) (b + 0x800000 * x.2) 0x800000) ts.zipIdx)
  else
    (s.toHost f a head).each (fun (x : Nat × Nat) s => s.toHost f (b + 0x800000 * x.2) (s.bytes (tileAddr x.1 0) 0x800000)) ts.zipIdx

/-- Tokens take the values of a save. -/
def State.ckptTokenSet (s : State) (p : Nat) (bs : List Byte) : State :=
  s.each (fun (x : Nat × Nat) s => s.setToken x.1 { val := BitVec.ofNat 32 (field bs (4096 + 4 * x.2) 4) }) (s.tokensOf p).zipIdx

/-- A restore from `a`, or from the host's bytes, by writer `who`. -/
def State.ckptRestore (s : State) (who p a : Nat) (global : Bool) (data : List Byte) : State :=
  let n := s.ckptSize p
  let ts := s.tilesOf p
  if global then
    (s.ckptTokenSet p (s.liveBytes a n)).each
      (fun (x : Nat × Nat) s => s.writeBy who (tileAddr x.1 0) 0x800000 fun s =>
        s.copyLive (a + n + 0x800000 * x.2) (tileAddr x.1 0) 0x800000) ts.zipIdx
  else
    (s.ckptTokenSet p data).each
      (fun (x : Nat × Nat) s => s.writeBy who (tileAddr x.1 0) 0x800000 fun s =>
        s.setBytes (tileAddr x.1 0) (takeBytes 0x800000 (data.drop (n + 0x800000 * x.2)))) ts.zipIdx

/-- CHECKPOINT (R367, R374, R397, R404, R417, R505): `data` is what the host holds at ADDR; `hostBad` a host address whose access fails, `bad` an
address whose read is uncorrectable, `fixed` the corrected ones. -/
def execCheckpoint (f : Fin 17) (r : Fin 4) (data : List Byte) (hostBad bad : Option W64) (fixed : List (W64 × Bool)) (s : State) : Res :=
  s.act <|
    match s.jobOf f r 0x10 with
    | none => s
    | some j =>
      let p := dPart f j.desc
      let restore := bitAt j.desc 192
      let global := bitAt j.desc 193
      let a := if global then dField j.desc 16 8 % 2 ^ 48 else dField j.desc 16 8
      let data := takeBytes (s.ckptSize p + 0x800000 * (s.tilesOf p).length) data
      match s.ckptRefusal f p j (if global then s.liveBytes a 4096 else data) with
      | some (c, some x) => (s.noteP 0 p c [f, x]).jobRefused f r j c
      | some (c, none) => s.jobRefused f r j c
      | none =>
        match s.bulk (s.ckptReads p a restore global) (s.ckptWrites p a restore global) [] with
        | none => s
        | some s =>
          match (if global then none else hostBad) with
          | some x => (s.hostError f p x.toNat).jobFailed f r j Ev.hostAccessError 0 0
          | none =>
            let rs := s.ckptReads p a restore global
            let s := s.readRanges f rs fixed 1
            match s.badAt rs bad with
            | some x => (s.readError x (.ue 0) 1).jobFailed f r j (readCode x) 0 0
            | none =>
              let s := if restore ∧ global = false then s.reachHost f a (s.ckptSize p + 0x800000 * (s.tilesOf p).length) else s
              (if restore then s.ckptRestore (whoJob f r j.id) p a global data else s.ckptSave (whoJob f r j.id) f p a global).jobOk f r j 0

end Sys2Proof.Machine
end

