-- ==== Sys2Proof/Machine/Monitors.lean ====
section
/-!
DEFINITION. Frame starts, droop and clock stretching, ageing and the margin plan (R46, R74, R454, R518 to R523).
-/
namespace Sys2Proof.Machine
open Sys2Proof

/-! ## Replicas (R46) -/

/-- A die's replica differed from SB's count (R46): the record, and what SA does by the kind of die. A port that is neither in UP nor in
IDENTIFY has no siding to enter. -/
def State.replicaMismatch (s : State) (d : Nat) (found : W64) : State :=
  let ps := if d ≤ 1 ∨ (10 ≤ d ∧ d ≤ 15) then [] else s.partsUsing d
  let s := s.report { code := Ev.ftcReplicaMismatch, die := d, items := [d, s.now, found.toNat], flags := if ps = [] then 0 else 2
                      stops := ps.map fun p => ⟨p, Ev.ftcReplicaMismatch, .fault⟩ }
  if 10 ≤ d ∧ d ≤ 15 ∧ (s.linkState (d - 10) = 2 ∨ s.linkState (d - 10) = 4) then s.portSiding (d - 10) else s

/-! ## Droop (R518, R519) -/

/-- Core cycles removed for a measured margin below DROOP_CTRL.THRESH, in delay-line steps (R518); 0: no firing. -/
def droopCycles (thresh margin : Nat) : Nat :=
  if 4 * margin < thresh then 4 else if 2 * margin < thresh then 2 else if margin < thresh then 1 else 0

/-- DROOP_FIRE (R518): a detector of C-die `c` measures `margin`; a firing during a removal extends it. -/
def execDroopFire (c : Fin 4) (margin : BitVec 8) (s : State) : Res :=
  s.act <|
    if s.coreRuns c then
      let z : Nat → Nat := fun _ => 0
      let n := droopCycles (s.rf (Reg.cnDroopCtrl c) 0 8) margin.toNat
      let owed := SMap.get z s.mon.owed c
      let total := if owed = 0 then 0 else SMap.get z s.mon.total c
      if total < n then
        (s.withMon { s.mon with
            owed := SMap.set z s.mon.owed c (owed + (n - total))
            total := SMap.set z s.mon.total c n })
      else s
    else s

/-- DROOP_SUSTAINED (R519): the cycles removed in a window of 312,500 ticks are judged against the core cycles it held. -/
def execDroopSustained (c : Fin 4) (s : State) : Res :=
  s.act <|
    if s.now % 312500 ≠ 0 then s
    else
      let z : Nat → Nat := fun _ => 0
      let n := SMap.get z s.mon.removed c
      let all := SMap.get z s.mon.cycles c
      let s := s.withMon { s.mon with removed := SMap.set z s.mon.removed c 0, cycles := SMap.set z s.mon.cycles c 0 }
      if all < 16 * n then
        (s.report { code := Ev.droopSustained, die := cDie c, items := [c, n], unit := c, every := 3125000 }).hwSet Reg.saMarginCtrl 2
      else s

/-! ## The margin plan (R521 to R523) -/

/-- A plan awaits commit. -/
def State.planPending (s : State) : Bool := s.mon.pending.isSome

/-- A re-plan starts. -/
def State.startPlan (s : State) : State := s.withMon { s.mon with planBusy := true, planAt := s.clk }

/-- REPLAN (R522): a write of MARGIN_CTRL, or (`byHours`) 1,000 operating hours more; the latter is refused nothing, and waits for a
re-plan that runs. -/
def execReplan (byHours : Bool) (i : Iface) (v : W32) (s : State) : Res :=
  s.act <|
    if byHours then
      let h := s.rf Reg.saOperHours 0 32
      (if h % 1000 = 0 ∧ h ≠ s.prot.planHours then
        let s := s.withProt { s.prot with planHours := h }
        if s.mon.planBusy then s.withMon { s.mon with planDue := true } else s.startPlan
       else s)
    else s.regWrite i Reg.saMarginCtrl false fun s =>
      let s := s.write32 Reg.saMarginCtrl v
      if bitAt v 0 then
        (if s.mon.planBusy || s.planPending then s.note 0 Ev.marginPlanBusy [] else s.startPlan)
      else s

/-- Slowdown of die `d` in ppm: the canaries, cross-checked against the pairs that only C-dies carry (R520). -/
def slowdown (d canary pair : Nat) : Nat × Bool :=
  if d < 2 ∨ 5 < d then (canary, false)
  else if 10000 < canary - pair ∨ 10000 < pair - canary then (Nat.max canary pair, true) else (canary, false)

/-- Limit of a C-die level in mV (R522). -/
def levelLimit (l : Nat) : Nat := [900, 840, 800, 720].getD l 720

/-- The plan's word of die `d` for a slowdown of `ppm` (R522, step 2 and 3): C-dies at four levels, the others at one. -/
def State.newPlan (s : State) (d ppm : Nat) : W64 :=
  let dv := (ppm + 2499) / 2500 * 5
  let v (l : Nat) : Nat := Nat.max (s.planVolt d l) (baseVolt d l + dv)
  if 2 ≤ d ∧ d ≤ 5 then BitVec.ofNat 64 (v 0 + v 1 * 2 ^ 16 + v 2 * 2 ^ 32 + v 3 * 2 ^ 48)
  else BitVec.ofNat 64 (v 0)

/-- Canaries of a die, and ring-oscillator pairs (R520). -/
def canaries (d : Nat) : Nat := if 2 ≤ d ∧ d ≤ 5 then 32 else 4

/-- The slowdown that a die's monitors show (R520): of its canaries in ppm of their fused baselines the largest, of its 16 pairs the largest
by which the oscillator at rest is faster than the stressed one, in ppm (log 104). -/
def ageSlowdown (d : Nat) (x : AgeingRead) : Nat × Bool :=
  slowdown d (((x.canaries.take (canaries d)).map (·.toNat)).foldl Nat.max 0)
    (((x.pairs.take 16).map fun y => (y.2.toNat - y.1.toNat) * 1000000 / y.1.toNat).foldl Nat.max 0)

/-- MARGIN_PLAN_READY (R520, R522): the re-plan finishes after 100 ms; `reads` gives by die what its canaries and pairs read. -/
def execMarginPlanReady (reads : List AgeingRead) (s : State) : Res :=
  s.act <|
    if s.mon.planBusy = false ∨ s.clk < s.mon.planAt + 312500000 then s
    else
      let at_ (d : Nat) : Nat × Bool := ageSlowdown d (reads.getD d { canaries := [], pairs := [] })
      let s := s.each (fun d s => if (at_ d).2 then s.note 0 Ev.ageingMonitorDisagree [d] else s) (List.range 32)
      let s := s.each (fun c s => s.wf (Reg.cnAgeing c) 0 32 (at_ (cDie c)).1) (List.range 4)
      let plan := (List.range 32).map fun d => s.newPlan d (at_ d).1
      let cut := (List.range 4).filter fun l =>
        s.withdrawn l || (List.range 4).any fun c => decide (levelLimit l < fld (plan.getD (cDie c) 0) (16 * l) 16)
      let s := s.each (fun d s =>
        if (d < 2 ∨ 5 < d) ∧ 850 < fld (plan.getD d 0) 0 16 then s.note 0 Ev.marginDieLimit [d] else s) (List.range 32)
      let s := (s.withMon { s.mon with
        planBusy := s.mon.planDue
        planAt := s.clk
        planDue := false
        pending := some (plan, (cut.map fun l => 2 ^ l).foldl (· + ·) 0)
        pendingSince := s.clk
        pendLogged := 0
        planTxn := none })
      (s.wf Reg.saMarginCtrl 2 1 1).note 0 Ev.marginPlanReady []

/-- A pending plan commits (R523): withdrawals take effect under R493 and R435, and every rail moves. -/
def State.commitPlan (s : State) (plan : List W64) (cut : Nat) : State :=
  let s := s.withMon { s.mon with pending := none, planTxn := none }
  let s := (s.wf Reg.saMarginCtrl 2 1 0).each (fun d s => s.w (Reg.saMarginPlan d) (plan.getD d 0)) (List.range 32)
  let s := (s.wf Reg.sbPlStatus 8 4 cut).storePlan
  let s := s.invalidate (fun im => (List.range (imageFloor (some im) + 1)).all fun l => bitAt (BitVec.ofNat 4 cut) l) Ev.imageFloorUnavailable
  let s := s.each (fun d s => if (d < 2 ∨ 5 < d) ∧ 850 < fld (plan.getD d 0) 0 16 then s.chainFailed d 8 else s) (List.range 32)
  let s := s.each (fun d s =>
    if s.ready d then s.avsAsk 2 (dieRail d) (s.planVolt d (if 2 ≤ d ∧ d ≤ 5 then s.level else 0)) else s) (List.range 32)
  s.retarget 5

/-- MARGIN_PLAN_PENDING (R523): a plan pending for more than 168 h is recorded once every 24 h. -/
def execMarginPlanPending (s : State) : Res :=
  s.act <|
    if s.planPending ∧ s.mon.pendingSince + 168 * operHour < s.clk ∧
        (s.mon.pendLogged = 0 ∨ s.mon.pendLogged + 24 * operHour ≤ s.clk) then
      (s.withMon { s.mon with pendLogged := s.clk }).note 0 Ev.marginPlanPending []
    else s

/-! ## Frame starts -/

/-- SA arms the pending plan as a configuration transaction of MODE IDLE, where the engine has no open one and room for another (R523, R526,
R531): an entry for each word of the plan. -/
def State.armPlan (s : State) : State :=
  match s.mon.pending with
  | none => s
  | some (plan, _) =>
    if s.txn.isSome ∨ 4 ≤ s.armedTxns.length ∨ (s.armedTxns.any fun t => s.mon.planTxn == some t.id) = true then s
    else
      let n := (s.prot.txnId + 1) % 65536
      let t : Txn := { id := n, owner := 0, mode := 2, touched := s.clk
                       entries := (List.range 32).map fun d => { addr := 0x300000700100 + 8 * d, wide := true, data := plan.getD d 0 } }
      (((s.withProt { s.prot with txnId := n }).withMon { s.mon with planTxn := some n }).withArmedTxns (s.armedTxns ++ [t])).note 0
        Ev.txnCommitted [n, 32, 0, 0]

/-- FRAME_START (R46, R74, R454, R523): the replicas found to differ, the latches of LCT and FTC, an ENABLE of lock-step that has
been cleared while the partition runs, and a pending margin plan that waits to be armed. -/
def execFrameStart (bad : List (Fin 32 × W64)) (s : State) : Res :=
  s.act <|
    if s.now % 4096 ≠ 0 then s
    else
      let s := s.each (fun (b : Fin 32 × W64) s => if b.2.toNat = s.now ∨ (1 < b.1.val ∧ (s.die b.1.val).powered = false) then s else s.replicaMismatch b.1.val b.2) bad
      let s := s.each (fun c s =>
        if s.ready (cDie c) then (s.w (Reg.cnLctAtFrame c) (s.r (Reg.cnLct c))).w (Reg.cnFtcAtFrame c) (s.r Reg.sbFtc)
        else s) [0, 1, 2, 3]
      let s := s.each (fun p s =>
        if s.lsState p ≠ 0 ∧ s.rf (Reg.saLsCtrl p) 0 1 = 0 ∧ (s.partState p = 3 ∨ s.partState p = 4) then s.wf (Reg.saLsStatus p) 0 2 0 else s) (List.range 16)
      (s.withTime { s.time with frameSec := s.r Reg.sbWtbSec, frameNs := s.time.wtbNs }).armPlan

end Sys2Proof.Machine
end

