-- ==== Sys2Proof/Machine/Sleep.lean ====
section
/-!
DEFINITION. Module states M0 to M3 and Off, the retention store and the wake sources (R496 to R501, R504, R505, R604).
-/
namespace Sys2Proof.Machine
open Sys2Proof

/-! ## Requests and entry (R497) -/

/-- PM_REQUEST_WRITE (R497, R499): a write of STATE 0, over I3C or PCIe, is the wake source MGMT. -/
def execPmRequestWrite (i : Iface) (v : W32) (s : State) : Res :=
  s.act <|
    let mgmt := fld v 0 3 = 0 ∧ i ≠ .sa ∧ s.offline i = false ∧ s.regDenied i Reg.saPmRequest true false = none
    let s := if mgmt then s.wakeBy 2 else s
    s.regWrite i Reg.saPmRequest false fun s => s.write32 Reg.saPmRequest v

/-- A command of one of the kinds of R497's reason 3 is in flight. -/
def heavyJob (j : Job) : Bool :=
  j.phase ≠ 2 && [1, 3, 8, 0x10, 0x13].contains (fld j.desc 0 8)

/-- A grant runs: some walker of it has restarted and is neither parked nor stopped (R423). -/
def State.grantRuns (s : State) (g : Nat) : Bool :=
  walkUnits.any fun uk => (s.walker (walkKey uk.1 (16 + g) uk.2)).state == 1

/-- The first reason for which state `k` may not be entered (R497). -/
def State.entryRefused (s : State) (k : Nat) : Option Nat :=
  if s.jobActive then some 1
  else if 2 ≤ k ∧ ([1, 2, 3, 4].any fun u => (s.inj u).msgs ≠ [] || (s.inj u).cells ≠ []) = true then some 2
  else if 2 ≤ k ∧ (s.rings.any fun r => r.2.jobs.any heavyJob) = true then some 3
  else if 3 ≤ k ∧ (((List.range 16).drop 1).any s.grantRuns) = true then some 4
  else if s.power.resets ≠ [] then some 5
  else none

/-- WAITM (R497): SA firmware's wait instruction. -/
def execWaitm (s : State) : Res :=
  s.act <|
    let k := s.rf Reg.saModulePmode 0 3
    if k = 0 ∨ 5 ≤ k ∨ s.asleep = true ∨ s.power.down = true ∨ s.power.trip = true then s
    else
      match s.entryRefused k with
      | some r => (s.wf Reg.saModulePmode 0 3 0).note 0 Ev.pmEntryRefused [k, r]
      | none => (s.withPower { s.power with entering := some k })

/-! ## The retention store (R504, R505) -/

/-- The bank that holds a register for an entry into state `k`, if any. -/
def retentionBank (k key : Nat) : Option Nat :=
  let w := key / 0x1000000
  let o := key % 0x1000000
  if 4 ≤ w ∧ w ≤ 7 then
    if o = 0x200 ∨ (0x300 ≤ o ∧ o < 0x340) ∨ (0x220 ≤ o ∧ o < 0x230) ∨ o = 0x504 ∨ (0x100 ≤ o ∧ o < 0x160) then some (2 * (w - 4))
    else if o = 0x40 ∨ o = 0x58 then some (2 * (w - 4) + 1)
    else none
  else if 32 ≤ w ∧ w ≤ 47 then
    if o = 0x300 ∨ o = 0x304 ∨ (0x204 ≤ o ∧ o < 0x214) ∨ (0x244 ≤ o ∧ o < 0x254) then some (8 + (w - 32)) else none
  else if k = 3 ∧ 16 ≤ w ∧ w ≤ 21 then (if portKept o then some (24 + (w - 16)) else none)
  else if k = 3 ∧ 8 ≤ w ∧ w ≤ 11 then (if o = 0x120 then some (30 + (w - 8)) else none)
  else none

/-- The banks SA saves for state `k`. -/
def savedBanks (k : Nat) : Nat := if k = 2 then 2 ^ 24 - 1 else if k = 3 then 2 ^ 34 - 1 else 0

/-- The dies that lose power in state `k` (R496). -/
def sleepDies (k : Nat) : List Nat := if k = 2 then [2, 3, 4, 5] ++ (List.range 16).map mDie else (List.range 32).drop 2

/-- What a die's window keeps while it is off: the row map's SKIP_SITE and the keepers' stack status (R510). -/
def keepOff (w o : Nat) : Bool :=
  (4 ≤ w && w ≤ 7 && 0x100 ≤ o && o < 0x160) || (32 ≤ w && w ≤ 47 && (o == 0x200 || o == 0x240)) || (16 ≤ w && w ≤ 21 && o == 0x1004)

/-- The words of a stack's repair tracker, counters and scrub position as its M-die's bank holds them, in an order of the model (R504; log
103). -/
def Stack.words (x : Stack) : List Nat :=
  [x.rows.length] ++ (x.rows.flatMap fun y => [y.1, y.2]) ++ [x.cands.length] ++ x.cands ++
    [x.refreshes, x.scrubAt, x.scrubStart, b2n x.scrubLogged]

/-- Consecutive words as pairs. -/
def twos : List Nat → List (Nat × Nat)
  | a :: b :: xs => (a, b) :: twos xs
  | _ => []

/-- A stack read back from the head of a bank's words, and the words after it; its soft repairs stand in the stack itself. -/
def takeStack (soft : List Nat) (ws : List Nat) : Stack × List Nat :=
  let n := ws.headD 0
  let rows := (twos ((ws.drop 1).take (2 * n))).foldl (fun m y => SMap.set (fun _ => 0) m y.1 y.2) []
  let ws := ws.drop (1 + 2 * n)
  let m := ws.headD 0
  let cands := (ws.drop 1).take m
  let ws := ws.drop (1 + m)
  ({ rows := rows, cands := cands, soft := soft, refreshes := ws.getD 0 0, scrubAt := ws.getD 1 0, scrubStart := ws.getD 2 0
     scrubLogged := ws.getD 3 0 == 1 }, ws.drop 4)

/-- The contents of bank `b` as SA saves it for state `k` (R504): an M-die's trackers, then each register of the bank that differs from its
reset value, with its key; 8 bytes each. -/
def State.bankData (s : State) (k b : Nat) : List Byte :=
  let head := if 8 ≤ b ∧ b < 24 then (s.stack (2 * (b - 8))).words ++ (s.stack (2 * (b - 8) + 1)).words else []
  let regs := (s.regs.filter fun (x : Nat × W64) => retentionBank k x.1 == some b).flatMap fun (x : Nat × W64) => [x.1, x.2.toNat]
  (head ++ regs).flatMap fun w => bytesLE 8 w

/-- The words of a bank's contents. -/
def bankWords : Nat → List Byte → List Nat
  | 0, _ => []
  | _, [] => []
  | n + 1, bs => ofBytesLE (bs.take 8) :: bankWords n (bs.drop 8)

/-- SA saves the banks of the dies that state `k` powers down, each with its signature (R498, R504); SA firmware's own stay (R504). -/
def State.saveBanks (s : State) (k : Nat) : State :=
  let own := SMap.keep (fun b => decide (34 ≤ b)) s.power.retain
  let bs := (List.range 34).filter fun b => savedBanks k / 2 ^ b % 2 = 1
  s.withPower { s.power with retain := bs.foldl (fun m b =>
    let d := s.bankData k b
    SMap.set (fun _ => ({} : Bank)) m b { data := d, sig := crc32 d }) own }

/-- Steps 3 to 7 of the entry into M2, M3 or Off (R498, R502, R510): the banks are saved, the stacks go to self-refresh, the ports go DOWN,
the dies are clamped, and SB's walk down begins. -/
def State.beginOff (s : State) (k : Nat) (writeOk : BitVec 6) : State :=
  let s := s.saveBanks k
  let s := s.each (fun n s => if bitAt (s.r (stackReg n)) 1 then s else s.wf (stackReg n) 2 1 1) (List.range 32)
  let s := if k = 2 then s
    else
      let s := s.each (fun p s => ((s.addHours p 1 (bitAt writeOk p)).cableOff p).clearPort p) (List.range 6)
      let s := if s.timeState = 0 then s else s.setTimeState 0
      (s.zeroMem (portBank 0 false) 0x6000000).zeroMem (junctionBank 0 false) 0x4000000
  let s := s.clearCompute true (k == 2)
  let s := s.each (fun p s => ((s.dropBinds p).setPart p { ({} : Part) with binds := ((s.dropBinds p).part p).binds }).setPartState p 0)
    (List.range 16)
  let s := s.each (fun c s => s.traceStops c false) [0, 1, 2, 3]
  let walk := (offOrder (if k = 2 then 12 else 2)).filter fun d => (s.die d).powered
  let s := s.each (fun d s => (((s.isolate d).dropWindow (windowOf d) (keepOff (windowOf d))).setTrq d []).updDie d fun x =>
    { x with queue := [], dropped := 0, stops := [] }) (sleepDies k)
  s.withPower { s.power with begun := true, offWalk := walk, offAt := s.clk }

/-- PM_ENTERED (R498, R501): SB has no level change in progress, and the entry under way comes to its powering down; once no die is left to
be powered down it completes (log 103). `writeOk`: the cables whose on-hours were written. -/
def execPmEntered (writeOk : BitVec 6) (s : State) : Res :=
  s.act <|
    match s.power.entering with
    | none => s
    | some k =>
      if s.power.change ≠ none then s
      else if 2 ≤ k ∧ s.power.begun = false then s.beginOff k writeOk
      else if s.power.offWalk ≠ [] then s
      else
        let s := s.note 0 Ev.pmEntered [k, s.now]
        let s := s.withPower { s.power with entering := none, begun := false, mode := k, pgAt := s.clk }
        if k = 4 then
          ((((s.w Reg.saStackActive 0).withPins { s.pins with hbmEn := 0, railEn := 0 }).withPower
            { s.power with retain := [], avs := [], down := true }).withPcieUp false)
        else s

/-! ## Waking (R498, R499, R505) -/

/-- The partitions that bank `b` marks context-lost (R505): for a port those with a permission slot in the bank as it was saved. -/
def State.lostParts (s : State) (b : Nat) : List Nat :=
  let z : Nat → Bank := fun _ => {}
  let d := (SMap.get z s.power.retain b).data
  let slot := fun (o : Nat) => (twos (bankWords (d.length / 8) d)).any fun x =>
    decide (0x8000 ≤ x.1 % 0x1000000) && (List.range 4).any fun i => x.2 / 2 ^ (8 * i) % 32 == o
  (List.range 16).filter fun p =>
    if b < 8 then b % 2 == 0 && decide (s.quarters p / 16 ^ (b / 2) % 16 ≠ 0)
    else if b < 24 then s.hasQuarter p (b - 8)
    else if b < 30 then slot (p + 1)
    else false

/-- A bank whose signature failed (R505). -/
def State.bankFailed (s : State) (b : Nat) : State :=
  let s := s.each (fun p s => s.wf (Reg.saPartStatus p) 12 1 1) (s.lostParts b)
  let s := s.note 0 Ev.retentionBankFailed [b]
  if b < 8 ∧ b % 2 = 0 then
    s.each (fun r s =>
      let k := Reg.cnRowMap (b / 2) r
      let f := SMap.get (fun _ => 8) s.prot.rowFuses (b / 2 * 24 + r)
      (s.wf k 4 4 f).wf k 8 1 (b2n (decide (f ≠ s.rf k 0 4)))) (List.range 24)
  else if 8 ≤ b ∧ b < 24 then
    s.each (fun k s => s.updStack k fun x => { ({} : Stack) with soft := x.soft }) [2 * (b - 8), 2 * (b - 8) + 1]
  else if 24 ≤ b ∧ b < 30 then s.updPort (b - 24) fun x => { x with expectLost := true }
  else s

/-- What a good bank holds goes back to its unit (R498, R504). -/
def State.restoreBank (s : State) (b : Nat) (data : List Byte) : State :=
  let ws := bankWords (data.length / 8) data
  if 34 ≤ b then s
  else if 8 ≤ b ∧ b < 24 then
    let k := 2 * (b - 8)
    let x := takeStack (s.stack k).soft ws
    let y := takeStack (s.stack (k + 1)).soft x.2
    ((s.setStack k x.1).setStack (k + 1) y.1).each (fun r s => s.w r.1 (BitVec.ofNat 64 r.2)) (twos y.2)
  else s.each (fun r s => s.w r.1 (BitVec.ofNat 64 r.2)) (twos ws)

/-- SA restores the retention banks (R498, R504, R505): each as the store reads it back, `reads` giving those that differ from what was
written; one whose CRC-32 is not its signature has failed. -/
def State.restoreBanks (s : State) (reads : List (Fin 64 × List Byte)) : State :=
  let got := fun (x : Nat × Bank) => match reads.find? fun r => r.1.val == x.1 with
    | some r => r.2
    | none => x.2.data
  let bad := s.power.retain.filter fun x => crc32 (got x) != x.2.sig
  let s := s.each (fun x s => if bad.contains x then s.bankFailed x.1 else s.restoreBank x.1 (got x)) s.power.retain
  let s := s.w Reg.saWakeRecord (BitVec.ofNat 64 ((bad.map fun x => 2 ^ x.1).foldl (· + ·) 0))
  s.withPower { s.power with retain := SMap.keep (fun b => decide (34 ≤ b)) s.power.retain }

/-- The dies of the sleep state are up again, or failed. -/
def State.awake (s : State) : Bool :=
  s.power.mode == 1 || (sleepDies s.power.mode).all fun d => s.ready d || bitAt (s.r Reg.saDieFailed) d

/-- MODULE_WAKE (R498, R499, R504, R505, R509): the wake completes once every die is up; `reads`: the retention banks that read back
otherwise than they were written. Resets asked for meanwhile are then performed. -/
def execModuleWake (reads : List (Fin 64 × List Byte)) (boot : BitVec 4) (s : State) : Res :=
  s.act <|
    match s.power.wake with
    | none => s
    | some (code, during) =>
      let k := s.power.mode
      if s.power.entering ≠ none ∨ k = 0 ∨ 4 ≤ k ∨ s.awake = false then s
      else
        let s := if k = 1 then s.w Reg.saWakeRecord 0
          else
            let s := s.restoreBanks reads
            (s.wf Reg.sbPlStatus 0 2 3).noteLevel 3
        let s := s.w Reg.saLastWakeSource (BitVec.ofNat 64 (code + k * 16 + b2n during * 128))
        let s := s.w Reg.saWakeFtc (s.r Reg.sbFtc)
        let held := s.power.heldResets
        let s := s.withPower { s.power with mode := 0, wake := none, heldResets := [] }
        let s := s.note 0 Ev.pmWoken [k, s.now]
        let s := s.retarget 5
        s.each (fun (r : Nat × Nat) s => if r.1 = 1 then s.coldReset boot else s.requestReset r.1 r.2 boot) held

/-- WAKE_ALARM (R499): the FTC reaches SA.WAKE_ALARM_FTC. -/
def execWakeAlarm (s : State) : Res :=
  s.act <|
    let a := (s.r Reg.saWakeAlarmFtc).toNat
    if a ≠ 0 ∧ a ≤ s.now then s.wakeBy 4 else s

/-- WAKE_PIN (R499, R604): WAKE_N has been low for 1 µs. -/
def execWakePin (s : State) : Res := s.act (if bitAt (s.r Reg.saPmCtrl) 1 then s.wakeBy 6 else s)

/-- ETH_WAKE_FRAME (R499). -/
def execEthWakeFrame (s : State) : Res := s.act (s.wakeBy 3)

/-- PCIE_CONFIGURATION_WRITE (R401, R499, R510): a HOST wake source; during a warm reset it is answered with Configuration Request
Retry Status. `w`: what the write sets in function `f`; a VF that it takes away has no rings any more (R372). -/
def execPcieConfigurationWrite (f : Fin 17) (w : CfgWrite) (s : State) : Res :=
  s.act <|
    let s := ((s.wakeBy 1).withPcieUp true)
    if s.warmBusy then s
    else
      match w with
      | .vfs n => (s.each (fun k s => s.ringsOff k) ((List.range 17).drop (n.val + 1))).withVfs n.val
      | .control relaxed payload => s.updPcieFn f fun x => { x with relaxed := relaxed, payload := payload }
      | .msix enable mask => (s.updPcieFn f fun x => { x with msixOn := enable, msixMask := mask }).firePending f
      | .ats on => (s.updPcieFn f fun x => { x with ats := on }).withAts (if on then s.ats else SMap.keep (fun k => decide (k ≠ f.val)) s.ats)
      | .power d3 => s.updPcieFn f fun x => { x with d3 := d3 }
      | .other => s

end Sys2Proof.Machine
end

