-- ==== Sys2Proof/Machine/Trace.lean ====
section
/-!
DEFINITION. Counter snapshots and the trace units (R543 to R555).
-/
namespace Sys2Proof.Machine
open Sys2Proof

/-! ## Snapshots (R544, R545) -/

/-- The first frame start at or after `t`, or the next one where `t` has passed. -/
def State.snapTick (s : State) (t : Nat) : Nat := if t < s.now then (s.now / 4096 + 1) * 4096 else (t + 4095) / 4096 * 4096

/-- CTR_SNAP_GO (R545): a write of `v` to CTR_SNAP_CMD. -/
def execCtrSnapGo (i : Iface) (v : W32) (s : State) : Res :=
  s.act <| s.regWrite i Reg.saCtrSnapCmd false fun s =>
    if bitAt v 0 then ((s.wf Reg.saCtrSnapStatus 0 1 1).withSnapAt (some (s.snapTick (s.r Reg.saCtrSnapFtc).toNat))) else s

/-- Every counter of R543 with its die. -/
def counters : List (Nat × Nat) :=
  ((List.range 4).flatMap fun c => (List.range 192).flatMap fun t => [(cDie c, Reg.cnTileBusy c t), (cDie c, Reg.cnTileMma c t)]) ++
  ((List.range 6).flatMap fun p => (List.range 4).flatMap fun c => [(lDie p, Reg.lnTxCells p c), (lDie p, Reg.lnRxCells p c)]) ++
  ((List.range 4).flatMap fun j => [(jDie j, Reg.jnJnCellsBooked j), (jDie j, Reg.jnJnCellsOther j)]) ++
  ((List.range 16).flatMap fun m => (List.range 2).flatMap fun k => [(mDie m, Reg.mnHbmRdBytes m k), (mDie m, Reg.mnHbmWrBytes m k)]) ++
  ((List.range 15).drop 1).map fun x => (0, Reg.saErrCount x)

/-- CTR_SNAPSHOT (R544, R545): at the armed frame start every copy, at its counter's offset + 8, takes the counter's value. -/
def execCtrSnapshot (s : State) : Res :=
  s.act <|
    match s.snapAt with
    | none => s
    | some t =>
      if s.now < t then s
      else
        let s := s.each (fun (x : Nat × Nat) s =>
          s.w (x.2 + 8) (if x.1 = 0 ∨ (s.die x.1).powered = true then s.r x.2 else 0)) counters
        let s := ((s.withSnapAt none).w Reg.saCtrSnapAt (BitVec.ofNat 64 s.now)).wf Reg.saCtrSnapStatus 0 1 0
        s.wf Reg.saCtrSnapStatus 32 32 (s.rf Reg.saCtrSnapStatus 32 32 + 1)

/-! ## Writing records (R550 to R554) -/

def State.traceState (s : State) (c : Nat) : Nat := s.rf (Reg.cnTraceStatus c) 0 3
def State.traceHeld (s : State) (c : Nat) : Nat := s.rf (Reg.cnTraceStatus c) 32 32
def State.traceSpills (s : State) (c : Nat) : Bool := bitAt (s.r (Reg.cnTraceCtrl c)) 3
def State.traceMode (s : State) (c : Nat) : Nat := s.rf (Reg.cnTraceCtrl c) 1 2

/-- CAP (R551): records the unit holds. -/
def State.traceCap (s : State) (c : Nat) : Nat :=
  if s.traceSpills c then s.rf (Reg.cnTraceSpillLen c) 0 48 / 32 else 524288

/-- One more dropped record in the half at bit `lo` of a drop counter, and its source's GAP (R550). -/
def State.dropRecord (s : State) (c k lo : Nat) (r : BitVec 256) : State :=
  (s.wf k lo 32 (satInc32 (s.rf k lo 32))).traceLost c (traceSource r)

/-- The record `r` takes its place at the write index; whether it did, and where (R551, R554). In FILL the record at index CAP − 1 makes
STATE FULL (log 85). -/
def State.placeRecord (s : State) (c : Nat) (r : BitVec 256) : Option Nat × State :=
  let t := s.tr c
  let cap := s.traceCap c
  let ring := decide (2 ≤ s.traceMode c)
  if s.traceState c = 3 ∨ t.postLeft = some 0 then
    (none, (s.dropRecord c (Reg.cnTraceLost c) 32 r).wf (Reg.cnTraceStatus c) 0 3 3)
  else if ring = false ∧ cap ≤ s.traceHeld c then
    (none, s.dropRecord c (Reg.cnTraceDropped c) 32 r)
  else if s.traceSpills c ∧ 524288 ≤ t.staged.length then (none, s.dropRecord c (Reg.cnTraceLost c) 0 r)
  else
    let i := t.writeIdx
    let t' := if s.traceSpills c then { t with staged := t.staged ++ [r] }
      else { t with sram := SMap.set (fun _ => (0 : BitVec 256)) t.sram i r }
    let s := s.setTr c { t' with writeIdx := (i + 1) % cap, postLeft := t.postLeft.map fun n => n - 1 }
    let s := if cap ≤ s.traceHeld c then s.wf (Reg.cnTraceStatus c) 4 1 1
      else s.wf (Reg.cnTraceStatus c) 32 32 (s.traceHeld c + 1)
    let s := if ring = false ∧ cap ≤ s.traceHeld c then s.wf (Reg.cnTraceStatus c) 0 3 2 else s
    let s := if t.postLeft = some 1 then s.wf (Reg.cnTraceStatus c) 0 3 3 else s
    (some i, s)

/-- The trigger record `r` of unit `c` is written and kept (R551, R552). -/
def State.fireTrigger (s : State) (c : Nat) (r : BitVec 256) : State :=
  let r := setFld r 138 1 1
  let (i, s) := s.placeRecord c r
  let s := (s.wf (Reg.cnTraceStatus c) 3 1 1).wf (Reg.cnTraceTrigInfo c) 0 32 (i.getD 0xFFFFFFFF)
  let s := s.each (fun k s => s.w (Reg.cnTraceTrigRec c k) (BitVec.ofNat 64 (fld r (64 * k) 64))) (List.range 4)
  let n := s.rf (Reg.cnTracePost c) 0 32
  let s := if s.traceMode c = 3 then
      (s.updTr c fun t => { t with postLeft := some n }).wf (Reg.cnTraceStatus c) 0 3 (if n = 0 then 3 else s.traceState c)
    else s
  s.note (cDie c) Ev.traceTriggered [c, i.getD 0xFFFFFFFF]

/-- The trigger of unit `c` reaches the other units where FANOUT is 1; `o` its own place: one received by FANOUT goes no
further (R552). -/
def State.fanOut (s : State) (c o n code : Nat) : State :=
  if bitAt (s.r (Reg.cnTraceCtrl c)) 5 && decide (o ≠ 4) then
    s.each (fun d s => if d ≠ c ∧ s.traceOn d = true then s.triggerUnit d 4 n code else s) (List.range 4)
  else s

/-- MATCH holds of a record (R552). -/
def State.traceMatch (s : State) (c : Nat) (r : BitVec 256) : Bool :=
  let t := s.r (Reg.cnTraceTrig c)
  bitAt (s.r (Reg.cnTraceCtrl c)) 6 && fld r 128 8 == fld t 0 8 &&
    Nat.land (fld r 176 16) (fld t 32 16) == Nat.land (fld t 16 16) (fld t 32 16)

/-- The first in place of pending triggers. -/
def firstTrig : List (Nat × Nat × Nat) → Option (Nat × Nat × Nat)
  | [] => none
  | x :: xs => match firstTrig xs with
    | none => some x
    | some y => if x.1 ≤ y.1 then some x else some y

/-- Later triggers are counted (R552). -/
def State.countTriggers (s : State) (c n : Nat) : State :=
  s.wf (Reg.cnTraceTrigInfo c) 32 32 (Nat.min (s.rf (Reg.cnTraceTrigInfo c) 32 32 + n) 0xFFFFFFFF)

/-- One tick's writing: the trigger record, or the oldest record of the queue. -/
def State.traceStep (s : State) (c : Nat) : State :=
  let t := s.tr c
  let on := s.traceOn c
  let hit := match t.queue with
    | r :: _ => on && s.traceMatch c r
    | [] => false
  let trigs := if on then t.trigs else []
  let s := s.setTr c { t with trigs := [] }
  let pop := fun (s : State) => s.updTr c fun x => { x with queue := x.queue.drop 1 }
  if s.rf (Reg.cnTraceStatus c) 3 1 = 1 then
    let s := s.countTriggers c (trigs.length + b2n hit)
    match t.queue with
    | r :: _ => ((pop s).placeRecord c r).2
    | [] => s
  else if hit then
    let s := s.countTriggers c trigs.length
    match t.queue with
    | r :: _ => ((pop s).fireTrigger c r).fanOut c 0 0xFFFFFFFF 0
    | [] => s
  else
    match firstTrig trigs with
    | some (o, n, code) =>
      let r := setFld (traceRec s.now 6 0 (cDie c) 0 n code) 64 64 (s.r (Reg.cnLct c)).toNat
      ((s.countTriggers c (trigs.length - 1)).fireTrigger c r).fanOut c o n code
    | none =>
      match t.queue with
      | r :: _ => ((pop s).placeRecord c r).2
      | [] => s

/-- A disabled unit with nothing left to write is STOPPED (R555). -/
def State.traceSettle (s : State) (c : Nat) : State :=
  let t := s.tr c
  if s.traceOn c = false ∧ s.traceState c ≠ 0 ∧ t.queue = [] ∧ t.staged = [] then s.wf (Reg.cnTraceStatus c) 0 3 4 else s

/-- A lane from J-die `j` to C-die `c` that nothing uses in the present slot (R547). -/
def State.freeOut (s : State) (j c : Nat) : Option Nat :=
  if s.ready (jDie j) then firstP (fun l => !(s.busyLanes j).2.contains l) (lanesOf c) else none

/-- A cell of J-die `j`'s own takes lane `l` out of it. -/
def State.takeOut (s : State) (j l : Nat) : State :=
  let x := s.slotOf j
  s.withJn (SMap.set (fun _ => ({} : JnSlot)) s.jn j { x with outs := l :: x.outs })

/-- Records of die `d`'s queue reach unit `c`: those of L- and J-dies eight to a cell, on junction lanes that nothing else uses (R547). -/
def State.traceCarry (s : State) (c d : Nat) : State :=
  let sink := if d < 6 then 4 else if d < 10 then s.rf (Reg.jnTraceCtrl (d - 6)) 3 2
    else if d < 16 then s.rf (Reg.lnTraceCtrl (d - 10)) 3 2 else (d - 16) / 4
  if sink = c ∧ s.traceOn c = true ∧ s.trq d ≠ [] then
    let way := if d < 10 then (s.freeOut (d - 6) c).map fun l => (s.takeOut (d - 6) l).add64 (Reg.jnJnCellsOther (d - 6)) 1
      else if d < 16 then s.crossOther (4 + (d - 10)) c else some s
    match way with
    | some s => (s.setTrq d ((s.trq d).drop 8)).each (fun r s => s.accept c r) ((s.trq d).take 8)
    | none => s
  else s

/-- TRACE_RECORD_WRITE (R547, R550 to R552, R555): a tick of unit `c`: records of die `src` reach the unit, and one record is written. -/
def execTraceRecordWrite (c : Fin 4) (src : Option (Fin 32)) (s : State) : Res :=
  s.act <|
    if s.traceState c = 0 ∨ s.traceState c = 4 ∨ s.ready (cDie c) = false ∨ (s.tr c).wroteAt = some s.clk then s
    else
      let s := s.updTr c fun t => { t with wroteAt := some s.clk }
      let s := match src with
        | none => s
        | some d => s.traceCarry c d
      (s.traceStep c).traceSettle c

/-- TRACE_SPILL (R553, R554): a frame's spill writes of unit `c`: whole granules, and what is left of a disabled
unit. A retired stack takes none of them (R367). -/
def execTraceSpill (c : Fin 4) (s : State) : Res :=
  s.act <|
    let t := { s.tr c with spillAt := some (s.now / 4096) }
    if (s.tr c).spillAt = t.spillAt then s else
    let r := s.rf (Reg.cnTraceSpillRate c) 0 10
    let n := Nat.min (8 * (if r = 0 then 1 else if 512 < r then 512 else r)) t.staged.length
    let n := if s.traceOn c then n / 8 * 8 else n
    let base := s.rf (Reg.cnTraceSpillBase c) 0 48
    let cap := s.traceCap c
    let s := s.each (fun (x : BitVec 256 × Nat) s =>
      let a := base + 32 * ((t.spillIdx + x.2) % (if cap = 0 then 1 else cap))
      (s.countAccess (cDie c) true a 32).liveBy (whoTrace c) a 32 fun s => s.setLive a (bytesLE 32 x.1.toNat)) (t.staged.take n).zipIdx
    let s := s.setTr c { t with staged := t.staged.drop n, spillIdx := (t.spillIdx + n) % (if cap = 0 then 1 else cap) }
    s.traceSettle c

/-! ## Enabling (R553, R555) -/

/-- The spill region may be used (R553). -/
def State.spillOk (s : State) (c : Nat) : Bool :=
  let b := s.rf (Reg.cnTraceSpillBase c) 0 48
  let n := s.rf (Reg.cnTraceSpillLen c) 0 48
  let k := stackOf b
  b % 0x100000 == 0 && n % 0x100000 == 0 && decide (n ≠ 0) && decide (k / 8 = c) && decide (b % stackBytes + n ≤ stackBytes) &&
    bitAt (s.r Reg.saStackActive) k && (s.partOfQuarter (k / 2)).isNone

/-- A write of `v` to `Cn.TRACE_CTRL` (R552, R555). -/
def State.writeTraceCtrl (s : State) (c : Nat) (v : W32) : State :=
  let k := Reg.cnTraceCtrl c
  let on := s.traceOn c
  let en := bitAt v 0
  let fixed := fld v 1 3 ≠ s.rf k 1 3 ∨ fld v 6 3 ≠ s.rf k 6 3
  if on then
    let s := if fixed then s.note (cDie c) Ev.traceBusy [c] else s
    let s := s.wf k 5 1 (fld v 5 1)
    let s := if bitAt v 4 then s.triggerUnit c 3 0xFFFFFFFF 0 else s
    if en then s else (s.wf k 0 1 0).traceSettle c
  else if en then
    let t := s.wf k 0 9 (fld v 0 9 - fld v 4 1 * 16)
    if bitAt v 3 ∧ t.spillOk c = false then s.note (cDie c) Ev.traceSpillRange [c]
    else
      let s := t.each (fun k s => s.w k 0) ([Reg.cnTraceDropped c, Reg.cnTraceLost c, Reg.cnTraceTrigInfo c] ++
        (List.range 4).map (Reg.cnTraceTrigRec c))
      let s := (s.w (Reg.cnTraceStatus c) 1).updTr c fun x => { x with
        queue := [], staged := [], writeIdx := 0, spillIdx := 0, dropSince := [], postLeft := none, stretchAt := [], trigs := [] }
      if bitAt v 4 then s.triggerUnit c 3 0xFFFFFFFF 0 else s
  else s.wf k 0 9 (fld v 0 9 - fld v 4 1 * 16)

/-- TRACE_ENABLE (R553, R555): a write of TRACE_CTRL with ENABLE as 1. -/
def execTraceEnable (i : Iface) (c : Fin 4) (v : W32) (s : State) : Res :=
  s.act <| s.regWrite i (Reg.cnTraceCtrl c) false fun s =>
    let s := s.writeTraceCtrl c (setFld v 0 1 1)
    if s.traceOn c then
      s.each (fun p s => s.updPart p fun x => { x with binds := x.binds.map fun b =>
        { b with traced := b.traced || (List.range 4).any fun q => s.hasQuarter p (4 * c + q) } }) (List.range 16)
    else s

/-- TRACE_DISABLE (R555): a write of TRACE_CTRL with ENABLE as 0. -/
def execTraceDisable (i : Iface) (c : Fin 4) (v : W32) (s : State) : Res :=
  s.act <| s.regWrite i (Reg.cnTraceCtrl c) false fun s => s.writeTraceCtrl c (setFld v 0 1 0)

/-- TRACE_TRIGGER (R552): a write of TRACE_CTRL with TRIGGER as 1. -/
def execTraceTrigger (i : Iface) (c : Fin 4) (v : W32) (s : State) : Res :=
  s.act <| s.regWrite i (Reg.cnTraceCtrl c) false fun s => s.writeTraceCtrl c (setFld v 4 1 1)

/-! ## Reading (R553, R555) -/

/-- Record `n` from the oldest held, as read now. -/
def State.heldRecord (s : State) (c n : Nat) : BitVec 256 :=
  let held := s.traceHeld c
  let cap := s.traceCap c
  let t := s.tr c
  if s.traceState c = 1 ∨ held ≤ n then 0
  else
    let i := (t.writeIdx + cap - held + n) % (if cap = 0 then 1 else cap)
    if s.traceSpills c then BitVec.ofNat 256 (ofBytesLE (s.liveBytes (s.rf (Reg.cnTraceSpillBase c) 0 48 + 32 * i) 32))
    else SMap.get (fun _ => 0) t.sram i

/-- Word `k` of TRACE_RD_DATA as it reads; BUSY says whether the unit was ACTIVE. `ecc`: how a read of the region came out. -/
def State.traceWord (s : State) (c k : Nat) (ecc : Ecc) : W64 × State :=
  let n := s.rf (Reg.cnTraceRdIndex c) 0 32
  let s := s.wf (Reg.cnTraceRdStatus c) 0 1 (b2n (s.traceState c == 1))
  if s.traceSpills c && decide (n < s.traceHeld c) && s.traceState c != 1 then
    let cap := s.traceCap c
    let i := ((s.tr c).writeIdx + cap - s.traceHeld c + n) % (if cap = 0 then 1 else cap)
    let (s, e) := s.readAt (cDie c) (s.rf (Reg.cnTraceSpillBase c) 0 48 + 32 * i) 32 ecc 5
    if e.bad then (0, s.wf (Reg.cnTraceRdStatus c) 1 1 1) else (BitVec.ofNat 64 (fld (s.heldRecord c n) (64 * k) 64), s)
  else (BitVec.ofNat 64 (fld (s.heldRecord c n) (64 * k) 64), s)

/-- TRACE_READ (R555, R580): a read of TRACE_RD_DATA[3]; the access that includes bits [63:32] advances the index. -/
def execTraceRead (i : Iface) (c : Fin 4) (wide hi : Bool) (ecc : Ecc) (s : State) : Res :=
  s.act <| s.regRead i (Reg.cnTraceRdData c 3 + (if !wide && hi then 4 else 0)) wide fun s =>
    let (v, s) := s.traceWord c 3 ecc
    (if wide then v else BitVec.ofNat 64 (halfOf hi v),
      if wide || hi then s.wf (Reg.cnTraceRdIndex c) 0 32 (s.rf (Reg.cnTraceRdIndex c) 0 32 + 1) else s)

end Sys2Proof.Machine
end

