-- ==== Sys2Proof/Machine/View.lean ====
section
/-!
DEFINITION. What a register reads as now: the fields that show the state of a unit are computed from it, every other field is held
in the register file (R105, R253, R254, R310, R347 to R349, R370, R423, R459, R524, R541, R564, R574, R589).
-/
namespace Sys2Proof.Machine
open Sys2Proof

/-- `Cn.TILE_STATUS[t]` of logical tile `t` (R105). -/
def State.tileStatus (s : State) (t : Nat) : Nat :=
  let x := s.tile t
  x.state + x.pmode % 4 * 8 + b2n x.bank * 32 + b2n (decide (8 ≤ x.sendQ.length)) * 128 + x.pc % 0x8000 * 256

/-- `Ln.TT_WALK[o]` (R253). -/
def State.ttWalk (s : State) (p o : Nat) : Nat :=
  let d := s.walker (walkKey p o 0)
  let a := s.walker (walkKey p o 1)
  d.idx % 0x40000 + d.state % 4 * 0x40000 + a.idx % 0x40000 * 0x100000 + a.state % 4 * 2 ^ 38 + d.loops.length % 8 * 2 ^ 40

/-- `Jn.JN_WALK[o]` (R254). -/
def State.jnWalk (s : State) (j o : Nat) : Nat :=
  let w := s.walker (walkKey (6 + j) o 0)
  w.idx % 0x10000 + w.state % 4 * 0x10000

/-- `Mn.ST_WALK[o]` (R370). -/
def State.stWalk (s : State) (m o : Nat) : Nat :=
  let w := s.walker (walkKey (10 + m) o 0)
  w.idx % 0x4000 + w.state % 4 * 0x4000

/-- Status of injection unit `u` (R349). -/
def State.injStatus (s : State) (u : Nat) : Nat :=
  let x := s.inj u
  x.cells.length % 2048 + b2n (s.throttled u) * 2048 + (x.msgs.filter fun m => m.resp).length % 512 * 4096

/-- `SA.TXN_STATUS` (R541): LAST_CODE is held in the register file. -/
def State.txnStatus (s : State) : Nat :=
  let open_ := match s.txn with
    | some t => t.id % 65536 + (if t.sealed then 2 else 1) * 65536 + t.owner % 4 * 2 ^ 18 + b2n t.protected_ * 2 ^ 20 +
        t.entries.length % 8192 * 2 ^ 21
    | none => 0
  open_ + s.armedTxns.length % 8 * 2 ^ 34 + s.rf Reg.saTxnStatus 48 16 * 2 ^ 48

/-- `SA.TXN_ARMED[a]` and `SA.TXN_ARMED_FTC[a]` (R541). -/
def State.txnArmed (s : State) (a : Nat) (ftc : Bool) : Nat :=
  match s.armedTxns[a]? with
  | some t => if ftc then (if t.mode = 2 then 0 else t.tick) else
      t.id % 65536 + 65536 + b2n t.protected_ * 2 ^ 17 + t.owner % 4 * 2 ^ 18
  | none => 0

/-- `SA.ASSEMBLY_STATUS` (R574). -/
def State.assemblyStatus (s : State) : Nat :=
  let bits := fun (f : Nat → Bool) => ((List.range 6).map fun p => b2n (f p) * 2 ^ p).sum
  let up := fun p => s.linkState p == 4
  let met := fun p => decide (s.rf (Reg.lnLineClass p) 0 10 ≠ 0) && s.rf (Reg.lnLineClassStatus p) 1 2 == 3
  let pos := bitAt (s.r Reg.saFabricPosition) 31
  let lock := s.timeState == 2
  let route := s.routeValid s.injectEpoch
  let all := (List.range 6).all fun p => !bitAt (s.r (Reg.lnExpect p)) 31 || (up p && met p)
  bits up + bits (fun p => s.linkState p == 3) * 64 + bits met * 4096 + b2n pos * 2 ^ 18 + b2n lock * 2 ^ 19 + b2n route * 2 ^ 20 +
    b2n (all && pos && lock && route) * 2 ^ 21

/-- `SB.PL_STATUS` (R512): TARGET and FLOOR_EFF follow the partitions and the request. -/
def State.plStatus (s : State) : W64 :=
  setFld (setFld (s.r Reg.sbPlStatus) 2 2 (s.targetLevel.getD s.level)) 5 2 s.floorEff

/-- `x.DIE_INFO` of the die of window `w` (R589). -/
def State.dieInfo (s : State) (w : Nat) : Nat :=
  let kind := if w = 1 then 1 else if w ≤ 7 then 2 else if w ≤ 11 then 3 else if w ≤ 21 then 4 else 5
  dieOfWindow w + kind * 32 + s.rf Reg.saDeviceId 8 8 * 256

/-- `x.SPINE_STATUS` of a die (R589). -/
def State.spineStatus (s : State) (w : Nat) : Nat :=
  let n := (s.die (dieOfWindow w)).queue.length
  s.rf (Reg.xSpineStatus w) 0 16 + n % 128 * 65536 + b2n (decide (48 ≤ n)) * 2 ^ 23

/-- Word `i` of the pending or the active margin plan (R524). -/
def State.planWord (s : State) (i : Nat) : W64 :=
  match s.mon.pending with
  | some (plan, _) => if bitAt (s.r Reg.saMarginCtrl) 3 then plan.getD i 0 else s.planReg i
  | none => s.planReg i

/-- Registers of SA that show state. -/
def State.viewSa (s : State) (k : Nat) : W64 :=
  let n := fun (x : Nat) => BitVec.ofNat 64 x
  if 0x300040 ≤ k ∧ k < 0x300080 then
    let p := (k - 0x300040) / 4
    setFld (s.r k) 0 3 (s.partView p)
  else if 0x300080 < k ∧ k < 0x3000C0 then setFld (s.r k) 7 1 (b2n (s.grantRuns ((k - 0x300080) / 4)))
  else if k = Reg.saInjStatus then n (s.injStatus 0)
  else if k = Reg.saTxnStatus then n s.txnStatus
  else if 0x800040 ≤ k ∧ k < 0x800070 then
    (match s.txn with | some t => n (fld t.digest (8 * (k - 0x800040)) 64) | none => 0)
  else if 0x800080 ≤ k ∧ k < 0x8000A0 then
    (match s.txn with | some t => n (fld t.nonce (8 * (k - 0x800080)) 64) | none => 0)
  else if 0x800200 ≤ k ∧ k < 0x800240 then n (s.txnArmed ((k - 0x800200) / 16) (k % 16 == 8))
  else if 0x810500 ≤ k ∧ k < 0x810560 then Config.identityKey ((k - 0x810500) / 8)
  else if 0x401008 ≤ k ∧ k < 0x401028 then n (fld (BitVec.ofNat 256 (ofBytesLE (sha256 sec1Key))) (8 * (k - 0x401008)) 64)
  else if k = Reg.saAssemblyStatus then n s.assemblyStatus
  else if 0x700100 ≤ k ∧ k < 0x700200 then s.planWord ((k - 0x700100) / 8)
  else s.r k

/-- Registers of the other dies that show state. -/
def State.viewDie (s : State) (k : Nat) : W64 :=
  let n := fun (x : Nat) => BitVec.ofNat 64 x
  let w := k / 0x1000000
  let o := k % 0x1000000
  if o = 0 then n (s.dieInfo w)
  else if o = 8 then n (s.spineStatus w)
  else if w = 1 then
    (if o = 0x4000 then s.plStatus else if o = 0x1038 then s.wtbNsWord else if o = 0x1004 then setFld (s.r k) 15 1 (b2n s.ppsPresent) else s.r k)
  else if w ≤ 7 then
    (if 0x4000 ≤ o ∧ o < 0x4300 then n (s.tileStatus (192 * (w - 4) + (o - 0x4000) / 4))
     else if o = 0x500 then n (s.injStatus (w - 3))
     else s.r k)
  else if w ≤ 11 then (if 0x208 ≤ o ∧ o < 0x300 then n (s.jnWalk (w - 8) ((o - 0x200) / 8)) else s.r k)
  else if w ≤ 21 then
    let p := w - 16
    (if 0x3208 ≤ o ∧ o < 0x3300 then n (s.ttWalk p ((o - 0x3200) / 8))
     else if k = Reg.lnReplayState p then n ((s.port p).replay.length % 0x4000 + s.replayTimer p % 65536 * 65536)
     else if k = Reg.lnPoolOcc p then n ((s.port p).pool.length % 4096)
     else s.r k)
  else if 0x408 ≤ o ∧ o < 0x488 then n (s.stWalk (w - 32) ((o - 0x400) / 8))
  else s.r k

/-- The value of the register at key `k`. -/
def State.view (s : State) (k : Nat) : W64 := if k < 0x1000000 then s.viewSa k else s.viewDie k

/-- A 64-bit word of the event log at key `k` (R484). -/
def State.logWord (s : State) (k : Nat) : W64 :=
  BitVec.ofNat 64 (fld (SMap.get (fun _ => (0 : BitVec 512)) s.evlog ((k - 0x508000) / 64)) (8 * (k % 64 / 8 * 8)) 64)

/-- The 32 bits at a 4-byte-aligned key; 0 where no register stands. -/
def State.viewWord (s : State) (k : Nat) : Nat :=
  if 0x508000 ≤ k ∧ k < 0x548000 then fld (s.logWord k) (if k % 8 = 4 then 32 else 0) 32
  else
    match coverRow k with
    | some (b, _, hi) => fld (s.view b) (if hi then 32 else 0) 32
    | none => 0

end Sys2Proof.Machine
end

