-- ==== Sys2Proof/Machine/Dump.lean ====
section
/-!
DEFINITION. The architectural stop-dump and the wait-for graph (R558 to R564).
-/
namespace Sys2Proof.Machine
open Sys2Proof

/-! ## The stop-dump (R558 to R561) -/

/-- A refusal of GO: its code appears in DUMP_STATUS. -/
def State.dumpRefused (s : State) (code : Nat) : State := s.wf Reg.saDumpStatus 16 16 code

/-- A write of `v` to `SA.DUMP_CTRL` (R558). -/
def State.writeDumpCtrl (s : State) (v : W32) : State :=
  let s := s.write32 Reg.saDumpCtrl v
  let p := s.rf Reg.saDumpCtrl 4 4
  if bitAt v 0 = false then s
  else if s.rf Reg.saDebugEn 3 1 = 0 then s.dumpRefused Ev.dumpDisabled
  else if s.rf (Reg.saStopStatus p) 0 1 = 0 then s.dumpRefused Ev.dumpNotStopped
  else if s.dump.isSome then s.dumpRefused Ev.dumpBusy
  else
    let d : Dump := { part := p, sram := bitAt (s.r Reg.saDumpCtrl) 1, skip := bitAt (s.r Reg.saDumpCtrl) 2
                      addr := (s.r Reg.saDumpAddr).toNat / 4096 * 4096, start := s.now }
    ((s.w Reg.saDumpStatus 1).withDump (some d))

/-- STOP_DUMP (R558): a write of `v` to `SA.DUMP_CTRL`. -/
def execStopDump (i : Iface) (v : W32) (s : State) : Res :=
  s.act <| s.regWrite i Reg.saDumpCtrl false fun s => s.writeDumpCtrl v

/-- A list of bytes made up to `n` with zeros. -/
def padTo (n : Nat) (bs : List Byte) : List Byte := bs ++ List.replicate (n - bs.length) 0

/-- Registers of die `d` in the unit section, for owner `p + 1` (R559). -/
def unitKeys (p d : Nat) : List Nat :=
  let o := p + 1
  if d = 0 then [Reg.saStopStatus p, Reg.saPartStatus p, Reg.saRotaStatus p, Reg.saRotaNextX p]
  else if d = 1 then [Reg.sbPlStatus, Reg.sbTimeStatus, Reg.sbFtc]
  else if d < 6 then
    [Reg.cnLct (d - 2), Reg.cnStretchCount (d - 2), Reg.cnInjStatus (d - 2)] ++ (List.range 4).map (Reg.cnLineBase (d - 2))
  else if d < 10 then [Reg.jnJnBank (d - 6), Reg.jnJnWalk (d - 6) o]
  else if d < 16 then
    [Reg.lnTtBank (d - 10), Reg.lnTtWalk (d - 10) o, Reg.lnReduceFlags (d - 10) o, Reg.lnLinkStatus (d - 10),
      Reg.lnReplayState (d - 10), Reg.lnUschedStatus (d - 10)]
  else [Reg.mnStBank (d - 16), Reg.mnStWalk (d - 16) o, Reg.mnStreamLate (d - 16), Reg.mnStackStatus (d - 16) 0,
    Reg.mnStackStatus (d - 16) 1]

/-- Entry of die `d` in the unit section: all ones where the die does not answer. -/
def State.unitEntry (s : State) (p d : Nat) : List Byte :=
  if d = 0 ∨ d = 1 ∨ s.ready d = true then padTo 64 ((unitKeys p d).flatMap fun k => bytesLE 8 (s.view k).toNat)
  else List.replicate 64 0xFF

/-- The unit section, made up to 4 KiB. -/
def State.unitSection (s : State) (p : Nat) : List Byte := padTo 4096 ((List.range 32).flatMap (s.unitEntry p))

/-- The token section, made up to a multiple of 4 KiB. -/
def State.tokenSection (s : State) (p : Nat) : List Byte :=
  let bs := (s.tokensOf p).flatMap fun k => bytesLE 4 (s.token k).val.toNat
  padTo ((bs.length + 4095) / 4096 * 4096) bs

/-- A cell of the eject buffer or the send queue. -/
def cellBytes (x : Payload) : List Byte := bytesLE 256 x.toNat

/-- An entry of the line send queue (R560). -/
def sendBytes (x : LineSend) : List Byte :=
  padTo 512 (cellBytes x.data ++ bytesLE 8 x.cycle ++ bytesLE 4 x.addr ++ bytesLE 1 x.dst ++ bytesLE 1 (b2n x.token.isSome) ++
    bytesLE 2 (x.token.getD 0))

/-- A tile's block up to its SRAM (R560); `head` the 64-byte block header. -/
def tileBody (x : Tile) (head : List Byte) : List Byte :=
  let scalars := (List.range 32).flatMap fun r => bytesLE 8 (x.s r).toNat
  let preds := padTo 64 (bytesLE 8 x.preds.toNat)
  let laccs := (List.range 16).flatMap fun g => bytesLE 24 (x.lacc g).record
  let vecs := (List.range 64).flatMap fun r => bytesLE 1024 (x.v r).toNat
  let accs := (List.range 8).flatMap fun a => bytesLE 36864 (x.acc a).toNat
  let eject := padTo 2048 (x.eject.flatMap fun c => cellBytes c.data)
  let sends := padTo 4096 (x.sendQ.flatMap sendBytes)
  padTo 0x1000 (head ++ scalars ++ preds ++ laccs) ++ vecs ++ accs ++ padTo 0x2000 (eject ++ sends)

/-- A block header (R560). -/
def blockHead (t c r site flags : Nat) (x : Tile) : List Byte :=
  bytesLE 64 (atByte 0 2 t + atByte 2 1 c + atByte 3 1 r + atByte 4 1 site + atByte 5 1 x.state + atByte 6 1 x.pmode +
    atByte 7 1 flags + atByte 8 2 x.pc % 0x8000 + atByte 10 2 x.fault + atByte 12 1 x.sendQ.length + atByte 13 1 x.eject.length +
    atByte 16 4 x.fpCtrl.toNat + atByte 20 4 x.fpFlags.toNat + atByte 24 8 x.seed.toNat + atByte 32 8 x.stoppedAt)

/-- Block of logical tile `t` (R20, R560, R561). -/
def State.tileBlock (s : State) (sram : Bool) (t : Nat) : List Byte :=
  let c := t / 192
  let r := t % 192 / 8
  let skip := s.rf (Reg.cnRowMap c r) 0 4
  let site := if t % 8 < skip then t % 8 else t % 8 + 1
  let up := s.ready (cDie c)
  let x := if up then s.tile t else {}
  let body := tileBody x (blockHead t c r site (b2n sram * 8 + (if up then 0 else 2)) x)
  if sram then body ++ (if up then s.bytes (tileAddr t 0) 0x800000 else List.replicate 0x800000 0) else body

/-- Skip block of row `r` of C-die `c` (R560): its registers read zero since the reset that moved the row's tiles (R510). -/
def State.skipBlock (s : State) (sram : Bool) (c r : Nat) : List Byte :=
  let up := s.ready (cDie c)
  let zeroed := s.skipScrub.contains (c * 24 + r)
  let flags := 1 + (if up then 0 else 2) + b2n zeroed * 4 + b2n sram * 8
  let body := tileBody {} (blockHead 0xFFFF c r (s.rf (Reg.cnRowMap c r) 0 4) flags {})
  if sram then body ++ (if up && !zeroed then s.bytes (skipArea c r) 0x800000 else List.replicate 0x800000 0) else body

/-- Rows of the quarters of partition `p`, in C-die and row order. -/
def State.rowsOf (s : State) (p : Nat) : List (Nat × Nat) :=
  (List.range 96).filterMap fun k => if s.hasQuarter p (k / 24 * 4 + k % 24 / 6) then some (k / 24, k % 24) else none

/-- Sections of a dump, in order (R559). -/
def State.dumpBytes (s : State) (d : Dump) : List (List Byte) :=
  let p := d.part
  let ts := s.tilesOf p
  let rows := if d.skip then s.rowsOf p else []
  let toks := s.tokenSection p
  let stride := if d.sram then 0x85B000 else 0x5B000
  let unitAt := 4096 + toks.length
  let tileAt := unitAt + 4096
  let len := tileAt + stride * (ts.length + rows.length)
  let head := bytesLE 4096 (0x44534648 + atByte 4 2 1 + atByte 6 1 p + atByte 7 1 (b2n d.sram + 2 * b2n d.skip) +
    atByte 8 2 (s.quarters p) + atByte 10 2 ts.length + atByte 12 2 rows.length + atByte 14 2 (s.rf (Reg.saStopStatus p) 16 16) +
    atByte 16 8 d.start + atByte 24 8 stride + atByte 32 32 (s.activeDigest p) + atByte 64 8 4096 + atByte 72 8 unitAt +
    atByte 80 8 tileAt + atByte 88 8 len)
  [head, toks, s.unitSection p] ++ ts.map (s.tileBlock d.sram) ++ rows.map fun r => s.skipBlock d.sram r.1 r.2

/-- DUMP_DONE (R374, R559 to R561): the dump in progress has been written, or, where `bad` names a section whose write the host
does not take, it ends with what was written before. -/
def execDumpDone (bad : Option (Fin 1024)) (s : State) : Res :=
  s.act <|
    match s.dump with
    | none => s
    | some d =>
      let all := s.dumpBytes d
      let put := match bad with
        | some n => all.take n
        | none => all
      let failed := decide (put.length < all.length)
      let (a, s) := put.foldl (fun (x : Nat × State) b => (x.1 + b.length, if b = [] then x.2 else x.2.toHost 0 x.1 b)) (d.addr, s)
      let s := (s.withDump none).w Reg.saDumpBytes (BitVec.ofNat 64 (a - d.addr))
      if failed then ((s.wf Reg.saDumpStatus 0 2 3).wf Reg.saDumpStatus 16 16 Ev.dumpFailed).noteP 0 d.part Ev.dumpFailed []
      else (s.wf Reg.saDumpStatus 0 2 2).noteP 0 d.part Ev.dumpDone [a - d.addr]

/-! ## The wait-for graph (R562 to R564) -/

/-- A node (R563). -/
structure WfgNode where
  kind : Nat
  id : Nat
  state : Nat
  value : Nat
  module : Nat
deriving DecidableEq, Repr

/-- What names a node: KIND, ID, MODULE. -/
abbrev WfgKey := Nat × Nat × Nat

/-- An edge: FROM, TO, KIND (1 WAITS_ON, 2 FED_BY, 3 BLOCKED_BY). -/
abbrev WfgEdge := WfgKey × WfgKey × Nat

def WfgNode.key (n : WfgNode) : WfgKey := (n.kind, n.id, n.module)

/-- A node of this module. -/
def State.node (s : State) (kind id state value : Nat) : WfgNode := ⟨kind, id, state, value, s.modNum⟩

def State.nodeKey (s : State) (kind id : Nat) : WfgKey := (kind, id, s.modNum)

/-- Tiles that wait for a token, in WAIT_TOKEN or SLEEP: tile, token, threshold. -/
def State.waiters (s : State) : List (Nat × Nat × Nat) :=
  (List.range 768).filterMap fun t =>
    let x := s.tile t
    match x.wait with
    | some w => if x.state = 2 ∨ x.state = 4 then w.token.map fun k => (t, k, w.thresh) else none
    | none => none

/-- Streams in force, with their M-die. -/
def State.inForce (s : State) : List (Nat × Stream) := (List.range 16).flatMap fun m => (s.strm m).map fun x => (m, x)

/-- ID of a STREAM node. -/
def streamId (m : Nat) (x : Stream) : Nat := m + x.idx % 0x4000 * 16 + x.owner % 32 * 2 ^ 18

/-- The ready test of a stream would fail now. -/
def State.streamWaits (s : State) (x : Stream) : Bool :=
  !x.moving && !s.tokenMeets (stRtoken x.entry) (thresholdOf (stRthresh x.entry) (stRstep x.entry) (stRlvl x.entry) x.iters)

/-- Expected trains not yet released whole: port and next cell. -/
def State.dueTrains (s : State) : List (Nat × Expect) :=
  (List.range 6).flatMap fun p =>
    let es := (s.port p).expects
    (es.filter fun e => es.all fun f => trainKey f ≠ trainKey e || decide (e.i ≤ f.i)).map fun e => (p, e)

/-- ID of a TRAIN node. -/
def trainId (p : Nat) (e : Expect) : Nat := p + fld e.entry 64 20 * 8

/-- The token a train arrives at, if any. -/
def Expect.token (e : Expect) : Option Nat :=
  let y : BitVec 256 := e.entry.setWidth 256
  match eType y with
  | 2 => if arAmount y = 0 then none else some (dpToken y)
  | 3 => if paDrop y && decide (paAmount y ≠ 0) then some (paToken y) else none
  | 4 => if rdPort y = 7 then some (dpToken y) else none
  | _ => none

/-- Queued messages, with their injection unit. -/
def State.queuedMsgs (s : State) : List (Nat × Msg) := (List.range 5).flatMap fun u => (s.inj u).msgs.map fun m => (u, m)

/-- ID of a MESSAGE node. -/
def msgNodeId (u : Nat) (m : Msg) : Nat := m.msgId % 65536 + u * 65536

/-- The port and VC whose credit a cell waits for, if any (R326 to R334). -/
def State.waitsForVc (s : State) (c : Cell) (fresh : Bool) : Option (Nat × Nat) :=
  if s.atDest c && !(pkMcast c && fresh) then none
  else
    match (s.hopOf c fresh).1 with
    | .go p d _ => if s.creditOk p (pkVc d) then none else some (p, pkVc d)
    | _ => none

/-- Cells of VC `v` in the receive buffers of port `p`. -/
def State.rxCells (s : State) (p v : Nat) : List Queued := ((s.port p).vcs ++ (s.port p).pool).filter fun q => q.vc = v

/-- Ports and VCs. -/
def portVcs : List (Nat × Nat) := (List.range 6).flatMap fun p => (List.range 4).map fun v => (p, v)

/-- The neighbour's RX_VC that faces VC `v` of port `p`, as its last IDENTITY named it (R299). -/
def State.peerRx (s : State) (p v : Nat) : WfgKey :=
  (8, s.rf (Reg.lnPeerIdent p 4) 0 3 + v * 8, s.rf (Reg.lnPeerIdent p 3) 16 12)

/-- The edges, in the order of R563. -/
def State.graphEdges (s : State) : List WfgEdge :=
  let k := s.nodeKey
  let tiles := s.waiters.map fun x => (k 1 x.1, k 2 x.2.1, 1)
  let strms := (s.inForce.filter fun x => s.streamWaits x.2).map fun x => (k 3 (streamId x.1 x.2), k 2 (stRtoken x.2.entry), 1)
  let awaited := (tiles ++ strms).map fun e => e.2.1
  let fed := fun (t : Nat) (w : WfgKey) => if awaited.contains (k 2 t) then [(k 2 t, w, 2)] else []
  let byStream := s.inForce.flatMap fun x => fed (stToken x.2.entry) (k 3 (streamId x.1 x.2))
  let byTrain := s.dueTrains.flatMap fun x => match x.2.token with
    | some t => fed t (k 4 (trainId x.1 x.2))
    | none => []
  let byMsg := s.queuedMsgs.flatMap fun x => match x.2.localToken with
    | some t => fed t (k 5 (msgNodeId x.1 x.2))
    | none => []
  let msgs := s.queuedMsgs.map fun x => (k 5 (msgNodeId x.1 x.2), k 6 x.1, 3)
  let injs := (List.range 5).flatMap fun u => match (s.inj u).cells with
    | q :: _ => (match s.waitsForVc q.cell true with | some (p, v) => [(k 6 u, k 7 (p + v * 8), 3)] | none => [])
    | [] => []
  let outs := (portVcs.filter fun x => s.linkState x.1 = 4 ∧ s.creditOk x.1 x.2 = false).map fun x =>
    (k 7 (x.1 + x.2 * 8), s.peerRx x.1 x.2, 3)
  let rxs := portVcs.flatMap fun x => match s.rxCells x.1 x.2 with
    | q :: _ => (match s.waitsForVc q.cell false with | some (p, v) => [(k 8 (x.1 + x.2 * 8), k 7 (p + v * 8), 3)] | none => [])
    | [] => []
  tiles ++ strms ++ byStream ++ byTrain ++ byMsg ++ msgs ++ injs ++ outs ++ rxs

/-- The nodes: what waits, what it waits for, every feeder, every injection unit, outbound and receive VC. -/
def State.graphNodes (s : State) (es : List WfgEdge) : List WfgNode :=
  let toks := ((es.filter fun e => e.2.2 = 1).map fun e => e.2.1.2.1).eraseDups
  let fed := fun (t : Nat) => es.any fun e => e.2.2 = 2 && e.1 = s.nodeKey 2 t
  (s.waiters.map fun x => s.node 1 x.1 (s.tile x.1).state ((s.tile x.1).pc % 0x8000 + x.2.2 * 2 ^ 32)) ++
  (toks.map fun t => s.node 2 t (b2n (fed t)) (s.token t).val.toNat) ++
  (s.inForce.map fun x => s.node 3 (streamId x.1 x.2) (if x.2.moving then 2 else 1) (stN x.2.entry - x.2.done.length)) ++
  (s.dueTrains.map fun x => s.node 4 (trainId x.1 x.2) 0 x.2.release) ++
  (s.queuedMsgs.map fun x => s.node 5 (msgNodeId x.1 x.2) 0 (x.2.packets - x.2.next)) ++
  ((List.range 5).map fun u => s.node 6 u (b2n (s.throttled u)) (s.inj u).cells.length) ++
  (portVcs.map fun x => s.node 7 (x.1 + x.2 * 8) (b2n (bitAt (s.r (Reg.lnUschedStatus x.1)) 1)) (s.r (Reg.lnCredit x.1 x.2)).toNat) ++
  (portVcs.map fun x => s.node 8 (x.1 + x.2 * 8) 0 (s.rxCells x.1 x.2).length) ++
  ((es.filter fun e => e.2.1.1 = 8 ∧ e.2.1.2.2 ≠ s.modNum).map fun e => ⟨8, e.2.1.2.1, 0, 0, e.2.1.2.2⟩).eraseDups

/-- Edges that lead somewhere: those into a node with no way out are dropped until none is left. -/
def trimEdges : Nat → List (Nat × Nat) → List (Nat × Nat)
  | 0, es => es
  | n + 1, es =>
    let fs := es.filter fun e => es.any fun f => f.1 = e.2
    if fs.length = es.length then es else trimEdges n fs

/-- The node reached from `x` after `n` edges. -/
def followEdges (es : List (Nat × Nat)) : Nat → Nat → Nat
  | 0, x => x
  | n + 1, x => match es.find? fun e => e.1 = x with
    | some e => followEdges es n e.2
    | none => x

/-- A node on a cycle, if there is one. -/
def cycleNode (es : List (Nat × Nat)) : Option Nat :=
  match trimEdges es.length es with
  | [] => none
  | e :: fs => some (followEdges (e :: fs) (fs.length + 1) e.1)

/-- The words of a graph built from `start` on for `reason` (R563). -/
def State.graphWords (s : State) (start reason : Nat) : List W64 :=
  let es := s.graphEdges
  let ns := s.graphNodes es
  let nodes := ns.take 8192
  let keys := nodes.map WfgNode.key
  let ixs := es.filterMap fun e => match keys.idxOf? e.1, keys.idxOf? e.2.1 with
    | some a, some b => some (a, b, e.2.2)
    | _, _ => none
  let edges := ixs.take 16384
  let cut := decide (nodes.length < ns.length) || decide (edges.length < es.length)
  let cyc := cycleNode (edges.map fun e => (e.1, e.2.1))
  let head := BitVec.ofNat 512 (0x47574648 + atByte 4 2 1 + atByte 6 2 reason + atByte 8 8 start + atByte 16 8 s.now +
    atByte 24 2 nodes.length + atByte 26 2 edges.length + atByte 28 1 (b2n cut + 2 * b2n cyc.isSome) + atByte 30 2 (cyc.getD 0) +
    atByte 32 2 s.modNum)
  (List.range 8).map (fun k => BitVec.ofNat 64 (fld head (64 * k) 64)) ++
    nodes.flatMap (fun n => [BitVec.ofNat 64 (atByte 0 1 n.kind + atByte 1 1 n.state + atByte 2 2 n.module + atByte 4 4 n.id),
      BitVec.ofNat 64 n.value]) ++
    edges.map fun e => BitVec.ofNat 64 (atByte 0 2 e.1 + atByte 2 2 e.2.1 + atByte 4 1 e.2.2)

/-- A graph is held that keeps an automatic trigger from building another (R562). -/
def State.graphFresh (s : State) : Bool :=
  match s.wfg.heldAt with
  | some t => decide (s.clk < t + 3125000000)
  | none => false

/-- A build starts, or WFG_BUSY (R562). -/
def State.graphBuild (s : State) (reason : Nat) (busy : Bool) : State :=
  if busy then s.note 0 Ev.wfgBusy [reason]
  else ((s.withWfg { s.wfg with building := some (s.now, reason) }).wf Reg.saWfgStatus 0 2 1).wf Reg.saWfgStatus 16 16 reason

/-- A write of `v` to `SA.WFG_CTRL` (R562, R564): RELEASE first, then BUILD. -/
def State.writeWfgCtrl (s : State) (v : W32) : State :=
  let s := s.write32 Reg.saWfgCtrl v
  let s := if bitAt v 2 then
      let s := s.withWfg { s.wfg with words := [], heldAt := none }
      if s.wfg.building.isSome then s else s.w Reg.saWfgStatus 0
    else s
  if bitAt v 0 then s.graphBuild 0 s.wfg.building.isSome else s

/-- WFG_BUILD (R562): where `auto`, SA takes up the first automatic trigger; otherwise a write of BUILD. -/
def execWfgBuild (auto : Bool) (i : Iface) (v : W32) (s : State) : Res :=
  s.act <|
    if auto then
      match s.wfg.due with
      | [] => s
      | c :: cs => (s.withWfg { s.wfg with due := cs }).graphBuild c (s.wfg.building.isSome || s.graphFresh)
    else s.regWrite i Reg.saWfgCtrl false fun s => s.writeWfgCtrl (setFld v 0 1 1)

/-- WFG_BUILT (R562): the build completes; its graph replaces the one held. -/
def execWfgBuilt (s : State) : Res :=
  s.act <|
    match s.wfg.building with
    | none => s
    | some (start, reason) =>
      let ws := s.graphWords start reason
      let s := s.withWfg { s.wfg with words := ws, heldAt := some s.clk, building := none }
      (s.w Reg.saWfgStatus (BitVec.ofNat 64 (2 + reason % 65536 * 65536 + 8 * ws.length * 2 ^ 32))).note 0 Ev.wfgBuilt
        [reason, 8 * ws.length]

/-- WFG_RELEASE (R564): a write of RELEASE. -/
def execWfgRelease (i : Iface) (v : W32) (s : State) : Res :=
  s.act <| s.regWrite i Reg.saWfgCtrl false fun s => s.writeWfgCtrl (setFld v 2 1 1)

/-- `SA.WFG_RD_DATA` as it reads now: 0 beyond the graph. -/
def State.wfgWord (s : State) : W64 := s.wfg.words.getD (s.rf Reg.saWfgRdIndex 0 16) 0

/-- The index advances. -/
def State.wfgNext (s : State) : State := s.wf Reg.saWfgRdIndex 0 16 (s.rf Reg.saWfgRdIndex 0 16 + 1)

/-- WFG_READ (R564, R580): the access that includes bits [63:32] advances the index. -/
def execWfgRead (i : Iface) (wide hi : Bool) (s : State) : Res :=
  s.act <| s.regRead i (Reg.saWfgRdData + (if !wide && hi then 4 else 0)) wide fun s =>
    (if wide then s.wfgWord else BitVec.ofNat 64 (halfOf hi s.wfgWord), if wide || hi then s.wfgNext else s)

end Sys2Proof.Machine
end

