-- ==== Sys2Proof/Machine/LockStep.lean ====
section
/-!
DEFINITION. Lock-step: frames, newts and what SA latches (R454 to R459).
-/
namespace Sys2Proof.Machine
open Sys2Proof

/-! ## Newts (R456) -/

/-- The twin's coordinates. -/
def State.twinCoords (s : State) (p : Nat) : Nat := s.rf (Reg.saModnumMap (fld (s.ls p).ctrl 32 12)) 0 15

/-- Send a LOCKSTEP newt of partition `p` to the twin. -/
def State.lsSend (s : State) (p kind f rest : Nat) : State :=
  let body := atByte 0 1 kind + atByte 1 1 p + atByte 2 2 (fld (s.ls p).ctrl 16 16) + atByte 4 8 f + rest * 2 ^ 96
  (s.originateRouted 0x21 (s.twinCoords p) (body % 2 ^ 384)).2

/-- A train record of a TRAIN newt. -/
def trainRec (t : LsTrain) : Nat := atByte 0 4 t.train + atByte 4 4 t.crc + atByte 8 2 t.nm1

/-- TRAIN newts of up to three records. -/
def State.sendTrains (s : State) (p f port : Nat) : Nat → List LsTrain → State
  | 0, _ => s
  | n + 1, ts =>
    match ts.take 3 with
    | [] => s
    | xs => (s.lsSend p 2 f (port + xs.length * 256 + packLE 80 (xs.map trainRec) * 65536)).sendTrains p f port n (ts.drop 3)

/-! ## Comparison (R457, R458) -/

/-- STATE becomes DIVERGED and the divergence is recorded (R458); with STOP_ON_DIVERGE the partition stops. -/
def State.lsDiverged (s : State) (p f port : Nat) (train : Option Nat) : State :=
  let s := s.updLs p fun x => { x with narrowing := none, left := [] }
  let s := s.wf (Reg.saLsStatus p) 0 2 3
  let s := match train with
    | some t => (s.wf (Reg.saLsDivInfo p) 3 1 1).wf (Reg.saLsDivInfo p) 4 20 t
    | none => s
  let c := s.r (Reg.saLsDivCrc p)
  let s := s.noteP 0 p Ev.lockstepDiverged [f, port, train.getD 0, fld c 0 32, fld c 32 32]
  if bitAt (s.ls p).ctrl 1 then s.hostStop p else s

/-- A twin frame is compared with the own frame `o` of the same index. No train can be known where one side's log has none (R458). -/
def State.lsCompare (s : State) (p : Nat) (o t : LsFrame) : State :=
  let s := s.updLs p fun x => { x with own := x.own.erase o, twin := x.twin.erase t }
  if o.digs = t.digs then
    s.wf (Reg.saLsStatus p) 32 32 (satInc32 (s.rf (Reg.saLsStatus p) 32 32))
  else
    let s := s.wf (Reg.saLsGaps p) 32 32 (satInc32 (s.rf (Reg.saLsGaps p) 32 32))
    if (s.ls p).narrowing ≠ none ∨ s.lsState p = 3 then s
    else
      let dig := fun (x : LsFrame) k => fld x.digs (32 * k) 32
      let port := ((List.range 6).find? fun k => dig o k != dig t k).getD 0
      let s := s.w (Reg.saLsDivFrame p) (BitVec.ofNat 64 o.f)
      let s := s.w (Reg.saLsDivInfo p) (BitVec.ofNat 64 port)
      let s := s.w (Reg.saLsDivCrc p) (BitVec.ofNat 64 (fld o.digs (32 * port) 32 + fld t.digs (32 * port) 32 * 2 ^ 32))
      let ts := (s.ls p).trains.filter fun x => x.port = port ∧ x.f = o.f
      let s := s.updLs p fun x => { x with narrowing := some (o.f, port), left := ts }
      let s := s.sendTrains p o.f port 4096 ts
      if ts = [] ∨ bitAt t.ports port = false then s.lsDiverged p o.f port none else s

/-- The frames of both sides that can now be compared (R457), after a divergence as well, for FRAMES_DIVERGED (R458; log 97). -/
def State.lsMatch (s : State) (p : Nat) : State :=
  if s.lsState p < 2 then s
  else s.each (fun t s =>
    if s.lsState p < 2 then s
    else match (s.ls p).own.find? fun o => o.f == t.f with
      | some o => s.lsCompare p o t
      | none => s) (s.ls p).twin

/-- The frame that has just ended is closed: its digests are kept, and sent to the twin. -/
def State.lsClose (s : State) (p f : Nat) : State :=
  let x := s.ls p
  let dig := packLE 32 ((List.range 6).map fun k => crcDone (SMap.get (fun _ => 0) x.cur k))
  let ports := packLE 1 ((List.range 6).map fun k => b2n (decide (SMap.get (fun _ => 0) x.cur k ≠ 0)))
  let fr : LsFrame := ⟨f, BitVec.ofNat 192 dig, BitVec.ofNat 6 ports⟩
  let s := s.setLs p { x with cur := [], own := x.own ++ [fr] }
  (s.lsSend p 1 f (dig + ports * 2 ^ 192)).lsMatch p

/-- Frame `f` is overdue: not compared, counted and recorded (R457). -/
def State.lsGap (s : State) (p f : Nat) : State :=
  let old := (s.ls p).own.filter fun o => o.f ≤ f
  let s := s.updLs p fun x => { x with own := x.own.filter fun o => f < o.f, twin := x.twin.filter fun t => f < t.f }
  if 2 ≤ s.lsState p then
    s.each (fun _ s => ((s.wf (Reg.saLsGaps p) 0 32 (satInc32 (s.rf (Reg.saLsGaps p) 0 32))).report
      { code := Ev.lockstepGap, die := 0, part := p, items := [f], unit := p, every := 3125000 })) old
  else s

/-- A divergence whose trains the twin has not named by the end of own frame F + 256 shows none (R457, R458; log 97). -/
def State.lsGiveUp (s : State) (p k : Nat) : State :=
  match (s.ls p).narrowing with
  | some (f, port) => if f + 257 ≤ k then s.lsDiverged p f port none else s
  | none => s

/-- LOCKSTEP_FRAME_SEND (R456 to R458): at a frame start, the frame that ends is closed and sent where partition `p` ran in it, a START
goes out in frames 0 to 15, and the frame of 256 before is judged. -/
def execLockstepFrameSend (p : Fin 16) (s : State) : Res :=
  s.act <|
    let l := (s.part p).lastLaunch
    let runs := decide (s.partState p = 3)
    if s.lsState p = 0 ∨ s.now < l ∨ (s.now - l) % 4096 ≠ 0 ∨ (runs = false ∧ (s.ls p).ran = false ∧ (s.ls p).narrowing = none) then s
    else
      let k := (s.now - l) / 4096
      let s := if k ≠ 0 ∧ (runs = true ∨ (s.ls p).ran = true) then s.lsClose p (k - 1) else s
      let s := s.updLs p fun x => { x with ran := runs }
      let s := if k ≤ 15 ∧ runs = true then s.lsSend p 3 k (s.activeDigest p) else s
      (if 257 ≤ k then s.lsGap p (k - 257) else s).lsGiveUp p k

/-- A START has arrived (R457). -/
def State.lsStart (s : State) (p : Nat) (digest : Nat) : State :=
  if digest = s.activeDigest p then (if s.lsState p = 1 then (s.wf (Reg.saLsStatus p) 0 2 2).lsMatch p else s)
  else (s.wf (Reg.saLsStatus p) 0 2 0).noteP 0 p Ev.lockstepImageDiffers []

/-- The records of a TRAIN newt narrow the divergence (R458): the first train whose CRC-32 differs, or that one side alone has, is latched.
`last`: a newt of fewer than three records, the twin's last for the frame (log 97). -/
def State.lsTrains (s : State) (p f port : Nat) (last : Bool) : List Nat → State
  | [] =>
    match (s.ls p).narrowing, (s.ls p).left with
    | some x, [] => if x = (f, port) then s.lsDiverged p f port none else s
    | some x, t :: _ => if last && x == (f, port) then s.lsDiverged p f port (some t.train) else s
    | none, _ => s
  | r :: rs =>
    if (s.ls p).narrowing ≠ some (f, port) then s
    else
      let train := r % 2 ^ 20
      let crc := r / 2 ^ 32 % 2 ^ 32
      match (s.ls p).left.find? fun t => t.train == train with
      | some t =>
        if t.crc = crc ∧ t.nm1 = r / 2 ^ 64 % 2 ^ 16 then
          (s.updLs p fun x => { x with left := x.left.erase t }).lsTrains p f port last rs
        else s.lsDiverged p f port (some train)
      | none => s.lsDiverged p f port (some train)

/-- A LOCKSTEP newt whose origin, PARTITION and PAIR_ID match LS_CTRL of `p` (R456). -/
def State.lsMatches (s : State) (p : Nat) (n : Newt) : Bool :=
  let c := (s.ls p).ctrl
  fld c 16 16 == nwBody n 2 2 && fld c 32 12 == nwOrigin n && fld c 44 4 == nwBody n 1 1 % 16

/-- LOCKSTEP_NEWT (R456 to R458): a LOCKSTEP newt has reached SA. One that matches no twin is counted for every running lock-step
(log 43). -/
def execLockstepNewt (n : Newt) (s : State) : Res :=
  s.act <|
    let live := (List.range 16).filter fun p => s.lsState p ≠ 0
    if nwType n ≠ 0x21 ∨ nwScope n ≠ 1 ∨ nwDst n ≠ s.coords then s
    else
      match firstP (fun p => s.lsMatches p n) live with
      | none =>
        s.each (fun p s => s.wf (Reg.saLsGaps p) 0 32 (satInc32 (s.rf (Reg.saLsGaps p) 0 32))) live
      | some p =>
        let f := nwBody n 4 8
        match nwBody n 0 1 with
        | 1 =>
          let t : LsFrame := ⟨f, BitVec.ofNat 192 (nwBody n 12 24), BitVec.ofNat 6 (nwBody n 36 1)⟩
          (s.updLs p fun x => { x with twin := x.twin ++ [t] }).lsMatch p
        | 2 =>
          let k := nwBody n 13 1
          s.lsTrains p f (nwBody n 12 1) (decide (k < 3)) ((unpackLE 80 (if k ≤ 3 then k else 3) (nwBody n 14 30)))
        | 3 => s.lsStart p (nwBody n 12 32)
        | _ => s

/-- LOCKSTEP_NO_PARTNER (R457): no START by the end of frame 255. -/
def execLockstepNoPartner (p : Fin 16) (s : State) : Res :=
  s.act <|
    if s.lsState p = 1 ∧ (s.part p).lastLaunch + 256 * 4096 ≤ s.now then
      (s.wf (Reg.saLsStatus p) 0 2 0).noteP 0 p Ev.lockstepNoPartner []
    else s

end Sys2Proof.Machine
end

