-- ==== Sys2Proof/Machine/Vector.lean ====
section
/-!
DEFINITION. Vector instructions: lane arithmetic, moves, conversion, reductions, long accumulators, sorting and random
numbers (R123 to R136, R153 to R160, R164 to R166).
-/
namespace Sys2Proof.Machine
open Sys2Proof

/-! ## Lane operations -/

/-- A signed 32-bit result and INT_OVERFLOW on a wrap (R123). -/
def wrap32 (x : Int) : Nat × Nat := (enc 32 x, if x < -(2 ^ 31 : Int) ∨ (2 ^ 31 : Int) ≤ x then fIntOver else 0)

/-- VFP and VFPS by FN (R154). -/
def vfpOp (fn a b c : Nat) : Nat × Nat :=
  match fn with
  | 0 => fAdd a b
  | 1 => fSub a b
  | 2 => fMul a b
  | 3 => fFma a b c
  | 4 => fDiv a b
  | 5 => fSqrt a
  | 6 => (fMin a b, 0)
  | 7 => (fMax a b, 0)
  | 8 => (if isNan32 a then nan32 else a % 2 ^ 31, 0)
  | 9 => (if isNan32 a then nan32 else fFlip a, 0)
  | 10 => fRcpe a
  | 11 => fRsqe a
  | 12 => fExp2e a
  | 13 => fLog2e a
  | 14 => (b2n (fLt a b), 0)
  | 15 => (b2n (fEq a b), 0)
  | _ => (b2n (fLt a b || fEq a b), 0)

/-- VINT and VINTS by FN (R155). -/
def vintOp (fn a b c : Nat) : Nat × Nat :=
  let x := sgn 32 a
  let y := sgn 32 b
  let n := b % 32
  match fn with
  | 0 => wrap32 (x + y)
  | 1 => wrap32 (x - y)
  | 2 => wrap32 (x * y)
  | 3 => (Nat.land a b, 0)
  | 4 => (Nat.lor a b, 0)
  | 5 => (Nat.xor a b, 0)
  | 6 => (a * 2 ^ n % 2 ^ 32, 0)
  | 7 => (a / 2 ^ n, 0)
  | 8 => (enc 32 (x / (2 ^ n : Nat)), 0)
  | 9 => (if x ≤ y then a else b, 0)
  | 10 => (if x ≤ y then b else a, 0)
  | 11 => (Nat.min a b, 0)
  | 12 => (Nat.max a b, 0)
  | 13 => (if c % 2 = 1 then a else b, 0)
  | 14 => (b2n (a == b), 0)
  | 15 => (b2n (decide (x < y)), 0)
  | _ => (b2n (decide (a < b)), 0)

/-- Three lists lane by lane. -/
def zip3 (f : Nat → Nat → Nat → α) : List Nat → List Nat → List Nat → List α
  | a :: as, b :: bs, c :: cs => f a b c :: zip3 f as bs cs
  | _, _, _ => []

/-- The flags of the active lanes, ORed (R153). -/
def maskFlags (m : List Bool) (rs : List (Nat × Nat)) : Nat :=
  orAll (List.zipWith (fun b r => if b then r.2 else 0) m rs)

/-- Vector results written to the active lanes of `vd`, with the flags they raise; then retirement (R135, R153). -/
def State.vecLanes (s : State) (t vd : Nat) (m : List Bool) (rs : List (Nat × Nat)) (differ : Bool) : State :=
  (s.updTile t fun x => (x.setV vd (ofLanes (blend m (rs.map (·.1)) (lanes (x.v vd))))).flag (maskFlags m rs)).vecDone
    t differ [.vreg vd]

/-- A lane operation on a, b and c under the word's mask. -/
def State.vecOp (s : State) (t : Nat) (w : W64) (x : Tile) (op : Nat → Nat → Nat → Nat × Nat) (b : List Nat)
    (differ : Bool) : State :=
  s.vecLanes t (vVd w) (x.mask (vMen w) (vMsel w)) (zip3 op (lanes (x.v (vVa w))) b (lanes (x.v (vVc w)))) differ

/-- RS[31:0] in every lane. -/
def splat (x : Tile) (w : W64) : List Nat := List.replicate 256 (fld (x.s (vRs w)) 0 32)

/-- VFP (R154). -/
def execVfp (t : Fin 768) (w : W64) (differ : Bool) (s : State) : Res :=
  s.act <| s.issue t 0x40 w fun x s => s.vecOp t w x (vfpOp (vFn w)) (lanes (x.v (vVb w))) differ

/-- VFPS (R154). -/
def execVfps (t : Fin 768) (w : W64) (differ : Bool) (s : State) : Res :=
  s.act <| s.issue t 0x41 w fun x s => s.vecOp t w x (vfpOp (vFn w)) (splat x w) differ

/-- VINT (R155). -/
def execVint (t : Fin 768) (w : W64) (differ : Bool) (s : State) : Res :=
  s.act <| s.issue t 0x42 w fun x s => s.vecOp t w x (vintOp (vFn w)) (lanes (x.v (vVb w))) differ

/-- VINTS (R155). -/
def execVints (t : Fin 768) (w : W64) (differ : Bool) (s : State) : Res :=
  s.act <| s.issue t 0x43 w fun x s => s.vecOp t w x (vintOp (vFn w)) (splat x w) differ

/-- VMOV by FN (R156): the source lanes are read wholly before the write. -/
def vmovLanes (x : Tile) (w : W64) : List Nat :=
  let a := lanes (x.v (vVa w))
  match vFn w with
  | 0 => a
  | 1 => splat x w
  | 2 => List.range 256
  | _ => (lanes (x.v (vVb w))).map fun i => a.getD (i % 256) 0

/-- VMOV (R156). -/
def execVmov (t : Fin 768) (w : W64) (differ : Bool) (s : State) : Res :=
  s.act <| s.issue t 0x44 w fun x s =>
    s.vecLanes t (vVd w) (x.mask (vMen w) (vMsel w)) ((vmovLanes x w).map fun v => (v, 0)) differ

/-! ## Conversion (R158) -/

/-- The rounding mode in use (R129). -/
def Tile.rmode (x : Tile) (w : W64) : Nat := if vRm w = 7 then fld x.fpCtrl 0 3 else vRm w

/-- The random word of lane `i` under SR (R133, R158). -/
def Tile.drawAt (x : Tile) (c3 r i : Nat) : Nat :=
  let p := ((x.s r).toNat + i) % 2 ^ 64
  philoxWord x.seed p (fld (x.s (r + 1)) 0 32) c3

/-- Elements of `wid` bits of a part of a packed vector, the lowest first, `n` of them (R111, R158). -/
def partElems (v : Vec) (part wid n : Nat) : List Nat := unpackLE wid n (v.toNat / 2 ^ (part * 256 * wid))

/-- A vector with `n` elements of `wid` bits of a part replaced. -/
def setPart (v : Vec) (part wid : Nat) (xs : List Nat) : Vec := setFld v (part * 256 * wid) (xs.length * wid) (packLE wid xs)

/-- The 256 narrowed elements of va and their flags, and the scales of the blocks with their flags. -/
def narrow (x : Tile) (w : W64) (m : List Bool) : List (Nat × Nat) × List (Nat × Bool) :=
  let k := vFmtd w
  let mode := x.rmode w
  let a := lanes (x.v (vVa w))
  let draw := fun i => if mode = 4 then x.drawAt 0 (vVc w) i else 0
  if isMx k then
    let blk := fun b => (a.drop (32 * b)).take 32
    let act := fun b => (List.zipWith (fun (v : Nat) g => if g then v else 0) (blk b) ((m.drop (32 * b)).take 32))
    let scales := (List.range 8).map fun b => mxScale k (act b)
    let zeros := (List.range 8).map fun b => (act b).all fun v => v % 2 ^ 31 == 0
    (List.zipWith (fun i v =>
        let sc := scales.getD (i / 32) (0, false)
        if sc.2 || zeros.getD (i / 32) false then (0, 0) else toMx k mode (draw i) sc.1 v) (List.range 256) a, scales)
  else
    let one := fun i v =>
      if k = 1 then toHalf bf16 mode (draw i) (bitAt x.fpCtrl 3) v
      else if k = 2 then toHalf fp16 mode 0 false v
      else toInt (if k = 9 then 8 else 32) mode v
    (List.zipWith one (List.range 256) a, [])

/-- VCVT (R129 to R134, R158). -/
def execVcvt (t : Fin 768) (w : W64) (differ : Bool) (s : State) : Res :=
  s.act <| s.issue t 0x48 w fun x s =>
    let m := x.mask (vMen w) (vMsel w)
    let vd := vVd w
    let part := vVb w
    if vFmtd w ≠ 0 then
      let wid := fmtWidth (vFmtd w)
      let (rs, scales) := narrow x w m
      let old := partElems (x.v vd) part wid 256
      let inv := if scales.any (·.2) then fInvalid else 0
      let s := s.updTile t fun y =>
        (y.setV vd (setPart (y.v vd) part wid (blend m (rs.map (·.1)) old))).flag (Nat.lor (maskFlags m rs) inv)
      if isMx (vFmtd w) then
        (s.updTile t fun y => y.setS (vRs w) (BitVec.ofNat 64 (packLE 8 (scales.map (·.1))))).vecDone t differ
          [.vreg vd, .sreg (vRs w)]
      else s.vecDone t differ [.vreg vd]
    else
      let k := vFmts w
      let es := partElems (x.v (vVa w)) part (fmtWidth k) 256
      let sc := unpackLE 8 8 (x.s (vRs w)).toNat
      s.vecLanes t vd m (List.zipWith (fun i c => toFp32 k (x.rmode w) (sc.getD (i / 32) 0) c) (List.range 256) es) differ

/-! ## Reductions (R124, R159) -/

/-- One level of the pairwise tree. -/
def pairSums : List (Nat × Nat) → List (Nat × Nat)
  | a :: b :: rest => let x := fAdd a.1 b.1; (x.1, Nat.lor (Nat.lor a.2 b.2) x.2) :: pairSums rest
  | xs => xs

/-- The sum of 2^n lanes by the fixed tree. -/
def treeSum : Nat → List (Nat × Nat) → Nat × Nat
  | 0, xs => xs.headD (0, 0)
  | n + 1, xs => treeSum n (pairSums xs)

/-- Active lanes, in order. -/
def activeOf (m : List Bool) (xs : List Nat) : List Nat := (List.zip m xs).filterMap fun p => if p.1 then some p.2 else none

/-- Extremum of a list by a comparison of keys; `d` where it is empty. -/
def extremum (better : Nat → Nat → Bool) (d : Nat) : List Nat → Nat
  | [] => d
  | x :: xs => xs.foldl (fun y z => if better z y then z else y) x

/-- VRED by FN (R159). -/
def vredOp (fn : Nat) (m : List Bool) (xs : List Nat) : Nat × Nat :=
  let act := activeOf m xs
  match fn with
  | 0 => treeSum 8 (List.zipWith (fun b v => (if b then v else 0, 0)) m xs)
  | 1 => (if act.any isNan32 then nan32 else extremum (fun a b => decide (fKey b < fKey a)) 0xFF800000 act, 0)
  | 2 => (if act.any isNan32 then nan32 else extremum (fun a b => decide (fKey a < fKey b)) 0x7F800000 act, 0)
  | 3 => wrap32 ((act.map (sgn 32)).foldl (· + ·) 0)
  | 4 => (extremum (fun a b => decide (sgn 32 b < sgn 32 a)) 0x80000000 act, 0)
  | 5 => (extremum (fun a b => decide (sgn 32 a < sgn 32 b)) 0x7FFFFFFF act, 0)
  | 6 => (act.headD 0, 0)
  | _ => ((act.filter fun v => v % 2 = 1).length, 0)

/-- VRED (R159). -/
def execVred (t : Fin 768) (w : W64) (differ : Bool) (s : State) : Res :=
  s.act <| s.issue t 0x50 w fun x s =>
    let r := vredOp (vFn w) (x.mask (vMen w) (vMsel w)) (lanes (x.v (vVa w)))
    (s.updTile t fun y => (y.setS (vRs w) (BitVec.ofNat 64 r.1)).flag r.2).vecDone t differ [.sreg (vRs w)]

/-! ## Long accumulators (R160) -/

/-- Group `g` is selected (R160). -/
def groupOn (m : List Bool) (g : Nat) : Bool := m.getD (16 * g) false

/-- The groups selected. -/
def groupsOn (m : List Bool) : List Nat := (List.range 16).filter (groupOn m)

/-- The 192 bits of a record in lanes 6g to 6g + 5. -/
def recOf (xs : List Nat) (g : Nat) : Nat := packLE 32 ((xs.drop (6 * g)).take 6)

/-- Groups with an active lane: those that an LADD adds to. -/
def groupsAdded (m : List Bool) : List Nat := (List.range 16).filter fun g => ((m.drop (16 * g)).take 16).any id

/-- VLACC by FN: the tile after it and its destinations. -/
def vlaccOp (x : Tile) (w : W64) : Tile × List Dest :=
  let m := x.mask (vMen w) (vMsel w)
  let gs := groupsOn m
  let va := lanes (x.v (vVa w))
  match vFn w with
  | 0 => (gs.foldl (fun y g => y.setLacc g {}) x, gs.map .lacc)
  | 1 => ((groupsAdded m).foldl (fun y g =>
      y.setLacc g ((y.lacc g).add (activeOf ((m.drop (16 * g)).take 16) ((va.drop (16 * g)).take 16)))) x, (groupsAdded m).map .lacc)
  | 2 =>
    let rs := (List.range 256).map fun l => if l < 16 ∧ groupOn m l = true then (x.lacc l).read else (0, 0)
    ((x.setV (vVd w) (ofLanes (rs.map (·.1)))).flag (orAll (rs.map (·.2))), [.vreg (vVd w)])
  | 3 =>
    let old := lanes (x.v (vVd w))
    let new := (List.range 256).map fun l =>
      if 96 ≤ l then 0
      else if groupOn m (l / 6) then ((x.lacc (l / 6)).record / 2 ^ (32 * (l % 6))) % 2 ^ 32 else old.getD l 0
    (x.setV (vVd w) (ofLanes new), [.vreg (vVd w)])
  | _ => (gs.foldl (fun y g => y.setLacc g ((y.lacc g).merge (recOf va g))) x, gs.map .lacc)

/-- VLACC (R125 to R128, R160). -/
def execVlacc (t : Fin 768) (w : W64) (differ : Bool) (s : State) : Res :=
  s.act <| s.issue t 0x52 w fun x s =>
    let r := vlaccOp x w
    (s.setTile t r.1).vecDone t differ r.2

/-! ## Sort and top-k (R164, R165) -/

/-- Place of a key in the order of R164: FP32 total order with every NaN greatest, or signed. -/
def sortKey (fmts a : Nat) : Int :=
  if fmts = 10 then sgn 32 a else if isNan32 a then 2 ^ 40 else fKey a

/-- Insert keeping equal keys in lane order: before the first element that must come after it. -/
def insertBy (after : Nat × Nat → Nat × Nat → Bool) (x : Nat × Nat) : List (Nat × Nat) → List (Nat × Nat)
  | [] => [x]
  | y :: ys => if after y x then x :: y :: ys else y :: insertBy after x ys

/-- A stable sort of (key, payload) pairs. -/
def sortPairs (fmts : Nat) (desc : Bool) (xs : List (Nat × Nat)) : List (Nat × Nat) :=
  xs.foldl (fun acc x => insertBy (fun y x =>
    if desc then decide (sortKey fmts y.1 < sortKey fmts x.1) else decide (sortKey fmts x.1 < sortKey fmts y.1)) x acc) []

/-- Active or inactive pairs, in lane order. -/
def pairsOf (on : Bool) (m : List Bool) (xs : List (Nat × Nat)) : List (Nat × Nat) :=
  (List.zip m xs).filterMap fun p => if p.1 == on then some p.2 else none

/-- Two destinations of keys and payloads written whole. -/
def State.putPairs (s : State) (t : Nat) (w : W64) (ps : List (Nat × Nat)) (differ : Bool) : State :=
  (s.updTile t fun y => (y.setV (vVd w) (ofLanes (ps.map (·.1)))).setV (vVc w) (ofLanes (ps.map (·.2)))).vecDone t differ
    [.vreg (vVd w), .vreg (vVc w)]

/-- VSORT (R164). -/
def execVsort (t : Fin 768) (w : W64) (differ : Bool) (s : State) : Res :=
  s.act <| s.issue t 0x70 w fun x s =>
    let m := x.mask (vMen w) (vMsel w)
    let ps := List.zip (lanes (x.v (vVa w))) (lanes (x.v (vVb w)))
    s.putPairs t w (sortPairs (vFmts w) (vFn w == 1) (pairsOf true m ps) ++ pairsOf false m ps) differ

/-- VTOPK (R165). Where VD equals VC no rule says which of the two writes stays: that register is a free value (log 66). -/
def execVtopk (t : Fin 768) (w : W64) (differ : Bool) (s : State) : Res :=
  s.act <| s.issue t 0x71 w fun x s =>
    let m := x.mask (vMen w) (vMsel w)
    let k := (x.s (vRs w)).toNat
    let ps := List.zip (lanes (x.v (vVa w))) (lanes (x.v (vVb w)))
    let top := (sortPairs (vFmts w) true (pairsOf true m ps)).take (if 256 < k then 256 else k)
    if vVd w = vVc w then ((State.scramble t (.vreg (vVd w)) s)).vecDone t differ [.vreg (vVd w)]
    else s.putPairs t w (top ++ List.replicate (256 - top.length) (0, 0)) differ

/-! ## Random numbers (R166) -/

/-- UNIF: (r >> 8) × 2^-24 as an FP32 code. -/
def unif (r : Nat) : Nat := (valTo32 0 (.fin false (r / 256) (-24))).1

/-- VRAND (R133, R166). -/
def execVrand (t : Fin 768) (w : W64) (differ : Bool) (s : State) : Res :=
  s.act <| s.issue t 0x78 w fun x s =>
    let rs := (List.range 256).map fun i =>
      let r := x.drawAt 1 (vRs w) i
      (if vFn w = 1 then unif r else r, 0)
    s.vecLanes t (vVd w) (x.mask (vMen w) (vMsel w)) rs differ

end Sys2Proof.Machine
end

