-- ==== Sys2Proof/Machine/Matrix.lean ====
section
/-!
DEFINITION. The matrix engine: MMA, its completion, and the drains (R112 to R122, R167 to R170).
-/
namespace Sys2Proof.Machine
open Sys2Proof

/-! ## Elements and block sums -/

/-- An element as an integer in units of 2^−g of its pairing, or a special value. -/
inductive MEl where
  | nan
  | inf (neg : Bool)
  | num (v : Int)
deriving DecidableEq, Repr

/-- Grid exponent g of one operand: elements are multiples of 2^−g (R114). -/
def gridOf (f : Nat) : Nat := if isMx f then 16 else if f = 1 then 133 else if f = 2 then 24 else 0

/-- A decoded value in units of 2^−g. -/
def inGrid (g : Nat) : FVal → MEl
  | .nan => .nan
  | .inf neg => .inf neg
  | .fin neg m e => let v := ((m * 2 ^ (e + g).toNat : Nat) : Int); .num (if neg then -v else v)

/-- Element `c` of format `f` (R108, R145). -/
def elemOf (f c : Nat) : MEl :=
  if isMx f then inGrid 16 (mxVal f c)
  else if f = 1 then inGrid 133 (bf16.decode c)
  else if f = 2 then inGrid 24 (fp16.decode c)
  else .num (sgn 8 c)

/-- One product. `none`: infinity × 0. -/
def mulEl (a b : MEl) : Option MEl :=
  match a, b with
  | .nan, _ => some .nan
  | _, .nan => some .nan
  | .inf s, .inf t => some (.inf (s != t))
  | .inf s, .num v => if v = 0 then none else some (.inf (s != decide (v < 0)))
  | .num v, .inf s => if v = 0 then none else some (.inf (s != decide (v < 0)))
  | .num v, .num w => some (.num (v * w))

/-- The exact sum S_k of a block (R113) and its special conditions (R115): NaN, invalid, infinite with its sign. -/
structure BlockSum where
  sum : Int := 0
  nan : Bool := false
  zeroInf : Bool := false
  pos : Bool := false
  neg : Bool := false
deriving DecidableEq, Repr

def BlockSum.addProd (b : BlockSum) (p : Option MEl) : BlockSum :=
  match p with
  | none => { b with zeroInf := true }
  | some .nan => { b with nan := true }
  | some (.inf s) => if s then { b with neg := true } else { b with pos := true }
  | some (.num v) => { b with sum := b.sum + v }

def blockSum (fa fb : Nat) (xs ys : List Nat) : BlockSum :=
  let ps := List.zipWith (fun a b => (elemOf fa a, elemOf fb b)) xs ys
  let anyNan := ps.any fun p => p.1 == .nan || p.2 == .nan
  let b := ps.foldl (fun (acc : BlockSum) p => acc.addProd (mulEl p.1 p.2)) {}
  { b with nan := b.nan || anyNan }

/-- A block partial (R113, R115): FP32 code and flags; scales XA and XB (127 without one). -/
def blockPartial (g xa xb : Nat) (b : BlockSum) : Nat × Nat :=
  let inv := if b.zeroInf || (b.pos && b.neg) then fInvalid else 0
  if b.nan || b.zeroInf || (b.pos && b.neg) || xa == 0xFF || xb == 0xFF then (nan32, inv)
  else if b.pos then (fp32.infBits, inv)
  else if b.neg then (fp32.signed true fp32.infBits, inv)
  else if b.sum = 0 then (0, 0)
  else
    let v := fracOf b.sum.natAbs ((xa : Int) - 127 + ((xb : Int) - 127) - 2 * g)
    let x := fp32.round 0 0 (decide (b.sum < 0)) v.1 v.2
    (if x.1 % 2 ^ 31 = 0 then 0 else x.1, Nat.land x.2 (fOverflow + fUnderflow))

/-- FP32 addition in the matrix engine: INVALID, OVERFLOW and UNDERFLOW alone (R117). -/
def accAdd (a b : Nat × Nat) : Nat × Nat :=
  let x := fAdd a.1 b.1
  (x.1, Nat.lor (Nat.lor a.2 b.2) (Nat.land x.2 (fInvalid + fOverflow + fUnderflow)))

/-- The sum G of a group of 8 partials (R117). -/
def groupSum (x : Nat → Nat × Nat) : Nat × Nat :=
  accAdd (accAdd (accAdd (x 0) (x 1)) (accAdd (x 2) (x 3))) (accAdd (accAdd (x 4) (x 5)) (accAdd (x 6) (x 7)))

/-- The accumulator after `n` groups, the first `g` (R117). -/
def groupsFrom (part : Nat → Nat × Nat) (g : Nat) : Nat → Nat × Nat → Nat × Nat
  | 0, acc => acc
  | n + 1, acc => groupsFrom part (g + 1) n (accAdd acc (groupSum fun i => part (8 * g + i)))

/-- INT32 accumulation with wrap (R120). -/
def intBlocks (sums : List Int) (acc : Nat) : Nat × Nat :=
  sums.foldl (fun a v => let x := wrap32 (sgn 32 a.1 + v); (x.1, Nat.lor a.2 x.2)) (acc, 0)

/-! ## Residue check (R121) -/

/-- An element as sign, significand and power of two; 0 for one that is not finite (R121). -/
def elemParts (f c : Nat) : Bool × Nat × Int :=
  let parts : FVal → Bool × Nat × Int
    | .fin neg m e => (neg, m, e)
    | _ => (false, 0, 0)
  if isMx f then parts (mxVal f c)
  else if f = 1 then parts (bf16.decode c)
  else if f = 2 then parts (fp16.decode c)
  else (decide (sgn 8 c < 0), (sgn 8 c).natAbs, 0)

/-- What one product adds to the checker's residue: its significands' product mod 255, rotated by its exponent above the grid. -/
def residueTerm (grid : Int) (a b : Bool × Nat × Int) : Int :=
  let v : Int := (a.2.1 * b.2.1 % 255 * 2 ^ (((a.2.2 + b.2.2 - grid) % 8).toNat) : Nat)
  if a.1 != b.1 then -v else v

/-- The checker's residue R of a block, modulo 255. -/
def residueOf (fa fb : Nat) (xs ys : List Nat) : Nat :=
  let ts := List.zipWith (fun a b => residueTerm (-2 * (gridOf fa : Int)) (elemParts fa a) (elemParts fb b)) xs ys
  ((ts.foldl (· + ·) 0) % 255).toNat

/-- R115 makes the block special. -/
def BlockSum.special (b : BlockSum) (xa xb : Nat) : Bool := b.nan || b.zeroInf || b.pos || b.neg || xa == 0xFF || xb == 0xFF

/-- The residue of the engine's sum N is not the checker's; a special block is not checked. -/
def residueFails (fa fb xa xb : Nat) (xs ys : List Nat) (b : BlockSum) : Bool :=
  !b.special xa xb && (b.sum % 255).toNat != residueOf fa fb xs ys

/-! ## Operand layout (R167) -/

/-- Bytes of one block of a row or column. -/
def blockBytes (f : Nat) : Nat := 4 * fmtWidth f

/-- The 32 elements of row `i`, block `k` of an operand at `base`. -/
def State.operandBlock (s : State) (t f base i k : Nat) : List Nat :=
  unpackLE (fmtWidth f) 32 (s.tLoad t (base + (96 * k + i) * blockBytes f) (blockBytes f))

/-- The scale of row `i`, block `k`. -/
def State.operandScale (s : State) (t f base i k : Nat) : Nat :=
  if isMx f then s.tLoad t (base + 96 * k + i) 1 else 127

/-- Element bases and scale bases of A and B. -/
def elemBase (v : W64) : Nat := fld v 0 23
def scaleBase (v : W64) : Nat := fld v 32 23

/-- How wrong the sum of block `k` of element `l` is. -/
def faultAt (fs : List SumFault) (l k : Nat) : Int := ((fs.filter fun f => f.1 = l ∧ f.2.1 = k).map fun f => f.2.2).sum

/-- Operand codes of block `k` for output element (i, j). -/
def State.mmaBlock (s : State) (t : Nat) (w : W64) (x : Tile) (i j k : Nat) : List Nat × List Nat :=
  (s.operandBlock t (mFmta w) (elemBase (x.s (mRa w))) i k, s.operandBlock t (mFmtb w) (elemBase (x.s (mRb w))) j k)

/-- The engine's sum of block `k` of element (i, j). -/
def State.mmaSum (s : State) (t : Nat) (w : W64) (x : Tile) (fs : List SumFault) (i j k : Nat) : BlockSum :=
  let p := s.mmaBlock t w x i j k
  let b := blockSum (mFmta w) (mFmtb w) p.1 p.2
  { b with sum := b.sum + faultAt fs (96 * i + j) k }

/-- The residue check fails on some block. Where no error has touched a sum its residue is the checker's, so that only the blocks of
`fs` are in question (R121). -/
def State.mmaResidue (s : State) (t : Nat) (w : W64) (x : Tile) (fs : List SumFault) : Bool :=
  fs.any fun f =>
    let (i, j, k) := (f.1.val / 96, f.1.val % 96, f.2.1.val)
    let p := s.mmaBlock t w x i j k
    decide (k < mKblk w) && residueFails (mFmta w) (mFmtb w) (s.operandScale t (mFmta w) (scaleBase (x.s (mRa w))) i k)
      (s.operandScale t (mFmtb w) (scaleBase (x.s (mRb w))) j k) p.1 p.2 (s.mmaSum t w x fs i j k)

/-- One output element of an MMA from its initial pattern. -/
def State.mmaElem (s : State) (t : Nat) (w : W64) (x : Tile) (fs : List SumFault) (i j acc : Nat) : Nat × Nat :=
  let n := mKblk w
  let (fa, fb) := (mFmta w, mFmtb w)
  let (ra, rb) := (x.s (mRa w), x.s (mRb w))
  let sums := s.mmaSum t w x fs i j
  if fa = 9 then intBlocks ((List.range n).map fun k => (sums k).sum) acc
  else
    let part := fun k => if k < n then
        blockPartial (gridOf fa) (s.operandScale t fa (scaleBase ra) i k) (s.operandScale t fb (scaleBase rb) j k) (sums k)
      else (0, 0)
    groupsFrom part 0 ((n + 7) / 8) (acc, 0)

/-- The contents of accumulator `a` after every MMA issued so far (R118, R170). -/
def Tile.accNow (x : Tile) (a : Nat) : BitVec 294912 :=
  x.mma.foldl (fun v m => if m.acc = a then m.result else v) (x.acc a)

/-- The 9,216 32-bit patterns of an accumulator, element (i, j) at 96i + j. An MMA reads them as FP32, or as INT32 for INT8 × INT8,
whatever wrote them: a chain that mixes the two is computed on these bits, and nothing detects it (R168). -/
def patterns (v : BitVec 294912) : List Nat := unpackLE 32 9216 v.toNat

/-- The initial patterns (R118, R167). -/
def State.mmaInit (s : State) (t : Nat) (w : W64) (x : Tile) : List Nat :=
  match mInit w with
  | 0 => patterns (x.accNow (mAcc w))
  | 1 => List.replicate 9216 0
  | _ => unpackLE 32 9216 (s.tLoad t (elemBase (x.s (mRc w)) / 64 * 64) 36864)

/-- Bytes of SRAM that an MMA reads. -/
def mmaReads (w : W64) (x : Tile) : List (Nat × Nat) :=
  let n := mKblk w
  let (ra, rb) := (x.s (mRa w), x.s (mRb w))
  [(elemBase ra, 96 * n * blockBytes (mFmta w)), (elemBase rb, 96 * n * blockBytes (mFmtb w))] ++
    (if isMx (mFmta w) then [(scaleBase ra, 96 * n), (scaleBase rb, 96 * n)] else []) ++
    (if mInit w = 2 then [(elemBase (x.s (mRc w)) / 64 * 64, 36864)] else [])

/-- Results of every element and their flags, the linear index 96i + j ascending. -/
def State.mmaAll (s : State) (t : Nat) (w : W64) (x : Tile) (fs : List SumFault) : List (Nat × Nat) :=
  List.zipWith (fun l a => s.mmaElem t w x fs (l / 96) (l % 96) a) (List.range 9216) (s.mmaInit t w x)

/-! ## Instructions -/

/-- MMA (R110 to R122, R167, R168, R170): operands are read and the result formed in program order; the accumulator takes it
at MMA_COMPLETE. A third MMA waits. `fs`: errors that the engine's block sums meet. -/
def execMma (t : Fin 768) (w : W64) (ecc : Ecc) (fs : List SumFault) (s : State) : Res :=
  s.act <| s.issue t 0x80 w fun x s =>
    if 2 ≤ x.mma.length then s
    else s.reading t ecc (mmaReads w x) fun s =>
      let rs := s.mmaAll t w x fs
      let begins := x.mma.foldl (fun b m => if b < m.done then m.done else b) (s.lctOf t)
      let m : MmaRun := { acc := mAcc w, done := begins + (latencyRow w 1).2.2, flags := orAll (rs.map (·.2)), bad := s.mmaResidue t w x fs
                          result := BitVec.ofNat 294912 (packLE 32 (rs.map (·.1))) }
      (s.updTile t fun y => { y with mma := y.mma ++ [m] }).advance t

/-- MMA_COMPLETE (R113 to R122, R170): at the end of the oldest MMA's occupancy; `differ` that the duplicate check fails. With that or a
residue that did not match, the accumulator is unpredictable, the tile stops, and an MMA that waits never runs. -/
def execMmaComplete (t : Fin 768) (differ : Bool) (s : State) : Res :=
  s.act <|
    match (s.tile t).mma with
    | [] => s
    | m :: ms =>
      if s.lctOf t < m.done then s
      else
        let s := s.updTile t fun y => (({ y with mma := ms }).setAcc m.acc m.result).flag m.flags
        if differ || m.bad then
          ((State.scramble t (.acc m.acc) s).updTile t fun y => { y with mma := [] }).tileFault t Ev.matrixResidue []
        else s

/-- An MMA on the accumulator has not completed (R170). -/
def Tile.accBusy (x : Tile) (a : Nat) : Bool := x.mma.any fun m => m.acc == a

/-- DRAIN (R169, R170): waits for every earlier MMA on its accumulator. -/
def execDrain (t : Fin 768) (w : W64) (s : State) : Res :=
  s.act <| s.issue t 0x81 w fun x s =>
    if x.accBusy (mAcc w) then s
    else (s.tStore t (elemBase (x.s (mRc w)) / 64 * 64) 36864 (x.acc (mAcc w)).toNat).advance t

/-- DRAINV (R169, R170): elements 256 × KBLK + l to lane l; the last slice's elements are all within the accumulator. -/
def execDrainv (t : Fin 768) (w : W64) (s : State) : Res :=
  s.act <| s.issue t 0x82 w fun x s =>
    if x.accBusy (mAcc w) then s
    else (s.updTile t fun y => y.setV (mVd w) (BitVec.ofNat 8192 ((x.acc (mAcc w)).toNat / 2 ^ (8192 * mKblk w)))).advance t

end Sys2Proof.Machine
end

