-- ==== Sys2Proof/Machine/RegPut.lean ====
section
/-!
DEFINITION. What a register does with a value written to it, once the write is permitted (R7, R23, R48, R65, R75, R196, R210, R344,
R435, R524, R555, R580): the registers of the transaction engine and of the stage follow in Txn.
-/
namespace Sys2Proof.Machine
open Sys2Proof

/-- The state a meaning answers. -/
def afterRes (s : State) : Res → State
  | .next t => t
  | _ => s

/-- WTB_INCR within 0.32 ns ± 500 ppm (R65). -/
def wtbIncrOk (x : Nat) : Bool := decide (8 * 2 ^ 40 * 9995 ≤ x * 250000) && decide (x * 250000 ≤ 8 * 2 ^ 40 * 10005)

/-- A partition whose image uses port `p` is launched, armed or running, or a grant on the port is in force (R196). -/
def State.lineClassBusy (s : State) (p : Nat) : Bool :=
  ((List.range 16).any fun q =>
    let x := s.part q
    let uses := fun (im : Option Image) => match im with
      | some im => bitAt im.header (120 + p)
      | none => false
    (uses x.active || uses x.standby) && (decide (2 ≤ s.partState q ∧ s.partState q ≤ 4) || !x.armed.isEmpty)) ||
  (((List.range 16).drop 1).any fun g => bitAt (s.r (Reg.saGrant g)) 6 && bitAt (s.r (Reg.saGrant g)) p)

/-- Why register `k` does not take the value `new`: its rule's code. -/
def State.putCode (s : State) (k : Nat) (new : W64) : Option Nat :=
  let w := k / 0x1000000
  let o := k % 0x1000000
  if w = 0 then
    (if 0x200000 ≤ k ∧ k < 0x200100 ∧ s.versionBusy (k % 0x100 / 0x80) = true then some Ev.routeVersionBusy
     else if k = Reg.saAllstopCmd ∧ fld new 0 2 = 3 then some Ev.descReserved
     else none)
  else if w = 1 then
    (if k = Reg.sbTimeCtrl ∧ (6 ≤ fld new 1 3 ∨ 6 ≤ fld new 5 3) then some Ev.timeCtrlRange
     else if k = Reg.sbFtcIncr ∧ incrInRange (fld new 0 48) = false then some Ev.ftcIncrRange
     else if k = Reg.sbWtbIncr ∧ wtbIncrOk (fld new 0 48) = false then some Ev.wtbIncrRange
     else if 0x5000 ≤ o ∧ o < 0x5018 ∧ ¬(fld new 0 8 < fld new 8 8 ∧ fld new 8 8 < fld new 16 8) then some Ev.thermLimitsRange
     else none)
  else if w ≤ 7 then (if 0x100 ≤ o ∧ o < 0x160 ∧ 9 ≤ fld new 4 4 then some Ev.rowMapRange else none)
  else if 16 ≤ w ∧ w ≤ 21 then
    (if o = 0x3000 then
      (if s.lineClassBusy (w - 16) then some Ev.lineClassBusy
       else if fld new 0 10 = 1 ∨ fld new 14 14 < 256 ∨ 12160 < fld new 14 14 then some Ev.lineClassRange
       else none)
     else none)
  else if 32 ≤ w then
    (if o = 0x1008 ∧ (s.bankStandby (w - 22) = 1 ∨ s.bankStandby (w - 22) = 4) then some Ev.ttActiveWrite else none)
  else none

/-- The items recorded with a code of `putCode`. -/
def putItems (k : Nat) (new : W64) : List Nat :=
  let w := k / 0x1000000
  let o := k % 0x1000000
  if w = 0 then (if k < 0x200100 then [0x300000000000 + k] else [])
  else if w = 1 then
    (if k = Reg.sbFtcIncr ∨ k = Reg.sbWtbIncr then [fld new 0 48] else if 0x5000 ≤ o then [(o - 0x5000) / 4] else [])
  else if w ≤ 7 then [w - 4, (o - 0x100) / 4]
  else [w - 16]

/-- Trace registers that hold still while their unit is enabled (R555). -/
def traceHeldOff (o : Nat) : Bool := o == 0x9810 || o == 0x9818 || o == 0x9820 || o == 0x9828 || o == 0x9830

/-- Registers of SA that act when written. -/
def State.putSa (s : State) (i : Iface) (k : Nat) (new : W64) (v : W32) (boot : BitVec 4) : State :=
  if k = Reg.saEpochCmd then afterRes s (execEpochCmd i v s)
  else if k = Reg.saEvlogCtrl then afterRes s (execClearFirst i v s)
  else if k = Reg.saAllstopCmd then afterRes s (execAllstopCmd i v s)
  else if k = Reg.saPlRequest then afterRes s (execPlRequestWrite i v s)
  else if k = Reg.saPmRequest then afterRes s (execPmRequestWrite i v s)
  else if k = Reg.saResetCmd then
    (if fld v 0 3 = 1 then afterRes s (execColdReset false i v boot s) else s.resetCmd i (fld v 0 3) v boot)
  else if k = Reg.saMarginCtrl then afterRes s (execReplan false i v s)
  else if 0x300100 ≤ k ∧ k < 0x300180 then
    (if h : (k - 0x300100) / 8 < 16 then afterRes s (execRotaHalt i ⟨(k - 0x300100) / 8, h⟩ v s) else s)
  else if k = Reg.saCtrSnapCmd then afterRes s (execCtrSnapGo i v s)
  else if k = Reg.saDumpCtrl then s.writeDumpCtrl v
  else if k = Reg.saWfgCtrl then s.writeWfgCtrl v
  else s.w k new

/-- Registers of SB that act when written; `x` is the register as a reader would see the written bits merged in. -/
def State.putSb (s : State) (i : Iface) (k : Nat) (new x : W64) (v : W32) : State :=
  if k = Reg.sbTimeCtrl then (if bitAt v 12 then afterRes s (execTimeRestart i v s) else afterRes s (execTimeCtrlWrite i v s))
  else if k = Reg.sbFtcIncr then s.writeIncr (fld x 0 48)
  else if k = Reg.sbFtcStep then s.writeStep x
  else if k = Reg.sbWtbLoadNs then afterRes s (execWtbLoadGo i x s)
  else if k = Reg.sbSaHeartbeat then afterRes s (execSaHeartbeat i v s)
  else s.w k new

/-- Registers of C-die `c` that act when written. -/
def State.putC (s : State) (i : Iface) (c k : Nat) (new : W64) (v : W32) : State :=
  let o := k % 0x1000000
  if 0x100 ≤ o ∧ o < 0x160 then s.writeRowMap c ((o - 0x100) / 4) v
  else if k = Reg.cnTraceCtrl c then
    (if h : c < 4 then (if bitAt v 0 then afterRes s (execTraceEnable i ⟨c, h⟩ v s) else s.writeTraceCtrl c v) else s)
  else if traceHeldOff o && s.traceOn c then s.note (cDie c) Ev.traceBusy [c]
  else s.w k new

/-- Registers of port `p` that act when written (R196, R210, R435). -/
def State.putL (s : State) (p k : Nat) (new : W64) (v : W32) : State :=
  let o := k % 0x1000000
  if o = 0x1000 then s.writeLinkCtrl p v
  else if o = 0x3000 then
    (s.w k new).invalidate (fun im => bitAt im.header (120 + p) &&
      (imgK im.header p != fld new 0 10 || imgAllow im.header p != fld new 14 14)) Ev.ttClassMismatch
  else if 0x8000 ≤ o ∧ o < 0xA000 ∧ o / 4 % 16 = 15 then s
  else if k = Reg.lnExpect p then (s.w k new).updPort p fun x => { x with expectLost := false }
  else s.w k new

/-- Register `k` takes the write `v` over the bits `m`: `new` is what it then holds, where it does not act, `x` the written bits in place. -/
def State.putIn (s : State) (i : Iface) (k m : Nat) (new x v : W64) (boot : BitVec 4) : State :=
  let w := k / 0x1000000
  let v32 : W32 := v.setWidth 32
  if w = 0 then s.putSa i k new v32 boot
  else if w = 1 then s.putSb i k new x v32
  else if w ≤ 7 then s.putC i (w - 4) k new v32
  else if w ≤ 11 then s.w k new
  else if w ≤ 21 then s.putL (w - 16) k new v32
  else if h : k % 0x1000000 = 0x1008 ∧ w - 32 < 16 then
    afterRes s (execStIndDataAccess i ⟨w - 32, h.2⟩ (decide (m = 2 ^ 64 - 1)) (decide (2 ^ 32 ≤ m)) true
      (if 2 ^ 32 ≤ m ∧ m ≠ 2 ^ 64 - 1 then v >>> 32 else v) s)
  else s.w k new

/-- The written bits of an access in their place. -/
def State.written (s : State) (k m : Nat) (v : W64) : W64 := (s.r k &&& ~~~(BitVec.ofNat 64 m)) ||| (v &&& BitVec.ofNat 64 m)

/-- Register `k`, of row `r`, takes a permitted direct write: `v` in its place, `m` the bits the access covers. -/
def State.put (s : State) (i : Iface) (k : Nat) (r : RegRow) (m : Nat) (v : W64) (boot : BitVec 4) : State :=
  let v := s.under k v
  let new := r.after m (s.setBits k) (s.r k) v
  let x := s.written k m v
  if r.cls = .o then s
  else
    match s.putCode k (if r.wo = 0 then new else x) with
    | some c => s.note (dieOfWindow (k / 0x1000000)) c (putItems k x)
    | none => s.putIn i k m new x v boot

/-- Register `k` takes an entry of a transaction, which its rules have passed over the state that results from all (R529, R530). -/
def State.putEntry (s : State) (k : Nat) (r : RegRow) (m : Nat) (v : W64) : State :=
  if r.cls = .o then s else s.putIn .sa k m (r.after m (s.setBits k) (s.r k) v) (s.written k m v) v 0

/-- The registers an access covers, lower first: key, row, bits covered, the written bits in place (R580). -/
def regParts (key : Nat) (wide : Bool) (v : W64) : List (Nat × RegRow × Nat × W64) :=
  let one := fun (k : Nat) (x : W64) => match coverRow k with
    | some (b, r, hi) => [(b, r, if hi then 0xFFFFFFFF00000000 else 0xFFFFFFFF, if hi then x <<< 32 else x)]
    | none => []
  let lo := v &&& 0xFFFFFFFF
  if wide then
    match coverRow key with
    | some (k, r, false) => if r.width = 64 then [(k, r, 2 ^ 64 - 1, v)] else one key lo ++ one (key + 4) (v >>> 32)
    | _ => one key lo ++ one (key + 4) (v >>> 32)
  else one key lo

/-- Every register an access covers takes its write. -/
def State.putAll (s : State) (i : Iface) (key : Nat) (wide : Bool) (v : W64) (boot : BitVec 4) : State :=
  s.each (fun (x : Nat × RegRow × Nat × W64) s => s.put i x.1 x.2.1 x.2.2.1 x.2.2.2 boot) (regParts key wide v)

end Sys2Proof.Machine
end

