-- ==== Sys2Proof/Machine/Txn.lean ====
section
/-!
DEFINITION. Configuration transactions, protection, fuses and the stage (R526 to R541), with the rules a transaction is checked by
(R196, R211, R403, R404, R419, R505, R553, R567, R568).
-/
namespace Sys2Proof.Machine
open Sys2Proof

/-! ## Entries (R528, R529) -/

/-- Register file key of an entry. -/
def TxnEntry.key (e : TxnEntry) : Nat := e.addr - 0x300000000000

/-- The registers an entry names: key, row, bits covered, the data in place. -/
def TxnEntry.parts (e : TxnEntry) : List (Nat × RegRow × Nat × W64) := regParts e.key e.wide e.data

/-- The entry names register `k`. -/
def TxnEntry.names (e : TxnEntry) (f : Nat → Bool) : Bool := e.parts.any fun x => f x.1

/-- Registers that take direct writes only (R546). -/
def directOnly (k : Nat) : Bool :=
  let w := k / 0x1000000
  let o := k % 0x1000000
  if w = 0 then (0x800000 ≤ o && o < 0x800300) || (0x900000 ≤ o && o < 0x930000)
  else if w < 4 then false
  else if w ≤ 7 then 0x8000 ≤ o && o < 0x98B0
  else if w ≤ 11 then 0x400 ≤ o && o < 0x510
  else if w ≤ 21 then 0x6000 ≤ o && o < 0x6110
  else 0x500 ≤ o && o < 0x544

/-- A transaction from `i` may name a register of class `c` (R579); CABLE_ASYM is class X from elsewhere than SA (R594). -/
def mayName (i : Iface) (k : Nat) (c : RegClass) : Bool :=
  match c with
  | .a => true
  | .x => true
  | .k => true
  | .f => i == .sa || (16 ≤ k / 0x1000000 && k / 0x1000000 ≤ 21 && k % 0x1000000 == 0x200C)
  | .s => i == .sa
  | .d => false
  | .o => false

/-- Why an append is refused, with the register's own code or 0 (R528). -/
def entryRefusal (i : Iface) (e : TxnEntry) : Option Nat :=
  if e.addr < 0x300000000000 ∨ 0x300030000000 ≤ e.addr then some Ev.addrUnmapped
  else if e.key % (if e.wide then 8 else 4) ≠ 0 then some Ev.regAccessAlign
  else if e.parts = [] then some Ev.addrUnmapped
  else if (e.parts.all fun x => x.2.1.rw &&& x.2.2.1 == 0) = true then some 0
  else if (e.parts.any fun x => (BitVec.ofNat 64 (x.2.1.wo ||| x.2.1.w1c ||| x.2.1.w1s) &&& x.2.2.2) != 0) = true then some 0
  else if e.names directOnly then some 0
  else if (e.parts.all fun x => mayName i x.1 x.2.1.cls) = false then some Ev.addrAccessClass
  else none

/-- Registers of the protected set (R533). -/
def TxnEntry.isProtected (e : TxnEntry) : Bool := e.parts.any fun x => x.2.1.cls = .k

/-- The state that results from all entries, with nothing they do (R530). -/
def State.withEntries (s : State) (es : List TxnEntry) : State := s.each (fun e s => s.writeReg e.key e.wide e.data) es

/-! ## The rules of step 7 (R530) -/

/-- The partition registers (R403). -/
def isPartReg (k : Nat) : Bool :=
  let w := k / 0x1000000
  let o := k % 0x1000000
  (w == 0 && ((0x300000 ≤ o && o < 0x300040) || (0x201100 ≤ o && o < 0x201140))) ||
    (4 ≤ w && w ≤ 7 && (o == 0x200 || (0x300 ≤ o && o < 0x340)))

/-- Token blocks, as C-die and index. -/
def tokenBlocks : List (Nat × Nat) := (List.range 64).map fun k => (k / 16, k % 16)

/-- The state is consistent about partitions (R403). -/
def State.partsConsistent (s : State) : Bool :=
  ((List.range 16).all fun q => decide (((List.range 16).filter fun p => s.hasQuarter p q).length ≤ 1)) &&
  ((List.range 12).all fun k =>
    let q := 4 * (k / 3) + k % 3
    bitAt (s.r (Reg.cnLineBoundary (k / 3))) (k % 3) ==
      ((s.partOfQuarter q).isSome && s.partOfQuarter q == s.partOfQuarter (q + 1))) &&
  tokenBlocks.all fun x =>
    let b := s.r (Reg.cnTokenBlock x.1 x.2)
    !bitAt b 31 || (List.range 4).any fun q => s.hasQuarter (fld b 0 4) (4 * x.1 + q)

/-- The partition a token block is assigned to. -/
def State.blockPart (s : State) (x : Nat × Nat) : Option Nat :=
  let b := s.r (Reg.cnTokenBlock x.1 x.2)
  if bitAt b 31 then some (fld b 0 4) else none

/-- Token blocks whose ASSIGNED or PARTITION field differs between two states. -/
def State.blocksChanged (s t : State) : List (Nat × Nat) :=
  tokenBlocks.filter fun x => (s.r (Reg.cnTokenBlock x.1 x.2) ^^^ t.r (Reg.cnTokenBlock x.1 x.2)) &&& 0x8000000F ≠ 0

/-- Quarters that change partition. -/
def State.quartersMoved (s t : State) : List Nat := (List.range 16).filter fun q => s.partOfQuarter q ≠ t.partOfQuarter q

/-- Partitions whose quarter set, token blocks or job key changes (R403). -/
def State.partsChanged (s t : State) : List Nat :=
  let bs := s.blocksChanged t
  (List.range 16).filter fun p => s.quarters p ≠ t.quarters p ∨ s.jobKey p ≠ t.jobKey p ∨
    (bs.any fun x => s.blockPart x == some p || t.blockPart x == some p) = true

/-- The partition may be changed: no image or stopped, nothing armed, no rota running. -/
def State.partIdle (s : State) (p : Nat) : Bool :=
  (s.partView p == 0 || s.partView p == 5) && (s.part p).armed.isEmpty && !s.rotaRuns p

/-- The trace spill stack of a unit lies in quarter `q` (R553). -/
def State.spillsIn (s : State) (q : Nat) : Bool :=
  (List.range 4).any fun c => s.traceOn c && s.traceSpills c && s.rf (Reg.cnTraceSpillBase c) 0 48 / 2 ^ 37 == q

/-- R403 and R553 over the state `t` that results. -/
def State.partCode (s t : State) : Option Nat :=
  let moved := s.quartersMoved t
  if t.partsConsistent = false then some Ev.partInconsistent
  else if ((s.partsChanged t).all s.partIdle) = false then some Ev.partBusy
  else if (moved.any fun q => match s.partOfQuarter q with
      | some p => (List.range 4).any fun r => !(s.ring (ringKey (p + 1) r)).jobs.isEmpty
      | none => false) = true then some Ev.partBusy
  else if (moved.any fun q => (t.partOfQuarter q).isSome && s.spillsIn q) = true then some Ev.partBusy
  else none

/-- The permission code of slot `k` of port `p`: departures, or arrivals where `arr`. -/
def State.permit (s : State) (arr : Bool) (p k : Nat) : Nat := if arr then s.permitArr p k else s.permitDep p k

/-- A permission register, as port, direction and index. -/
def permitReg (k : Nat) : Option (Nat × Bool × Nat) :=
  let w := k / 0x1000000
  let o := k % 0x1000000
  if 16 ≤ w ∧ w ≤ 21 ∧ 0x8000 ≤ o ∧ o < 0xA000 ∧ o / 4 % 16 ≠ 15 then some (w - 16, decide (0x9000 ≤ o), o % 0x1000 / 4) else none

/-- A changed slot of the register is used by an entry in a bank in force (R197, R211). -/
def State.slotInUse (s t : State) (x : Nat × Bool × Nat) : Bool :=
  let (p, arr, i) := x
  let gone := ((List.range 4).map fun k => 4 * i + k).filter fun k => s.permit arr p k ≠ t.permit arr p k
  let banks := [s.bankActive p] ++ (if s.bankStandby p = 1 then [!s.bankActive p] else [])
  !gone.isEmpty && banks.any fun b => (s.bankCells p b (b2n arr)).any fun y => gone.contains (y.tick % 4096)

/-- Port `p` carries grant `g`'s code in some slot. -/
def State.grantOn (s : State) (g p : Nat) : Bool :=
  (List.range 4096).any fun k => s.permitDep p k == 16 + g || s.permitArr p k == 16 + g

/-- R211 and R419 over the state `t` that results from the entries. -/
def State.rightsCode (s t : State) (es : List TxnEntry) : Option Nat :=
  let regs := es.flatMap fun e => e.parts.filterMap fun x => permitReg x.1
  let codes := regs.flatMap fun x => (List.range 4).map fun k => (x.1, t.permit x.2.1 x.1 (4 * x.2.2 + k))
  let given := codes.filter fun x => 16 < x.2
  let valid := fun (u : State) (g : Nat) => bitAt (u.r (Reg.saGrant g)) 6
  if (regs.any (s.slotInUse t)) = true then some Ev.rightsInUse
  else if (given.any fun x => !valid t (x.2 - 16)) = true then some Ev.grantUndefined
  else if (given.any fun x => !bitAt (t.r (Reg.saGrant (x.2 - 16))) x.1) = true then some Ev.grantPort
  else if (((List.range 16).drop 1).any fun g => (List.range 6).any fun p =>
      valid s g && bitAt (s.r (Reg.saGrant g)) p && !(valid t g && bitAt (t.r (Reg.saGrant g)) p) && t.grantOn g p) = true then
    some Ev.rightsInUse
  else none

/-- R568 over the state `t` that results: the module's place or fabric changes while a partition is armed, runs or is parked, or a
grant runs. -/
def State.placeCode (s t : State) : Option Nat :=
  let same := s.r Reg.saFabricPosition = t.r Reg.saFabricPosition ∧ s.r Reg.saFabricId = t.r Reg.saFabricId
  if ¬same ∧ (s.jobActive || ((List.range 16).drop 1).any s.grantRuns) = true then some Ev.partBusy else none

/-- A fuse request within its range (R537). -/
def State.fuseOk (s : State) (v : W64) : Bool :=
  match fld v 0 4 with
  | 0 => true
  | 1 => decide (fld v 6 5 < 24) && decide (fld v 11 4 ≤ 8) && fld v 15 49 == 0
  | 2 => fld v 42 22 == 0
  | 3 => fld v 9 55 == 0
  | 4 => fld v 4 60 == 0
  | 5 => decide (s.rf Reg.saFuseStatus 8 8 < fld v 4 8) && fld v 12 52 == 0
  | _ => false

/-- Index of a fuse request register. -/
def fuseIdx (k : Nat) : Option Nat := if 0x810100 ≤ k ∧ k < 0x810180 then some ((k - 0x810100) / 8) else none

/-- Where the staged object stands that a value of STAGE_ACTIVATE names: slot A, slot B, the certificate stage (R539). -/
def stageOf (v : W64) : Nat := if bitAt v 1 then 2 else fld v 0 1

/-- Base of stage area `k`; area 3 holds a chain activated in the field. -/
def stageBase (k : Nat) : Nat := stageArea + k * 0x800000

/-- SHA-384 of the object staged in area `k`. -/
def State.stageHash (s : State) (k : Nat) : BitVec 384 :=
  BitVec.ofNat 384 (ofBytesLE (sha384 (s.bytes (stageBase k) (SMap.get (fun _ => 0) s.prot.stageLen k))))

/-- The hashes of the objects that entries activate, in entry order (R534). -/
def State.stageHashes (s : State) (es : List TxnEntry) : List (BitVec 384) :=
  (es.flatMap fun e => e.parts.filter fun x => x.1 = Reg.saStageActivate).map fun x => s.stageHash (stageOf x.2.2.2)

/-- The rule's code for one register an entry names, over the state `t` that results; `full`: fuses with no spare capacity. -/
def State.entryCode (s t : State) (full : BitVec 16) (k : Nat) : Option Nat :=
  let d := dieOfWindow (k / 0x1000000)
  let v := t.r k
  if d ≠ 0 ∧ s.ready d = false then some Ev.txnEntryRefused
  else
    match t.putCode k v with
    | some c => some c
    | none =>
      if k = Reg.saDebugEn ∧ s.rf Reg.saFuseStatus 1 1 = 1 ∧ fld v 0 3 ≠ 0 then some Ev.fieldLocked
      else
        match fuseIdx k with
        | some i =>
          if fld v 0 4 = 0 then none
          else if bitAt (s.r Reg.saFuseStatus) 0 then some Ev.fuseBusy
          else if s.fuseOk v = false ∨ bitAt full i = true then some Ev.fuseRange
          else none
        | none => none

/-- Registers that the entries name, in order. -/
def Txn.keys (x : Txn) : List Nat := x.entries.flatMap fun e => e.parts.map fun y => y.1

/-- What the rule of the first register that refuses a transaction records, as for a direct write (R196, R530). -/
def State.noteRefusal (s : State) (x : Txn) (full : BitVec 16) : State :=
  let t := s.withEntries x.entries
  match x.keys.find? fun k => (s.entryCode t full k).isSome with
  | none => s
  | some k =>
    if s.entryCode t full k = t.putCode k (t.r k) then
      (match t.putCode k (t.r k) with
       | some c => s.note (dieOfWindow (k / 0x1000000)) c (putItems k (t.r k))
       | none => s)
    else s

/-- Step 7 of R530: the first rule that refuses the transaction. -/
def State.stepSeven (s : State) (x : Txn) (full : BitVec 16) : Option Nat :=
  let t := s.withEntries x.entries
  (x.keys.findSome? fun k => s.entryCode t full k).orElse fun _ =>
    (if x.keys.any isPartReg then s.partCode t else none).orElse fun _ =>
    (s.placeCode t).orElse fun _ =>
    (s.rightsCode t x.entries).orElse fun _ =>
    if x.sealed && decide (s.stageHashes x.entries ≠ x.hashes) then some Ev.stageChanged else none

/-! ## Application (R404, R505, R529, R531, R537, R539) -/

/-- Quarter `q` is scrubbed (R404 steps 2 and 3). -/
def State.scrubQuarter (s : State) (q : Nat) : State :=
  let s := (s.zeroMem (tileAddr (48 * q) 0) (48 * 0x800000)).zeroMem (instrBank (48 * q) false) (48 * 0x100000)
  let s := (s.zeroMem (stagingAddr q) 0x2000000).zeroMem (streamBank q false) 0x1000000
  let s := s.zeroMem (q * 2 ^ 37) (2 ^ 37)
  (s.withSkipScrub (((List.range 6).map fun r => q / 4 * 24 + 6 * (q % 4) + r) ++ s.skipScrub))

/-- The scrub of the quarters `moved` begins: partitions `ps` show SCRUBBING until PART_SCRUBBED. -/
def State.beginScrub (s : State) (moved ps : List Nat) : State :=
  let mask := (moved.map fun q => 2 ^ q).sum
  (s.each (fun q s => s.scrubQuarter q) moved).each (fun p s =>
    (s.wf (Reg.saPartStatus p) 3 1 1).updPart p fun x => { x with scrubMask := Nat.lor x.scrubMask mask }) ps

/-- A firmware slot or certificate chain is activated (R539). -/
def State.activate (s : State) (v : W64) : State :=
  let s := if bitAt v 1 then
      let n := SMap.get (fun _ => 0) s.prot.stageLen 2
      (((s.copyMem (stageBase 2) (stageBase 3) 0x800000).wf Reg.saIdCertAddr 16 16 n).withProt { s.prot with cert := some n })
    else s
  s.note 0 Ev.stageActivated [stageOf v]

/-- What a committed entry does beside its register: SA firmware copies a fabric identifier to the L-dies (R567). -/
def State.entryEffect (s : State) (k : Nat) : State :=
  let v := s.r k
  if k = Reg.saStageActivate then s.activate v
  else if 0x810300 ≤ k ∧ k < 0x810360 then s.wf Reg.saAuthKeyStatus 0 1 1
  else if 0x810380 ≤ k ∧ k < 0x8103E0 then s.wf Reg.saAuthKeyStatus 1 1 1
  else if 0x300000 ≤ k ∧ k < 0x300040 then s.wf (Reg.saPartStatus ((k - 0x300000) / 4)) 12 1 0
  else if k = Reg.saFabricId then
    s.each (fun p s => if s.ready (lDie p) then s.wf (Reg.lnFabricId p) 0 32 (fld v 0 32) else s) (List.range 6)
  else s

/-- The fuse requests of a transaction wait to be burned, in ascending order (R537). -/
def State.requestFuses (s : State) (es : List TxnEntry) : State :=
  let is := (List.range 16).filter fun i => s.rf (Reg.saFuseReq i) 0 4 ≠ 0 ∧
    (es.any fun e => e.names fun k => fuseIdx k == some i) = true
  if is = [] then s else ((s.wf Reg.saFuseStatus 0 1 1).withProt { s.prot with burning := is })

/-- Every entry takes effect, in append order on one tick, after the resets and with the scrub that R404 asks for. -/
def State.applyTxn (s : State) (x : Txn) : State :=
  let t := s.withEntries x.entries
  let moved := s.quartersMoved t
  let blocks := s.blocksChanged t
  let ps := (List.range 16).filter fun p => s.quarters p ≠ t.quarters p
  let s := s.each (fun p s => s.startReset 4 p 0) ps
  let s := s.each (fun e s => s.each (fun (y : Nat × RegRow × Nat × W64) s =>
    (s.putEntry y.1 y.2.1 y.2.2.1 y.2.2.2).entryEffect y.1) e.parts) x.entries
  let s := s.each (fun e s => s.each (fun (y : Nat × RegRow × Nat × W64) s =>
    s.withTxnNow (SMap.set (fun _ => (0 : W64)) s.txnNow y.1 (SMap.get (fun _ => (0 : W64)) s.txnNow y.1 |||
      (BitVec.ofNat 64 y.2.1.rw &&& BitVec.ofNat 64 y.2.2.1)))) e.parts) x.entries
  let s := if moved = [] then s else s.beginScrub moved ps
  let s := s.withTokens (SMap.keep (fun k => !blocks.contains (k / 4096, k % 4096 / 256)) s.tokens)
  s.requestFuses x.entries

/-! ## The operations (R527, R530, R532) -/

/-- A refused operation leaves its code in LAST_CODE. -/
def State.txnRefused (s : State) (code : Nat) : State := s.wf Reg.saTxnStatus 48 16 code

/-- The open transaction, where interface `i` began it (R526). -/
def State.txnOf (s : State) (i : Iface) : Option Txn :=
  match s.txn with
  | some x => if x.owner = i.code then some x else none
  | none => none

/-- BEGIN. -/
def State.txnBegin (s : State) (i : Iface) : State :=
  match s.txn with
  | some _ => s.txnRefused Ev.txnBusy
  | none =>
    let n := (s.prot.txnId + 1) % 65536
    ((s.withTxn (some { id := n, owner := i.code, touched := s.clk })).withProt { s.prot with txnId := n })

/-- MODE as it acts: 3 is treated as 0. -/
def State.txnMode (s : State) : Nat := if s.rf Reg.saTxnCtrl 3 2 = 3 then 0 else s.rf Reg.saTxnCtrl 3 2

/-- The bytes the transaction digest is taken over (R534). -/
def State.txnBytes (s : State) (x : Txn) : List Byte :=
  bytesLE 4 0x58544853 ++ bytesLE 2 1 ++ bytesLE 8 (s.r Reg.saModuleSerial).toNat ++ bytesLE 2 x.id ++ bytesLE 1 x.mode ++
    bytesLE 1 0 ++ bytesLE 8 x.tick ++ bytesLE 2 x.entries.length ++
    (x.entries.flatMap fun e => bytesLE 8 (e.addr + b2n e.wide * 2 ^ 48) ++ bytesLE 8 e.data.toNat) ++
    x.hashes.flatMap fun h => bytesLE 48 h.toNat

/-- The first nonce from `x` on that has not been drawn (R534): with as much fuel as nonces drawn and one more there is one. -/
def freshNonce (used : List (BitVec 256)) (x : BitVec 256) : Nat → BitVec 256
  | 0 => x
  | n + 1 => if used.contains x then freshNonce used (x + 1) n else x

/-- SEAL. -/
def State.txnSeal (s : State) (i : Iface) : State :=
  match s.txnOf i with
  | none => s.txnRefused Ev.txnNotOwner
  | some x =>
    if x.sealed ∨ x.entries = [] then s.txnRefused Ev.txnSealed
    else
      let used := s.prot.nonces
      let nonce := freshNonce used (Config.freeNonce s.freeCtr) (used.length + 1)
      let x := { x with sealed := true, mode := s.txnMode, tick := (s.r Reg.saTxnCommitFtc).toNat, sealedAt := s.clk
                        nonce := nonce, hashes := s.stageHashes x.entries }
      let x := { x with digest := BitVec.ofNat 384 (ofBytesLE (sha384 (s.txnBytes x))) }
      (((s.withTxn (some x)).withFreeCtr (s.freeCtr + 1)).withProt { s.prot with nonces := nonce :: used })

/-- The signed message of a role: 1 owner, 2 operator (R534). -/
def Txn.message (x : Txn) (role : Nat) : List Byte :=
  bytesLE 4 0x53504853 ++ bytesLE 1 role ++ bytesLE 48 x.digest.toNat ++ bytesLE 32 x.nonce.toNat

/-- Twelve 64-bit registers as one value, the first in the low bits. -/
def State.words12 (s : State) (f : Nat → Nat) : BitVec 768 :=
  BitVec.ofNat 768 ((List.range 12).map fun k => (s.r (f k)).toNat * 2 ^ (64 * k)).sum

/-- Both signatures verify (R535). -/
def State.signed (s : State) (x : Txn) : Bool :=
  Config.verifyP384 (s.words12 Reg.saAuthKeyOwner) (x.message 1) (s.words12 Reg.saTxnSigOwner) &&
    Config.verifyP384 (s.words12 Reg.saAuthKeyOper) (x.message 2) (s.words12 Reg.saTxnSigOper)

/-- A first key: the entries name only an empty slot, from that role's interface (R535). -/
def State.enrols (s : State) (x : Txn) : Bool :=
  let only := fun (lo : Nat) => x.entries.all fun e => e.parts.all fun y => decide (lo ≤ y.1 ∧ y.1 < lo + 0x60)
  (!bitAt (s.r Reg.saAuthKeyStatus) 0 && x.owner == 2 && only 0x810300) ||
    (!bitAt (s.r Reg.saAuthKeyStatus) 1 && x.owner == 1 && only 0x810380)

/-- Step 3 of R530. -/
def State.keyCode (s : State) (x : Txn) : Option Nat :=
  if x.protected_ = false ∨ s.enrols x = true then none
  else if fld (s.r Reg.saAuthKeyStatus) 0 2 ≠ 3 then some Ev.txnKeysUnset
  else if s.signed x then none
  else some Ev.txnSigInvalid

/-- Ticks of the signing window (R527, R532). -/
def txnWindow : Nat := 187500000000

/-- Steps 5 and 6 of R530. -/
def State.timeCode (s : State) (x : Txn) : Option Nat :=
  if x.mode = 1 ∧ (x.tick % 4096 ≠ 0 ∨ x.tick < s.now + 8192 ∨ s.now + 2 ^ 38 < x.tick) then some Ev.txnLate
  else if x.mode = 2 ∧ x.owner ≠ 0 then some Ev.txnNotOwner
  else if x.mode ≠ 0 ∧ 4 ≤ s.armedTxns.length then some Ev.txnArmedFull
  else none

/-- The transaction as COMMIT takes it: an unsealed one has its mode and tick from the registers. -/
def State.txnTaken (s : State) (x : Txn) : Txn :=
  if x.sealed then x else { x with mode := s.txnMode, tick := (s.r Reg.saTxnCommitFtc).toNat }

/-- COMMIT (R530, R531): MODE NOW applies at once. -/
def State.txnCommit (s : State) (i : Iface) (full : BitVec 16) : State :=
  match s.txnOf i with
  | none => s.txnRefused Ev.txnNotOwner
  | some x =>
    let x := s.txnTaken x
    let gone := s.withTxn none
    if x.protected_ ∧ x.sealed = false then s.txnRefused Ev.txnSealed
    else
      match s.keyCode x with
      | some c => gone.txnRefused c
      | none =>
        if x.sealed ∧ x.sealedAt + txnWindow < s.clk then gone.txnRefused Ev.txnSigExpired
        else
          match s.timeCode x, s.stepSeven x full with
          | some c, _ => s.txnRefused c
          | none, some c => (s.noteRefusal x full).txnRefused c
          | none, none =>
            let tick := if x.mode = 0 then s.now else if x.mode = 1 then x.tick else 0
            let s := gone.note 0 Ev.txnCommitted [x.id, x.entries.length, b2n x.protected_, tick]
            if x.mode = 0 then s.applyTxn x else (s.withArmedTxns (s.armedTxns ++ [x]))

/-- ROLLBACK of an armed transaction. -/
def State.rollArmed (s : State) (i : Iface) : Option Txn → State
  | none => s.txnRefused Ev.txnNotOwner
  | some x =>
    if x.owner ≠ i.code then s.txnRefused Ev.txnNotOwner
    else if x.mode = 1 ∧ x.tick < s.now + 4096 then s.txnRefused Ev.txnLate
    else (s.withArmedTxns (s.armedTxns.erase x)).discardTxn x 6

/-- ROLLBACK of the transaction that TXN_ID names. -/
def State.txnRollback (s : State) (i : Iface) : State :=
  let n := s.rf Reg.saTxnCtrl 16 16
  let armed := s.armedTxns.find? fun x => x.id = n
  match s.txn with
  | some x =>
    if x.id = n then (if x.owner = i.code then (s.withTxn none).discardTxn x 6 else s.txnRefused Ev.txnNotOwner)
    else s.rollArmed i armed
  | none => s.rollArmed i armed

/-- A write of `v` to `SA.TXN_CTRL`: MODE and TXN_ID, then OP (R527, R541). -/
def State.writeTxnCtrl (s : State) (i : Iface) (v : W32) (full : BitVec 16) : State :=
  let s := s.write32 Reg.saTxnCtrl v
  match fld v 0 3 with
  | 1 => s.txnBegin i
  | 2 => s.txnSeal i
  | 3 => s.txnCommit i full
  | 4 => s.txnRollback i
  | _ => s

/-- A refused append: the item names the address and the register's own code (R528). -/
def State.appendRefused (s : State) (code addr own : Nat) : State := (s.txnRefused code).note 0 code [addr, own]

/-- A write of `x` to `SA.TXN_ENTRY_DATA` (R528). -/
def State.txnAppend (s : State) (i : Iface) (x : W64) : State :=
  let s := s.w Reg.saTxnEntryData x
  let a := s.rf Reg.saTxnEntryAddr 0 48
  match s.txnOf i with
  | none => s.appendRefused Ev.txnNotOwner a 0
  | some t =>
    let e : TxnEntry := { addr := a, wide := bitAt (s.r Reg.saTxnEntryAddr) 48, data := x }
    if t.sealed then s.appendRefused Ev.txnEntryRefused a 0
    else if 4096 ≤ t.entries.length then s.appendRefused Ev.txnFull a 0
    else
      match entryRefusal i e with
      | some own => s.appendRefused Ev.txnEntryRefused a own
      | none => (s.withTxn (some { t with
          entries := t.entries ++ [e], touched := s.clk, protected_ := t.protected_ || e.isProtected }))

/-- The interface a signature register takes writes from (R535). -/
def sigFrom (k : Nat) : Iface := if k < 0x800180 then .i3cSa else .pf

/-! ## The stage (R539, R541) -/

/-- The area a stage access reaches: the inactive firmware slot or the certificate stage. -/
def State.stageTarget (s : State) : Nat := if s.rf Reg.saStageCtrl 0 1 = 1 then 2 else 1 - s.rf Reg.saFwStatus 0 1

/-- A slot written or erased does not verify until it is verified again. -/
def State.unverify (s : State) (k : Nat) : State := if k < 2 then s.wf Reg.saFwStatus (1 + k) 1 0 else s

/-- A write to `SA.STAGE_DATA` of the bits that `m` covers: the access with bits [63:32] advances ADDR (R580). -/
def State.stageWrite (s : State) (m : Nat) (v : W64) : State :=
  let k := s.stageTarget
  let a := s.rf Reg.saStageAddr 0 23 / 8 * 8
  let s := if m % 2 ^ 32 = 0 then s else s.store (stageBase k + a) 4 (fld v 0 32)
  let s := if m < 2 ^ 32 then s else s.store (stageBase k + a + 4) 4 (fld v 32 32)
  let z : Nat → Nat := fun _ => 0
  let n := Nat.max (SMap.get z s.prot.stageLen k) (a + 8)
  let s := (s.withProt { s.prot with stageLen := SMap.set z s.prot.stageLen k n }).unverify k
  if m < 2 ^ 32 then s else s.wf Reg.saStageAddr 0 23 (a + 8)

/-- ERASE: the target's bytes and length are gone. -/
def State.stageErase (s : State) : State :=
  let k := s.stageTarget
  let s := s.zeroMem (stageBase k) 0x800000
  (s.withProt { s.prot with stageLen := SMap.set (fun _ => 0) s.prot.stageLen k 0 }).unverify k

/-- VERIFY: the image in the inactive slot passes, with its version, or fails with a cause (R538, R539): 1 signature, 2 SVN. -/
def State.stageVerify (s : State) (cause : Nat) (version : BitVec 16) : State :=
  let k := 1 - s.rf Reg.saFwStatus 0 1
  if cause = 0 then ((s.wf Reg.saFwStatus (1 + k) 1 1).wf Reg.saFwStatus (32 + 16 * k) 16 version.toNat).note 0 Ev.fwStaged []
  else (s.unverify k).note 0 Ev.fwVerifyFailed [cause]

/-- A write of `v` to `SA.STAGE_CTRL`: TARGET, then ERASE, then VERIFY. -/
def State.writeStageCtrl (s : State) (v : W32) (cause : Nat) (version : BitVec 16) : State :=
  let s := s.write32 Reg.saStageCtrl v
  let s := if bitAt v 1 then s.stageErase else s
  if bitAt v 2 then s.stageVerify cause version else s

/-- The 64 bits of the certificate chain at ID_CERT_ADDR (R540): the chain SA stores, or one activated since. -/
def State.certWord (s : State) : W64 :=
  let a := s.rf Reg.saIdCertAddr 0 14 / 8 * 8
  match s.prot.cert with
  | none => Config.certWord (a / 8)
  | some n => if n ≤ a then 0 else BitVec.ofNat 64 (s.load (stageBase 3 + a) 8)

/-- ADDR advances by 8. -/
def State.certNext (s : State) : State := s.wf Reg.saIdCertAddr 0 14 (s.rf Reg.saIdCertAddr 0 14 / 8 * 8 + 8)

/-! ## Writes of any register -/

/-- What the environment answers in a register write: `boot` as at State.coldReset; `full` the fuses with no spare capacity (R537);
`cause` and `version` what VERIFY finds (R539). -/
structure WriteEnv where
  boot : BitVec 4
  full : BitVec 16
  cause : Nat
  version : BitVec 16

/-- A register takes a permitted write: those of the transaction engine and the stage, or any other. -/
def State.putAny (s : State) (i : Iface) (e : WriteEnv) (k : Nat) (r : RegRow) (m : Nat) (v : W64) : State :=
  let x := (s.r k &&& ~~~(BitVec.ofNat 64 m)) ||| (v &&& BitVec.ofNat 64 m)
  if k = Reg.saTxnCtrl then s.writeTxnCtrl i (v.setWidth 32) e.full
  else if k = Reg.saTxnEntryData then s.txnAppend i x
  else if 0x800100 ≤ k ∧ k < 0x8001E0 then (if i = sigFrom k then s.w k x else s.note 0 Ev.txnNotOwner [])
  else if k = Reg.saStageCtrl then s.writeStageCtrl (v.setWidth 32) e.cause e.version
  else if k = Reg.saStageData then s.stageWrite m v
  else s.put i k r m v e.boot

/-- A register an access covers: its class may deny it, and the denial is recorded (R579); the access is captured once. -/
def State.putPart (s : State) (i : Iface) (e : WriteEnv) (x : Nat × RegRow × Nat × W64) : State :=
  match classDenies x.1 x.2.1.cls i true with
  | some (_, code) => s.note 0 code [(0x300000000000 + x.1) % 2 ^ 48]
  | none => s.putAny i e x.1 x.2.1 x.2.2.1 x.2.2.2

/-- The cause with which the first denied register of an access is captured. -/
def firstDenial (i : Iface) (write : Bool) (xs : List (Nat × RegRow × Nat × W64)) : Option Nat :=
  xs.findSome? fun x => (classDenies x.1 x.2.1.cls i write).map (·.1)

/-- What a write is as a wake source (R499): a reset request 7, a write of PM_REQUEST with STATE 0 over I3C or PCIe 2, another BAR
write 1. -/
def State.wakeWrite (s : State) (i : Iface) (xs : List (Nat × RegRow × Nat × W64)) : State :=
  if (xs.any fun x => x.1 == Reg.saResetCmd && asksReset (x.2.2.2.setWidth 32)) = true then s.wakeBy 7
  else if (xs.any fun x => x.1 == Reg.saPmRequest && decide (fld x.2.2.2 0 3 = 0)) = true ∧ i ≠ .sa then s.wakeBy 2
  else if i = .pf then s.wakeBy 1
  else s

/-- A write of `v` at `key` by interface `i` (R579 to R583, R591). -/
def State.busWrite (s : State) (i : Iface) (e : WriteEnv) (key : Nat) (wide : Bool) (v : W64) : State :=
  if s.offline i then s
  else
    let s := s.wakeWrite i (regParts key wide v)
    match s.barred i key wide with
    | some (cause, code, _) => s.denyReg i key true wide cause code
    | none =>
      let xs := regParts key wide v
      let s := match firstDenial i true xs with
        | some cause => s.capture i key cause true wide
        | none => s
      s.each (fun x s => s.putPart i e x) xs

/-! ## Commands -/

/-- A write of `SA.TXN_CTRL` with OP `op`. -/
def State.txnOp (s : State) (i : Iface) (op : Nat) (v : W32) (full : BitVec 16) : State :=
  s.regWrite i Reg.saTxnCtrl false fun s => s.writeTxnCtrl i (setFld v 0 3 op) full

/-- TXN_BEGIN (R527). -/
def execTxnBegin (i : Iface) (v : W32) (s : State) : Res := s.act (s.txnOp i 1 v 0)

/-- TXN_APPEND (R528): a 64-bit write of `SA.TXN_ENTRY_DATA`, or a 32-bit write of either half. -/
def execTxnAppend (i : Iface) (wide hi : Bool) (v : W64) (s : State) : Res :=
  s.act <| s.regWrite i (Reg.saTxnEntryData + (if !wide && hi then 4 else 0)) wide fun s =>
    s.txnAppend i (if wide then v else if hi then setFld (s.r Reg.saTxnEntryData) 32 32 (fld v 0 32)
      else setFld (s.r Reg.saTxnEntryData) 0 32 (fld v 0 32))

/-- TXN_SEAL (R527, R534). -/
def execTxnSeal (i : Iface) (v : W32) (s : State) : Res := s.act (s.txnOp i 2 v 0)

/-- TXN_COMMIT (R530, R531): `full` the fuses with no spare capacity. -/
def execTxnCommit (i : Iface) (v : W32) (full : BitVec 16) (s : State) : Res := s.act (s.txnOp i 3 v full)

/-- TXN_ROLLBACK (R527). -/
def execTxnRollback (i : Iface) (v : W32) (s : State) : Res := s.act (s.txnOp i 4 v 0)

/-- An armed transaction is due (R531). -/
def State.txnDue (s : State) (x : Txn) : Bool :=
  if x.mode = 1 then decide (x.tick ≤ s.now)
  else s.now % 4096 == 0 && s.power.change.isNone && (List.range 16).all fun p => !(2 ≤ s.partView p && s.partView p ≤ 4)

/-- An armed transaction that is due is checked again and applies, or is refused whole (R531). -/
def State.applyDue (s : State) (x : Txn) (full : BitVec 16) : State :=
  match s.stepSeven x full with
  | some c => (s.noteRefusal x full).note 0 Ev.txnApplyRefused [x.id, c]
  | none => s.applyTxn x

/-- TXN_APPLY (R523, R531): the first armed transaction that is due is checked again and applies. -/
def execTxnApply (full : BitVec 16) (s : State) : Res :=
  s.act <|
    match s.armedTxns.find? s.txnDue with
    | none => s
    | some x =>
      let s := s.withArmedTxns (s.armedTxns.erase x)
      match s.mon.pending with
      | some (plan, cut) => if s.mon.planTxn = some x.id then s.commitPlan plan cut else s.applyDue x full
      | none => s.applyDue x full

/-- TXN_TIMEOUT (R532). -/
def execTxnTimeout (s : State) : Res :=
  s.act <|
    match s.txn with
    | none => s
    | some x =>
      if x.sealed then (if x.sealedAt + txnWindow < s.clk then (s.withTxn none).discardTxn x 5 else s)
      else if x.touched + txnWindow ≤ s.clk then (s.withTxn none).discardTxn x 4
      else s

/-- What a burned fuse changes (R536, R537). -/
def State.fuseEffect (s : State) (v : W64) : State :=
  match fld v 0 4 with
  | 1 => (s.withProt { s.prot with
      rowFuses := SMap.set (fun _ => 8) s.prot.rowFuses (fld v 4 2 * 24 + fld v 6 5) (fld v 11 4) })
  | 2 => (s.withProt { s.prot with hbmRows := s.prot.hbmRows ++ [(fld v 4 5, fld v 9 33)] })
  | 3 => (s.withProt { s.prot with stackFuses := setFld s.prot.stackFuses (fld v 4 5) 1 1 })
  | 4 => (s.wf Reg.saFuseStatus 1 1 1).wf Reg.saDebugEn 0 3 0
  | 5 => s.wf Reg.saFuseStatus 8 8 (fld v 4 8)
  | _ => s

/-- FUSE_BURN (R537): SA burns the lowest request that waits; `ok` that it verifies. -/
def execFuseBurn (ok : Bool) (s : State) : Res :=
  s.act <|
    match s.prot.burning with
    | [] => s
    | i :: rest =>
      let v := s.r (Reg.saFuseReq i)
      let code := if ok then Ev.fuseBurned else Ev.fuseBurnFailed
      let s := if ok then s.fuseEffect v else s
      let s := ((s.w (Reg.saFuseReq i) 0).withProt { s.prot with burning := rest })
      ((s.wf Reg.saFuseStatus 0 1 (b2n (decide (rest ≠ [])))).wf Reg.saFuseStatus 16 16 code).note 0 code [i]

/-- STAGE_WRITE (R539, R580): a write of `SA.STAGE_DATA`, or of one half. -/
def execStageWrite (i : Iface) (wide hi : Bool) (v : W64) (s : State) : Res :=
  s.act <| s.regWrite i (Reg.saStageData + (if !wide && hi then 4 else 0)) wide fun s =>
    if wide then s.stageWrite (2 ^ 64 - 1) v
    else if hi then s.stageWrite 0xFFFFFFFF00000000 (v <<< 32)
    else s.stageWrite 0xFFFFFFFF v

/-- STAGE_ERASE (R541): a write of `SA.STAGE_CTRL` with ERASE. -/
def execStageErase (i : Iface) (v : W32) (cause : Fin 3) (version : BitVec 16) (s : State) : Res :=
  s.act <| s.regWrite i Reg.saStageCtrl false fun s => s.writeStageCtrl (setFld v 1 1 1) cause version

/-- STAGE_VERIFY (R539): a write of `SA.STAGE_CTRL` with VERIFY; `cause` 0 passes, 1 the signature fails, 2 the SVN is below the
floor; `version` the image's. -/
def execStageVerify (i : Iface) (v : W32) (cause : Fin 3) (version : BitVec 16) (s : State) : Res :=
  s.act <| s.regWrite i Reg.saStageCtrl false fun s => s.writeStageCtrl (setFld v 2 1 1) cause version

/-- ID_CERT_READ (R540, R580): a read of `SA.ID_CERT_DATA`, or of one half. -/
def execIdCertRead (i : Iface) (wide hi : Bool) (s : State) : Res :=
  s.act <| s.regRead i (Reg.saIdCertData + (if !wide && hi then 4 else 0)) wide fun s =>
    (if wide then s.certWord else BitVec.ofNat 64 (halfOf hi s.certWord), if wide || hi then s.certNext else s)

end Sys2Proof.Machine
end

