-- ==== Sys2Proof/Machine/Register.lean ====
section
/-!
DEFINITION. Register accesses of every interface, ring pages included, and the I3C targets (R371, R375 to R378, R578 to R591).
-/
namespace Sys2Proof.Machine
open Sys2Proof

/-! ## Reads with and without an effect (R47, R75, R215, R354, R540, R555, R564, R580) -/

/-- The register at key `k`, of which the bits `m` are read by `i`, and what the read does. -/
def State.readOne (s : State) (i : Iface) (k m : Nat) (ecc : Ecc) : W64 × State :=
  let w := k / 0x1000000
  let o := k % 0x1000000
  let hi := decide (2 ^ 32 ≤ m)
  if k = Reg.sbFtc then
    let v := s.r k
    (if m = 2 ^ 64 - 1 then (v, s)
     else if hi then
      match s.time.ftcHigh with
      | some h => (setFld v 32 32 h.toNat, (s.withTime { s.time with ftcHigh := none }))
      | none => (v, s)
     else (v, (s.withTime { s.time with ftcHigh := some ((v >>> 32).setWidth 32) })))
  else if k = Reg.sbWtbSec then
    (s.r k, if hi then (s.withTime { s.time with nsLatch := some s.wtbNsWord }) else s)
  else if k = Reg.sbWtbNs then
    match s.time.nsLatch with
    | some v => (v, if hi then (s.withTime { s.time with nsLatch := none }) else s)
    | none => (s.wtbNsWord, s)
  else if k = Reg.sbPtpTxStamp then
    match s.time.stamps with
    | [] => (0, s)
    | x :: xs => (x, if hi then (s.withTime { s.time with stamps := xs }) else s)
  else if k = Reg.saWfgRdData then (s.wfgWord, if hi then s.wfgNext else s)
  else if k = Reg.saIdCertData then (s.certWord, if hi then s.certNext else s)
  else if k = Reg.saEvlogHead ∧ i = .i3cSa then (s.r k, s.updI3cT 0 fun t => { t with ibi := false })
  else if 4 ≤ w ∧ w ≤ 7 ∧ 0x9888 ≤ o ∧ o < 0x98A8 then
    let (v, s) := s.traceWord (w - 4) ((o - 0x9888) / 8) ecc
    (v, if hi ∧ o = 0x98A0 then
        s.wf (Reg.cnTraceRdIndex (w - 4)) 0 32 (s.rf (Reg.cnTraceRdIndex (w - 4)) 0 32 + 1) else s)
  else if 16 ≤ w ∧ w ≤ 21 ∧ k = Reg.lnHoldPeak (w - 16) then (s.r k, s.wf k 0 14 (s.holdOcc (w - 16)))
  else if 32 ≤ w ∧ k = Reg.mnStIndData (w - 32) then
    let off := s.rf (Reg.mnStIndAddr (w - 32)) 0 18
    (BitVec.ofNat 64 (s.load (streamBank (w - 32) (!s.bankActive (w - 22)) + off) 8),
      if hi then s.wf (Reg.mnStIndAddr (w - 32)) 0 18 (off + 8) else s)
  else (s.view k, s)

/-- A read of the registers an access covers, lower first: a part that a class denies reads 0. -/
def State.readParts (s : State) (i : Iface) (key : Nat) (ecc : Ecc) (acc : W64) : List (Nat × RegRow × Nat × W64) → W64 × State
  | [] => (acc, s)
  | x :: xs =>
    match classDenies x.1 x.2.1.cls i false with
    | some (_, code) => (s.note 0 code [(0x300000000000 + x.1) % 2 ^ 48]).readParts i key ecc acc xs
    | none =>
      let (v, s) := s.readOne i x.1 x.2.2.1 ecc
      let y : W64 := if x.2.2.1 = 2 ^ 64 - 1 then v
        else if 2 ^ 32 ≤ x.2.2.1 then v >>> 32
        else v &&& 0xFFFFFFFF
      s.readParts i key ecc (acc ||| (if x.1 = key + 4 then y <<< 32 else y)) xs

/-- A read at `key` by interface `i` (R579 to R583, R591). -/
def State.busRead (s : State) (i : Iface) (key : Nat) (wide : Bool) (ecc : Ecc) : State :=
  if s.offline i then s
  else
    match s.barred i key wide with
    | some (cause, code, v) => (s.denyReg i key false wide cause code).answer i v
    | none =>
      if key / 0x1000000 = 0 ∧ 0x508000 ≤ key ∧ key < 0x548000 then
        s.answer i (if wide then s.logWord key else BitVec.ofNat 64 (s.viewWord key))
      else
        let xs := regParts key wide 0
        let s := match firstDenial i false xs with
          | some cause => s.capture i key cause false wide
          | none => s
        let (v, s) := s.readParts i key ecc 0 xs
        s.answer i v

/-- A die that is READY does not answer within 4 µs (R582): never SA's own window, and not SB's own target. -/
def State.unanswered (s : State) (i : Iface) (key : Nat) (wide silent : Bool) : Bool :=
  silent && !(i == .i3cSb) && decide (0x1000000 ≤ key) && !s.offline i && (s.barred i key wide).isNone

/-! ## Ring pages (R375 to R378) -/

/-- Register file key of a ring page offset. -/
def pageKey (f off : Nat) : Nat := 0x40000000 + f * 0x10000 + off

/-- The offset lies in the function's MSI-X table (R371, R375). -/
def inMsix (f off : Nat) : Bool := 0x8000 ≤ off && off < 0x8000 + 16 * vectors f

/-- A 32-bit word of the table takes a value; an entry that is unmasked gives what pends (log 105). -/
def State.putMsix (s : State) (f off : Nat) (v : W32) : State :=
  (s.updPcieFn f fun x => { x with
    table := SMap.set (fun k => if k % 4 = 3 then 1 else 0) x.table ((off - 0x8000) / 4) v }).firePending f

/-- The ring whose base register covers an offset is enabled (R378). -/
def State.baseFixed (s : State) (f off : Nat) : Bool :=
  let o := off % 0x1000
  let r := off / 0x1000
  if r < 4 ∧ (o = 0 ∨ o = 4) then bitAt (s.r (Reg.rgSqCtrl f r)) 5
  else if r < 4 ∧ (o = 0x20 ∨ o = 0x24) then bitAt (s.r (Reg.rgCqCtrl f r)) 5
  else if r = 4 ∧ (o = 0x20 ∨ o = 0x24) then bitAt (s.r (Reg.rgNrCtrl f)) 5
  else false

/-- A 32-bit write of a ring page. -/
def State.pagePut (s : State) (f : Fin 17) (off : Nat) (v : W32) : State :=
  let o := off % 0x1000
  let r := off / 0x1000
  if inMsix f off then s.putMsix f off v
  else if h : r < 4 then
    (if o = 0x8 then (if bitAt v 5 then s.sqEnable f r v else s.sqDisable f r v)
     else if o = 0xC then afterRes s (execDoorbell f ⟨r, h⟩ v s)
     else if o = 0x28 then (if bitAt v 5 then s.cqEnable f r v else s.cqDisable f r v)
     else if o = 0x2C then afterRes s (execCqHeadWrite f ⟨r, by omega⟩ v s)
     else if s.baseFixed f off then s.ringNote f r Ev.ringBusy
     else s.write32 (pageKey f off) v)
  else if r = 4 then
    (if o = 0x28 then (if bitAt v 5 then s.cqEnable f 4 v else s.cqDisable f 4 v)
     else if o = 0x2C then afterRes s (execCqHeadWrite f 4 v s)
     else if s.baseFixed f off then s.ringNote f 4 Ev.ringBusy
     else s.write32 (pageKey f off) v)
  else s

/-- An access of width `x` at offset `off` is one that R10 admits. -/
def widthOk (x : Width) (off : Nat) : Bool :=
  match x with
  | .w32 => off % 4 == 0
  | .w64 => off % 8 == 0
  | .other => false

/-- A write of a ring page of function `f` (R10, R375). -/
def State.pageWrite (s : State) (f : Fin 17) (off : Nat) (x : Width) (v : W64) : State :=
  s.page f fun s =>
    if widthOk x off = false then s.note 0 Ev.regAccessAlign [off]
    else
      let s1 := s.pagePut f off (v.setWidth 32)
      if x ≠ .w64 ∨ s.baseFixed f off = true then s1
      else s1.pagePut f (off + 4) ((v >>> 32).setWidth 32)

/-- 32 bits of a ring page as they read. -/
def State.pageWord (s : State) (f off : Nat) : Nat :=
  if inMsix f off then ((s.pcieFn f).word ((off - 0x8000) / 4)).toNat
  else if 0xC000 ≤ off ∧ off < 0xC000 + vectors f / 8 then fld (s.pcieFn f).pend (8 * (off - 0xC000)) 32
  else if off < 0x5000 then
    match coverRow (pageKey f off) with
    | some (k, _, hi) =>
      let v := if off / 0x1000 < 4 ∧ off % 0x1000 = 0x10 then
          setFld (s.r k) 16 7 (s.ring (ringKey f (off / 0x1000))).jobs.length else s.r k
      fld v (if hi then 32 else 0) 32
    | none => 0
  else 0

/-- A read of a ring page: nothing answers where the function does not; 0 during a warm reset (R510). -/
def State.pageRead (s : State) (f off : Nat) (x : Width) : State :=
  if s.fnUp f = false then s
  else if s.warmBusy then s.answer .pf 0
  else if widthOk x off = false then (s.note 0 Ev.regAccessAlign [off]).answer .pf 0
  else s.answer .pf (BitVec.ofNat 64 (s.pageWord f off + (if x = .w64 then s.pageWord f (off + 4) * 2 ^ 32 else 0)))

/-! ## SA firmware in the module-local map (R35, R41) -/

/-- An access to a register of a width that R10 does not admit: without effect, a read returns 0; a BAR write
is a wake source all the same (R499). -/
def State.oddAccess (s : State) (i : Iface) (key : Nat) (write : Bool) : State :=
  if s.offline i then s
  else
    let s := (if i = .pf ∧ write = true then s.wakeBy 1 else s).denyReg i key write false 1 Ev.regAccessAlign
    if write then s else s.answer i 0

/-- Bytes that an access to memory moves. -/
def bytesOf : Width → Nat
  | .w32 => 4
  | .w64 => 8
  | .other => 1

/-- What SA firmware may reach of memory at `a`, or why not (R37, R41). -/
def mapRefusal (i : Iface) (a : Nat) : Option Nat :=
  if regionOf a = .unmapped then some Ev.addrUnmapped else if i = .sa then none else some Ev.addrAccessClass

/-- A write of `v` at module-local address `a` outside register space: to a standby bank, a token's slot, or memory (R40, R41, R95). -/
def State.mapWrite (s : State) (a : Nat) (x : Width) (v : W64) : State :=
  let bs := bytesLE (bytesOf x) v.toNat
  match regionOf a with
  | .tokens =>
    if x = .w32 ∧ a % 4 = 0 then s.tokenSlotWrite ((a - 0x3F0000000000) / 16) (a % 16) (v.setWidth 32)
    else s.note 0 Ev.addrAccessClass [a]
  | .bank =>
    if s.bankOpen a = false then s.note (unitDie (bankOf a).1) Ev.ttActiveWrite [a]
    else
      match s.dmaPass .host .here 0 a (bytesOf x) with
      | some s => (s.setLive a bs).checkSame (bankOf a).1
      | none => s
  | _ =>
    match s.dmaPass .host .here 0 a (bytesOf x) with
    | some s => (s.countAccess 0 true a (bytesOf x)).liveBy whoSa a (bytesOf x) fun s => s.setLive a bs
    | none => s

/-- A read at module-local address `a` outside register space; `ecc`: how the memory's read came out. An uncorrectable one returns 0
(log 75). -/
def State.mapRead (s : State) (a : Nat) (x : Width) (ecc : Ecc) : State :=
  if regionOf a = .tokens then
    (if x = .w32 ∧ a % 4 = 0 then s.answer .sa (BitVec.ofNat 64 (s.tokenSlotRead ((a - 0x3F0000000000) / 16) (a % 16)))
     else (s.note 0 Ev.addrAccessClass [a]).answer .sa 0)
  else
    match s.dmaPass .here .host a 0 (bytesOf x) with
    | none => s
    | some s =>
      let (s, ecc) := s.readAt 0 a (bytesOf x) ecc 5
      s.answer .sa (if ecc.bad then 0 else BitVec.ofNat 64 (ofBytesLE (s.liveBytes a (bytesOf x))))

/-! ## Commands -/

/-- A register write with what the environment answers; `quiet` 1 or 2: its die is READY but silent, and discards the write or
applies it later (R582). -/
def State.envWrite (s : State) (i : Iface) (e : WriteEnv) (quiet : Fin 3) (key : Nat) (wide : Bool) (v : W64) : State :=
  if s.unanswered i key wide (decide (quiet.val ≠ 0)) then
    let s := s.capture i key 5 true wide
    if quiet.val = 2 then s.busWrite i e key wide v else s
  else s.busWrite i e key wide v

/-- A register read; `silent`: its die is READY but does not answer. -/
def State.envRead (s : State) (i : Iface) (silent : Bool) (key : Nat) (wide : Bool) (ecc : Ecc) : State :=
  if s.unanswered i key wide silent then
    (s.capture i key 5 false wide).answer i (if wide then BitVec.ofNat 64 (2 ^ 64 - 1) else 0xFFFFFFFF)
  else s.busRead i key wide ecc

/-- Register space offset of a module-local address; an address outside register space falls in no window. -/
def i3cKey (a : Nat) : Nat := (a + 2 ^ 48 - 0x300000000000) % 2 ^ 48

/-- A write at offset `key` of register space, of any width. -/
def State.spaceWrite (s : State) (i : Iface) (e : WriteEnv) (quiet : Fin 3) (key : Nat) (x : Width) (v : W64) : State :=
  if x = .other then s.oddAccess i key true else s.envWrite i e quiet key (decide (x = .w64)) v

/-- A read at offset `key` of register space, of any width. -/
def State.spaceRead (s : State) (i : Iface) (silent : Bool) (key : Nat) (x : Width) (ecc : Ecc) : State :=
  if x = .other then s.oddAccess i key false else s.envRead i silent key (decide (x = .w64)) ecc

/-- REGISTER_WRITE (R10, R35 to R41, R578 to R583, R591): a write at `key`: an offset of the register space, of the ring pages of a
function, or a module-local address. -/
def execRegisterWrite (i : Iface) (space : Space) (key : BitVec 48) (width : Width) (v : W64) (boot : BitVec 4) (full : BitVec 16)
    (cause : Fin 3) (version : BitVec 16) (quiet : Fin 3) (s : State) : Res :=
  s.act <|
    let e : WriteEnv := ⟨boot, full, cause, version⟩
    match space with
    | .page f => s.pageWrite f (key.toNat % 0x10000) width v
    | .regs => s.spaceWrite i e quiet key.toNat width v
    | .map =>
      if regionOf key.toNat = .regs then s.spaceWrite i e quiet (i3cKey key.toNat) width v
      else if s.offline i then s
      else
        match mapRefusal i key.toNat with
        | some c => s.note 0 c [key.toNat]
        | none => s.mapWrite key.toNat width v

/-- REGISTER_READ (R10, R35 to R41, R578 to R583, R591). -/
def execRegisterRead (i : Iface) (space : Space) (key : BitVec 48) (width : Width) (ecc : Ecc) (silent : Bool) (s : State) : Res :=
  s.act <|
    match space with
    | .page f => s.pageRead f (key.toNat % 0x10000) width
    | .regs => s.spaceRead i silent key.toNat width ecc
    | .map =>
      if regionOf key.toNat = .regs then s.spaceRead i silent (i3cKey key.toNat) width ecc
      else if s.offline i then s
      else
        match mapRefusal i key.toNat with
        | some c => (s.note 0 c [key.toNat]).answer i 0
        | none => s.mapRead key.toNat width ecc

/-- REG_FAULT_REARM (R9, R590, R591): a write of `SA.REG_FAULT`, or of its high half, with VALID as 1. A fault captured in the same
tick stays. -/
def execRegFaultRearm (i : Iface) (wide : Bool) (s : State) : Res :=
  s.act <| s.regWrite i (Reg.saRegFault + (if wide then 0 else 4)) wide fun s =>
    s.wf Reg.saRegFault 63 1 (b2n (bitAt (s.setBits Reg.saRegFault) 63))

/-! ## The I3C targets (R585, R586) -/

/-- The interface of a target: SA's, or SB's. -/
def i3cIface (sb : Bool) : Iface := if sb then .i3cSb else .i3cSa

/-- A private write is well framed: CMD's reserved bits 0 and its length as R586 states. -/
def i3cFramed (bs : List Byte) : Bool :=
  match bs with
  | [] => false
  | c :: _ => c.toNat < 4 && bs.length == (if bitAt c 1 then 7 else if bitAt c 0 then 15 else 11)

/-- A private write of `bs` to a target: a register write, or a read set-up. -/
def State.i3cFrame (s : State) (sb : Bool) (e : WriteEnv) (quiet : Fin 3) (bs : List Byte) : State :=
  let i := i3cIface sb
  let key := i3cKey (field bs 1 6)
  let wide := fld (BitVec.ofNat 8 (field bs 0 1)) 0 1 == 1
  let setup := fld (BitVec.ofNat 8 (field bs 0 1)) 1 1 == 1
  if s.offline i then s
  else if i3cFramed bs = false then s.capture i key 6 true wide
  else if setup then s.updI3cT (b2n sb) fun t => { t with readAddr := some (key, wide) }
  else s.envWrite i e quiet key wide (BitVec.ofNat 64 (field bs 7 8))

/-- I3C_WRITE (R586): a private write of `bs` to SA's target, or SB's. -/
def execI3cWrite (sb : Bool) (bs : List Byte) (boot : BitVec 4) (full : BitVec 16) (cause : Fin 3) (version : BitVec 16)
    (quiet : Fin 3) (s : State) : Res :=
  s.act (s.i3cFrame sb ⟨boot, full, cause, version⟩ quiet bs)

/-- I3C_READ_SETUP (R586): a private write whose CMD has READ_SETUP: reserved bits `hi` of CMD, WIDTH64, the address, and `extra`
bytes beyond those that a set-up has. -/
def execI3cReadSetup (sb : Bool) (hi : BitVec 6) (wide : Bool) (a : BitVec 48) (extra : List Byte) (s : State) : Res :=
  s.act (s.i3cFrame sb ⟨0, 0, 0, 0⟩ 0
    (bytesLE 1 (b2n wide + 2 + 4 * hi.toNat) ++ bytesLE 6 a.toNat ++ extra))

/-- I3C_READ (R586): a private read, once the data are ready; with no set-up pending it is captured with cause 6. -/
def execI3cRead (sb : Bool) (ecc : Ecc) (silent : Bool) (s : State) : Res :=
  s.act <|
    let i := i3cIface sb
    if s.offline i then s
    else
      match (s.i3cT (b2n sb)).readAddr with
      | none => s.capture i (i3cKey 0) 6 false false
      | some (key, wide) => (s.updI3cT (b2n sb) fun t => { t with readAddr := none }).envRead i silent key wide ecc

/-- DYNAMIC_ADDRESS (R585): ENTDAA, or SETDASA to its static address, gives a target its dynamic address. -/
def execDynamicAddress (sb : Bool) (a : BitVec 7) (s : State) : Res :=
  s.act <| if s.offline (i3cIface sb) then s else s.updI3cT (b2n sb) fun t => { t with dyn := some a }

/-- ATS_INVALIDATION (R371, R374): the cached translations of function `f` for `[a, a + n)` are dropped, and the request is
answered. -/
def execAtsInvalidation (f : Fin 17) (a n : W64) (s : State) : Res :=
  s.act <|
    if s.fnUp f then
      let old := SMap.get (fun _ => []) s.ats f.val
      let keep := old.filter fun p => decide (p * 4096 + 4096 ≤ a.toNat ∨ a.toNat + n.toNat ≤ p * 4096)
      ((s.withAts (SMap.set (fun _ => []) s.ats f.val keep)).withAtsDone (s.atsDone ++ [f.val]))
    else s

end Sys2Proof.Machine
end

