-- ==== Sys2Proof/Machine/Scalar.lean ====
section
/-!
DEFINITION. Scalar, branch and control instructions, scalar loads and stores, and time reads (R146 to R151, R175, R177).
-/
namespace Sys2Proof.Machine
open Sys2Proof

/-! ## Operations -/

/-- SALU and SALUI by FN (R147). -/
def saluOp (fn : Nat) (a b : W64) : W64 :=
  let n := b.toNat % 64
  match fn with
  | 0 => a + b
  | 1 => a - b
  | 2 => a &&& b
  | 3 => a ||| b
  | 4 => a ^^^ b
  | 5 => a <<< n
  | 6 => a >>> n
  | 7 => BitVec.sshiftRight a n
  | 8 => a * b
  | 9 => BitVec.ofNat 64 (a.toNat * b.toNat / 2 ^ 64)
  | 10 => BitVec.ofInt 64 (a.toInt * b.toInt / 2 ^ 64)
  | 11 => if a.toInt ≤ b.toInt then a else b
  | 12 => if a.toInt ≤ b.toInt then b else a
  | 13 => if a.toNat ≤ b.toNat then a else b
  | _ => if a.toNat ≤ b.toNat then b else a

/-- SCMP and SCMPI by FN (R148). -/
def scmpOp (fn : Nat) (a b : W64) : Bool :=
  match fn with
  | 0 => a == b
  | 1 => a != b
  | 2 => decide (a.toInt < b.toInt)
  | 3 => decide (a.toInt ≤ b.toInt)
  | 4 => decide (a.toNat < b.toNat)
  | _ => decide (a.toNat ≤ b.toNat)

/-- PLOG by FN (R148). -/
def plogOp (fn : Nat) (a b : Bool) : Bool :=
  match fn with
  | 0 => a && b
  | 1 => a || b
  | 2 => a != b
  | _ => a && !b

/-- A scalar destination written, and the word retires. -/
def State.setSreg (s : State) (t r : Nat) (v : W64) : State := (s.updTile t fun x => x.setS r v).advance t

/-- A predicate written, and the word retires. -/
def State.setPred (s : State) (t i : Nat) (b : Bool) : State := (s.updTile t fun x => x.setP i b).advance t

/-! ## Instructions -/

/-- SALU (R147). -/
def execSalu (t : Fin 768) (w : W64) (s : State) : Res :=
  s.act <| s.issue t 0x00 w fun x s => s.setSreg t (sRd w) (saluOp (sFn w) (x.s (sRa w)) (x.s (sRb w)))

/-- SALUI (R147). -/
def execSalui (t : Fin 768) (w : W64) (s : State) : Res :=
  s.act <| s.issue t 0x01 w fun x s => s.setSreg t (sRd w) (saluOp (sFn w) (x.s (sRa w)) (sImm64 w))

/-- SCMP (R148). -/
def execScmp (t : Fin 768) (w : W64) (s : State) : Res :=
  s.act <| s.issue t 0x02 w fun x s => s.setPred t (sRd w) (scmpOp (sFn w) (x.s (sRa w)) (x.s (sRb w)))

/-- SCMPI (R148). -/
def execScmpi (t : Fin 768) (w : W64) (s : State) : Res :=
  s.act <| s.issue t 0x03 w fun x s => s.setPred t (sRd w) (scmpOp (sFn w) (x.s (sRa w)) (sImm64 w))

/-- PLOG (R148). -/
def execPlog (t : Fin 768) (w : W64) (s : State) : Res :=
  s.act <| s.issue t 0x04 w fun x s => s.setPred t (sRd w) (plogOp (sFn w) (x.p (sRa w)) (x.p (sRb w)))

/-- LI (R146): the immediate, sign-extended (R144). -/
def execLi (t : Fin 768) (w : W64) (s : State) : Res :=
  s.act <| s.issue t 0x05 w fun _ s => s.setSreg t (sRd w) (sImm64 w)

/-- LUI (R146): bits [63:32] written, [31:0] unchanged. -/
def execLui (t : Fin 768) (w : W64) (s : State) : Res :=
  s.act <| s.issue t 0x06 w fun x s => s.setSreg t (sRd w) (setFld (x.s (sRd w)) 32 32 (sImm w))

/-- A branch to word `target` of a program (R80, R149). -/
def State.branch (s : State) (t target : Nat) : State :=
  if (s.tile t).progLen ≤ target then s.tileFault t Ev.pcRange [] else s.retire t target

/-- BR (R149). -/
def execBr (t : Fin 768) (w : W64) (s : State) : Res :=
  s.act <| s.issue t 0x20 w fun _ s => s.branch t (sImm w % 32768)

/-- JAL (R149): a target out of range stops the tile; the link register is written first. -/
def execJal (t : Fin 768) (w : W64) (s : State) : Res :=
  s.act <| s.issue t 0x21 w fun x s =>
    (s.updTile t fun y => y.setS (sRd w) (BitVec.ofNat 64 (x.pc + 1))).branch t (sImm w % 32768)

/-- JR (R149): the target is RA[14:0]. -/
def execJr (t : Fin 768) (w : W64) (s : State) : Res :=
  s.act <| s.issue t 0x22 w fun x s => s.branch t ((x.s (sRa w)).toNat % 32768)

/-- END (R149): once every earlier instruction has retired the tile is IDLE. -/
def execEnd (t : Fin 768) (w : W64) (s : State) : Res :=
  s.act <| s.issue t 0x23 w fun x s =>
    if x.mma = [] then (s.advance t).updTile t fun y => { y with state := 0 } else s

/-- NOP (R146). -/
def execNop (t : Fin 768) (w : W64) (s : State) : Res :=
  s.act <| s.issue t 0x24 w fun _ s => s.advance t

/-- A control register's contents (R151). -/
def Tile.creg (x : Tile) (t k : Nat) : W64 :=
  match k with
  | 0 => BitVec.ofNat 64 x.pmode
  | 1 => x.fpCtrl.setWidth 64
  | 2 => x.fpFlags.setWidth 64
  | 3 => x.seed
  | _ => BitVec.ofNat 64 t

/-- FP_CTRL after a write (R137): a reserved CVT_RMODE leaves that field. -/
def fpCtrlAfter (old : W32) (v : W64) : W32 :=
  let m := if fld v 0 3 ≤ 4 then fld v 0 3 else fld old 0 3
  BitVec.ofNat 32 (m + 8 * fld v 3 2)

/-- A control register written (R137, R138, R151). -/
def Tile.setCreg (x : Tile) (k : Nat) (v : W64) : Tile :=
  match k with
  | 0 => { x with pmode := fld v 0 2 }
  | 1 => { x with fpCtrl := fpCtrlAfter x.fpCtrl v }
  | 2 => { x with fpFlags := x.fpFlags &&& ~~~(v.setWidth 32 &&& 0x3FF) }
  | _ => { x with seed := v }

/-- MFCR (R140, R151): after every earlier matrix and vector instruction has retired. -/
def execMfcr (t : Fin 768) (w : W64) (s : State) : Res :=
  s.act <| s.issue t 0x28 w fun x s =>
    if x.mma = [] then s.setSreg t (sRd w) (x.creg t (sImm w % 256)) else s

/-- MTCR (R140, R151). -/
def execMtcr (t : Fin 768) (w : W64) (s : State) : Res :=
  s.act <| s.issue t 0x29 w fun x s =>
    if x.mma = [] then (s.updTile t fun y => y.setCreg (sImm w % 256) (x.s (sRa w))).advance t else s

/-- The address of SLD and SST (R150). -/
def scalarAddr (x : Tile) (w : W64) : Nat := tAddr (x.s (sRa w) + sImm64 w).toNat / 8 * 8

/-- SLD (R150). -/
def execSld (t : Fin 768) (w : W64) (ecc : Ecc) (s : State) : Res :=
  s.act <| s.issue t 0x30 w fun x s =>
    let a := scalarAddr x w
    s.reading t ecc [(a, 8)] fun s => s.setSreg t (sRd w) (BitVec.ofNat 64 (s.tLoad t a 8))

/-- SST (R150). -/
def execSst (t : Fin 768) (w : W64) (s : State) : Res :=
  s.act <| s.issue t 0x31 w fun x s => (s.tStore t (scalarAddr x w) 8 (x.s (sRb w)).toNat).advance t

/-- RDTIME (R89, R175). -/
def execRdtime (t : Fin 768) (w : W64) (s : State) : Res :=
  s.act <| s.issue t 0x9C w fun _ s =>
    let v : W64 := match tImm w % 4 with
      | 0 => s.r Reg.sbFtc
      | 1 => s.r (Reg.cnLct (t / 192))
      | _ => BitVec.ofInt 64 (s.lineCycle t)
    s.setSreg t (tRs1 w) v

/-- TMARK (R177, R547 to R550): the record, where the unit traces this quarter's marks. -/
def execTmark (t : Fin 768) (w : W64) (s : State) : Res :=
  s.act <| s.issue t 0x9E w fun x s =>
    let p := s.partOfTile t
    let owner := match p with
      | some p => p + 1
      | none => 0
    let r := traceRec s.now 1 0 (cDie (t / 192)) owner (t + tImm w % 65536 * 65536) (x.s (tRs1 w)).toNat
    (s.traceTile t (setFld r 64 64 (s.lctOf t))).advance t

end Sys2Proof.Machine
end

