-- ==== Sys2Proof/Machine/VecMem.lean ====
section
/-!
DEFINITION. Vector memory instructions (R150, R152, R161 to R163).
-/
namespace Sys2Proof.Machine
open Sys2Proof

/-- RA + OFF (R161). -/
def vmBase (x : Tile) (w : W64) : Nat := (x.s (xRa w)).toNat + xOff w

/-- Address of VLD and VST. -/
def vldAddr (x : Tile) (w : W64) : Nat := tAddr (vmBase x w) / 64 * 64

/-- The per-lane addresses A_i of R162. -/
def laneAddrs (x : Tile) (w : W64) : List Nat :=
  (lanes (x.v (xVi w))).map fun v => tAddr (vmBase x w + 4 * v) / 4 * 4

/-- VLD (R161): only the active lanes are written. -/
def execVld (t : Fin 768) (w : W64) (ecc : Ecc) (s : State) : Res :=
  s.act <| s.issue t 0x60 w fun x s =>
    let a := vldAddr x w
    s.reading t ecc [(a, 1024)] fun s =>
      let new := lanes (BitVec.ofNat 8192 (s.tLoad t a 1024))
      (s.updTile t fun y => y.setV (vVd w) (ofLanes (blend (x.mask (xMen w) (xMsel w)) new (lanes (y.v (vVd w)))))).advance t

/-- The words of active lanes stored, one after another: (address, value) in ascending lane order. -/
def State.storeWords (s : State) (t : Nat) : List (Nat × Nat) → State
  | [] => s
  | p :: ps => (s.tStore t p.1 4 p.2).storeWords t ps

/-- The (address, value) pairs of the active lanes. -/
def activeWords (m : List Bool) (as vs : List Nat) : List (Nat × Nat) :=
  (List.zip m (List.zip as vs)).filterMap fun p => if p.1 then some p.2 else none

/-- VST (R161): only the words of active lanes. -/
def execVst (t : Fin 768) (w : W64) (s : State) : Res :=
  s.act <| s.issue t 0x61 w fun x s =>
    let a := vldAddr x w
    (s.storeWords t (activeWords (x.mask (xMen w) (xMsel w)) ((List.range 256).map fun i => tAddr (a + 4 * i))
      (lanes (x.v (vVd w))))).advance t

/-- GATHER (R162). -/
def execGather (t : Fin 768) (w : W64) (ecc : Ecc) (differ : Bool) (s : State) : Res :=
  s.act <| s.issue t 0x62 w fun x s =>
    let m := x.mask (xMen w) (xMsel w)
    let as := laneAddrs x w
    s.reading t ecc ((activeOf m as).map fun a => (a, 4)) fun s =>
      s.vecLanes t (vVd w) m (as.map fun a => (s.tLoad t a 4, 0)) differ

/-- SCATTER (R162): of lanes that name one word, the highest-numbered writes it. -/
def execScatter (t : Fin 768) (w : W64) (differ : Bool) (s : State) : Res :=
  s.act <| s.issue t 0x63 w fun x s =>
    let ps := activeWords (x.mask (xMen w) (xMsel w)) (laneAddrs x w) (lanes (x.v (vVd w)))
    (s.storeWords t ps).vecDone t differ (ps.map fun p => .mem p.1 4)

/-- Each listed word of tile `t` increased, modulo 2^32. -/
def State.addWords (s : State) (t : Nat) : List (Nat × Nat) → State
  | [] => s
  | p :: ps => (s.tStore t p.1 4 ((s.tLoad t p.1 4 + p.2) % 2 ^ 32)).addWords t ps

/-- SCATADDI (R162). -/
def execScataddi (t : Fin 768) (w : W64) (ecc : Ecc) (differ : Bool) (s : State) : Res :=
  s.act <| s.issue t 0x64 w fun x s =>
    let ps := activeWords (x.mask (xMen w) (xMsel w)) (laneAddrs x w) (lanes (x.v (vVd w)))
    s.reading t ecc (ps.map fun p => (p.1, 4)) fun s =>
      (s.addWords t ps).vecDone t differ (ps.map fun p => .mem p.1 4)

/-- Address of the record of group `g` (R163). -/
def recAddr (x : Tile) (w : W64) (g : Nat) : Nat := tAddr (vmBase x w) / 8 * 8 + 24 * g

/-- LEXP (R163). -/
def execLexp (t : Fin 768) (w : W64) (differ : Bool) (s : State) : Res :=
  s.act <| s.issue t 0x65 w fun x s =>
    let gs := groupsOn (x.mask (xMen w) (xMsel w))
    let s := s.each (fun g s => s.tStore t (recAddr x w g) 24 (x.lacc g).record) gs
    s.vecDone t differ (gs.map fun g => .mem (recAddr x w g) 24)

/-- LMRG (R163). -/
def execLmrg (t : Fin 768) (w : W64) (ecc : Ecc) (differ : Bool) (s : State) : Res :=
  s.act <| s.issue t 0x66 w fun x s =>
    let gs := groupsOn (x.mask (xMen w) (xMsel w))
    s.reading t ecc (gs.map fun g => (recAddr x w g, 24)) fun s =>
      (s.each (fun g s => s.updTile t fun y => y.setLacc g ((y.lacc g).merge (s.tLoad t (recAddr x w g) 24))) gs).vecDone
        t differ (gs.map .lacc)

end Sys2Proof.Machine
end

