-- ==== Sys2Proof/Machine/Dispatch.lean ====
section
/-!
DEFINITION. Which meaning each command has: one arm per constructor.
-/
namespace Sys2Proof.Machine

/-- The effect of a command on everything but the queue. -/
def exec (i : Instr) (s : State) : Host.Outcome State Fault Refusal :=
  match i with
  | .tick => Sys2Proof.Machine.execTick s
  | .frameStart bad => Sys2Proof.Machine.execFrameStart bad s
  | .ftcRead via wide high => Sys2Proof.Machine.execFtcRead via wide high s
  | .ftcIncrWrite via v => Sys2Proof.Machine.execFtcIncrWrite via v s
  | .ftcStepWrite via v => Sys2Proof.Machine.execFtcStepWrite via v s
  | .ftcStepAct => Sys2Proof.Machine.execFtcStepAct s
  | .timeCtrlWrite via v => Sys2Proof.Machine.execTimeCtrlWrite via v s
  | .timeRestart via v => Sys2Proof.Machine.execTimeRestart via v s
  | .timeXferSend p plane => Sys2Proof.Machine.execTimeXferSend p plane s
  | .timeXferReceive p n plane freq => Sys2Proof.Machine.execTimeXferReceive p n plane freq s
  | .timeXferMissing p => Sys2Proof.Machine.execTimeXferMissing p s
  | .holdoverExpiry => Sys2Proof.Machine.execHoldoverExpiry s
  | .ref10mLoss => Sys2Proof.Machine.execRef10mLoss s
  | .ref10mPresent locked near => Sys2Proof.Machine.execRef10mPresent locked near s
  | .wtbLoadGo via v => Sys2Proof.Machine.execWtbLoadGo via v s
  | .wtbLoaded => Sys2Proof.Machine.execWtbLoaded s
  | .wtbSecRead via => Sys2Proof.Machine.execWtbSecRead via s
  | .ptpFrameRx frame => Sys2Proof.Machine.execPtpFrameRx frame s
  | .ptpFrameTx oneStep frame => Sys2Proof.Machine.execPtpFrameTx oneStep frame s
  | .ptpTxStampRead via => Sys2Proof.Machine.execPtpTxStampRead via s
  | .ppsInEdge => Sys2Proof.Machine.execPpsInEdge s
  | .ppsOutEdge => Sys2Proof.Machine.execPpsOutEdge s
  | .launchAt f r => Sys2Proof.Machine.execLaunchAt f r s
  | .changeover f r => Sys2Proof.Machine.execChangeover f r s
  | .cancel f r => Sys2Proof.Machine.execCancel f r s
  | .changeoverTick => Sys2Proof.Machine.execChangeoverTick s
  | .bankDrainEnd u => Sys2Proof.Machine.execBankDrainEnd u s
  | .instructionFetch t ecc => Sys2Proof.Machine.execInstructionFetch t ecc s
  | .salu t w => Sys2Proof.Machine.execSalu t w s
  | .salui t w => Sys2Proof.Machine.execSalui t w s
  | .scmp t w => Sys2Proof.Machine.execScmp t w s
  | .scmpi t w => Sys2Proof.Machine.execScmpi t w s
  | .plog t w => Sys2Proof.Machine.execPlog t w s
  | .li t w => Sys2Proof.Machine.execLi t w s
  | .lui t w => Sys2Proof.Machine.execLui t w s
  | .br t w => Sys2Proof.Machine.execBr t w s
  | .jal t w => Sys2Proof.Machine.execJal t w s
  | .jr t w => Sys2Proof.Machine.execJr t w s
  | .endCmd t w => Sys2Proof.Machine.execEnd t w s
  | .nop t w => Sys2Proof.Machine.execNop t w s
  | .mfcr t w => Sys2Proof.Machine.execMfcr t w s
  | .mtcr t w => Sys2Proof.Machine.execMtcr t w s
  | .sld t w ecc => Sys2Proof.Machine.execSld t w ecc s
  | .sst t w => Sys2Proof.Machine.execSst t w s
  | .vfp t w differ => Sys2Proof.Machine.execVfp t w differ s
  | .vfps t w differ => Sys2Proof.Machine.execVfps t w differ s
  | .vint t w differ => Sys2Proof.Machine.execVint t w differ s
  | .vints t w differ => Sys2Proof.Machine.execVints t w differ s
  | .vmov t w differ => Sys2Proof.Machine.execVmov t w differ s
  | .vcvt t w differ => Sys2Proof.Machine.execVcvt t w differ s
  | .vred t w differ => Sys2Proof.Machine.execVred t w differ s
  | .vlacc t w differ => Sys2Proof.Machine.execVlacc t w differ s
  | .vld t w ecc => Sys2Proof.Machine.execVld t w ecc s
  | .vst t w => Sys2Proof.Machine.execVst t w s
  | .gather t w ecc differ => Sys2Proof.Machine.execGather t w ecc differ s
  | .scatter t w differ => Sys2Proof.Machine.execScatter t w differ s
  | .scataddi t w ecc differ => Sys2Proof.Machine.execScataddi t w ecc differ s
  | .lexp t w differ => Sys2Proof.Machine.execLexp t w differ s
  | .lmrg t w ecc differ => Sys2Proof.Machine.execLmrg t w ecc differ s
  | .vsort t w differ => Sys2Proof.Machine.execVsort t w differ s
  | .vtopk t w differ => Sys2Proof.Machine.execVtopk t w differ s
  | .vrand t w differ => Sys2Proof.Machine.execVrand t w differ s
  | .mma t w ecc fs => Sys2Proof.Machine.execMma t w ecc fs s
  | .mmaComplete t differ => Sys2Proof.Machine.execMmaComplete t differ s
  | .drain t w => Sys2Proof.Machine.execDrain t w s
  | .drainv t w => Sys2Proof.Machine.execDrainv t w s
  | .lsend t w ecc => Sys2Proof.Machine.execLsend t w ecc s
  | .lineSendDepart t => Sys2Proof.Machine.execLineSendDepart t s
  | .lineCellHop c => Sys2Proof.Machine.execLineCellHop c s
  | .lineEject t => Sys2Proof.Machine.execLineEject t s
  | .externalCycle t eccs => Sys2Proof.Machine.execExternalCycle t eccs s
  | .arrive t w => Sys2Proof.Machine.execArrive t w s
  | .setCmd t w => Sys2Proof.Machine.execSet t w s
  | .msend t w ecc => Sys2Proof.Machine.execMsend t w ecc s
  | .waitt t w => Sys2Proof.Machine.execWaitt t w s
  | .waitf t w => Sys2Proof.Machine.execWaitf t w s
  | .ftcWaitComplete t => Sys2Proof.Machine.execFtcWaitComplete t s
  | .waitps t w => Sys2Proof.Machine.execWaitps t w s
  | .tileWake t => Sys2Proof.Machine.execTileWake t s
  | .rdtime t w => Sys2Proof.Machine.execRdtime t w s
  | .tmark t w => Sys2Proof.Machine.execTmark t w s
  | .tokenUpdateCycle c => Sys2Proof.Machine.execTokenUpdateCycle c s
  | .tokenWaitResume t => Sys2Proof.Machine.execTokenWaitResume t s
  | .tokenWaitTimeout t => Sys2Proof.Machine.execTokenWaitTimeout t s
  | .seqWatchdog t => Sys2Proof.Machine.execSeqWatchdog t s
  | .tokenSlotArrive k w v => Sys2Proof.Machine.execTokenSlotArrive k w v s
  | .tokenSlotSet k w v => Sys2Proof.Machine.execTokenSlotSet k w v s
  | .tileSramScrub a ecc => Sys2Proof.Machine.execTileSramScrub a ecc s
  | .walkerRead u o arr pre ecc => Sys2Proof.Machine.execWalkerRead u o arr pre ecc s
  | .changeoverEntry u o arr => Sys2Proof.Machine.execChangeoverEntry u o arr s
  | .markEntry u o arr => Sys2Proof.Machine.execMarkEntry u o arr s
  | .departEntry p o => Sys2Proof.Machine.execDepartEntry p o s
  | .departReadyTest p o => Sys2Proof.Machine.execDepartReadyTest p o s
  | .passOutboundTake p o => Sys2Proof.Machine.execPassOutboundTake p o s
  | .reduceEntry p o => Sys2Proof.Machine.execReduceEntry p o s
  | .reduceReadyTest p o => Sys2Proof.Machine.execReduceReadyTest p o s
  | .junctionSlot j => Sys2Proof.Machine.execJunctionSlot j s
  | .portTxTick p => Sys2Proof.Machine.execPortTxTick p s
  | .cellReceive p c frac cws => Sys2Proof.Machine.execCellReceive p c frac cws s
  | .dueWindowClose p => Sys2Proof.Machine.execDueWindowClose p s
  | .cellRelease p agree => Sys2Proof.Machine.execCellRelease p agree s
  | .platformWrite t => Sys2Proof.Machine.execPlatformWrite t s
  | .reduceWriteBack t => Sys2Proof.Machine.execReduceWriteBack t s
  | .signalCellReceive p c cws => Sys2Proof.Machine.execSignalCellReceive p c cws s
  | .replayTimeout p => Sys2Proof.Machine.execReplayTimeout p s
  | .linkUp p => Sys2Proof.Machine.execLinkUp p s
  | .enterSiding p => Sys2Proof.Machine.execEnterSiding p s
  | .silentTimeout p => Sys2Proof.Machine.execSilentTimeout p s
  | .errorWindowEnd p => Sys2Proof.Machine.execErrorWindowEnd p s
  | .cableRemoved p => Sys2Proof.Machine.execCableRemoved p s
  | .cableInserted p r flat writeOk isReady => Sys2Proof.Machine.execCableInserted p r flat writeOk isReady s
  | .cmisPoll p flags isReady => Sys2Proof.Machine.execCmisPoll p flags isReady s
  | .trainingStart p step => Sys2Proof.Machine.execTrainingStart p step s
  | .trainingComplete p clean => Sys2Proof.Machine.execTrainingComplete p clean s
  | .retrainTimer p => Sys2Proof.Machine.execRetrainTimer p s
  | .laneFailing p l x => Sys2Proof.Machine.execLaneFailing p l x s
  | .laneSwitch p => Sys2Proof.Machine.execLaneSwitch p s
  | .cableHoursUpdate p writeOk => Sys2Proof.Machine.execCableHoursUpdate p writeOk s
  | .portReset via p v => Sys2Proof.Machine.execPortReset via p v s
  | .retrain via p v => Sys2Proof.Machine.execRetrain via p v s
  | .recheck via p v => Sys2Proof.Machine.execRecheck via p v s
  | .holdDown via p v => Sys2Proof.Machine.execHoldDown via p v s
  | .holdPeakRead via p => Sys2Proof.Machine.execHoldPeakRead via p s
  | .messageInjected u => Sys2Proof.Machine.execMessageInjected u s
  | .packetForward src list k ecc => Sys2Proof.Machine.execPacketForward src list k ecc s
  | .write src list k => Sys2Proof.Machine.execWrite src list k s
  | .mailbox src list k => Sys2Proof.Machine.execMailbox src list k s
  | .readReq src list k eccs => Sys2Proof.Machine.execReadReq src list k eccs s
  | .readResp src list k => Sys2Proof.Machine.execReadResp src list k s
  | .tokenArrive src list k => Sys2Proof.Machine.execTokenArrive src list k s
  | .unschedStall x v => Sys2Proof.Machine.execUnschedStall x v s
  | .routedNewt p n => Sys2Proof.Machine.execRoutedNewt p n s
  | .broadcastNewt p n => Sys2Proof.Machine.execBroadcastNewt p n s
  | .epochSet p n => Sys2Proof.Machine.execEpochSet p n s
  | .epochFlip => Sys2Proof.Machine.execEpochFlip s
  | .epochCmd via v => Sys2Proof.Machine.execEpochCmd via v s
  | .allStopNewt p n => Sys2Proof.Machine.execAllStopNewt p n s
  | .allstopCmd via v => Sys2Proof.Machine.execAllstopCmd via v s
  | .streamEntry m o => Sys2Proof.Machine.execStreamEntry m o s
  | .streamReadyTest m o => Sys2Proof.Machine.execStreamReadyTest m o s
  | .streamComplete m o idx gs => Sys2Proof.Machine.execStreamComplete m o idx gs s
  | .streamDeadline m o idx => Sys2Proof.Machine.execStreamDeadline m o idx s
  | .hbmRefresh k temp => Sys2Proof.Machine.execHbmRefresh k temp s
  | .hbmScrub k ecc => Sys2Proof.Machine.execHbmScrub k ecc s
  | .stackRetired k requested responds => Sys2Proof.Machine.execStackRetired k requested responds s
  | .doorbell f r v => Sys2Proof.Machine.execDoorbell f r v s
  | .shadowPoll f r v => Sys2Proof.Machine.execShadowPoll f r v s
  | .ringEnable f which v => Sys2Proof.Machine.execRingEnable f which v s
  | .ringDisable f which v => Sys2Proof.Machine.execRingDisable f which v s
  | .descriptorDispatch f r d => Sys2Proof.Machine.execDescriptorDispatch f r d s
  | .completionWrite f r ok => Sys2Proof.Machine.execCompletionWrite f r ok s
  | .cqHeadWrite f which v => Sys2Proof.Machine.execCqHeadWrite f which v s
  | .irqDelayExpiry f r => Sys2Proof.Machine.execIrqDelayExpiry f r s
  | .notifyEntry pf vf => Sys2Proof.Machine.execNotifyEntry pf vf s
  | .ping f r => Sys2Proof.Machine.execPing f r s
  | .load f r image wlist data root bad hash fixed => Sys2Proof.Machine.execLoad f r image wlist data root bad hash fixed s
  | .mirror f r => Sys2Proof.Machine.execMirror f r s
  | .bind f r list bad fixed => Sys2Proof.Machine.execBind f r list bad fixed s
  | .bindDone p via bad fixed ok => Sys2Proof.Machine.execBindDone p via bad fixed ok s
  | .dma f r n via data bad eccs => Sys2Proof.Machine.execDma f r n via data bad eccs s
  | .wait f r => Sys2Proof.Machine.execWait f r s
  | .newt f r => Sys2Proof.Machine.execNewt f r s
  | .checkpoint f r data hostBad bad fixed => Sys2Proof.Machine.execCheckpoint f r data hostBad bad fixed s
  | .stop f r => Sys2Proof.Machine.execStop f r s
  | .query f r ok => Sys2Proof.Machine.execQuery f r ok s
  | .rehash f r hash fixed => Sys2Proof.Machine.execRehash f r hash fixed s
  | .flrVf n => Sys2Proof.Machine.execFlrVf n s
  | .flrPf => Sys2Proof.Machine.execFlrPf s
  | .hotReset => Sys2Proof.Machine.execHotReset s
  | .pcieLinkDown => Sys2Proof.Machine.execPcieLinkDown s
  | .partScrubbed => Sys2Proof.Machine.execPartScrubbed s
  | .rotaSwapStart p => Sys2Proof.Machine.execRotaSwapStart p s
  | .rotaFillDone p => Sys2Proof.Machine.execRotaFillDone p s
  | .rotaFillLate p => Sys2Proof.Machine.execRotaFillLate p s
  | .rotaHalt via p v => Sys2Proof.Machine.execRotaHalt via p v s
  | .eventReport d => Sys2Proof.Machine.execEventReport d s
  | .clearFirst via v => Sys2Proof.Machine.execClearFirst via v s
  | .diePoll d answered fault => Sys2Proof.Machine.execDiePoll d answered fault s
  | .saHeartbeat via v => Sys2Proof.Machine.execSaHeartbeat via v s
  | .saWatchdogFired fatal => Sys2Proof.Machine.execSaWatchdogFired fatal s
  | .plRequestWrite via v => Sys2Proof.Machine.execPlRequestWrite via v s
  | .levelSwitch => Sys2Proof.Machine.execLevelSwitch s
  | .powerSample => Sys2Proof.Machine.execPowerSample s
  | .thermalSample rs => Sys2Proof.Machine.execThermalSample rs s
  | .voltageSense rail half => Sys2Proof.Machine.execVoltageSense rail half s
  | .droopFire c margin => Sys2Proof.Machine.execDroopFire c margin s
  | .droopSustained c => Sys2Proof.Machine.execDroopSustained c s
  | .avsResponse m code data lost => Sys2Proof.Machine.execAvsResponse m code data lost s
  | .avsTimeout m => Sys2Proof.Machine.execAvsTimeout m s
  | .pmRequestWrite via v => Sys2Proof.Machine.execPmRequestWrite via v s
  | .waitm => Sys2Proof.Machine.execWaitm s
  | .pmEntered writeOk => Sys2Proof.Machine.execPmEntered writeOk s
  | .moduleWake reads boot => Sys2Proof.Machine.execModuleWake reads boot s
  | .wakeAlarm => Sys2Proof.Machine.execWakeAlarm s
  | .wakePin => Sys2Proof.Machine.execWakePin s
  | .ethWakeFrame => Sys2Proof.Machine.execEthWakeFrame s
  | .readyChainStep d ok pg bad ring stops => Sys2Proof.Machine.execReadyChainStep d ok pg bad ring stops s
  | .coldReset pin via v boot => Sys2Proof.Machine.execColdReset pin via v boot s
  | .warmReset via v boot => Sys2Proof.Machine.execWarmReset via v boot s
  | .computeReset via v => Sys2Proof.Machine.execComputeReset via v s
  | .partitionReset via v => Sys2Proof.Machine.execPartitionReset via v s
  | .tileReset via v => Sys2Proof.Machine.execTileReset via v s
  | .resetCmdPort via v => Sys2Proof.Machine.execResetCmdPort via v s
  | .resetDone => Sys2Proof.Machine.execResetDone s
  | .powerOn boot => Sys2Proof.Machine.execPowerOn boot s
  | .powerOnFall => Sys2Proof.Machine.execPowerOnFall s
  | .auxPowerLost back boot => Sys2Proof.Machine.execAuxPowerLost back boot s
  | .refclkLost => Sys2Proof.Machine.execRefclkLost s
  | .replan byHours via v => Sys2Proof.Machine.execReplan byHours via v s
  | .marginPlanReady reads => Sys2Proof.Machine.execMarginPlanReady reads s
  | .txnBegin via v => Sys2Proof.Machine.execTxnBegin via v s
  | .txnAppend via wide hi v => Sys2Proof.Machine.execTxnAppend via wide hi v s
  | .txnSeal via v => Sys2Proof.Machine.execTxnSeal via v s
  | .txnCommit via v full => Sys2Proof.Machine.execTxnCommit via v full s
  | .txnRollback via v => Sys2Proof.Machine.execTxnRollback via v s
  | .txnApply full => Sys2Proof.Machine.execTxnApply full s
  | .txnTimeout => Sys2Proof.Machine.execTxnTimeout s
  | .fuseBurn ok => Sys2Proof.Machine.execFuseBurn ok s
  | .stageWrite via wide hi v => Sys2Proof.Machine.execStageWrite via wide hi v s
  | .stageErase via v cause version => Sys2Proof.Machine.execStageErase via v cause version s
  | .stageVerify via v cause version => Sys2Proof.Machine.execStageVerify via v cause version s
  | .idCertRead via wide hi => Sys2Proof.Machine.execIdCertRead via wide hi s
  | .lockstepFrameSend p => Sys2Proof.Machine.execLockstepFrameSend p s
  | .lockstepNewt n => Sys2Proof.Machine.execLockstepNewt n s
  | .lockstepNoPartner p => Sys2Proof.Machine.execLockstepNoPartner p s
  | .ctrSnapGo via v => Sys2Proof.Machine.execCtrSnapGo via v s
  | .ctrSnapshot => Sys2Proof.Machine.execCtrSnapshot s
  | .traceEnable via c v => Sys2Proof.Machine.execTraceEnable via c v s
  | .traceDisable via c v => Sys2Proof.Machine.execTraceDisable via c v s
  | .traceTrigger via c v => Sys2Proof.Machine.execTraceTrigger via c v s
  | .traceRecordWrite c src => Sys2Proof.Machine.execTraceRecordWrite c src s
  | .traceSpill c => Sys2Proof.Machine.execTraceSpill c s
  | .traceRead via c wide hi ecc => Sys2Proof.Machine.execTraceRead via c wide hi ecc s
  | .stopDump via v => Sys2Proof.Machine.execStopDump via v s
  | .dumpDone bad => Sys2Proof.Machine.execDumpDone bad s
  | .wfgBuild auto via v => Sys2Proof.Machine.execWfgBuild auto via v s
  | .wfgBuilt => Sys2Proof.Machine.execWfgBuilt s
  | .wfgRelease via v => Sys2Proof.Machine.execWfgRelease via v s
  | .wfgRead via wide hi => Sys2Proof.Machine.execWfgRead via wide hi s
  | .stIndDataAccess via m wide hi write v => Sys2Proof.Machine.execStIndDataAccess via m wide hi write v s
  | .regFaultRearm via wide => Sys2Proof.Machine.execRegFaultRearm via wide s
  | .i3cWrite sb bs boot full cause version quiet => Sys2Proof.Machine.execI3cWrite sb bs boot full cause version quiet s
  | .i3cReadSetup sb hi wide a extra => Sys2Proof.Machine.execI3cReadSetup sb hi wide a extra s
  | .i3cRead sb ecc silent => Sys2Proof.Machine.execI3cRead sb ecc silent s
  | .registerWrite via space key width v boot full cause version quiet => Sys2Proof.Machine.execRegisterWrite via space key width v boot full cause version quiet s
  | .registerRead via space key width ecc silent => Sys2Proof.Machine.execRegisterRead via space key width ecc silent s
  | .lineStopFailed c r => Sys2Proof.Machine.execLineStopFailed c r s
  | .pcieConfigurationWrite f w => Sys2Proof.Machine.execPcieConfigurationWrite f w s
  | .atsInvalidation f a n => Sys2Proof.Machine.execAtsInvalidation f a n s
  | .avsStatusPoll m => Sys2Proof.Machine.execAvsStatusPoll m s
  | .marginPlanPending => Sys2Proof.Machine.execMarginPlanPending s
  | .ppsOutFall => Sys2Proof.Machine.execPpsOutFall s
  | .dynamicAddress sb a => Sys2Proof.Machine.execDynamicAddress sb a s

end Sys2Proof.Machine
end

