-- ==== Sys2Proof/Machine/Step.lean ====
section
/-!
DEFINITION. One step: the command at the front of the queue takes effect.
-/
namespace Sys2Proof.Machine

/-- Take the command at the front of the queue and run it with the rest of the queue; with nothing waiting the module
idles (DESIGN CHOICE, log 1). -/
def step (s : State) : Host.Outcome State Fault Refusal :=
  match s.pending with
  | [] => .next s
  | c :: cs => exec c (s.withPending cs)

/-- `s` with the command that the word spells at the front of its queue; the table gives no row any bits, so no word
spells a command and `s` is unchanged. -/
def State.withFetchWord (s : State) (nbits w : Nat) : State :=
  match Sys2Proof.decodeTableWord nbits w with
  | none => s
  | some c => (s.withPending (c :: s.pending))

end Sys2Proof.Machine
end

