-- ==== Sys2Proof/Safety.lean ====
section
/-!
DEFINITION. The terms that statements are made in: what a command answers, when an interface's access is carried out, and
when a tile issues an instruction.
-/
namespace Sys2Proof
open Sys2Proof.Machine

/-- The command answers a next state, of which `P` holds. -/
def Answers (c : Instr) (s : State) (P : State → Prop) : Prop := ∃ u, Sys2Proof.Machine.exec c s = .next u ∧ P u

/-- The state in which interface `i`'s write is judged: an access through BAR0 is a wake source (R499). -/
def Machine.State.reached (s : State) (i : Iface) : State := if i = .pf then s.wakeBy 1 else s

/-- No other writer than `who` has written since a token operation, a launch or a reset last took effect: no write of it is unordered with
another (R42). -/
abbrev Machine.State.alone (s : State) (who : Nat) : Prop := ∀ x, x ∈ s.recent → x.who = who

/-- A write of the register at `key` is carried out: something answers, no rule denies it (R579 to R591), and no transaction has applied
in this tick, whose values would stand (R529). -/
abbrev Machine.State.writable (s : State) (i : Iface) (key : Nat) (wide : Bool) : Prop :=
  s.offline i = false ∧ (s.reached i).regDenied i key true wide = none ∧ s.txnNow = []

/-- A read of the register at `key` is carried out. -/
abbrev Machine.State.readable (s : State) (i : Iface) (key : Nat) (wide : Bool) : Prop :=
  s.offline i = false ∧ s.regDenied i key false wide = none

/-- What the last read through interface `i` returned. -/
def Machine.State.got (s : State) (i : Iface) : W64 := SMap.get (fun _ => 0) s.readData i.code

/-- Tile `t` issues the word `w` of opcode `opc` and its guard predicate holds (R142). -/
abbrev Machine.State.issues (s : State) (t : Nat) (opc : Nat) (w : W64) : Prop :=
  (s.tile t).state = 1 ∧ (s.tile t).fetched = some w ∧ iOpc w = opc ∧ legalWord w = true ∧ s.cycleFor t opc = true ∧
    ((s.tile t).p (iPred w) != iPneg w) = true

/-- Tile `t`'s word has retired and the word after it is next. -/
abbrev Machine.State.retires (s u : State) (t : Nat) : Prop :=
  (u.tile t).pc = Nat.min ((s.tile t).pc + 1) 32768 ∧ (u.tile t).fetched = none ∧ (u.tile t).state = 1

/-- Nothing outside tile `t` changed: no register of the module, no byte of memory, no token, no report, no other tile. -/
abbrev Machine.State.onlyTile (s u : State) (t : Nat) : Prop :=
  u.regs = s.regs ∧ u.mem = s.mem ∧ u.tokens = s.tokens ∧ u.dies = s.dies ∧ ∀ j, j ≠ t → u.tile j = s.tile j

/-- The scalar registers of a tile but `r`, and everything its vector and matrix units hold, are as they were. -/
abbrev Machine.Tile.onlyS (x y : Tile) (r : Nat) : Prop :=
  (∀ k, k ≠ r → y.s k = x.s k) ∧ y.preds = x.preds ∧ y.vregs = x.vregs ∧ y.laccs = x.laccs ∧ y.accs = x.accs ∧
    y.fpCtrl = x.fpCtrl ∧ y.fpFlags = x.fpFlags ∧ y.pmode = x.pmode ∧ y.seed = x.seed ∧ y.mma = x.mma

/-- The vector registers of a tile but `r`, its scalar registers and predicates, its accumulators and its control registers but
FP_FLAGS are as they were. -/
abbrev Machine.Tile.onlyV (x y : Tile) (r : Nat) : Prop :=
  (∀ k, k ≠ r → y.v k = x.v k) ∧ y.sregs = x.sregs ∧ y.preds = x.preds ∧ y.laccs = x.laccs ∧ y.accs = x.accs ∧
    y.fpCtrl = x.fpCtrl ∧ y.pmode = x.pmode ∧ y.seed = x.seed ∧ y.mma = x.mma

/-- Every register of a tile is as it was. -/
abbrev Machine.Tile.sameRegs (x y : Tile) : Prop :=
  y.sregs = x.sregs ∧ y.preds = x.preds ∧ y.vregs = x.vregs ∧ y.laccs = x.laccs ∧ y.accs = x.accs ∧
    y.fpCtrl = x.fpCtrl ∧ y.fpFlags = x.fpFlags ∧ y.pmode = x.pmode ∧ y.seed = x.seed ∧ y.mma = x.mma

/-- Lane `i` of a vector register. -/
def lane (v : Vec) (i : Nat) : Nat := fld v (32 * i) 32

/-- Lane `i` takes part in a format V instruction (R144, R153). -/
def Machine.Tile.active (x : Tile) (w : W64) (i : Nat) : Bool := !vMen w || lane (x.v (vMsel w)) i % 2 == 1

/-- Lane `i` takes part in a format VM instruction. -/
def Machine.Tile.activeVM (x : Tile) (w : W64) (i : Nat) : Bool := !xMen w || lane (x.v (xMsel w)) i % 2 == 1

/-- The vector check of R135 does not stop the tile: unchecked, or the duplicate agrees. -/
abbrev Machine.Tile.agrees (x : Tile) (differ : Bool) : Prop := bitAt x.fpCtrl 4 = false ∨ differ = false

/-- Packet `k` of source `src` is `q`, its OP is `op`, it is for this module, and nothing stands against its delivery now (R83, R320,
R321, R327, R331, R336, R467). -/
abbrev Machine.State.delivers (s : State) (src list k op : Nat) (q : Queued) : Prop :=
  let c := setFld q.cell 9 2 3
  let a := (pktPlace c).1
  let n := (pktPlace c).2
  (s.buf src list)[k]? = some q ∧ pkOp c = op ∧ s.landsHere src list q = true ∧
    (src < 6 → s.packetOld c = false ∧ s.routable (cellEpoch c) (fld c 13 15) = true) ∧
    (∀ d, ownerCdie op a (pkToken c) = some d → s.destOff d = false) ∧ s.pktRefused c a n = none ∧
    s.stopped (s.pktPart c a n) = false ∧ s.landRoom c = true ∧ (op ≠ 4 → s.deadIn a n = none) ∧
    (s.crossPacket src ((ownerCdie op a (pkToken c)).getD 0) q).isSome = true

/-- Injection unit `v` has taken message `m` under the id `n`, and may have injected some of it since (R317, R319). -/
abbrev Machine.State.took (u : State) (v n : Nat) (m : Msg) : Prop :=
  (u.inj v).nextId = n + 1 ∧
    ∃ z, (u.inj v).msgs.getLast? = some z ∧ z = { m with id := n, next := z.next, got := z.got }

/-- Injection unit `c + 1` of C-die `c` has refused a message, counted it and kept nothing of it (R317). -/
abbrev Machine.State.refusedAt (s u : State) (c : Nat) : Prop :=
  (u.inj (c + 1)).nextId = (s.inj (c + 1)).nextId ∧
    u.rf (Reg.cnInjRefused c) 0 32 = min (s.rf (Reg.cnInjRefused c) 0 32 + 1) 0xFFFFFFFF

/-- The one descriptor that ring `r` of function `f` has in flight is `j`, of command `opc`, not yet started (R379). -/
abbrev Machine.State.starts (s : State) (f r : Nat) (j : Job) (opc : Nat) : Prop :=
  (s.ring (ringKey f r)).jobs = [j] ∧ j.phase = 0 ∧ fld j.desc 0 8 = opc

/-- That descriptor has finished with this class, code, details and result (R380, R383). -/
abbrev Machine.State.ends (u : State) (f r : Nat) (j : Job) (cls code d0 result d1 : Nat) : Prop :=
  (u.ring (ringKey f r)).jobs = [{ j with phase := 2, cls := cls, code := code, d0 := d0, result := result, d1 := d1 }]

/-- That descriptor goes on. -/
abbrev Machine.State.runs (s u : State) (f r : Nat) (j : Job) : Prop :=
  (u.ring (ringKey f r)).jobs = [{ j with phase := 1, begun := s.clk }]

/-- Function `f` has written `bs` to host memory from `a` on, in requests that follow one another and carry it whole (R371, R373). -/
abbrev Machine.State.hostGets (s u : State) (f a : Nat) (bs : List Byte) : Prop :=
  ∃ ws, u.hostOut = s.hostOut ++ ws ∧ (ws.flatMap fun w => w.bytes) = bs ∧ (∀ w, w ∈ ws → w.fn = f) ∧
    ∀ (i : Nat) w, ws[i]? = some w → w.addr = a + ((ws.take i).flatMap fun w => w.bytes).length

/-- Vector `v` of function `f` is signalled at once: MSI-X is on, the function has the vector, and nothing masks it (R371). -/
abbrev Machine.State.signals (s : State) (f v : Nat) : Prop :=
  (s.pcieFn f).msixOn = true ∧ v < vectors f ∧ (s.pcieFn f).masked v = false

/-- Byte `a` of tile `t`'s data SRAM. -/
def Machine.State.sram (s : State) (t a : Nat) : Byte := s.byte (tileAddr t (tAddr a))

/-- Partition `p` holds something that a stop ends, and nothing is armed for it (R399, R467). -/
abbrev Machine.State.stoppable (s : State) (p : Nat) : Prop :=
  (s.part p).armed = [] ∧ 1 ≤ s.partState p ∧ s.partState p ≤ 4

/-- Partition `p` has been stopped for `reason`: its state, its STOP_STATUS, its tiles (R399, R467, R469). -/
abbrev Machine.State.stoppedBy (s u : State) (p reason : Nat) : Prop :=
  u.partState p = 5 ∧ u.rf (Reg.saStopStatus p) 16 16 = reason % 65536 ∧
    ∀ t, t < 768 → s.hasQuarter p (t / 48) = true → (u.tile t).state = 5 ∨ (u.tile t).state = 6

end Sys2Proof
end

