-- ==== Sys2Proof/Certificates/Slice0/Obligations.lean ====
section
/-!
DEFINITION. What the provers are asked to show of the model, one proposition to a family of commands.
-/
open Sys2Proof Sys2Proof.Machine

/-! ## Fabric time -/

/-- R45, R46, R47, R48, R49: each tick adds 1 to the FTC; at a frame start every ready C-die latches its LCT and the FTC; a 64-bit
read of SB.FTC returns the count, a 32-bit read of the low word latches the high word, the next read of the high word returns what
was latched, and any other read of it the present one; a write of FTC_INCR within 1.0 ± 200 ppm is stored and any other leaves the
register as it was and is reported; a step is accepted only in FREE or ACQUIRE with no launch armed and no job running, and acts
at a frame start where the same holds, and is refused where it does not. -/
def Obligations.FabricTimeCounter : Prop :=
  (∀ s : State, s.clockRuns = true →
    ∃ u, Sys2Proof.Machine.exec .tick s = .next u ∧ u.r Reg.sbFtc = s.r Reg.sbFtc + 1 ∧ u.mem = s.mem ∧ u.tokens = s.tokens) ∧
  (∀ (s : State) (replicas : List (Fin 32 × W64)), s.now % 4096 = 0 → s.mon.pending = none →
    (∀ x, x ∈ replicas → x.2.toNat = s.now) →
    ∃ u, Sys2Proof.Machine.exec (.frameStart replicas) s = .next u ∧
      (u.mem = s.mem ∧ u.tokens = s.tokens ∧ u.tiles = s.tiles ∧ u.dies = s.dies ∧
      u.r Reg.sbFtc = s.r Reg.sbFtc ∧ ∀ c : Fin 4, s.ready (cDie c) = true →
        u.r (Reg.cnLctAtFrame c) = s.r (Reg.cnLct c) ∧ u.r (Reg.cnFtcAtFrame c) = s.r Reg.sbFtc)) ∧
  (∀ (s : State) (d : Fin 32) (found : W64), s.now % 4096 = 0 → s.mon.pending = none → s.ready d = true →
    found.toNat ≠ s.now → d.val ≤ 1 →
    ∃ u, Sys2Proof.Machine.exec (.frameStart [(d, found)]) s = .next u ∧ (u.mem = s.mem ∧ u.tokens = s.tokens ∧
      u.dies = (s.report { code := Ev.ftcReplicaMismatch, die := d, items := [d, s.now, found.toNat] }).dies ∧ ∀ c : Fin 4, s.ready (cDie c) = true →
        u.r (Reg.cnLctAtFrame c) = s.r (Reg.cnLct c) ∧ u.r (Reg.cnFtcAtFrame c) = s.r Reg.sbFtc)) ∧
  (∀ (s : State) (i : Iface), s.readable i Reg.sbFtc true →
    ∃ u, Sys2Proof.Machine.exec (.ftcRead i true false) s = .next u ∧ u.got i = s.r Reg.sbFtc ∧ u.regs = s.regs ∧ u.mem = s.mem) ∧
  (∀ (s : State) (i : Iface), s.readable i Reg.sbFtc false →
    ∃ u, Sys2Proof.Machine.exec (.ftcRead i false false) s = .next u ∧ u.got i = s.r Reg.sbFtc &&& 0xFFFFFFFF ∧
      u.time.ftcHigh = some ((s.r Reg.sbFtc >>> 32).setWidth 32) ∧ u.regs = s.regs ∧ u.mem = s.mem) ∧
  (∀ (s : State) (i : Iface) (h : W32), s.readable i (Reg.sbFtc + 4) false → s.time.ftcHigh = some h →
    ∃ u, Sys2Proof.Machine.exec (.ftcRead i false true) s = .next u ∧
      u.got i = h.setWidth 64 ∧ u.time.ftcHigh = none ∧ u.regs = s.regs ∧
      u.mem = s.mem) ∧
  (∀ (s : State) (i : Iface), s.readable i (Reg.sbFtc + 4) false → s.time.ftcHigh = none →
    ∃ u, Sys2Proof.Machine.exec (.ftcRead i false true) s = .next u ∧
      u.got i = s.r Reg.sbFtc >>> 32 ∧ u.time = s.time ∧ u.regs = s.regs ∧
      u.mem = s.mem) ∧
  (∀ (s : State) (i : Iface) (v : W64), s.writable i Reg.sbFtcIncr true →
    ∃ u, Sys2Proof.Machine.exec (.ftcIncrWrite i v) s = .next u ∧ u.mem = s.mem ∧ u.r Reg.sbFtc = s.r Reg.sbFtc ∧
      if 2 ^ 40 * 999800 ≤ fld v 0 48 * 1000000 ∧ fld v 0 48 * 1000000 ≤ 2 ^ 40 * 1000200 then
        u.rf Reg.sbFtcIncr 0 48 = fld v 0 48 ∧ u.dies = s.dies
      else u.regs = s.regs ∧ u.dies = (s.note 1 Ev.ftcIncrRange [fld v 0 48]).dies) ∧
  (∀ (s : State) (i : Iface) (v : W64), s.writable i Reg.sbFtcStep true →
    ∃ u, Sys2Proof.Machine.exec (.ftcStepWrite i v) s = .next u ∧ u.regs = s.regs ∧ u.mem = s.mem ∧
      if (s.timeState = 0 ∨ s.timeState = 1) ∧ s.jobActive = false then u.time.step = some v ∧ u.dies = s.dies
      else u.time = s.time ∧ u.dies = (s.note 1 Ev.ftcStepRefused []).dies) ∧
  (∀ (s : State) (v : W64), s.time.step = some v → s.now % 4096 = 0 → s.timeState ≤ 1 → s.jobActive = false →
    ∃ u, Sys2Proof.Machine.exec .ftcStepAct s = .next u ∧ (u.r Reg.sbFtc = s.r Reg.sbFtc + v ∧ u.time.step = none ∧ u.mem = s.mem ∧
      ∀ k, k ≠ Reg.sbFtc → u.r k = s.r k)) ∧
  (∀ (s : State) (v : W64), s.time.step = some v → s.now % 4096 = 0 → (1 < s.timeState ∨ s.jobActive = true) →
    ∃ u, Sys2Proof.Machine.exec .ftcStepAct s = .next u ∧ u.regs = s.regs ∧ u.time.step = none ∧ u.mem = s.mem ∧
      u.dies = (s.note 1 Ev.ftcStepRefused []).dies)

/-- R51, R61, R71, R75: a write of TIME_CTRL with a port field of 6 or 7 is refused and leaves the register; RESTART enters
ACQUIRE from FREE or LOST on a root where no launch is armed and no job runs, and with the 10 MHz input not used the root is
LOCKED at once; a launch armed or a job running refuses RESTART; HOLDOVER becomes LOST after 100 ms; a root that follows the 10
MHz input goes to HOLDOVER when it is lost and back to LOCKED from HOLDOVER or LOST when it returns with a measured offset within
8 ticks. -/
def Obligations.TimeStates : Prop :=
  (∀ (s : State) (i : Iface) (v : W32), s.writable i Reg.sbTimeCtrl false → 6 ≤ fld v 1 3 ∨ 6 ≤ fld v 5 3 →
    ∃ u, Sys2Proof.Machine.exec (.timeCtrlWrite i v) s = .next u ∧ u.regs = s.regs ∧ u.mem = s.mem ∧
      u.dies = (s.note 1 Ev.timeCtrlRange []).dies) ∧
  (∀ (s : State) (i : Iface) (v : W32), s.writable i Reg.sbTimeCtrl false → fld v 1 3 < 6 → fld v 5 3 < 6 →
    fld v 0 1 = 1 → fld v 4 1 = 0 → fld v 8 1 = 0 → s.timeState = 2 →
    ∃ u, Sys2Proof.Machine.exec (.timeCtrlWrite i v) s = .next u ∧ u.timeState = 2 ∧ u.rf Reg.sbTimeStatus 7 1 = 1 ∧
      u.rf Reg.sbTimeCtrl 0 12 = fld v 0 12 ∧ u.mem = s.mem ∧ u.dies = s.dies) ∧
  (∀ (s : State) (i : Iface) (v : W32), s.writable i Reg.sbTimeCtrl false → fld v 1 3 < 6 → fld v 5 3 < 6 →
    s.jobActive = false → s.timeState = 0 ∨ s.timeState = 4 → fld v 0 1 = 1 → fld v 4 1 = 0 → fld v 8 1 = 0 → fld v 9 1 = 0 →
    ∃ u, Sys2Proof.Machine.exec (.timeRestart i v) s = .next u ∧ u.timeState = 2 ∧ u.rf Reg.sbTimeStatus 8 6 = 0 ∧ u.mem = s.mem) ∧
  (∀ (s : State) (i : Iface) (v : W32), s.writable i Reg.sbTimeCtrl false → fld v 1 3 < 6 → fld v 5 3 < 6 →
    s.jobActive = true → s.timeState ≠ 1 →
    ∃ u, Sys2Proof.Machine.exec (.timeRestart i v) s = .next u ∧ u.timeState = s.timeState ∧ u.mem = s.mem ∧
      u.dies = (s.note 1 Ev.ftcStepRefused []).dies) ∧
  (∀ s : State, s.timeState = 3 → 312500000 ≤ s.rf Reg.sbHoldoverTicks 0 32 →
    ∃ u, Sys2Proof.Machine.exec .holdoverExpiry s = .next u ∧ u.timeState = 4 ∧ u.mem = s.mem) ∧
  (∀ s : State, s.timeState = 2 → s.rf Reg.sbTimeStatus 7 1 = 1 → s.rf Reg.sbTimeCtrl 9 1 = 1 →
    ∃ u, Sys2Proof.Machine.exec .ref10mLoss s = .next u ∧
      u.timeState = 3 ∧ u.rf Reg.sbTimeStatus 14 1 = 0 ∧ u.rf Reg.sbHoldoverTicks 0 32 = 0 ∧
      u.mem = s.mem) ∧
  (∀ (s : State) (locked : Bool) (near : RefMeasure), s.timeState = 3 ∨ s.timeState = 4 → s.rf Reg.sbTimeStatus 7 1 = 1 →
    s.rf Reg.sbTimeCtrl 9 1 = 1 → near.offset.toInt.natAbs ≤ 8 * 256 →
    ∃ u, Sys2Proof.Machine.exec (.ref10mPresent locked near) s = .next u ∧
      u.timeState = 2 ∧ u.rf Reg.sbTimeStatus 14 1 = 1 ∧ u.mem = s.mem ∧
      u.r Reg.sbFtc = s.r Reg.sbFtc)

/-- R51, R53, R54, R55, R56, R57, R66, R75: the newt a port sends in the signal slot of every sixteenth frame, what a received
newt stores of its sender and what the exchange it completes measures, and what a missing one of the active upstream counts; GO
arms a load that acts at the next frame start, replacing the WTB by the loaded values; a 64-bit read of WTB_SEC returns the
seconds and latches WTB_NS. -/
def Obligations.TimeTransferAndWallTime : Prop :=
  (∀ (s : State) (p : Fin 6) (plane : BitVec 80), s.now % 65536 = 63 → s.linkState p = 4 ∨ s.linkState p = 3 →
    ∃ u, Sys2Proof.Machine.exec (.timeXferSend p plane) s = .next u ∧
      u.mem = s.mem ∧ u.regs = s.regs ∧ (u.pt p).seq = (s.pt p).seq + 1 ∧
      (∃ tx, (u.pt p).sent.head? = some ((s.pt p).seq, tx, s.clk) ∧
        tx.toNat / 65536 = (plane.toNat / 256 + s.rf (Reg.lnTsTxComp p) 0 24) % 2 ^ 72 / 256) ∧
      ∃ n, (u.port p).newtsLocal = n :: (s.port p).newtsLocal ∧ nwType n = 1 ∧ nwScope n = 0) ∧
  (∀ (s : State) (p : Fin 6) (n : Newt) (plane : BitVec 80) (freq : BitVec 48), nwType n = 1 → nwScope n = 0 →
    findSent (BitVec.ofNat 16 (nwBody n 22 2)) (s.pt p).sent = none → s.rf Reg.sbTimeStatus 7 1 = 1 →
    ∃ u, Sys2Proof.Machine.exec (.timeXferReceive p n plane freq) s = .next u ∧
      u.mem = s.mem ∧ u.regs = s.regs ∧ u.tokens = s.tokens ∧
      (u.pt p).nbState = nwBody n 34 1 % 8 ∧ (u.pt p).nbHops = nwBody n 35 1 ∧
      (u.pt p).nbUp = BitVec.ofNat 16 (nwBody n 36 2)) ∧
  (∀ (s : State) (p : Fin 6) (n : Newt) (plane t3 : BitVec 80) (left : Nat) (freq : BitVec 48), nwType n = 1 → nwScope n = 0 →
    findSent (BitVec.ofNat 16 (nwBody n 22 2)) (s.pt p).sent = some (t3, left) → s.rf Reg.sbTimeStatus 7 1 = 1 →
    s.time.stepTick = none →
    ∃ u, Sys2Proof.Machine.exec (.timeXferReceive p n plane freq) s = .next u ∧
      (let t1 : Int := (nwBody n 0 8 * 65536 + nwBody n 8 2 : Nat)
      let t2 : Int := (stampOf plane (-(s.rf (Reg.lnTsRxComp p) 0 24 : Int) - (s.rf (Reg.lnTsDeskew p) 0 16 : Int))).toNat
      let t4 : Int := (nwBody n 24 8 * 65536 + nwBody n 32 2 : Nat)
      let offset := Int.tdiv (t2 - t1 - (t4 - t3.toNat) + sgn 16 (s.rf (Reg.lnCableAsym p) 0 16) * 256) 2
      let delay := Int.tdiv (t2 - t1 + (t4 - t3.toNat)) 2
      u.mem = s.mem ∧ u.tokens = s.tokens ∧
        if 0 ≤ delay ∧ delay ≤ 4096 * 65536 ∧ (s.timeState ≤ 1 ∨ offset.natAbs ≤ 2 ^ 20 * 65536) then
          (u.rf (Reg.lnTimeDelay p) 0 32 : Int) = delay / 256 ∧
            u.r (Reg.lnTimeOffsetTicks p) = BitVec.ofInt 64 (Int.tdiv offset 65536)
        else u.rf (Reg.lnTimeDiscard p) 0 32 = min (s.rf (Reg.lnTimeDiscard p) 0 32 + 1) 0xFFFFFFFF)) ∧
  (∀ (s : State) (p : Fin 6), s.xferMissing p = true → s.rf Reg.sbTimeStatus 7 1 = 0 → s.rf Reg.sbTimeStatus 3 3 = p.val →
    s.upstreams.contains p.val = true → (s.timeState ≠ 2 ∨ s.time.missRun < 3) →
    ∃ u, Sys2Proof.Machine.exec (.timeXferMissing p) s = .next u ∧
      u.time.missRun = s.time.missRun + 1 ∧ u.time.goodRun = 0 ∧ u.regs = s.regs ∧
      u.mem = s.mem) ∧
  (∀ (s : State) (p : Fin 6), s.xferMissing p = true → s.rf Reg.sbTimeStatus 7 1 = 0 →
    s.rf Reg.sbTimeStatus 3 3 = p.val → s.upstreams.contains p.val = true → s.timeState = 2 → 3 ≤ s.time.missRun →
    ∃ u, Sys2Proof.Machine.exec (.timeXferMissing p) s = .next u ∧
      u.timeState = 3 ∧ u.rf Reg.sbHoldoverTicks 0 32 = 0 ∧ u.mem = s.mem) ∧
  (∀ (s : State) (i : Iface) (v : W64), s.writable i Reg.sbWtbLoadNs true → fld v 63 1 = 1 →
    ∃ u, Sys2Proof.Machine.exec (.wtbLoadGo i v) s = .next u ∧ (u.time.load = true ∧ u.rf Reg.sbWtbLoadNs 0 48 = fld v 0 48 ∧
      u.rf Reg.sbWtbLoadNs 62 1 = fld v 62 1 ∧ u.mem = s.mem ∧ ∀ k, k ≠ Reg.sbWtbLoadNs → u.r k = s.r k)) ∧
  (∀ s : State, s.time.load = true → s.now % 4096 = 0 → s.rf Reg.sbWtbLoadNs 62 1 = 0 →
    s.rf Reg.sbWtbLoadNs 16 32 < 1000000000 →
    ∃ u, Sys2Proof.Machine.exec .wtbLoaded s = .next u ∧ (u.time.load = false ∧ u.r Reg.sbWtbSec = s.r Reg.sbWtbLoadSec ∧
      u.time.wtbNs.toNat = s.rf Reg.sbWtbLoadNs 16 32 ∧ u.time.wtbFrac.toNat = s.rf Reg.sbWtbLoadNs 0 16 * 2 ^ 24 ∧
      u.mem = s.mem ∧ ∀ k, k ≠ Reg.sbWtbSec → u.r k = s.r k)) ∧
  (∀ (s : State) (i : Iface), s.readable i Reg.sbWtbSec true →
    ∃ u, Sys2Proof.Machine.exec (.wtbSecRead i) s = .next u ∧
      u.got i = s.r Reg.sbWtbSec ∧ u.time.nsLatch = some s.wtbNsWord ∧ u.regs = s.regs ∧
      u.mem = s.mem)

/-- R67, R68, R69, R75: peer delay frames are counted and dropped, any other supported PTP frame received is stamped and kept; a
two-step stamp joins the queue in departure order with its sequenceId, over UDP and IPv6 even where one-step is asked; a one-step
Sync carries its own stamp; a read pops the next stamp; where PPS_OUT_EN is 1 the output rises where the WTB nanoseconds passed
through 0 and falls 312,500 ticks later; where it is 0 it does not rise. -/
def Obligations.PtpAndPps : Prop :=
  (∀ (s : State) (frame : List Byte) (t : PtpTransport), ptpTransport frame = some t →
    ptpPeerDelay (ptpType t frame) = true →
    ∃ u, Sys2Proof.Machine.exec (.ptpFrameRx frame) s = .next u ∧ (u.mem = s.mem ∧ u.time = s.time ∧
      u.rf Reg.sbPtpPdelayDropped 0 32 = min (s.rf Reg.sbPtpPdelayDropped 0 32 + 1) 0xFFFFFFFF ∧
      ∀ k, k ≠ Reg.sbPtpPdelayDropped → u.r k = s.r k)) ∧
  (∀ (s : State) (frame : List Byte) (t : PtpTransport), ptpTransport frame = some t →
    ptpSupported (ptpType t frame) = true →
    ∃ u, Sys2Proof.Machine.exec (.ptpFrameRx frame) s = .next u ∧ u.regs = s.regs ∧ u.mem = s.mem ∧
      u.time.ptpRx = s.time.ptpRx ++ [⟨frame, crc32 frame, s.r Reg.sbWtbSec, s.wtbNsWord⟩]) ∧
  (∀ (s : State) (oneStep : Bool) (frame : List Byte) (t : PtpTransport), ptpTransport frame = some t →
    (oneStep = false ∨ t = .udp6 ∨ ptpType t frame ≠ 0) →
    ∃ u, Sys2Proof.Machine.exec (.ptpFrameTx oneStep frame) s = .next u ∧ u.regs = s.regs ∧ u.mem = s.mem ∧
      u.ethOut = s.ethOut ++ [⟨frame, crc32 frame, s.r Reg.sbWtbSec, s.wtbNsWord⟩] ∧
      ∃ st : W64, u.time.stamps = s.time.stamps ++ [st] ∧ fld st 48 16 = frameField frame (t.at_ + 30) 2 % 65536 ∧
        fld st 0 48 = fld s.wtbNsWord 0 48) ∧
  (∀ (s : State) (frame : List Byte) (t : PtpTransport), ptpTransport frame = some t → t ≠ .udp6 → ptpType t frame = 0 →
    t.at_ + 44 ≤ frame.length →
    ∃ u, Sys2Proof.Machine.exec (.ptpFrameTx true frame) s = .next u ∧ u.regs = s.regs ∧ u.mem = s.mem ∧ u.time = s.time ∧
      ∃ x : PtpFrame, u.ethOut = s.ethOut ++ [x] ∧ x.fcs = crc32 x.bytes ∧
        frameField x.bytes (t.at_ + 34) 6 = (s.r Reg.sbWtbSec).toNat % 2 ^ 48 ∧
        frameField x.bytes (t.at_ + 40) 4 = s.time.wtbNs.toNat ∧ (t = .udp4 → frameField x.bytes (t.at_ - 2) 2 = 0)) ∧
  (∀ (s : State) (i : Iface) (x : W64) (xs : List W64), s.readable i Reg.sbPtpTxStamp true → s.time.stamps = x :: xs →
    ∃ u, Sys2Proof.Machine.exec (.ptpTxStampRead i) s = .next u ∧
      u.got i = x ∧ u.time.stamps = xs ∧ u.regs = s.regs ∧ u.mem = s.mem) ∧
  (∀ (s : State) (i : Iface), s.readable i Reg.sbPtpTxStamp true → s.time.stamps = [] →
    ∃ u, Sys2Proof.Machine.exec (.ptpTxStampRead i) s = .next u ∧ u.got i = 0 ∧ u.time = s.time ∧ u.regs = s.regs ∧ u.mem = s.mem) ∧
  (∀ s : State, s.time.ppsDue = true → s.rf Reg.sbTimeCtrl 11 1 = 1 →
    ∃ u, Sys2Proof.Machine.exec .ppsOutEdge s = .next u ∧ u.time.ppsOut = true ∧ u.time.ppsRise = s.clk ∧ u.time.ppsDue = false ∧
      u.regs = s.regs ∧ u.mem = s.mem) ∧
  (∀ s : State, s.time.ppsDue = true → s.rf Reg.sbTimeCtrl 11 1 = 0 →
    ∃ u, Sys2Proof.Machine.exec .ppsOutEdge s = .next u ∧ u.time.ppsOut = s.time.ppsOut ∧ u.regs = s.regs ∧ u.mem = s.mem) ∧
  (∀ s : State, s.time.ppsOut = true → s.time.ppsRise + 312500 ≤ s.clk →
    ∃ u, Sys2Proof.Machine.exec .ppsOutFall s = .next u ∧ u.time.ppsOut = false ∧ u.regs = s.regs ∧ u.mem = s.mem)

/-! ## Tile instructions -/

/-- R142, R146, R147: SALU and SALUI write RD with the operation that FN names, LI the sign-extended immediate, LUI the upper
half; nothing else of the tile or of the module changes. -/
def Obligations.ScalarArithmetic : Prop :=
  (∀ (s : State) (t : Fin 768) (w : W64) (imm : Bool), s.issues t (if imm then 0x01 else 0x00) w →
    ∃ u, Sys2Proof.Machine.exec (if imm then .salui t w else .salu t w) s = .next u ∧
      (let a := (s.tile t).s (sRa w)
      let b := if imm then sImm64 w else (s.tile t).s (sRb w)
      s.retires u t ∧ s.onlyTile u t ∧ (s.tile t).onlyS (u.tile t) (sRd w) ∧
        (sFn w = 0 → (u.tile t).s (sRd w) = a + b) ∧ (sFn w = 1 → (u.tile t).s (sRd w) = a - b) ∧
        (sFn w = 2 → (u.tile t).s (sRd w) = a &&& b) ∧ (sFn w = 3 → (u.tile t).s (sRd w) = a ||| b) ∧
        (sFn w = 4 → (u.tile t).s (sRd w) = a ^^^ b) ∧
        (sFn w = 5 → (u.tile t).s (sRd w) = BitVec.ofNat 64 (a.toNat * 2 ^ fld b 0 6)) ∧
        (sFn w = 6 → (u.tile t).s (sRd w) = BitVec.ofNat 64 (a.toNat / 2 ^ fld b 0 6)) ∧
        (sFn w = 7 → ((u.tile t).s (sRd w)).toInt = a.toInt / 2 ^ fld b 0 6) ∧
        (sFn w = 8 → (u.tile t).s (sRd w) = BitVec.ofNat 64 (a.toNat * b.toNat)) ∧
        (sFn w = 9 → ((u.tile t).s (sRd w)).toNat = a.toNat * b.toNat / 2 ^ 64) ∧
        (sFn w = 10 → ((u.tile t).s (sRd w)).toInt = a.toInt * b.toInt / 2 ^ 64) ∧
        (sFn w = 11 → ((u.tile t).s (sRd w)).toInt = min a.toInt b.toInt) ∧
        (sFn w = 12 → ((u.tile t).s (sRd w)).toInt = max a.toInt b.toInt) ∧
        (sFn w = 13 → ((u.tile t).s (sRd w)).toNat = min a.toNat b.toNat) ∧
        (sFn w = 14 → ((u.tile t).s (sRd w)).toNat = max a.toNat b.toNat))) ∧
  (∀ (s : State) (t : Fin 768) (w : W64), s.issues t 0x05 w →
    ∃ u, Sys2Proof.Machine.exec (.li t w) s = .next u ∧ s.retires u t ∧ s.onlyTile u t ∧ (s.tile t).onlyS (u.tile t) (sRd w) ∧
      (u.tile t).s (sRd w) = (w.setWidth 32).signExtend 64) ∧
  (∀ (s : State) (t : Fin 768) (w : W64), s.issues t 0x06 w →
    ∃ u, Sys2Proof.Machine.exec (.lui t w) s = .next u ∧ s.retires u t ∧ s.onlyTile u t ∧ (s.tile t).onlyS (u.tile t) (sRd w) ∧
      fld ((u.tile t).s (sRd w)) 32 32 = fld w 0 32 ∧ fld ((u.tile t).s (sRd w)) 0 32 = fld ((s.tile t).s (sRd w)) 0 32)

/-- R78, R148: SCMP, SCMPI and PLOG write one predicate, and a write to p0 has no effect; no other predicate, register or byte
changes. -/
def Obligations.PredicateInstructions : Prop :=
  (∀ (s : State) (t : Fin 768) (w : W64) (imm : Bool), s.issues t (if imm then 0x03 else 0x02) w →
    ∃ u, Sys2Proof.Machine.exec (if imm then .scmpi t w else .scmp t w) s = .next u ∧
      (let a := (s.tile t).s (sRa w)
      let b := if imm then sImm64 w else (s.tile t).s (sRb w)
      let p := (u.tile t).p (sRd w)
      s.retires u t ∧ s.onlyTile u t ∧ (∀ k, k ≠ sRd w → (u.tile t).p k = (s.tile t).p k) ∧
        (u.tile t).sregs = (s.tile t).sregs ∧ (u.tile t).vregs = (s.tile t).vregs ∧
        (sRd w = 0 → p = true) ∧
        (sRd w ≠ 0 → (sFn w = 0 → p = decide (a = b)) ∧ (sFn w = 1 → p = decide (a ≠ b)) ∧
          (sFn w = 2 → p = decide (a.toInt < b.toInt)) ∧ (sFn w = 3 → p = decide (a.toInt ≤ b.toInt)) ∧
          (sFn w = 4 → p = decide (a.toNat < b.toNat)) ∧ (sFn w = 5 → p = decide (a.toNat ≤ b.toNat))))) ∧
  (∀ (s : State) (t : Fin 768) (w : W64), s.issues t 0x04 w →
    ∃ u, Sys2Proof.Machine.exec (.plog t w) s = .next u ∧
      (let a := (s.tile t).p (sRa w)
      let b := (s.tile t).p (sRb w)
      let p := (u.tile t).p (sRd w)
      s.retires u t ∧ s.onlyTile u t ∧ (∀ k, k ≠ sRd w → (u.tile t).p k = (s.tile t).p k) ∧
        (u.tile t).sregs = (s.tile t).sregs ∧ (u.tile t).vregs = (s.tile t).vregs ∧
        (sRd w = 0 → p = true) ∧
        (sRd w ≠ 0 → (sFn w = 0 → p = (a && b)) ∧ (sFn w = 1 → p = (a || b)) ∧ (sFn w = 2 → p = (a ^^ b)) ∧
          (sFn w = 3 → p = (a && !b)))))

/-- R142, R149: BR, JAL and JR set the program counter to a target within the program, JAL saves the return address, END makes the
tile IDLE once no matrix instruction is left, NOP only moves on. -/
def Obligations.SequencerInstructions : Prop :=
  (∀ (s : State) (t : Fin 768) (w : W64), s.issues t 0x20 w → fld w 0 15 < (s.tile t).progLen →
    ∃ u, Sys2Proof.Machine.exec (.br t w) s = .next u ∧
      (u.tile t).pc = fld w 0 15 ∧ (u.tile t).fetched = none ∧ (u.tile t).state = 1 ∧
      s.onlyTile u t ∧ (s.tile t).sameRegs (u.tile t)) ∧
  (∀ (s : State) (t : Fin 768) (w : W64), s.issues t 0x21 w → fld w 0 15 < (s.tile t).progLen →
    ∃ u, Sys2Proof.Machine.exec (.jal t w) s = .next u ∧
      (u.tile t).pc = fld w 0 15 ∧ (u.tile t).fetched = none ∧ (u.tile t).state = 1 ∧
      s.onlyTile u t ∧ (s.tile t).onlyS (u.tile t) (sRd w) ∧
      (u.tile t).s (sRd w) = BitVec.ofNat 64 ((s.tile t).pc + 1)) ∧
  (∀ (s : State) (t : Fin 768) (w : W64), s.issues t 0x22 w → fld ((s.tile t).s (sRa w)) 0 15 < (s.tile t).progLen →
    ∃ u, Sys2Proof.Machine.exec (.jr t w) s = .next u ∧
      (u.tile t).pc = fld ((s.tile t).s (sRa w)) 0 15 ∧ (u.tile t).fetched = none ∧
      (u.tile t).state = 1 ∧ s.onlyTile u t ∧ (s.tile t).sameRegs (u.tile t)) ∧
  (∀ (s : State) (t : Fin 768) (w : W64), s.issues t 0x23 w → (s.tile t).mma = [] →
    ∃ u, Sys2Proof.Machine.exec (.endCmd t w) s = .next u ∧
      (u.tile t).state = 0 ∧ s.onlyTile u t ∧ (s.tile t).sameRegs (u.tile t)) ∧
  (∀ (s : State) (t : Fin 768) (w : W64), s.issues t 0x24 w →
    ∃ u, Sys2Proof.Machine.exec (.nop t w) s = .next u ∧ s.retires u t ∧ s.onlyTile u t ∧ (s.tile t).sameRegs (u.tile t))

/-- R137, R138, R151, R175, R177: MFCR and MTCR read and write the control register that IMM names once no matrix instruction is
left, and of MTCR the other control registers stay; RDTIME writes the FTC, the LCT or the line cycle number; TMARK retires at once
whether its quarter is traced or not, and where it is and the trace unit's queue has room its record joins that queue. -/
def Obligations.ControlRegistersAndTime : Prop :=
  (∀ (s : State) (t : Fin 768) (w : W64), s.issues t 0x28 w → (s.tile t).mma = [] →
    ∃ u, Sys2Proof.Machine.exec (.mfcr t w) s = .next u ∧ s.retires u t ∧ s.onlyTile u t ∧ (s.tile t).onlyS (u.tile t) (sRd w) ∧
      (fld w 0 8 = 0 → (u.tile t).s (sRd w) = BitVec.ofNat 64 (s.tile t).pmode) ∧
      (fld w 0 8 = 1 → (u.tile t).s (sRd w) = (s.tile t).fpCtrl.setWidth 64) ∧
      (fld w 0 8 = 2 → (u.tile t).s (sRd w) = (s.tile t).fpFlags.setWidth 64) ∧
      (fld w 0 8 = 3 → (u.tile t).s (sRd w) = (s.tile t).seed) ∧
      (fld w 0 8 = 4 → (u.tile t).s (sRd w) = BitVec.ofNat 64 t.val)) ∧
  (∀ (s : State) (t : Fin 768) (w : W64), s.issues t 0x29 w → (s.tile t).mma = [] →
    ∃ u, Sys2Proof.Machine.exec (.mtcr t w) s = .next u ∧ s.retires u t ∧ s.onlyTile u t ∧ (u.tile t).sregs = (s.tile t).sregs ∧
      (u.tile t).vregs = (s.tile t).vregs ∧ (u.tile t).preds = (s.tile t).preds ∧ (u.tile t).laccs = (s.tile t).laccs ∧
      (u.tile t).accs = (s.tile t).accs ∧
      (u.tile t).pmode = (if fld w 0 8 = 0 then fld ((s.tile t).s (sRa w)) 0 2 else (s.tile t).pmode) ∧
      (fld w 0 8 = 1 → fld (u.tile t).fpCtrl 3 2 = fld ((s.tile t).s (sRa w)) 3 2 ∧ fld (u.tile t).fpCtrl 5 27 = 0 ∧
        fld (u.tile t).fpCtrl 0 3 =
          if fld ((s.tile t).s (sRa w)) 0 3 ≤ 4 then fld ((s.tile t).s (sRa w)) 0 3 else fld (s.tile t).fpCtrl 0 3) ∧
      (fld w 0 8 ≠ 1 → (u.tile t).fpCtrl = (s.tile t).fpCtrl) ∧
      (u.tile t).fpFlags = (if fld w 0 8 = 2 then (s.tile t).fpFlags &&& ~~~(((s.tile t).s (sRa w)).setWidth 32 &&& 0x3FF)
        else (s.tile t).fpFlags) ∧
      (u.tile t).seed = if fld w 0 8 = 3 then (s.tile t).s (sRa w) else (s.tile t).seed) ∧
  (∀ (s : State) (t : Fin 768) (w : W64), s.issues t 0x9C w →
    ∃ u, Sys2Proof.Machine.exec (.rdtime t w) s = .next u ∧ s.retires u t ∧ s.onlyTile u t ∧ (s.tile t).onlyS (u.tile t) (tRs1 w) ∧
      (fld w 0 2 = 0 → (u.tile t).s (tRs1 w) = s.r Reg.sbFtc) ∧
      (fld w 0 2 = 1 → (u.tile t).s (tRs1 w) = s.r (Reg.cnLct (t / 192))) ∧
      (fld w 0 2 = 2 → (u.tile t).s (tRs1 w) = s.r (Reg.cnLct (t / 192)) - s.r (Reg.cnLineBase (t / 192) (t / 48 % 4)))) ∧
  (∀ (s : State) (t : Fin 768) (w : W64), s.issues t 0x9E w →
    ∃ u, Sys2Proof.Machine.exec (.tmark t w) s = .next u ∧
      s.retires u t ∧ u.mem = s.mem ∧ u.tokens = s.tokens ∧ (s.tile t).sameRegs (u.tile t) ∧
      (∀ j, j ≠ t.val → u.tile j = s.tile j) ∧
      let c := t.val / 192
      let traced := s.rf (Reg.cnTraceCtrl c) 0 1 = 1 ∧ s.rf (Reg.cnTraceSrc c) 0 1 = 1 ∧ s.rf (Reg.cnTraceSrc c) (4 + t / 48 % 4) 1 = 1
      (¬ traced → u.trace = s.trace ∧ u.regs = s.regs) ∧
      (traced → (s.tr c).queue.length < 256 → (s.tr c).dropSince = [] → u.regs = s.regs ∧
        ∃ r, (u.tr c).queue = (s.tr c).queue ++ [r] ∧ fld r 0 64 = s.now ∧ fld r 64 64 = (s.r (Reg.cnLct c)).toNat ∧
          fld r 128 8 = 1 ∧ fld r 144 8 = 2 + c ∧ fld r 160 10 = t.val ∧ fld r 176 16 = fld w 0 16 ∧
          fld r 192 64 = ((s.tile t).s (tRs1 w)).toNat))

/-- R42, R150: SLD and SST use bits [22:3] of RA + IMM as an aligned 8-byte address of the tile's own SRAM; a load changes no
memory and a store changes those 8 bytes and nothing else: they take RB's value where no other writer is unordered with the store,
and otherwise that value or what they were. -/
def Obligations.ScalarLoadsAndStores : Prop :=
  (∀ (s : State) (t : Fin 768) (w : W64), s.issues t 0x30 w → (s.tile t).absent = [] →
    ∃ u, Sys2Proof.Machine.exec (.sld t w .ok) s = .next u ∧
      (let a := ((s.tile t).s (sRa w) + sImm64 w).toNat % 0x800000 / 8 * 8
      s.retires u t ∧ s.onlyTile u t ∧ (s.tile t).onlyS (u.tile t) (sRd w) ∧
        ∀ i, i < 8 → fld ((u.tile t).s (sRd w)) (8 * i) 8 = (s.byte (tileAddr t (a + i))).toNat)) ∧
  (∀ (s : State) (t : Fin 768) (w : W64), s.issues t 0x31 w →
    ∃ u, Sys2Proof.Machine.exec (.sst t w) s = .next u ∧
      (let a := ((s.tile t).s (sRa w) + sImm64 w).toNat % 0x800000 / 8 * 8
      s.retires u t ∧ u.regs = s.regs ∧ u.tokens = s.tokens ∧ u.dies = s.dies ∧ (s.tile t).sameRegs (u.tile t) ∧
        (∀ j, j ≠ t.val → u.tile j = s.tile j) ∧
        ((∀ i, i < 8 → (u.byte (tileAddr t (a + i))).toNat = fld ((s.tile t).s (sRb w)) (8 * i) 8) ∨
          ¬ s.alone (whoTile t) ∧ ∀ i, i < 8 → u.byte (tileAddr t (a + i)) = s.byte (tileAddr t (a + i))) ∧
        ∀ b, (b < tileAddr t a ∨ tileAddr t a + 8 ≤ b) → u.byte b = s.byte b))

/-- R135, R153, R154, R155: VFP, VFPS, VINT and VINTS write, in every active lane and no other, what FN makes of the three source
lanes, where the second is a scalar register's low word in VFPS and VINTS; nothing else but FP_FLAGS changes. -/
def Obligations.VectorLaneOperations : Prop :=
  ∀ (s : State) (t : Fin 768) (w : W64) (fp scalar differ : Bool),
    s.issues t (if fp then (if scalar then 0x41 else 0x40) else if scalar then 0x43 else 0x42) w →
    (s.tile t).agrees differ →
    ∃ u, Sys2Proof.Machine.exec (if fp then (if scalar then .vfps t w differ else .vfp t w differ)
        else if scalar then .vints t w differ else .vint t w differ) s = .next u ∧
      (let x := s.tile t
      let b := fun i => if scalar then fld (x.s (vRs w)) 0 32 else lane (x.v (vVb w)) i
      let r := fun i => (if fp then vfpOp (vFn w) else vintOp (vFn w)) (lane (x.v (vVa w)) i) (b i) (lane (x.v (vVc w)) i)
      s.retires u t ∧ s.onlyTile u t ∧ x.onlyV (u.tile t) (vVd w) ∧
        ∀ i, i < 256 → lane ((u.tile t).v (vVd w)) i = if x.active w i = true then (r i).1 % 2 ^ 32 else lane (x.v (vVd w)) i)

/-- R123, R155: the integer lane operations wrap modulo 2^32, an add, subtract or multiply whose exact signed result does not fit
raises INT_OVERFLOW and no other operation raises a flag. -/
def Obligations.IntegerLaneResults : Prop :=
  ∀ a b c : BitVec 32,
    (vintOp 0 a.toNat b.toNat c.toNat).1 = (a + b).toNat ∧ (vintOp 1 a.toNat b.toNat c.toNat).1 = (a - b).toNat ∧
    (vintOp 2 a.toNat b.toNat c.toNat).1 = (a * b).toNat ∧ (vintOp 3 a.toNat b.toNat c.toNat).1 = (a &&& b).toNat ∧
    (vintOp 4 a.toNat b.toNat c.toNat).1 = (a ||| b).toNat ∧ (vintOp 5 a.toNat b.toNat c.toNat).1 = (a ^^^ b).toNat ∧
    (vintOp 6 a.toNat b.toNat c.toNat).1 = (a <<< (b.toNat % 32)).toNat ∧
    (vintOp 7 a.toNat b.toNat c.toNat).1 = (a >>> (b.toNat % 32)).toNat ∧
    (vintOp 8 a.toNat b.toNat c.toNat).1 = (a.sshiftRight (b.toNat % 32)).toNat ∧
    (vintOp 9 a.toNat b.toNat c.toNat).1 = (if a.toInt ≤ b.toInt then a else b).toNat ∧
    (vintOp 12 a.toNat b.toNat c.toNat).1 = max a.toNat b.toNat ∧
    (vintOp 13 a.toNat b.toNat c.toNat).1 = (if c.toNat % 2 = 1 then a else b).toNat ∧
    (vintOp 15 a.toNat b.toNat c.toNat).1 = (if a.toInt < b.toInt then 1 else 0) ∧
    ((vintOp 0 a.toNat b.toNat c.toNat).2 = fIntOver ↔ a.toInt + b.toInt ≠ (a + b).toInt) ∧
    ((vintOp 1 a.toNat b.toNat c.toNat).2 = fIntOver ↔ a.toInt - b.toInt ≠ (a - b).toInt) ∧
    ((vintOp 2 a.toNat b.toNat c.toNat).2 = fIntOver ↔ a.toInt * b.toInt ≠ (a * b).toInt) ∧
    ∀ k, 3 ≤ k → (vintOp k a.toNat b.toNat c.toNat).2 = 0

/-- R156, R158, R166: VMOV moves, splats, numbers or permutes lanes; a widening VCVT converts the elements of the part that VB
names; a narrowing one to FP16 writes them and leaves the rest of the register; VRAND writes Philox words. -/
def Obligations.VectorMovesAndConversions : Prop :=
  (∀ (s : State) (t : Fin 768) (w : W64) (differ : Bool), s.issues t 0x44 w → (s.tile t).agrees differ →
    ∃ u, Sys2Proof.Machine.exec (.vmov t w differ) s = .next u ∧
      (let x := s.tile t
      let r := fun i => if vFn w = 0 then lane (x.v (vVa w)) i else if vFn w = 1 then fld (x.s (vRs w)) 0 32
        else if vFn w = 2 then i else lane (x.v (vVa w)) (lane (x.v (vVb w)) i % 256)
      s.retires u t ∧ s.onlyTile u t ∧ x.onlyV (u.tile t) (vVd w) ∧ (u.tile t).fpFlags = x.fpFlags ∧
        ∀ i, i < 256 → lane ((u.tile t).v (vVd w)) i = if x.active w i = true then r i else lane (x.v (vVd w)) i)) ∧
  (∀ (s : State) (t : Fin 768) (w : W64) (differ : Bool), s.issues t 0x48 w → (s.tile t).agrees differ → vFmtd w = 0 →
    ∃ u, Sys2Proof.Machine.exec (.vcvt t w differ) s = .next u ∧
      (let x := s.tile t
      let n := fmtWidth (vFmts w)
      let e := fun i => fld (x.v (vVa w)) ((vVb w * 256 + i) * n) n
      s.retires u t ∧ s.onlyTile u t ∧ x.onlyV (u.tile t) (vVd w) ∧
        ∀ i, i < 256 → lane ((u.tile t).v (vVd w)) i = if x.active w i = true then
          (toFp32 (vFmts w) (x.rmode w) (fld (x.s (vRs w)) (8 * (i / 32)) 8) (e i)).1 % 2 ^ 32 else lane (x.v (vVd w)) i)) ∧
  (∀ (s : State) (t : Fin 768) (w : W64) (differ : Bool), s.issues t 0x48 w → (s.tile t).agrees differ → vFmtd w = 2 →
    ∃ u, Sys2Proof.Machine.exec (.vcvt t w differ) s = .next u ∧
      (let x := s.tile t
      s.retires u t ∧ s.onlyTile u t ∧ x.onlyV (u.tile t) (vVd w) ∧
        (∀ i, i < 256 → fld ((u.tile t).v (vVd w)) ((vVb w * 256 + i) * 16) 16 = if x.active w i = true then
          (toHalf fp16 (x.rmode w) 0 false (lane (x.v (vVa w)) i)).1 % 2 ^ 16 else fld (x.v (vVd w)) ((vVb w * 256 + i) * 16) 16) ∧
        ∀ i, i < 256 → fld ((u.tile t).v (vVd w)) (((1 - vVb w) * 256 + i) * 16) 16 = fld (x.v (vVd w)) (((1 - vVb w) * 256 + i) * 16) 16)) ∧
  (∀ (s : State) (t : Fin 768) (w : W64) (differ : Bool), s.issues t 0x78 w → (s.tile t).agrees differ → vFn w = 0 →
    ∃ u, Sys2Proof.Machine.exec (.vrand t w differ) s = .next u ∧
      (let x := s.tile t
      s.retires u t ∧ s.onlyTile u t ∧ x.onlyV (u.tile t) (vVd w) ∧
        ∀ i, i < 256 → lane ((u.tile t).v (vVd w)) i = if x.active w i = true then
          philoxWord x.seed (((x.s (vRs w)).toNat + i) % 2 ^ 64) (fld (x.s (vRs w + 1)) 0 32) 1 % 2 ^ 32 else lane (x.v (vVd w)) i))

/-- R159, R160: VRED writes its one result to RS, here the sum of all lanes, the first of them or how many have bit 0 set; LCLR
clears the selected long accumulators and no other, LADD adds the active lanes of a group to its accumulator. -/
def Obligations.VectorReductions : Prop :=
  (∀ (s : State) (t : Fin 768) (w : W64) (differ : Bool), s.issues t 0x50 w → (s.tile t).agrees differ → vMen w = false →
    ∃ u, Sys2Proof.Machine.exec (.vred t w differ) s = .next u ∧
      (let x := s.tile t
      let y := u.tile t
      s.retires u t ∧ s.onlyTile u t ∧ y.vregs = x.vregs ∧ y.preds = x.preds ∧ y.laccs = x.laccs ∧ y.accs = x.accs ∧
        (∀ k, k ≠ vRs w → y.s k = x.s k) ∧
        (vFn w = 3 → (y.s (vRs w)).toNat = ((List.range 256).map (lane (x.v (vVa w)))).sum % 2 ^ 32) ∧
        (vFn w = 6 → (y.s (vRs w)).toNat = lane (x.v (vVa w)) 0) ∧
        (vFn w = 7 → (y.s (vRs w)).toNat = ((List.range 256).filter fun i => lane (x.v (vVa w)) i % 2 = 1).length))) ∧
  (∀ (s : State) (t : Fin 768) (w : W64) (differ : Bool), s.issues t 0x52 w → (s.tile t).agrees differ →
    ∃ u, Sys2Proof.Machine.exec (.vlacc t w differ) s = .next u ∧
      (let x := s.tile t
      let y := u.tile t
      s.retires u t ∧ s.onlyTile u t ∧ y.sregs = x.sregs ∧ y.preds = x.preds ∧ y.accs = x.accs ∧
        (vFn w = 0 → y.vregs = x.vregs ∧ ∀ g, y.lacc g = if g < 16 ∧ x.active w (16 * g) = true then {} else x.lacc g) ∧
        (vFn w = 1 → y.vregs = x.vregs ∧ ∀ g, g < 16 → y.lacc g =
          let xs := ((List.range 16).filter fun i => x.active w (16 * g + i)).map fun i => lane (x.v (vVa w)) (16 * g + i)
          if xs = [] then x.lacc g else (x.lacc g).add xs) ∧
        (vFn w = 2 → y.laccs = x.laccs ∧ ∀ i, i < 256 → lane (y.v (vVd w)) i =
          if i < 16 ∧ x.active w (16 * i) = true then (x.lacc i).read.1 % 2 ^ 32 else 0)))

/-- R164, R165: VSORT leaves the active pairs of key and payload in ascending (FN 0) or descending (FN 1) order of key in the
lowest lanes, those of equal key in lane order, and the inactive pairs after them in lane order; VTOPK writes the first k of the
active pairs in descending order, with the same tie rule, and zeros after them; FP32 keys are in their total order with every NaN
greatest and INT32 keys in signed order. Where a VTOPK names one register twice, which of the two writes stays is not said (log
66): no other register changes. -/
def Obligations.VectorSorting : Prop :=
  (∀ (s : State) (t : Fin 768) (w : W64) (differ : Bool), s.issues t 0x70 w → (s.tile t).agrees differ → vVd w ≠ vVc w →
    ∃ u, Sys2Proof.Machine.exec (.vsort t w differ) s = .next u ∧
      (let x := s.tile t
      let pair := fun i => (lane (x.v (vVa w)) i, lane (x.v (vVb w)) i)
      let out := fun i => (lane ((u.tile t).v (vVd w)) i, lane ((u.tile t).v (vVc w)) i)
      let key := fun i => sortKey (vFmts w) (lane (x.v (vVa w)) i)
      let on := (List.range 256).filter fun i => x.active w i
      let off := (List.range 256).filter fun i => !x.active w i
      s.retires u t ∧ s.onlyTile u t ∧ (∀ k, k ≠ vVd w → k ≠ vVc w → (u.tile t).v k = x.v k) ∧
        ∃ order : List Nat, List.Perm order on ∧ (∀ i, i < 256 → out i = pair ((order ++ off).getD i 0)) ∧
          ∀ i, i + 1 < order.length →
            let a := order.getD i 0
            let b := order.getD (i + 1) 0
            (if vFn w = 0 then key a < key b else key b < key a) ∨ key a = key b ∧ a < b)) ∧
  (∀ (s : State) (t : Fin 768) (w : W64) (differ : Bool), s.issues t 0x71 w → (s.tile t).agrees differ → vVd w ≠ vVc w →
    ∃ u, Sys2Proof.Machine.exec (.vtopk t w differ) s = .next u ∧
      (let x := s.tile t
      let pair := fun i => (lane (x.v (vVa w)) i, lane (x.v (vVb w)) i)
      let out := fun i => (lane ((u.tile t).v (vVd w)) i, lane ((u.tile t).v (vVc w)) i)
      let key := fun i => sortKey (vFmts w) (lane (x.v (vVa w)) i)
      let on := (List.range 256).filter fun i => x.active w i
      let n := min (min (x.s (vRs w)).toNat 256) on.length
      s.retires u t ∧ s.onlyTile u t ∧ (∀ k, k ≠ vVd w → k ≠ vVc w → (u.tile t).v k = x.v k) ∧
        ∃ order : List Nat, List.Perm order on ∧ (∀ i, i < 256 → out i = if i < n then pair (order.getD i 0) else (0, 0)) ∧
          ∀ i, i + 1 < order.length →
            let a := order.getD i 0
            let b := order.getD (i + 1) 0
            key b < key a ∨ key a = key b ∧ a < b)) ∧
  (∀ (s : State) (t : Fin 768) (w : W64) (differ : Bool), s.issues t 0x71 w → (s.tile t).agrees differ → vVd w = vVc w →
    ∃ u, Sys2Proof.Machine.exec (.vtopk t w differ) s = .next u ∧
      (s.retires u t ∧ u.regs = s.regs ∧ u.mem = s.mem ∧ u.tokens = s.tokens ∧
      (∀ k, k ≠ vVd w → (u.tile t).v k = (s.tile t).v k) ∧ ∀ j, j ≠ t.val → u.tile j = s.tile j)) ∧
  (∀ a b : BitVec 32,
    let nan := fun x : BitVec 32 => fld x 23 8 = 255 ∧ fld x 0 23 ≠ 0
    (sortKey 10 a.toNat ≤ sortKey 10 b.toNat ↔ a.toInt ≤ b.toInt) ∧
      (nan b → sortKey 0 a.toNat ≤ sortKey 0 b.toNat) ∧ (¬ nan a → nan b → sortKey 0 a.toNat < sortKey 0 b.toNat) ∧
      (¬ nan a → ¬ nan b → (sortKey 0 a.toNat ≤ sortKey 0 b.toNat ↔
        if a.msb then (b.msb = false ∨ b.toNat ≤ a.toNat) else b.msb = false ∧ a.toNat ≤ b.toNat)))

/-- R42, R161, R162: VLD loads 1,024 bytes from RA + OFF into the active lanes and stores nothing; VST stores the active lanes'
words there, where no other writer is unordered with it, and changes no other byte; GATHER loads each active lane from its own
address. -/
def Obligations.VectorMemory : Prop :=
  (∀ (s : State) (t : Fin 768) (w : W64), s.issues t 0x60 w → (s.tile t).absent = [] →
    ∃ u, Sys2Proof.Machine.exec (.vld t w .ok) s = .next u ∧
      (let x := s.tile t
      let a := ((x.s (xRa w)).toNat + xOff w) % 0x800000 / 64 * 64
      s.retires u t ∧ s.onlyTile u t ∧ x.onlyV (u.tile t) (vVd w) ∧ (u.tile t).fpFlags = x.fpFlags ∧
        ∀ i, i < 256 → if x.activeVM w i = true then
          ∀ j, j < 4 → fld ((u.tile t).v (vVd w)) (32 * i + 8 * j) 8 = (s.sram t (a + 4 * i + j)).toNat
        else lane ((u.tile t).v (vVd w)) i = lane (x.v (vVd w)) i)) ∧
  (∀ (s : State) (t : Fin 768) (w : W64), s.issues t 0x61 w →
    ∃ u, Sys2Proof.Machine.exec (.vst t w) s = .next u ∧
      (let x := s.tile t
      let a := ((x.s (xRa w)).toNat + xOff w) % 0x800000 / 64 * 64
      s.retires u t ∧ u.regs = s.regs ∧ u.tokens = s.tokens ∧ u.dies = s.dies ∧ x.sameRegs (u.tile t) ∧
        (∀ j, j ≠ t.val → u.tile j = s.tile j) ∧
        (s.alone (whoTile t) → ∀ i j, i < 256 → j < 4 → x.activeVM w i = true →
          (u.sram t (a + 4 * i + j)).toNat = fld (x.v (vVd w)) (32 * i + 8 * j) 8) ∧
        ∀ b, (∀ i j, i < 256 → j < 4 → x.activeVM w i = true → b ≠ tileAddr t (tAddr (a + 4 * i + j))) →
          u.byte b = s.byte b)) ∧
  (∀ (s : State) (t : Fin 768) (w : W64) (differ : Bool), s.issues t 0x62 w → (s.tile t).absent = [] →
    (s.tile t).agrees differ →
    ∃ u, Sys2Proof.Machine.exec (.gather t w .ok differ) s = .next u ∧
      (let x := s.tile t
      let a := fun i => ((x.s (xRa w)).toNat + xOff w + 4 * lane (x.v (xVi w)) i) % 0x800000 / 4 * 4
      s.retires u t ∧ s.onlyTile u t ∧ x.onlyV (u.tile t) (vVd w) ∧
        ∀ i, i < 256 → if x.activeVM w i = true then
          ∀ j, j < 4 → fld ((u.tile t).v (vVd w)) (32 * i + 8 * j) 8 = (s.sram t (a i + j)).toNat
        else lane ((u.tile t).v (vVd w)) i = lane (x.v (vVd w)) i))

/-- R42, R162, R163, with no other writer unordered with the stores: SCATTER stores each active lane at its own address, the
highest-numbered of lanes that name one word; SCATADDI adds to the word there; LEXP stores the record of each selected long
accumulator and LMRG merges one back; bytes that they do not name are unchanged. -/
def Obligations.ScatterAndAccumulatorRecords : Prop :=
  (∀ (s : State) (t : Fin 768) (w : W64) (differ : Bool), s.issues t 0x63 w → (s.tile t).agrees differ →
    ∃ u, Sys2Proof.Machine.exec (.scatter t w differ) s = .next u ∧
      (let x := s.tile t
      let a := fun i => ((x.s (xRa w)).toNat + xOff w + 4 * lane (x.v (xVi w)) i) % 0x800000 / 4 * 4
      s.retires u t ∧ u.regs = s.regs ∧ u.tokens = s.tokens ∧ x.sameRegs (u.tile t) ∧
        (s.alone (whoTile t) → ∀ i, i < 256 → x.activeVM w i = true → (∀ k, i < k → k < 256 → x.activeVM w k = true → a k ≠ a i) →
          ∀ j, j < 4 → (u.sram t (a i + j)).toNat = fld (x.v (vVd w)) (32 * i + 8 * j) 8) ∧
        ∀ b, (∀ i j, i < 256 → j < 4 → x.activeVM w i = true → b ≠ tileAddr t (a i + j)) → u.byte b = s.byte b)) ∧
  (∀ (s : State) (t : Fin 768) (w : W64) (differ : Bool), s.issues t 0x64 w → (s.tile t).agrees differ →
    (s.tile t).absent = [] →
    ∃ u, Sys2Proof.Machine.exec (.scataddi t w .ok differ) s = .next u ∧
      (let x := s.tile t
      let a := fun i => ((x.s (xRa w)).toNat + xOff w + 4 * lane (x.v (xVi w)) i) % 0x800000 / 4 * 4
      s.retires u t ∧ u.regs = s.regs ∧ u.tokens = s.tokens ∧ x.sameRegs (u.tile t) ∧
        (s.alone (whoTile t) → ∀ i, i < 256 → x.activeVM w i = true → (∀ k, k ≠ i → k < 256 → x.activeVM w k = true → a k ≠ a i) →
          u.load (tileAddr t (a i)) 4 = (s.load (tileAddr t (a i)) 4 + lane (x.v (vVd w)) i) % 2 ^ 32) ∧
        ∀ b, (∀ i j, i < 256 → j < 4 → x.activeVM w i = true → b ≠ tileAddr t (a i + j)) → u.byte b = s.byte b)) ∧
  (∀ (s : State) (t : Fin 768) (w : W64) (differ : Bool), s.issues t 0x65 w → (s.tile t).agrees differ →
    ∃ u, Sys2Proof.Machine.exec (.lexp t w differ) s = .next u ∧
      (let x := s.tile t
      let a := fun g => ((x.s (xRa w)).toNat + xOff w) % 0x800000 / 8 * 8 + 24 * g
      s.retires u t ∧ u.regs = s.regs ∧ u.tokens = s.tokens ∧ x.sameRegs (u.tile t) ∧
        (s.alone (whoTile t) → ∀ g k, g < 16 → k < 24 → x.activeVM w (16 * g) = true →
          (u.sram t (a g + k)).toNat = (x.lacc g).record / 2 ^ (8 * k) % 256) ∧
        ∀ b, (∀ g k, g < 16 → k < 24 → x.activeVM w (16 * g) = true → b ≠ tileAddr t (tAddr (a g + k))) →
          u.byte b = s.byte b)) ∧
  (∀ (s : State) (t : Fin 768) (w : W64) (differ : Bool), s.issues t 0x66 w → (s.tile t).agrees differ →
    (s.tile t).absent = [] →
    ∃ u, Sys2Proof.Machine.exec (.lmrg t w .ok differ) s = .next u ∧
      (let x := s.tile t
      s.retires u t ∧ s.onlyTile u t ∧ (u.tile t).vregs = x.vregs ∧ (u.tile t).sregs = x.sregs ∧
        ∀ g, g < 16 → (u.tile t).lacc g = if x.activeVM w (16 * g) = true then
          (x.lacc g).merge (s.tLoad t (((x.s (xRa w)).toNat + xOff w) % 0x800000 / 8 * 8 + 24 * g) 24) else x.lacc g))

/-- R42, R118, R167 to R170: MMA queues its result, with at most two in the engine, and changes no accumulator until its occupancy
ends; MMA_COMPLETE then writes the accumulator; DRAIN stores all 36,864 bytes of an accumulator and DRAINV one slice of 256
elements, once no earlier MMA is on it (no other writer being unordered with the store). -/
def Obligations.MatrixInstructions : Prop :=
  (∀ (s : State) (t : Fin 768) (w : W64), s.issues t 0x80 w → (s.tile t).mma.length < 2 → (s.tile t).absent = [] →
    ∃ u, Sys2Proof.Machine.exec (.mma t w .ok []) s = .next u ∧
      (s.retires u t ∧ s.onlyTile u t ∧ (u.tile t).accs = (s.tile t).accs ∧
      (u.tile t).sregs = (s.tile t).sregs ∧ (u.tile t).vregs = (s.tile t).vregs ∧
      ∃ m, (u.tile t).mma = (s.tile t).mma ++ [m] ∧ m.acc = mAcc w ∧
        ∀ l, l < 9216 → fld m.result (32 * l) 32 =
          (s.mmaElem t w (s.tile t) [] (l / 96) (l % 96) ((s.mmaInit t w (s.tile t)).getD l 0)).1 % 2 ^ 32)) ∧
  (∀ (s : State) (t : Fin 768) (m : MmaRun) (ms : List MmaRun), (s.tile t).mma = m :: ms → m.done ≤ s.lctOf t → m.bad = false →
    ∃ u, Sys2Proof.Machine.exec (.mmaComplete t false) s = .next u ∧ (u.tile t).mma = ms ∧ (u.tile t).acc m.acc = m.result ∧
      (∀ a, a ≠ m.acc → (u.tile t).acc a = (s.tile t).acc a) ∧ s.onlyTile u t ∧
      (u.tile t).fpFlags = (s.tile t).fpFlags ||| BitVec.ofNat 32 m.flags ∧ (u.tile t).sregs = (s.tile t).sregs) ∧
  (∀ (s : State) (t : Fin 768) (w : W64), s.issues t 0x81 w → (s.tile t).accBusy (mAcc w) = false →
    ∃ u, Sys2Proof.Machine.exec (.drain t w) s = .next u ∧
      (let a := fld ((s.tile t).s (mRc w)) 0 23 / 64 * 64
      s.retires u t ∧ u.regs = s.regs ∧ u.tokens = s.tokens ∧ (s.tile t).sameRegs (u.tile t) ∧
        (s.alone (whoTile t) → ∀ k, k < 36864 → (u.sram t (a + k)).toNat = fld ((s.tile t).acc (mAcc w)) (8 * k) 8) ∧
        ∀ b, (∀ k, k < 36864 → b ≠ tileAddr t (tAddr (a + k))) → u.byte b = s.byte b)) ∧
  (∀ (s : State) (t : Fin 768) (w : W64), s.issues t 0x82 w → (s.tile t).accBusy (mAcc w) = false →
    ∃ u, Sys2Proof.Machine.exec (.drainv t w) s = .next u ∧ (s.retires u t ∧ s.onlyTile u t ∧ (s.tile t).onlyV (u.tile t) (mVd w) ∧
      ∀ i, i < 256 → lane ((u.tile t).v (mVd w)) i = fld ((s.tile t).acc (mAcc w)) (32 * (256 * mKblk w + i)) 32))

/-- R142: an instruction whose guard predicate does not hold takes its issue cycle and does nothing else. -/
def Obligations.GuardedInstructionsDoNothing : Prop :=
  ∀ (s : State) (t : Fin 768) (w : W64) (differ : Bool) (ecc : Ecc), (s.tile t).state = 1 → (s.tile t).fetched = some w →
    legalWord w = true → ((s.tile t).p (iPred w) != iPneg w) = false →
    ∀ c, c ∈ [(0x00, Instr.salu t w), (0x01, .salui t w), (0x02, .scmp t w), (0x03, .scmpi t w), (0x04, .plog t w), (0x05, .li t w),
        (0x06, .lui t w), (0x20, .br t w), (0x21, .jal t w), (0x22, .jr t w), (0x23, .endCmd t w), (0x24, .nop t w), (0x28, .mfcr t w), (0x29, .mtcr t w), (0x30, .sld t w ecc), (0x31, .sst t w),
        (0x40, .vfp t w differ), (0x41, .vfps t w differ), (0x42, .vint t w differ), (0x43, .vints t w differ),
        (0x44, .vmov t w differ), (0x48, .vcvt t w differ), (0x50, .vred t w differ), (0x52, .vlacc t w differ), (0x60, .vld t w ecc),
        (0x61, .vst t w), (0x62, .gather t w ecc differ), (0x63, .scatter t w differ), (0x64, .scataddi t w ecc differ),
        (0x65, .lexp t w differ), (0x66, .lmrg t w ecc differ), (0x70, .vsort t w differ), (0x71, .vtopk t w differ),
        (0x78, .vrand t w differ), (0x80, .mma t w ecc []), (0x81, .drain t w), (0x82, .drainv t w), (0x90, .lsend t w ecc),
        (0x91, .arrive t w), (0x92, .setCmd t w), (0x94, .msend t w ecc), (0x98, .waitt t w),
        (0x99, .waitf t w), (0x9A, .waitps t w), (0x9C, .rdtime t w), (0x9E, .tmark t w)] → iOpc w = c.1 →
      s.cycleFor t c.1 = true →
      ∃ u, Sys2Proof.Machine.exec c.2 s = .next u ∧ s.retires u t ∧ s.onlyTile u t ∧ (s.tile t).sameRegs (u.tile t)

/-! ## Local lines, tokens and messages -/

/-- R42, R83, R86, R87, R90, R91, R171: LSEND reads its cell at issue and queues it; at its line cycle the send leaves the queue
for its source stop; a cell at a stop crosses one link, and one that meets a closed boundary is lost; a cell whose stop is its
destination is ejected at its delivery cycle; in an external cycle ejected cells are written, their token's arrive follows where
it is the partition's, and cells that movements wait for are read. -/
def Obligations.LocalLineSends : Prop :=
  (∀ (s : State) (t : Fin 768) (w : W64), s.issues t 0x90 w → (s.tile t).sendQ.length < 8 → (s.tile t).absent = [] →
    s.lineCycle t ≤ ((s.tile t).s (tRs3 w)).toNat →
    ∃ u, Sys2Proof.Machine.exec (.lsend t w .ok) s = .next u ∧
      (let a := ((s.tile t).s (tRs1 w)).toNat % 0x800000 / 256 * 256
      s.retires u t ∧ s.onlyTile u t ∧ (s.tile t).sameRegs (u.tile t) ∧
        ∃ m, (u.tile t).sendQ = (s.tile t).sendQ ++ [m] ∧ m.cycle = ((s.tile t).s (tRs3 w)).toNat ∧
          m.dst = t.val / 192 * 192 + fld w 0 8 ∧ m.addr = ((s.tile t).s (tRs2 w)).toNat % 0x800000 / 256 * 256 ∧
          m.token = (if tTen w then some (tTok w) else none) ∧
          ∀ k, k < 256 → fld m.data (8 * k) 8 = (s.sram t (a + k)).toNat)) ∧
  (∀ (s : State) (t : Fin 768) (m : LineSend), (s.tile t).sendQ = [m] → s.lineCycle t = m.cycle →
    ∃ u, Sys2Proof.Machine.exec (.lineSendDepart t) s = .next u ∧ (u.tile t).sendQ = [] ∧ u.regs = s.regs ∧ u.mem = s.mem ∧
      ∃ x, u.lineCells = s.lineCells ++ [x] ∧ x.src = t.val ∧ x.dst = m.dst ∧ x.data = m.data ∧ x.token = m.token ∧
        x.at_ = ((s.lineBase t + m.cycle + 2 : Nat) : Int) ∧
        x.due = ((s.lineBase t + (m.cycle + 3 + ((rowOf t - rowOf m.dst) + (rowOf m.dst - rowOf t)) +
          ((t.val % 8 - m.dst % 8) + (m.dst % 8 - t.val % 8))) : Nat) : Int)) ∧
  (∀ (s : State) (c : Fin 4) (x : LineCell), s.lineCells = [x] → x.src / 192 = c.val → x.at_ < (s.r (Reg.cnLct c)).toNat →
    ∃ u, Sys2Proof.Machine.exec (.lineCellHop c) s = .next u ∧ (u.regs = s.regs ∧ u.mem = s.mem ∧
      (s.nextStop x = none → u.lineCells = [{ x with at_ := (s.r (Reg.cnLct c)).toNat }]) ∧
      ∀ r site d, s.nextStop x = some (r, site, d) →
        if r / 6 = x.row / 6 ∨ fld (s.r (Reg.cnLineBoundary c)) (min (x.row / 6) (r / 6)) 1 = 1 then
          u.lineCells = [{ x with row := r, site := site, at_ := (s.r (Reg.cnLct c)).toNat }]
        else u.lineCells = [])) ∧
  (∀ (s : State) (t : Fin 768) (x : LineCell), s.lineCells = [x] → x.dst = t.val → x.due ≤ s.lctOf t → s.nextStop x = none →
    x.at_ ≤ s.lctOf t →
    ∃ u, Sys2Proof.Machine.exec (.lineEject t) s = .next u ∧
      u.lineCells = [] ∧ (u.tile t).eject = (s.tile t).eject ++ [x] ∧ u.regs = s.regs ∧
      u.mem = s.mem) ∧
  (∀ (s : State) (t : Fin 768) (x : LineCell), s.externalNow t = true → 0 < s.extRoom t → (s.tile t).eject = [x] →
    ∃ u, Sys2Proof.Machine.exec (.externalCycle t []) s = .next u ∧ ((u.tile t).eject = [] ∧
      (s.alone (whoTile x.src) → ∀ k, k < 256 → (u.byte (tileAddr t x.addr + k)).toNat = fld x.data (8 * k) 8) ∧
      (∀ b, b < tileAddr t x.addr ∨ tileAddr t x.addr + 256 ≤ b → u.byte b = s.byte b) ∧
      (x.token = none → u.tokOps = s.tokOps) ∧
      (s.sramReads = [] → (s.inj (t / 192 + 1)).msgs = [] → (s.inj 0).msgs = [] → u.regs = s.regs) ∧
      ∀ k, x.token = some k → s.tokenMine x.src k = true → u.tokOps = s.tokOps ++ [⟨k, false, 1, x.src / 192⟩])) ∧
  (∀ (s : State) (t : Fin 768) (x : SramRead), s.externalNow t = true → 0 < s.extRoom t → (s.tile t).eject = [] →
    s.sramReads = [x] → x.tile = t.val → s.now ≤ x.move.hi → s.unarrived t x.addr = none →
    (s.inj (t / 192 + 1)).msgs = [] → (s.inj 0).msgs = [] → x.held = s.readCell t x.addr →
    ∃ u, Sys2Proof.Machine.exec (.externalCycle t [.ok]) s = .next u ∧
      u.mem = s.mem ∧ u.regs = s.regs ∧ u.tokOps = s.tokOps ∧ u.sramReads = [] ∧
      u.transits = s.transits ++ [{ x.move with cell := s.readCell t x.addr }])

/-- R15, R26, R95, R96, R97, R172: an arrive or a set is on its way to its token after ARRIVE or SET, where the tile's partition
holds the token, and is recorded where it does not; it is so after a 32-bit write of the token's slot, and a write of another
width is refused; in a core cycle of the token's C-die, ready and reached, a set is applied before the arrives, and an arrive
beyond 0xFFFF_FFFF leaves the value there and sets SATURATED. -/
def Obligations.TokenUpdates : Prop :=
  (∀ (s : State) (t : Fin 768) (w : W64) (set : Bool), s.issues t (if set then 0x92 else 0x91) w →
    ∃ u, Sys2Proof.Machine.exec (if set then .setCmd t w else .arrive t w) s = .next u ∧
      (let k := if tTind w then (tTok w + fld ((s.tile t).s (tRs3 w)) 0 14) % 16384 else tTok w
      s.retires u t ∧ (s.tile t).sameRegs (u.tile t) ∧ u.regs = s.regs ∧ u.mem = s.mem ∧ u.tokens = s.tokens ∧
        (∀ j, j ≠ t.val → u.tile j = s.tile j) ∧
        if s.tokenMine t k = true then
          u.tokOps = s.tokOps ++ [⟨k, set, ((s.tile t).s (tRs1 w)).setWidth 32, t / 192⟩] ∧ u.dies = s.dies
        else u.tokOps = s.tokOps ∧
          u.dies = (s.noteP (2 + t / 192) (partNum (s.partOfTile t)) Ev.addrOutsidePartition [t, tokenAddr k]).dies)) ∧
  (∀ (s : State) (k : Fin 16384) (v : W32),
    ∃ u, Sys2Proof.Machine.exec (.tokenSlotArrive k .w32 v) s = .next u ∧
      u.tokOps = s.tokOps ++ [⟨k, false, v, 4⟩] ∧ u.regs = s.regs ∧
      u.mem = s.mem ∧ u.tokens = s.tokens) ∧
  (∀ (s : State) (k : Fin 16384) (v : W32),
    ∃ u, Sys2Proof.Machine.exec (.tokenSlotSet k .w32 v) s = .next u ∧ u.tokOps = s.tokOps ++ [⟨k, true, v, 4⟩] ∧ u.regs = s.regs ∧
      u.mem = s.mem ∧ u.tokens = s.tokens) ∧
  (∀ (s : State) (k : Fin 16384) (w : Width) (v : W32) (set : Bool), w ≠ .w32 →
    ∃ u, Sys2Proof.Machine.exec (if set then .tokenSlotSet k w v else .tokenSlotArrive k w v) s = .next u ∧
      u.tokOps = s.tokOps ∧ u.regs = s.regs ∧
      u.mem = s.mem ∧ u.tokens = s.tokens ∧
      u.dies = (s.note 0 Ev.addrAccessClass [tokenAddr k + if set then 4 else 0]).dies) ∧
  (∀ (s : State) (c : Fin 4) (k d : Nat) (a : W32), k / 4096 = c.val → s.tokOps = [⟨k, false, a, d⟩] →
    s.ready (2 + c) = true → d = c.val ∨ s.someJunction = true →
    ∃ u, Sys2Proof.Machine.exec (.tokenUpdateCycle c) s = .next u ∧ (u.tokOps = [] ∧ u.regs = s.regs ∧ u.mem = s.mem ∧
      (u.token k).val.toNat = min ((s.token k).val.toNat + a.toNat) 0xFFFFFFFF ∧
      (0xFFFFFFFF < (s.token k).val.toNat + a.toNat → (u.token k).sat = true) ∧
      ∀ j, j ≠ k → u.token j = s.token j)) ∧
  (∀ (s : State) (c : Fin 4) (k : Nat) (a v : W32), k / 4096 = c.val → s.tokOps = [⟨k, false, a, c⟩, ⟨k, true, v, c⟩] →
    s.ready (2 + c) = true →
    ∃ u, Sys2Proof.Machine.exec (.tokenUpdateCycle c) s = .next u ∧ u.tokOps = [] ∧
      (u.token k).val.toNat = min (v.toNat + a.toNat) 0xFFFFFFFF)

/-- R96, R99, R101, R102, R173, R174: WAITT, WAITF and WAITPS put the tile into its wait; an FTC wait completes at or after its
count, a token wait three core cycles after its comparison held, a sleep after its mode's latency without what the mode loses; a
token wait that reaches its deadline faults the tile. -/
def Obligations.TileWaits : Prop :=
  (∀ (s : State) (t : Fin 768) (w : W64) (k : Nat), s.issues t 0x98 w →
    k = (if tTind w then (tTok w + fld ((s.tile t).s (tRs3 w)) 0 14) % 16384 else tTok w) → k / 4096 = t.val / 192 →
    s.tokenMine t k = true →
    ∃ u, Sys2Proof.Machine.exec (.waitt t w) s = .next u ∧ (u.tile t).state = 2 ∧ (u.tile t).pc = (s.tile t).pc ∧ s.onlyTile u t ∧
      (s.tile t).sameRegs (u.tile t) ∧ ∃ x, (u.tile t).wait = some x ∧ x.token = some k ∧
        x.thresh = fld ((s.tile t).s (tRs1 w)) 0 32 ∧ (x.met.isSome = true ↔ x.thresh ≤ (s.token k).val.toNat) ∧
        (tTimeout w = 0xFFFF → x.deadline = none) ∧
        (tTimeout w ≠ 0 → tTimeout w ≠ 0xFFFF → x.deadline = some (s.now + 4096 * tTimeout w)) ∧
        (tTimeout w = 0 → x.deadline = some (s.now + 4096 *
          let n := s.rf (Reg.cnWaitLimit (t / 192) (t / 48 % 4)) 0 16
          if n = 0 ∨ n = 0xFFFF then 1 else n))) ∧
  (∀ (s : State) (t : Fin 768) (w : W64), s.issues t 0x99 w →
    ∃ u, Sys2Proof.Machine.exec (.waitf t w) s = .next u ∧ (u.tile t).state = 3 ∧ (u.tile t).pc = (s.tile t).pc ∧ s.onlyTile u t ∧
      (s.tile t).sameRegs (u.tile t) ∧ (u.tile t).wait = some { ftc := some ((s.tile t).s (tRs1 w)).toNat }) ∧
  (∀ (s : State) (t : Fin 768) (w : W64) (k : Nat), s.issues t 0x9A w → (s.tile t).pmode ≠ 3 →
    k = (if tTind w then (tTok w + fld ((s.tile t).s (tRs3 w)) 0 14) % 16384 else tTok w) →
    (tTen w = true → k / 4096 = t.val / 192 ∧ s.tokenMine t k = true) →
    ∃ u, Sys2Proof.Machine.exec (.waitps t w) s = .next u ∧ (u.tile t).state = 4 ∧ (u.tile t).pc = (s.tile t).pc ∧ s.onlyTile u t ∧
      (s.tile t).sameRegs (u.tile t) ∧ ∃ x, (u.tile t).wait = some x ∧ x.token = (if tTen w then some k else none) ∧
        x.ftc = (if tFen w then some ((s.tile t).s (tRs2 w)).toNat else none) ∧
        (tTen w = true → x.thresh = fld ((s.tile t).s (tRs1 w)) 0 32 ∧
          (x.met.isSome = true ↔ x.thresh ≤ (s.token k).val.toNat)) ∧
        (tTimeout w = 0xFFFF → x.deadline = none) ∧
        (tTimeout w ≠ 0 → tTimeout w ≠ 0xFFFF → x.deadline = some (s.now + 4096 * tTimeout w))) ∧
  (∀ (s : State) (t : Fin 768) (x : Wait) (n : Nat), (s.tile t).state = 3 → (s.tile t).wait = some x → x.ftc = some n →
    n ≤ s.now → s.coreRuns (t / 192) = true → s.coreNow (t / 192) = true →
    ∃ u, Sys2Proof.Machine.exec (.ftcWaitComplete t) s = .next u ∧ s.retires u t ∧ (u.tile t).wait = none ∧ s.onlyTile u t ∧
      (s.tile t).sameRegs (u.tile t)) ∧
  (∀ (s : State) (t : Fin 768) (x : Wait) (l k : Nat), (s.tile t).state = 2 → (s.tile t).wait = some x → x.met = some (l, k) →
    l + 3 ≤ s.lctOf t →
    ∃ u, Sys2Proof.Machine.exec (.tokenWaitResume t) s = .next u ∧ s.retires u t ∧ (u.tile t).wait = none ∧ s.onlyTile u t ∧
      (s.tile t).sameRegs (u.tile t)) ∧
  (∀ (s : State) (t : Fin 768) (x : Wait) (k d : Nat), (s.tile t).state = 2 → (s.tile t).wait = some x → x.token = some k →
    x.deadline = some d → x.met = none → d ≤ s.now →
    ∃ u, Sys2Proof.Machine.exec (.tokenWaitTimeout t) s = .next u ∧
      ((u.tile t).state = 6 ∧ (u.tile t).fault = Ev.tokenWaitTimeout ∧ u.mem = s.mem ∧
      u.regs = s.regs ∧ ∀ j, j / 192 ≠ t.val / 192 → u.tile j = s.tile j)) ∧
  (∀ (s : State) (t : Fin 768) (x : Wait) (n : Nat), (s.tile t).state = 4 → (s.tile t).wait = some x → x.met = none →
    x.deadline = none → x.ftc = some n →
    max (s.tile t).retired n +
      (if (s.tile t).pmode = 0 then 2 * s.cycleHalves else if (s.tile t).pmode = 1 then 640 else 3125) ≤ s.now →
    ∃ u, Sys2Proof.Machine.exec (.tileWake t) s = .next u ∧ s.retires u t ∧ (u.tile t).wait = none ∧ s.onlyTile u t ∧
      (u.tile t).sregs = (s.tile t).sregs ∧ (u.tile t).preds = (s.tile t).preds ∧
      (if (s.tile t).pmode = 0 then (u.tile t).accs = (s.tile t).accs else (u.tile t).accs = []) ∧
      if (s.tile t).pmode ≤ 1 then (u.tile t).vregs = (s.tile t).vregs ∧ (u.tile t).laccs = (s.tile t).laccs
      else (u.tile t).vregs = [] ∧ (u.tile t).laccs = [])

/-- R78, R80, R81, R85, R103: in a core cycle the sequencer fetches the word at the program counter of the active bank, a
corrected word being counted; an uncorrectable word or one past the program's end stops the tile; a tile in RUN with nothing
retired for 100 µs faults; the patrol scrubber marks a corrected word of tile SRAM, and leaves a sound one as it is. -/
def Obligations.SequencerFetchAndScrub : Prop :=
  (∀ (s : State) (t : Fin 768), (s.tile t).state = 1 → (s.tile t).fetched = none → (s.tile t).pc < (s.tile t).progLen →
    s.coreRuns (t / 192) = true → s.coreNow (t / 192) = true → (s.tile t).fetchAt ≠ some (s.lctOf t) →
    ∃ u, Sys2Proof.Machine.exec (.instructionFetch t .ok) s = .next u ∧ s.onlyTile u t ∧ (s.tile t).sameRegs (u.tile t) ∧
      (u.tile t).pc = (s.tile t).pc ∧ (u.tile t).state = 1 ∧
      (u.tile t).fetched = some (BitVec.ofNat 64 (s.load (instrBank t (s.tile t).bank + 8 * (s.tile t).pc) 8))) ∧
  (∀ (s : State) (t : Fin 768), (s.tile t).state = 1 → (s.tile t).fetched = none → (s.tile t).pc < (s.tile t).progLen →
    s.coreRuns (t / 192) = true → s.coreNow (t / 192) = true → (s.tile t).fetchAt ≠ some (s.lctOf t) →
    ∃ u, Sys2Proof.Machine.exec (.instructionFetch t .ce) s = .next u ∧
      u.mem = s.mem ∧ u.tokens = s.tokens ∧ (s.tile t).sameRegs (u.tile t) ∧
      (u.tile t).pc = (s.tile t).pc ∧ (u.tile t).state = 1 ∧
      (u.tile t).fetched = some (BitVec.ofNat 64 (s.load (instrBank t (s.tile t).bank + 8 * (s.tile t).pc) 8)) ∧
      u.rf (Reg.cnTileErr (t / 192) (t % 192)) 16 16 = min (s.rf (Reg.cnTileErr (t / 192) (t % 192)) 16 16 + 1) 65535) ∧
  (∀ (s : State) (t : Fin 768) (k : BitVec 20), (s.tile t).state = 1 → (s.tile t).fetched = none →
    (s.tile t).pc < (s.tile t).progLen → s.coreRuns (t / 192) = true → s.coreNow (t / 192) = true →
    (s.tile t).fetchAt ≠ some (s.lctOf t) →
    ∃ u, Sys2Proof.Machine.exec (.instructionFetch t (.ue k)) s = .next u ∧
      (u.tile t).state = 6 ∧ (u.tile t).fault = Ev.instrUncorrectable ∧
      u.mem = s.mem ∧ u.tokens = s.tokens) ∧
  (∀ (s : State) (t : Fin 768) (ecc : Ecc), (s.tile t).state = 1 → (s.tile t).fetched = none →
    (s.tile t).progLen ≤ (s.tile t).pc → s.coreRuns (t / 192) = true → s.coreNow (t / 192) = true →
    (s.tile t).fetchAt ≠ some (s.lctOf t) →
    ∃ u, Sys2Proof.Machine.exec (.instructionFetch t ecc) s = .next u ∧
      (u.tile t).state = 6 ∧ (u.tile t).fault = Ev.pcRange ∧ u.mem = s.mem ∧
      u.regs = s.regs) ∧
  (∀ (s : State) (t : Fin 768), (s.tile t).state = 1 → (s.tile t).retired + 312500 ≤ s.now →
    ∃ u, Sys2Proof.Machine.exec (.seqWatchdog t) s = .next u ∧
      (u.tile t).state = 6 ∧ (u.tile t).fault = Ev.seqWatchdog ∧ u.mem = s.mem) ∧
  (∀ (s : State) (t : Fin 768) (a : BitVec 48), tileAddr t 0 ≤ a.toNat → a.toNat < tileAddr t 0 + 0x800000 →
    0 < s.idleRoom t →
    ∃ u, Sys2Proof.Machine.exec (.tileSramScrub a .ce) s = .next u ∧
      (u.rf (Reg.cnTileErr (t / 192) (t % 192)) 0 1 = 1 ∧ u.mem = s.mem ∧
      (s.tile t).sameRegs (u.tile t) ∧ ∀ j, j ≠ t.val → u.tile j = s.tile j)) ∧
  (∀ (s : State) (a : BitVec 48),
    ∃ u, Sys2Proof.Machine.exec (.tileSramScrub a .ok) s = .next u ∧
      u.regs = s.regs ∧ u.mem = s.mem ∧ u.tokens = s.tokens ∧ u.dies = s.dies)

/-- R26, R176, R317, R318: MSEND posts the message its descriptor names, a LOCAL_TOKEN in it being the partition's, to the C-die's
injection unit, which takes it, or counts one it refuses and keeps nothing of it; once a message's last packet has left the queue
its LOCAL_TOKEN receives 1. -/
def Obligations.MessagePosting : Prop :=
  (∀ (s : State) (t : Fin 768) (w : W64), s.issues t 0x94 w → s.throttled (t / 192 + 1) = false →
    (s.tile t).absent = [] →
    ∃ u, Sys2Proof.Machine.exec (.msend t w .ok) s = .next u ∧
      (let d : Desc := BitVec.ofNat 512 (s.tLoad t (((s.tile t).s (tRs1 w)).toNat % 0x800000 / 64 * 64) 64)
      let p := partNum (s.partOfTile t)
      let m := msgOf d t p (if p < 16 then s.jobKey p else 0)
      s.retires u t ∧ (s.tile t).sameRegs (u.tile t) ∧ u.mem = s.mem ∧ u.tokens = s.tokens ∧ u.tokOps = s.tokOps ∧
        ((∀ k, m.1.localToken = some k → s.tokenMine t k = true) →
          (s.msgRefusal (t / 192 + 1) m.1 m.2 = none → u.took (t / 192 + 1) (s.inj (t / 192 + 1)).nextId m.1) ∧
          ∀ why, s.msgRefusal (t / 192 + 1) m.1 m.2 = some why → u.inject = s.inject ∧ s.refusedAt u (t / 192)))) ∧
  (∀ (s : State) (v : Fin 5) (m : Msg) (k : Nat), (s.inj v).msgs = [m] → (s.inj v).cells = [] → m.packets ≤ m.next →
    m.localToken = some k → m.job = none →
    ∃ u, Sys2Proof.Machine.exec (.messageInjected v) s = .next u ∧
      (u.inj v).msgs = [] ∧ u.tokOps = s.tokOps ++ [⟨k, false, 1, if v.val = 0 then 4 else v - 1⟩] ∧ u.mem = s.mem ∧
      u.regs = s.regs)

/-- R42, R314, R320 to R324: a delivered WRITE, READ_RESP or MAILBOX packet writes its bytes, where no other writer is unordered
with it, and no other byte, then its completion arrive follows; a TOKEN_ARRIVE adds its amount; the owning C-die's injection unit
takes the READ_RESP message that answers a READ_REQ, or refuses it. -/
def Obligations.PacketDelivery : Prop :=
  (∀ (s : State) (src : Fin 11) (list : Fin 3) (k : BitVec 12) (q : Queued) (resp : Bool),
    let c := setFld q.cell 9 2 3
    s.delivers src list k.toNat (if resp then 3 else 0) q →
    ∃ u, Sys2Proof.Machine.exec (if resp then .readResp src list k else .write src list k) s = .next u ∧
      (s.alone (pkWriter c) → ∀ i, i < pkLen c → (u.byte (pkAddr c + i)).toNat = pkData c i 1) ∧
      (∀ b, b < pkAddr c ∨ pkAddr c + pkLen c ≤ b → u.byte b = s.byte b) ∧
      u.tokOps = s.tokOps ++ (if pkTen c then
        [⟨pkToken c, false, 1, (ownerCdie (pkOp c) (pkAddr c) (pkToken c)).getD 4⟩] else []) ∧ u.tokens = s.tokens) ∧
  (∀ (s : State) (src : Fin 11) (list : Fin 3) (k : BitVec 12) (q : Queued),
    let c := setFld q.cell 9 2 3
    let a := pkAddr c + 256 * (pkSseq c % 2 ^ pkMbLog2 c)
    s.delivers src list k.toNat 1 q →
    ∃ u, Sys2Proof.Machine.exec (.mailbox src list k) s = .next u ∧
      (s.alone (pkWriter c) → (∀ i, i < 32 + pkLen c → i < 256 → (u.byte (a + i)).toNat = fld c (8 * i) 8) ∧
        ∀ i, 32 + pkLen c ≤ i → i < 256 → u.byte (a + i) = 0) ∧
      (∀ b, b < a ∨ a + 256 ≤ b → u.byte b = s.byte b) ∧
      u.tokOps = s.tokOps ++ (if pkTen c then [⟨pkToken c, false, 1, (ownerCdie 1 a (pkToken c)).getD 4⟩] else [])) ∧
  (∀ (s : State) (src : Fin 11) (list : Fin 3) (k : BitVec 12) (q : Queued),
    let c := setFld q.cell 9 2 3
    s.delivers src list k.toNat 4 q →
    ∃ u, Sys2Proof.Machine.exec (.tokenArrive src list k) s = .next u ∧ u.mem = s.mem ∧ u.tokens = s.tokens ∧
      u.tokOps = s.tokOps ++ [⟨pkToken c, false, BitVec.ofNat 32 (pkData c 0 4), pkToken c / 4096⟩]) ∧
  (∀ (s : State) (src : Fin 11) (list : Fin 3) (k : BitVec 12) (q : Queued) (o : Nat),
    let c := setFld q.cell 9 2 3
    let n := pkData c 12 4
    let m : Msg := { id := 0, op := 3, dest := pkData c 0 8, data := pkAddr c, len := n, token := pkData c 8 2, msgId := pkData c 10 2
                     part := s.pktPart c (pkAddr c) n, key := pkKey c, resp := true }
    s.delivers src list k.toNat 2 q → ownerCdie 2 (pkAddr c) 0 = some o → o < 4 →
    ∃ u, Sys2Proof.Machine.exec (.readReq src list k []) s = .next u ∧ (u.mem = s.mem ∧ u.tokens = s.tokens ∧ u.tokOps = s.tokOps ∧
      (s.msgRefusal (o + 1) m (tokField (pkData c 8 2)) = none → u.took (o + 1) (s.inj (o + 1)).nextId m) ∧
      ∀ why, s.msgRefusal (o + 1) m (tokField (pkData c 8 2)) = some why → s.refusedAt u o))

/-- R326 to R332, R337: a packet that is not for this module leaves its buffer for the output of the port its route names, or is
counted where it has none; a VC or injection unit that waits with no progress for its limit is recorded once. -/
def Obligations.PacketForwarding : Prop :=
  (∀ (s : State) (src : Fin 11) (list : Fin 3) (k : BitVec 12) (q : Queued) (p : Nat) (c' : Cell) (turned : Bool) (r : State),
    (s.buf src list)[k.toNat]? = some q → pkMcast q.cell = false → s.hopsOn src list q = true →
    (src.val < 6 → s.packetOld q.cell = false) → s.hopOf q.cell (decide (6 ≤ src.val)) = (.go p c' turned, r) →
    (s.crossPacket src (4 + p) q).isSome = true →
    ∃ u, Sys2Proof.Machine.exec (.packetForward src list k .ok) s = .next u ∧
      u.mem = s.mem ∧ u.tokOps = s.tokOps ∧ u.tokens = s.tokens ∧
      ∃ x, (u.port p).uout.getLast? = some x ∧ x.cell = c' ∧ x.since = s.clk) ∧
  (∀ (s : State) (v : Fin 5) (vc : Fin 4) (q : Queued) (qs : List Queued) (p : Nat) (c' : Cell) (turned : Bool) (r : State),
    (s.inj v).cells = q :: qs → (s.inj v).stalled = false → s.hopOf q.cell true = (.go p c' turned, r) →
    (s.atDest q.cell = false ∨ pkMcast q.cell = true) →
    Nat.max (s.inj v).progress q.since + s.progressLimit p ≤ s.clk →
    ∃ u, Sys2Proof.Machine.exec (.unschedStall (v.natAdd 6) vc) s = .next u ∧
      (u.inj v).stalled = true ∧ (u.inj v).cells = (s.inj v).cells ∧
      u.mem = s.mem ∧ u.tokens = s.tokens ∧
      u.rf (Reg.lnUnschedStalls p) 0 32 = min (s.rf (Reg.lnUnschedStalls p) 0 32 + 1) 0xFFFFFFFF) ∧
  (∀ (s : State) (p : Fin 6) (vc : Fin 4) (k : Nat), s.vcWait p vc = some k → s.progressLimit p ≤ k →
    (s.port p).stalled.getD vc false = false →
    ∃ u, Sys2Proof.Machine.exec (.unschedStall (p.castLE (by decide)) vc) s = .next u ∧ u.mem = s.mem ∧ u.tokens = s.tokens ∧
      u.rf (Reg.lnUnschedStalls p) 0 32 = min (s.rf (Reg.lnUnschedStalls p) 0 32 + 1) 0xFFFFFFFF)

/-! ## Programs and links -/

/-- R223, R224, R225, R226: a walker reads one entry a tick and acts on a control entry as it reads it; a PARK whose tick has come
parks the walker; a MARK with TEN arrives on its token at its tick. -/
def Obligations.WalkersReadPrograms : Prop :=
  (∀ (s : State) (u : Fin 26) (o : Fin 32) (arr : Bool),
    let k := walkKey u o (b2n arr)
    let w := s.walker k
    let e := s.entry u (s.bankActive u) (sdBase (s.segDesc u (s.bankActive u) o) (b2n arr) + w.idx)
    (arr = true → u.val < 6) → w.state = 1 → w.parkAt = none → w.readAt ≠ some s.now → horizonTick e w ≤ s.now + 65536 →
    (w.dispatched.filter fun d => s.now < actTick (progKind u (b2n arr)) d).length < 256 →
    ∃ v, Sys2Proof.Machine.exec (.walkerRead u o arr false .ok) s = .next v ∧
      (let y := v.walker k
      v.mem = s.mem ∧ v.regs = s.regs ∧ v.tokens = s.tokens ∧ v.tiles = s.tiles ∧ y.readAt = some s.now ∧ y.state = 1 ∧
        (eType e = 8 → y.base = w.base + fld e 9 39 ∧ y.idx = w.idx + 1 ∧ y.loops = w.loops) ∧
        (eType e = 9 → y.base = w.base ∧ y.idx = w.idx + 1 ∧ y.loops = (fld e 9 24, w.idx + 1) :: w.loops) ∧
        (∀ n b rest, eType e = 0xA → w.loops = (n, b) :: rest → y.base = w.base + fld e 9 39 ∧
          y.idx = (if n = 1 then w.idx + 1 else b) ∧ y.loops = if n = 1 then rest else (n - 1, b) :: rest) ∧
        (eType e = 0xB → bitAt e 33 = false → y.parkAt = some (w.base + fld e 9 24)) ∧
        (isScheduling e = true → s.now ≤ w.base + fld e 9 24 → y.idx = w.idx + 1 ∧
          ∃ d, y.dispatched.getLast? = some d ∧ d.entry = e ∧ d.tick = w.base + fld e 9 24 ∧ d.iters = w.iters))) ∧
  (∀ (s : State) (u : Fin 26) (o : Fin 32) (arr : Bool) (t : Nat),
    let k := walkKey u o (b2n arr)
    (s.walker k).state = 1 → (s.walker k).parkAt = some t → t ≤ s.now →
    ∃ v, Sys2Proof.Machine.exec (.changeoverEntry u o arr) s = .next v ∧ (v.walker k).state = 2 ∧ (v.walker k).parkAt = none ∧
      (v.walker k).dispatched = (s.walker k).dispatched ∧ v.mem = s.mem ∧ v.regs = s.regs ∧ v.tokens = s.tokens) ∧
  (∀ (s : State) (u : Fin 26) (o : Fin 32) (arr : Bool) (d : Disp),
    let k := walkKey u o (b2n arr)
    (s.walker k).dispatched = [d] → eType d.entry = 0xC → d.tick = s.now →
    ∃ v, Sys2Proof.Machine.exec (.markEntry u o arr) s = .next v ∧ (v.walker k).dispatched = [] ∧ v.tokens = s.tokens ∧
      v.tokOps = s.tokOps ++ if bitAt d.entry 80 = true then [⟨fld d.entry 81 14, false, BitVec.ofNat 32 (fld d.entry 95 16), unitStop u⟩] else [])

/-- R189, R235, R256: 512 ticks before its tick a DEPART or a REDUCE asks for its cells; at 480 ticks before, with its token at
its threshold, the cells are to be read in external cycles, each before its junction slot; an outbound PASS half takes the oldest
element of its queue 16 ticks before the cell's tick. -/
def Obligations.TrainsDepart : Prop :=
  (∀ (s : State) (p : Fin 6) (o : Fin 32) (d : Disp), (s.walker (walkKey p o 0)).dispatched = [d] → eType d.entry = 1 →
    d.stage = 0 → d.tick = s.now + 512 → s.beyondRestart p d = false →
    ∃ u, Sys2Proof.Machine.exec (.departEntry p o) s = .next u ∧
      (u.walker (walkKey p o 0)).dispatched = [{ d with stage := 1 }] ∧ u.mem = s.mem ∧
      u.regs = s.regs ∧ u.tokens = s.tokens ∧ u.transits = s.transits) ∧
  (∀ (s : State) (p : Fin 6) (o : Fin 32) (d : Disp), (s.walker (walkKey p o 1)).dispatched = [d] → eType d.entry = 4 →
    d.stage = 0 → d.tick = s.now + 512 → s.beyondRestart p d = false →
    ∃ u, Sys2Proof.Machine.exec (.reduceEntry p o) s = .next u ∧
      (u.walker (walkKey p o 1)).dispatched = [{ d with stage := 1 }] ∧ u.mem = s.mem ∧
      u.regs = s.regs ∧ u.tokens = s.tokens ∧ u.transits = s.transits) ∧
  (∀ (s : State) (p : Fin 6) (o : Fin 32) (d : Disp),
    let e := d.entry
    let a := fld e 49 15 * 256
    (s.walker (walkKey p o 0)).dispatched = [d] → eType e = 1 → d.stage = 1 → d.tick = s.now + 480 →
    thresholdOf (fld e 108 12) (fld e 120 6) (fld e 126 2) d.iters ≤ (s.token (fld e 94 14)).val.toNat →
    ∃ u, Sys2Proof.Machine.exec (.departReadyTest p o) s = .next u ∧
      ((u.walker (walkKey p o 0)).dispatched = [] ∧ u.mem = s.mem ∧ u.regs = s.regs ∧
      u.tokens = s.tokens ∧ u.transits = s.transits ∧ u.sramReads.length = s.sramReads.length + fld e 33 16 + 1 ∧
      ∀ i, i ≤ fld e 33 16 → ∃ x, x ∈ u.sramReads ∧ x.tile = fld e 84 10 ∧ x.addr = a + 256 * i ∧
        x.move.src = fld e 84 10 / 192 ∧ x.move.dst = 4 + p.val ∧ x.move.lo = d.tick - 448 ∧
        x.move.cargo = .depart p (cellTick (s.bankHalf p d.bank) d.tick i))) ∧
  (∀ (s : State) (p : Fin 6) (o : Fin 32) (d : Disp),
    let e := d.entry
    let a := fld e 49 15 * 256
    (s.walker (walkKey p o 1)).dispatched = [d] → eType e = 4 → d.stage = 1 → d.tick + s.classDelay p = s.now + 480 →
    thresholdOf (fld e 108 8) (fld e 116 4) (fld e 120 2) d.iters ≤ (s.token (fld e 94 14)).val.toNat →
    ∃ u, Sys2Proof.Machine.exec (.reduceReadyTest p o) s = .next u ∧
      ((u.walker (walkKey p o 1)).dispatched = [] ∧ u.mem = s.mem ∧ u.regs = s.regs ∧
      u.tokens = s.tokens ∧ u.transits = s.transits ∧ u.sramReads.length = s.sramReads.length + fld e 33 16 + 1 ∧
      ∀ i, i ≤ fld e 33 16 → ∃ x, x ∈ u.sramReads ∧ x.tile = fld e 84 10 ∧ x.addr = a + 256 * i ∧
        x.move.src = fld e 84 10 / 192 ∧ x.move.dst = 4 + p.val ∧
        x.move.cargo = .operand p (cellTick (s.bankHalf p d.bank) d.tick i + s.classDelay p))) ∧
  (∀ (s : State) (p : Fin 6) (o : Fin 32) (d : Disp) (i : Nat) (f : Fwd) (c : Payload),
    (s.walker (walkKey p o 0)).dispatched = [d] → eType d.entry = 3 → s.beyondRestart p d = false →
    cellAt (s.bankHalf p d.bank) d.tick (fld d.entry 33 16) (s.now + 16) = some i → (s.port p).fwd = [f] →
    f.inPort = fld d.entry 84 3 → f.owner = o.val → f.release < s.now →
    ∃ u, Sys2Proof.Machine.exec (.passOutboundTake p o) s = .next u ∧ (u.port p).fwd = [] ∧ u.mem = s.mem ∧ u.tokens = s.tokens ∧
      (f.data = some c → u.regs = s.regs ∧ ∃ x, (u.port p).departs = (s.port p).departs ++ [x] ∧ x.tick = s.now + 16 ∧
        x.data = some c ∧ x.i = i ∧ x.owner = o.val) ∧
      (f.data = none → (u.port p).departs = (s.port p).departs ∧
        u.rf (Reg.lnPassVoid p) 0 32 = min (s.rf (Reg.lnPassVoid p) 0 32 + 1) 0xFFFFFFFF))

/-- R42, R198, R200, R202, R203, R206, R215, R237, R259, R268: a cell crosses a J-die in the slot of its CONNECT; an expected cell
whose window has closed is pending; at its release tick an arrived cell leaves the hold for its tile and a missing one is counted;
in an external cycle it is written, with no other writer unordered with it, and its train's arrive follows the last cell; a read
of HOLD_PEAK returns the peak and sets it to what the hold has now. -/
def Obligations.TrainsArrive : Prop :=
  (∀ (s : State) (j : Fin 4) (o : Fin 32) (d : Disp) (x : Transit) (p t : Nat), s.now % 2 = 0 →
    s.ready (jDie j) = true → o ≠ 0 → (∀ k : Fin 32, k ≠ o → (s.walker (walkKey (6 + j) k 0)).dispatched = []) →
    (s.walker (walkKey (6 + j) o 0)).dispatched = [d] → eType d.entry = 5 → d.tick = s.now → s.transits = [x] →
    x.owner = d.owner → x.src = endpointDie (fld d.entry 49 6) → x.dst = endpointDie (fld d.entry 55 6) → x.lo ≤ s.now →
    s.now ≤ x.hi → x.cargo = .depart p t → (s.slotOf j).ins = [] → (s.slotOf j).outs = [] →
    ∃ u, Sys2Proof.Machine.exec (.junctionSlot j) s = .next u ∧ u.transits = [] ∧ u.mem = s.mem ∧ u.tokens = s.tokens ∧
      (u.port p).departs = setDepart x.owner t x.cell (s.port p).departs ∧
      u.r (Reg.jnJnCellsBooked j) = s.r (Reg.jnJnCellsBooked j) + 1) ∧
  (∀ (s : State) (p : Fin 6) (x : Expect), (s.port p).expects = [x] →
    ∃ u, Sys2Proof.Machine.exec (.dueWindowClose p) s = .next u ∧ u.mem = s.mem ∧ u.regs = s.regs ∧ u.tokens = s.tokens ∧
      (x.cell = none → s.dueMid p x + 2048 < 512 * (s.now : Int) → (u.port p).expects = [{ x with waits := true }]) ∧
      (512 * (s.now : Int) ≤ s.dueMid p x + 2048 ∨ x.cell ≠ none → (u.port p).expects = [x])) ∧
  (∀ (s : State) (p : Fin 6) (x : Expect) (c : Payload) (agree : Bool), (s.port p).expects = [x] → x.release = s.now →
    s.discards x.owner x.depart = false → (s.port p).lateOf.contains x.owner = false → x.cell = some c →
    fld x.entry 0 4 = 2 →
    ∃ u, Sys2Proof.Machine.exec (.cellRelease p agree) s = .next u ∧
      (u.port p).expects = [] ∧ u.tokens = s.tokens ∧ u.tokOps = s.tokOps ∧
      ∃ z y, u.transits = s.transits ++ [y] ∧ y.src = 4 + p.val ∧ y.dst = fld x.entry 84 10 / 192 ∧ y.lo = x.release + 8 ∧
        y.hi = x.release + 24 ∧ y.cargo = .toTile p z ∧ z.tile = fld x.entry 84 10 ∧ z.data = c ∧
        z.addr = fld x.entry 49 15 * 256 + 256 * x.i ∧ z.due = x.release + 40) ∧
  (∀ (s : State) (p : Fin 6) (x : Expect) (agree : Bool), (s.port p).expects = [x] → x.release = s.now → 16 < x.owner →
    s.discards x.owner x.depart = false → x.cell = none → fld x.entry 0 4 = 2 →
    ∃ u, Sys2Proof.Machine.exec (.cellRelease p agree) s = .next u ∧
      (u.port p).expects = [] ∧ u.transits = s.transits ∧ u.mem = s.mem ∧
      u.tokens = s.tokens ∧ (x.i ≠ 0 → u.tiles = s.tiles) ∧
      u.rf (Reg.lnTrainLate p) 0 32 = min (s.rf (Reg.lnTrainLate p) 0 32 + 1) 0xFFFFFFFF) ∧
  (∀ (s : State) (t : Fin 768) (p : Fin 6) (z : ToTile) (sum : Bool), s.externalNow t = true → 0 < s.extRoom t → (s.port p).toTile = [z] →
    (∀ q : Fin 6, q ≠ p → (s.port q).toTile = []) → z.tile = t.val → z.sum = sum → z.due ≤ s.now →
    ∃ u, Sys2Proof.Machine.exec (if sum then .reduceWriteBack t else .platformWrite t) s = .next u ∧
      ((u.port p).toTile = [] ∧ u.tokens = s.tokens ∧
      (s.alone (whoPort p) → ∀ i, i < 256 → (u.byte (tileAddr t z.addr + i)).toNat = fld z.data (8 * i) 8) ∧
      (∀ b, b < tileAddr t z.addr ∨ tileAddr t z.addr + 256 ≤ b → u.byte b = s.byte b) ∧
      (z.token = none → u.tokOps = s.tokOps) ∧
      ∀ k n, z.token = some (k, n) → u.tokOps = s.tokOps ++ [⟨k, false, BitVec.ofNat 32 n, t / 192⟩])) ∧
  (∀ (s : State) (i : Iface) (p : Fin 6), s.readable i (Reg.lnHoldPeak p) false →
    ∃ u, Sys2Proof.Machine.exec (.holdPeakRead i p) s = .next u ∧ u.mem = s.mem ∧ u.got i = s.r (Reg.lnHoldPeak p) ∧
      u.rf (Reg.lnHoldPeak p) 0 14 = s.holdOcc p % 16384)

/-- R181, R184, R277, R279, R280, R282, R283, R286: in each tick a port sends one cell: at offset 63 a signal cell, a timetabled
cell on its tick, else an idle cell; a received cell that passes its checks is accepted in its link sequence and matched; an
acknowledgement frees what it covers; an expired timer schedules a replay. -/
def Obligations.LinkCells : Prop :=
  (∀ (s : State) (p : Fin 6), 2 ≤ s.linkState p → s.linkState p ≤ 4 → s.now % 64 = 63 →
    ∃ u, Sys2Proof.Machine.exec (.portTxTick p) s = .next u ∧ u.mem = s.mem ∧ u.tokens = s.tokens ∧
      ∃ c, (u.port p).txLast = some c ∧ cellClass c = 2 ∧ cellCrc c = crc24 c) ∧
  (∀ (s : State) (p : Fin 6) (d : Depart) (x : Payload), s.linkState p = 4 → s.now % 64 < 60 →
    (s.portHalf p = true → s.now % 2 = 0) → (s.port p).departs = [d] → d.tick = s.now → d.data = some x →
    s.portHalf p = s.bankHalf p (s.bankActive p) → s.permitDep p s.now = d.owner → (s.port p).replay.length < 8192 →
    ∃ u, Sys2Proof.Machine.exec (.portTxTick p) s = .next u ∧
      u.tokens = s.tokens ∧ (u.port p).nextTx = ((s.port p).nextTx + 1) % 262144 ∧
      (u.port p).departs = [] ∧ (u.port p).replay.length = (s.port p).replay.length + 1 ∧
      (u.port p).txLast = some (sealCell x.toNat ((trainCheck d.i d.train (s.bankActive p)).toNat +
        (s.port p).nextTx * 65536))) ∧
  (∀ (s : State) (p : Fin 6), s.linkState p = 4 → s.now % 64 < 63 →
    (s.portHalf p = true → s.now % 2 = 0 ∧ s.now % 64 ≠ 62) → (s.port p).departs = [] → (s.port p).replay = [] →
    (s.port p).uout = [] →
    ∃ u, Sys2Proof.Machine.exec (.portTxTick p) s = .next u ∧
      u.mem = s.mem ∧ u.tokens = s.tokens ∧ (u.port p).nextTx = (s.port p).nextTx ∧
      (u.port p).txLast = some (sealCell 0 (3 * 2 ^ 38 + (s.port p).nextTx * 65536))) ∧
  (∀ (s : State) (p : Fin 6) (c : Cell) (frac : Byte) (cws : List CodewordErr) (x : Expect), s.linkState p = 4 →
    cellClass c = 0 → (s.takeCodewords p cws).1 = true → crc24 c = cellCrc c → (s.port p).next = cellLseq c →
    (s.port p).high = cellLseq c → (s.port p).got = [] → (s.port p).expects = [x] → x.cell = none → x.lost = false →
    x.waits = false → x.check.toNat = cellCheck c → s.inWindow p s.now x = true →
    ∃ u, Sys2Proof.Machine.exec (.cellReceive p c frac cws) s = .next u ∧ u.mem = s.mem ∧ u.tokens = s.tokens ∧
      (u.port p).next = (cellLseq c + 1) % 262144 ∧ (u.port p).got = [] ∧
      ∃ y, (u.port p).expects = [y] ∧ y.cell = some (cellData c) ∧ y.entered = 256 * s.now + frac.toNat ∧
        y.release = x.release ∧ y.fill = false) ∧
  (∀ (s : State) (p : Fin 6) (c : Cell) (frac : Byte) (cws : List CodewordErr), 2 ≤ s.linkState p → cellClass c ≠ 2 →
    ((s.takeCodewords p cws).1 = false ∨ crc24 c ≠ cellCrc c) →
    ∃ u, Sys2Proof.Machine.exec (.cellReceive p c frac cws) s = .next u ∧ u.mem = s.mem ∧ u.tokens = s.tokens ∧
      (u.port p).next = (s.port p).next ∧ (u.port p).got = (s.port p).got ∧ (u.port p).expects = (s.port p).expects ∧
      (u.port p).vcs = (s.port p).vcs ∧ (u.port p).pool = (s.port p).pool ∧
      u.rf (Reg.lnErrCount p) 0 16 = min (s.rf (Reg.lnErrCount p) 0 16 + 1) 65535 ∧
      ((s.takeCodewords p cws).1 = true →
        u.rf (Reg.lnCrcFail p) 0 32 = min (s.rf (Reg.lnCrcFail p) 0 32 + 1) 0xFFFFFFFF)) ∧
  (∀ (s : State) (p : Fin 6) (c : Cell) (cws : List CodewordErr), s.linkState p = 4 → cellClass c = 2 →
    (s.takeCodewords p cws).1 = true → crc24 c = cellCrc c → bitAt c 2106 = false → fld c 2107 3 = 0 →
    seqDiff (fld c 2088 18) (s.port p).oldest ≤ seqDiff (s.port p).nextTx (s.port p).oldest →
    ∃ u, Sys2Proof.Machine.exec (.signalCellReceive p c cws) s = .next u ∧ (u.mem = s.mem ∧ u.tokens = s.tokens ∧
      (u.port p).oldest = fld c 2088 18 ∧ (u.port p).lastGood = s.clk ∧
      ∀ z, z ∈ (u.port p).replay ↔ z ∈ (s.port p).replay ∧
        seqDiff (fld c 2088 18) (s.port p).oldest ≤ seqDiff z.lseq (s.port p).oldest)) ∧
  (∀ (s : State) (p : Fin 6) (x : Sent) (xs : List Sent), s.linkState p = 4 → (s.port p).replay = x :: xs →
    x.last + s.replayTimer p ≤ s.clk → x.timed = false → x.replays < 16 →
    ∃ u, Sys2Proof.Machine.exec (.replayTimeout p) s = .next u ∧ u.mem = s.mem ∧ u.tokens = s.tokens ∧
      (u.port p).replay.head? = some { x with due := x.due.or (some (s.clk + 38)), timed := true } ∧
      u.rf (Reg.lnReplayTimeouts p) 0 32 = min (s.rf (Reg.lnReplayTimeouts p) 0 32 + 1) 0xFFFFFFFF)

/-! ## Ports -/

/-- R289, R291, R295, R298, R301: a port in DOWN with a supported cable begins training when it may, at phase 1 where the cable is
not up; its phases follow one another; training ends in IDENTIFY, at full or half width, or fails; at a frame start with both
verdicts ACCEPTED the port is UP with its send state cleared, with another verdict it is in SIDING; silence and too many lost
cells take it DOWN. -/
def Obligations.PortStates : Prop :=
  (∀ (s : State) (p : Fin 6), s.trainDue p = true → s.mayTrain p = true →
    ∃ u, Sys2Proof.Machine.exec (.trainingStart p none) s = .next u ∧
      u.linkState p = 1 ∧ (u.port p).retrainAt = none ∧ (u.port p).entered = s.clk ∧
      (u.port p).train = some { phase := if (s.port p).cable.up then 2 else 1, begun := s.clk, at_ := s.clk } ∧ u.mem = s.mem ∧ u.tokens = s.tokens) ∧
  (∀ (s : State) (p : Fin 6) (t t' : Train) (x : TrainStep), s.linkState p = 1 → (s.port p).train = some t →
    t.overrun s.clk = false → t.next s.clk (s.port p).failing x = some t' →
    ∃ u, Sys2Proof.Machine.exec (.trainingStart p (some x)) s = .next u ∧
      u.linkState p = 1 ∧ (u.port p).train = some t' ∧ t'.phase = t.phase + 1 ∧
      t'.at_ = s.clk ∧ u.regs = s.regs ∧ u.mem = s.mem ∧ u.tokens = s.tokens) ∧
  (∀ (s : State) (p : Fin 6) (t : Train), s.linkState p = 1 → (s.port p).train = some t → t.phase = 1 → t.overrun s.clk = false →
    ∃ u, Sys2Proof.Machine.exec (.trainingStart p (some .broughtUp)) s = .next u ∧ u.linkState p = 1 ∧
      (u.port p).train = some { phase := 2, begun := s.clk, at_ := s.clk } ∧ (u.port p).cable.up = true ∧ u.mem = s.mem ∧
      u.tokens = s.tokens) ∧
  (∀ (s : State) (p : Fin 6), s.trainDue p = true → s.mayTrain p = true →
    ∃ u, Sys2Proof.Machine.exec (.retrainTimer p) s = .next u ∧ u.linkState p = 1 ∧ (u.port p).retrainAt = none ∧ u.mem = s.mem ∧
      u.tokens = s.tokens) ∧
  (∀ (s : State) (p : Fin 6) (t : Train), s.linkState p = 1 → (s.port p).train = some t → t.phase = 5 →
    t.overrun s.clk = false → t.at_ + 312500 ≤ s.clk → 32 ≤ ones34 t.rx → 32 ≤ ones34 t.tx →
    (∀ l, (s.port p).failing.getLsbD l = true → t.rx.getLsbD l = false) →
    ∃ u, Sys2Proof.Machine.exec (.trainingComplete p true) s = .next u ∧ u.linkState p = 2 ∧ u.portHalf p = false ∧ u.mem = s.mem ∧
      u.r (Reg.lnLaneRxActive p) = BitVec.ofNat 64 (lowest 32 t.rx) ∧
      u.r (Reg.lnLaneTxActive p) = BitVec.ofNat 64 (lowest 32 t.tx) ∧ u.rf (Reg.lnTsDeskew p) 0 16 = t.deskew.toNat ∧
      (u.port p).lastGood = s.clk ∧ (u.port p).rxGood = t.rx ∧ u.tokens = s.tokens) ∧
  (∀ (s : State) (p : Fin 6) (t : Train), s.linkState p = 1 → (s.port p).train = some t → t.phase = 5 →
    t.overrun s.clk = false → t.at_ + 312500 ≤ s.clk → 16 ≤ ones34 t.rx → 16 ≤ ones34 t.tx →
    (∀ l, (s.port p).failing.getLsbD l = true → t.rx.getLsbD l = false) →
    (ones34 t.rx < 32 ∨ ones34 t.tx < 32) → s.rf (Reg.lnLinkCtrl p) 4 1 = 1 → t.peerHalf = true →
    ∃ u, Sys2Proof.Machine.exec (.trainingComplete p true) s = .next u ∧ u.linkState p = 2 ∧ u.portHalf p = true ∧ u.mem = s.mem ∧
      u.r (Reg.lnLaneRxActive p) = BitVec.ofNat 64 (lowest 16 t.rx) ∧
      u.r (Reg.lnLaneTxActive p) = BitVec.ofNat 64 (lowest 16 t.tx) ∧ u.tokens = s.tokens) ∧
  (∀ (s : State) (p : Fin 6) (t : Train) (clean : Bool), s.linkState p = 1 → (s.port p).train = some t →
    t.overrun s.clk = true →
    ∃ u, Sys2Proof.Machine.exec (.trainingComplete p clean) s = .next u ∧ u.linkState p = 0 ∧ u.rf (Reg.lnLinkStatus p) 14 4 = 3 ∧
      u.trainFails p = min (s.trainFails p + 1) 15 ∧ u.mem = s.mem ∧ u.tokens = s.tokens ∧
      (u.port p).retrainAt = if s.trainFails p < 7 then some (s.clk + 31250000) else none) ∧
  (∀ (s : State) (p : Fin 6), (s.linkState p = 2 ∧ (s.port p).judged = []) ∨ s.linkState p = 3 → s.now % 4096 = 0 → s.rf Reg.saFabricPosition 31 1 = 1 →
    s.rf (Reg.lnLinkStatus p) 4 3 = 1 →
    s.rf (Reg.lnLinkStatus p) 7 3 = 1 →
    ∃ u, Sys2Proof.Machine.exec (.linkUp p) s = .next u ∧
      u.linkState p = 4 ∧ (u.port p).nextTx = 0 ∧ (u.port p).oldest = 0 ∧ (u.port p).replay = [] ∧
      u.trainFails p = 0 ∧ u.mem = s.mem ∧ u.tokens = s.tokens ∧
      (∀ v : Fin 4, u.r (Reg.lnCredit p v) = 0) ∧
      u.rf (Reg.lnLinkUps p) 0 32 = min (s.rf (Reg.lnLinkUps p) 0 32 + 1) 0xFFFFFFFF) ∧
  (∀ (s : State) (p : Fin 6), s.linkState p = 2 ∨ s.linkState p = 4 → s.now % 4096 = 0 →
    (s.linkState p = 2 → s.rf Reg.saFabricPosition 31 1 = 1 ∧ (s.port p).expectLost = false) → 2 ≤ s.rf (Reg.lnLinkStatus p) 4 3 →
    ∃ u, Sys2Proof.Machine.exec (.enterSiding p) s = .next u ∧ u.linkState p = 3 ∧ u.mem = s.mem ∧ u.tokens = s.tokens ∧
      (s.linkState p = 4 → (u.port p).replay = [] ∧ (u.port p).departs = [])) ∧
  (∀ (s : State) (p : Fin 6), 2 ≤ s.linkState p → s.linkState p ≤ 4 → (s.port p).lastGood + 2048 ≤ s.clk →
    ∃ u, Sys2Proof.Machine.exec (.silentTimeout p) s = .next u ∧
      u.linkState p = 0 ∧ u.rf (Reg.lnLinkStatus p) 14 4 = 5 ∧ u.mem = s.mem ∧
      u.tokens = s.tokens) ∧
  (∀ (s : State) (p : Fin 6), 2 ≤ s.linkState p → s.linkState p ≤ 4 →
    (s.port p).halfStart + s.rf (Reg.lnErrWindow p) 0 32 / 2 ≤ s.clk →
    ∃ u, Sys2Proof.Machine.exec (.errorWindowEnd p) s = .next u ∧ u.mem = s.mem ∧ u.tokens = s.tokens ∧
      if s.rf (Reg.lnLinkCtrl p) 8 8 < s.rf (Reg.lnErrCount p) 0 16 + s.rf (Reg.lnErrCount p) 16 16 then
        u.linkState p = 0 ∧ u.rf (Reg.lnLinkStatus p) 14 4 = 4
      else u.linkState p = s.linkState p ∧ u.rf (Reg.lnErrCount p) 0 16 = 0 ∧
        u.rf (Reg.lnErrCount p) 16 16 = s.rf (Reg.lnErrCount p) 0 16)

/-- R289, R292, R293, R303, R307, R310, R606: cables removed and inserted, their records and hours; lanes that fail and are
switched to a spare. -/
def Obligations.CablesAndLanes : Prop :=
  (∀ (s : State) (p : Fin 6),
    ∃ u, Sys2Proof.Machine.exec (.cableRemoved p) s = .next u ∧
      u.rf (Reg.lnLinkStatus p) 22 1 = 0 ∧ (u.port p).cable.present = false ∧
      (u.port p).cable.record = none ∧ u.r (Reg.lnCableId p) = 0 ∧ u.mem = s.mem ∧ u.tokens = s.tokens ∧
      (1 ≤ s.linkState p → s.linkState p ≤ 4 → u.linkState p = 0 ∧ u.rf (Reg.lnLinkStatus p) 14 4 = 2)) ∧
  (∀ (s : State) (p : Fin 6) (r : BitVec 1024), fld r 16 16 = 0x474E → crGood r = true → s.linkState p = 0 →
    s.rf (Reg.lnLinkCtrl p) 3 1 = 0 → s.ready (lDie p) = true → (s.port p).cable.txOnSince = none → s.power.down = false →
    s.rf Reg.saDieFailed 1 1 = 0 →
    ∃ u, Sys2Proof.Machine.exec (.cableInserted p r false true true) s = .next u ∧
      u.linkState p = 1 ∧ u.rf (Reg.lnLinkStatus p) 22 1 = 1 ∧
      (u.port p).cable.record = some (crBump r 1 0) ∧ (u.port p).cable.txOnSince = some s.clk ∧
      u.r (Reg.lnCableId p) = BitVec.ofNat 64 (fld r 32 64) ∧
      u.r (Reg.lnCableMating p) = BitVec.ofNat 64 ((fld r 192 32 + 1) % 2 ^ 32) ∧ u.mem = s.mem ∧ u.tokens = s.tokens) ∧
  (∀ (s : State) (p : Fin 6) (r : BitVec 1024) (ok rdy : Bool), s.ready (lDie p) = true →
    ∃ u, Sys2Proof.Machine.exec (.cableInserted p r true ok rdy) s = .next u ∧ u.linkState p = s.linkState p ∧
      u.rf (Reg.lnLinkStatus p) 14 4 = 9 ∧ (u.port p).cable.record = none ∧ u.mem = s.mem ∧ u.tokens = s.tokens) ∧
  (∀ (s : State) (p : Fin 6) (flags : BitVec 34), 2 ≤ s.linkState p → s.linkState p ≤ 4 → (s.port p).cable.up = true →
    ∃ u, Sys2Proof.Machine.exec (.cmisPoll p flags false) s = .next u ∧
      u.linkState p = 0 ∧ u.rf (Reg.lnLinkStatus p) 14 4 = 2 ∧ u.mem = s.mem ∧
      u.tokens = s.tokens) ∧
  (∀ (s : State) (p : Fin 6) (flags : BitVec 34) (l : Fin 34), 2 ≤ s.linkState p → s.linkState p ≤ 4 →
    (s.port p).failing.getLsbD l = false → (∀ k : Fin 34, bitAt flags k = decide (k = l)) →
    ∃ u, Sys2Proof.Machine.exec (.cmisPoll p flags true) s = .next u ∧ bitAt (u.r (Reg.lnLaneRxFailed p)) l = true ∧ u.mem = s.mem ∧
      u.tokens = s.tokens) ∧
  (∀ (s : State) (p : Fin 6) (l : Fin 34) (x : LaneReport) (k : Nat), 2 ≤ s.linkState p → (s.judgeLane p l x).2 = true →
    (s.port p).failing.getLsbD l = false → bitAt (s.r (Reg.lnLaneRxActive p)) l = true → (s.port p).rxSwap = none →
    s.goodSpare p = some k →
    ∃ u, Sys2Proof.Machine.exec (.laneFailing p l x) s = .next u ∧ bitAt (u.r (Reg.lnLaneRxFailed p)) l = true ∧
      (u.port p).rxSwap = some { lane := l, spare := k } ∧ u.mem = s.mem ∧ u.tokens = s.tokens ∧
      u.linkState p = s.linkState p) ∧
  (∀ (s : State) (p : Fin 6) (l : Fin 34) (t : Nat), (s.laneWatch p l).lost = some t →
    (s.judgeLane p l (.signal false)).2 = decide (t + 32 ≤ s.clk)) ∧
  (∀ (s : State) (p : Fin 6) (l : Fin 34) (x : LaneReport), 2 ≤ s.linkState p → (s.judgeLane p l x).2 = false →
    ∃ u, Sys2Proof.Machine.exec (.laneFailing p l x) s = .next u ∧ u.regs = s.regs ∧ u.mem = s.mem ∧ u.tokens = s.tokens ∧
      u.laneWatch p l = (s.judgeLane p l x).1 ∧ (u.port p).failing = (s.port p).failing) ∧
  (∀ (s : State) (p : Fin 6) (w : Swap), (s.port p).txSwap = none → (s.port p).rxSwap = some w → w.agreed = true →
    w.at_ ≤ s.now → w.lane < 34 → w.spare < 34 → w.lane ≠ w.spare →
    ∃ u, Sys2Proof.Machine.exec (.laneSwitch p) s = .next u ∧ bitAt (u.r (Reg.lnLaneRxActive p)) w.spare = true ∧
      bitAt (u.r (Reg.lnLaneRxActive p)) w.lane = false ∧ u.mem = s.mem ∧ u.tokens = s.tokens) ∧
  (∀ (s : State) (p : Fin 6) (w : Swap), (s.port p).rxSwap = none → (s.port p).txSwap = some w → w.at_ ≤ s.now →
    w.lane < 34 → w.spare < 34 → w.lane ≠ w.spare →
    ∃ u, Sys2Proof.Machine.exec (.laneSwitch p) s = .next u ∧ bitAt (u.r (Reg.lnLaneTxActive p)) w.spare = true ∧
      bitAt (u.r (Reg.lnLaneTxActive p)) w.lane = false ∧ (u.port p).txSwap = none ∧ u.mem = s.mem ∧
      u.tokens = s.tokens) ∧
  (∀ (s : State) (p : Fin 6) (r : BitVec 1024),
    let h := (s.port p).cable.ticks s.clk / 11250000000000
    (s.port p).cable.record = some r → crGood r = true → 8 ≤ h →
    ∃ u, Sys2Proof.Machine.exec (.cableHoursUpdate p true) s = .next u ∧ (u.port p).cable.record = some (crBump r 0 h) ∧
      (u.port p).cable.ticks s.clk = (s.port p).cable.ticks s.clk % 11250000000000 ∧
      u.r (Reg.lnCableHours p) = BitVec.ofNat 64 ((fld r 224 32 + h) % 2 ^ 32) ∧ u.mem = s.mem ∧ u.tokens = s.tokens)

/-- R289, R291, R302, R311: the commands of LINK_CTRL. PORT_RESET takes the port to DOWN with cause 1 and empties its banks;
RETRAIN begins training at once; RECHECK judges the next IDENTITY anew; HOLD_DOWN keeps the port in DOWN. -/
def Obligations.PortCommands : Prop :=
  (∀ (s : State) (i : Iface) (p : Fin 6) (v : W32), s.writable i (Reg.lnLinkCtrl p) false → bitAt v 1 = false →
    s.asleep = false → s.resetRuns 6 p = false →
    ∃ u, Sys2Proof.Machine.exec (.portReset i p v) s = .next u ∧ (u.linkState p = 0 ∧ u.rf (Reg.lnLinkStatus p) 14 4 = 1 ∧
      (u.port p).replay = [] ∧ u.tokens = s.tokens ∧ u.r (Reg.lnTtBank p) = Reg.resetVal (Reg.lnTtBank p) ∧
      (∀ (b : Bool) (k : Nat), k < 0x400000 → u.byte (portBank p b + k) = 0) ∧
      ∀ k, (∀ b : Bool, k < portBank p b ∨ portBank p b + 0x400000 ≤ k) → u.byte k = s.byte k)) ∧
  (∀ (s : State) (i : Iface) (p : Fin 6) (v : W32), s.writable i (Reg.lnLinkCtrl p) false → bitAt v 0 = false →
    s.linkState p ≤ 4 → s.rf (Reg.lnLinkStatus p) 22 1 = 1 → (s.port p).cable.record.isSome = true → s.ready (lDie p) = true →
    s.power.down = false → s.rf Reg.saDieFailed 1 1 = 0 →
    ∃ u, Sys2Proof.Machine.exec (.retrain i p v) s = .next u ∧
      u.linkState p = 1 ∧ u.trainFails p = 0 ∧ u.rf (Reg.lnLinkCtrl p) 3 1 = 0 ∧
      u.mem = s.mem ∧ u.tokens = s.tokens) ∧
  (∀ (s : State) (i : Iface) (p : Fin 6) (v : W32), s.writable i (Reg.lnLinkCtrl p) false → bitAt v 0 = false →
    bitAt v 1 = false → bitAt v 3 = false →
    ∃ u, Sys2Proof.Machine.exec (.recheck i p v) s = .next u ∧
      (u.port p).recheck = true ∧ u.linkState p = s.linkState p ∧ u.mem = s.mem ∧
      u.tokens = s.tokens) ∧
  (∀ (s : State) (i : Iface) (p : Fin 6) (v : W32), s.writable i (Reg.lnLinkCtrl p) false → bitAt v 0 = false →
    bitAt v 1 = false → 2 ≤ s.linkState p → s.linkState p ≤ 4 →
    ∃ u, Sys2Proof.Machine.exec (.holdDown i p v) s = .next u ∧ u.linkState p = 0 ∧ u.rf (Reg.lnLinkStatus p) 14 4 = 8 ∧
      (u.port p).retrainAt = none ∧ u.rf (Reg.lnLinkCtrl p) 3 1 = 1 ∧ u.mem = s.mem ∧ u.tokens = s.tokens)

/-! ## Newts, stops and events -/

/-- R343, R345, R346, R396: a routed CTRL newt for this module is due on the notify rings, and one for another module goes one hop
on by the port that routing names, or is counted as dropped; a new EPOCH_SET newt goes on from every other port in UP; an
acceptable EPOCH_SET arms the flip, and at its tick the injection epoch changes; EPOCH_CMD originates such a newt on the ports in
UP and arms the flip here. -/
def Obligations.NewtsAndEpochs : Prop :=
  (∀ (s : State) (p : Fin 6) (n : Newt), fld n 8 2 = 1 → fld n 0 8 = 0x20 → fld n 16 15 = s.coords →
    ∃ u, Sys2Proof.Machine.exec (.routedNewt p n) s = .next u ∧
      u.notes = s.notes ++ [⟨2, fld n 48 12, 255, fld n 128 384⟩] ∧ u.regs = s.regs ∧
      u.mem = s.mem ∧ u.tokens = s.tokens ∧ u.ports = s.ports) ∧
  (∀ (s : State) (p : Fin 6) (n : Newt) (q : Nat), fld n 8 2 = 1 → fld n 0 8 = 0x20 → fld n 16 15 ≠ s.coords →
    1 < fld n 80 8 → s.newtPort (fld n 16 15) = some q → (s.port q).newtsRouted.length < 64 →
    ∃ u, Sys2Proof.Machine.exec (.routedNewt p n) s = .next u ∧
      ((u.port q).newtsRouted = (s.port q).newtsRouted ++ [setFld n 80 8 (fld n 80 8 - 1)] ∧
      u.regs = s.regs ∧ u.mem = s.mem ∧ u.tokens = s.tokens ∧ ∀ k, k ≠ q → u.port k = s.port k)) ∧
  (∀ (s : State) (p : Fin 6) (n : Newt), fld n 8 2 = 1 → fld n 0 8 = 0x20 → fld n 16 15 ≠ s.coords →
    fld n 80 8 ≤ 1 ∨ s.newtPort (fld n 16 15) = none →
    ∃ u, Sys2Proof.Machine.exec (.routedNewt p n) s = .next u ∧ u.mem = s.mem ∧ u.tokens = s.tokens ∧ u.ports = s.ports ∧
      u.rf (Reg.lnNewtDrop p) 0 32 = min (s.rf (Reg.lnNewtDrop p) 0 32 + 1) 0xFFFFFFFF) ∧
  (∀ (s : State) (p : Fin 6) (n : Newt), fld n 0 8 = 0x11 → fld n 8 2 = 2 → s.newtNew p n = true → 1 < fld n 80 8 →
    ∃ u, Sys2Proof.Machine.exec (.broadcastNewt p n) s = .next u ∧ (u.mem = s.mem ∧ u.tokens = s.tokens ∧ u.port p = s.port p ∧
      u.newtNew p n = false ∧ ∀ q : Fin 6, q ≠ p → s.linkState q = 4 → s.newtNew q n = true →
        (s.port q).newtsBcast.length < 16 →
        (u.port q).newtsBcast = (s.port q).newtsBcast ++ [setFld n 80 8 (fld n 80 8 - 1)] ∧ u.newtNew q n = false)) ∧
  (∀ (s : State) (p : Fin 6) (n : Newt), fld n 0 8 = 0x11 → fld n 8 2 = 2 → s.newtNew 6 n = true →
    fld n 200 32 = s.rf (Reg.lnFabricId p) 0 32 → fld n 128 64 % 4096 = 0 → s.now + 8192 ≤ fld n 128 64 →
    fld n 192 8 % 2 ≠ s.injectEpoch → bitAt (s.r Reg.saRouteCtrl) 1 = false → s.versionBusy (fld n 192 8 % 2) = false →
    s.routeValid (fld n 192 8 % 2) = true →
    ∃ u, Sys2Proof.Machine.exec (.epochSet p n) s = .next u ∧
      u.rf Reg.saRouteCtrl 1 1 = 1 ∧ (u.r Reg.saRouteFlipFtc).toNat = fld n 128 64 ∧
      u.injectEpoch = s.injectEpoch ∧ u.mem = s.mem ∧ u.tokens = s.tokens ∧ u.dies = s.dies) ∧
  (∀ s : State, s.rf Reg.saRouteCtrl 1 1 = 1 → (s.r Reg.saRouteFlipFtc).toNat = s.now →
    ∃ u, Sys2Proof.Machine.exec .epochFlip s = .next u ∧
      u.injectEpoch = 1 - s.injectEpoch ∧ u.rf Reg.saRouteCtrl 1 1 = 0 ∧ u.mem = s.mem ∧
      u.tokens = s.tokens ∧ u.rf Reg.saRouteCtrl 16 16 = s.rf Reg.saRouteCtrl 16 16) ∧
  (∀ (s : State) (i : Iface) (v : W32), s.writable i Reg.saEpochCmd false → bitAt v 1 = true →
    (s.r Reg.saEpochCmdFtc).toNat % 4096 = 0 → s.now + 8192 ≤ (s.r Reg.saEpochCmdFtc).toNat → fld v 0 1 ≠ s.injectEpoch →
    bitAt (s.r Reg.saRouteCtrl) 1 = false → s.versionBusy (fld v 0 1) = false → s.routeValid (fld v 0 1) = true →
    ∃ u, Sys2Proof.Machine.exec (.epochCmd i v) s = .next u ∧
      (u.rf Reg.saRouteCtrl 1 1 = 1 ∧ u.r Reg.saRouteFlipFtc = s.r Reg.saEpochCmdFtc ∧
      u.nseq = s.nseq + 1 ∧ u.mem = s.mem ∧ u.tokens = s.tokens ∧
      ∀ p : Fin 6, s.linkState p = 4 → (s.port p).newtsBcast.length < 16 →
        ∃ n : Newt, (u.port p).newtsBcast = (s.port p).newtsBcast ++ [n] ∧ fld n 0 8 = 0x11 ∧ fld n 8 2 = 2 ∧
          fld n 48 16 = s.modNum % 65536 ∧ fld n 64 16 = (s.nseq + 1).toNat ∧
          fld n 128 64 = (s.r Reg.saEpochCmdFtc).toNat ∧ fld n 192 8 = fld v 0 1))

/-- R467, R469, R472: ALLSTOP_CMD with GO records ALLSTOP_COMMAND, and its acceptance stops the partition; a new ALL_STOP newt is
relayed from every other port in UP, and the first copy to reach SA stops the partition whose job key it names. -/
def Obligations.AllStops : Prop :=
  (∀ (s : State) (i : Iface) (v : W32), s.writable i Reg.saAllstopCmd false → bitAt v 2 = true → fld v 0 2 ≠ 3 →
    (s.die 0).queue.length < 48 →
    ∃ u, Sys2Proof.Machine.exec (.allstopCmd i v) s = .next u ∧ u.mem = s.mem ∧ u.tokens = s.tokens ∧ u.tiles = s.tiles ∧
      (∀ k, k ≠ Reg.saAllstopCmd → u.r k = s.r k) ∧ ∃ how, (u.die 0).queue = (s.die 0).queue ++
        [{ code := Ev.allstopCommand, die := 0, part := fld v 4 4, flags := 2, stops := [⟨fld v 4 4, Ev.allstopCommand, how⟩] }] ∧
        (fld v 0 2 = 0 → how = .part) ∧ (fld v 0 2 = 1 → how = .job) ∧ (fld v 0 2 = 2 → how = .fabric)) ∧
  (∀ (s : State) (x : Report) (p : Fin 16) (how : StopHow), (s.die 0).queue = [x] → x.stops = [⟨p, Ev.allstopCommand, how⟩] →
    how = .part ∨ how = .job ∨ how = .fabric → (s.die 0).dropped = 0 → s.arbiterFree = true →
    findRate x.code x.die x.unit s.rates = none → x.stop = false → x.code = Ev.allstopCommand → s.stoppable p →
    ∃ u, Sys2Proof.Machine.exec (.eventReport 0) s = .next u ∧
      s.stoppedBy u p Ev.allstopCommand ∧ u.mem = s.mem ∧ u.tokens = s.tokens) ∧
  (∀ (s : State) (p : Fin 6) (n : Newt), fld n 0 8 = 0x10 → fld n 8 2 = 2 → fld n 128 32 = s.rf (Reg.lnFabricId p) 0 32 →
    fld n 160 2 = 2 → s.newtNew p n = true → s.newtNew 6 n = false → 1 < fld n 80 8 →
    ∃ u, Sys2Proof.Machine.exec (.allStopNewt p n) s = .next u ∧
      (u.mem = s.mem ∧ u.tokens = s.tokens ∧ u.tiles = s.tiles ∧ u.newtNew p n = false ∧
      ∀ q : Fin 6, q ≠ p → s.linkState q = 4 → s.newtNew q n = true → (s.port q).newtsStop.length < 4 →
        (u.port q).newtsStop = (s.port q).newtsStop ++ [setFld n 80 8 (fld n 80 8 - 1)])) ∧
  (∀ (s : State) (p : Fin 6) (n : Newt) (k : Fin 16), fld n 0 8 = 0x10 → fld n 8 2 = 2 →
    fld n 128 32 = s.rf (Reg.lnFabricId p) 0 32 → fld n 160 2 = 1 → fld n 176 16 ≠ 0 → s.newtNew p n = true →
    s.newtNew 6 n = true → fld n 80 8 ≤ 1 → s.jobKey k = fld n 176 16 → s.stoppable k →
    (∀ j : Fin 16, j ≠ k → s.jobKey j ≠ fld n 176 16) → (∀ g : Fin 16, s.rf (Reg.saGrant g) 6 1 = 0) →
    ∃ u, Sys2Proof.Machine.exec (.allStopNewt p n) s = .next u ∧
      s.stoppedBy u k (fld n 192 16) ∧ u.mem = s.mem ∧ u.tokens = s.tokens)

/-- R460, R461, R463, R465, R469, R474, R475, R484: the arbiter gives a report the next index of the log, withholds one inside its
interval, and stops the partition of one whose rule stops it; a write of EVLOG_CTRL clears FIRST_ERROR; an answered poll clears
the count of missed ones; the sixteenth missed poll, a reported fault or an overrun step fails a die; a heartbeat is noted; SA's
silence stops every tile and walker and takes every port down. -/
def Obligations.EventsAndFailures : Prop :=
  (∀ (s : State) (d : Fin 32) (x : Report), (s.die d).queue = [x] → x.stops = [] → (s.die d).dropped = 0 →
    s.arbiterFree = true →
    findRate x.code x.die x.unit s.rates = none → x.stop = false → x.code ≠ Ev.eventsDropped →
    ∃ u, Sys2Proof.Machine.exec (.eventReport d) s = .next u ∧
      (u.die d).queue = [] ∧ u.mem = s.mem ∧ u.tokens = s.tokens ∧ u.tiles = s.tiles ∧
      SMap.get (fun _ => 0) u.evlog (s.rf Reg.saEvlogHead 0 32 % 4096) =
        logEntry (s.rf Reg.saEvlogHead 0 32) x.code x.die x.part s.now x.items 0 x.flags ∧
      (∀ k, k ≠ s.rf Reg.saEvlogHead 0 32 % 4096 → SMap.get (fun _ => 0) u.evlog k = SMap.get (fun _ => 0) s.evlog k) ∧
      u.rf Reg.saEvlogHead 0 32 = (s.rf Reg.saEvlogHead 0 32 + 1) % 2 ^ 32) ∧
  (∀ (s : State) (d : Fin 32) (x : Report), (s.die d).queue = [x] → x.stops = [] → (s.die d).dropped = 0 →
    s.arbiterFree = true →
    findRate x.code x.die x.unit s.rates = none → x.stop = true → x.code ≠ Ev.eventsDropped → x.part < 16 →
    s.stoppable x.part →
    ∃ u, Sys2Proof.Machine.exec (.eventReport d) s = .next u ∧ s.stoppedBy u x.part x.code ∧ u.mem = s.mem ∧ u.tokens = s.tokens) ∧
  (∀ (s : State) (d : Fin 32) (x : Report) (r : Rate), (s.die d).queue = [x] → x.stops = [] → (s.die d).dropped = 0 →
    s.arbiterFree = true → findRate x.code x.die x.unit s.rates = some r → x.every ≠ 0 → s.clk < r.last + x.every → x.stop = false →
    x.code ≠ Ev.eventsDropped → x.code ≠ Ev.allStop →
    ∃ u, Sys2Proof.Machine.exec (.eventReport d) s = .next u ∧
      (u.die d).queue = [] ∧ u.evlog = s.evlog ∧ u.r Reg.saEvlogHead = s.r Reg.saEvlogHead ∧
      findRate x.code x.die x.unit u.rates = some { r with held := r.held + 1 } ∧ u.mem = s.mem ∧ u.tokens = s.tokens ∧
      u.tiles = s.tiles) ∧
  (∀ (s : State) (i : Iface) (v : W32), s.writable i Reg.saEvlogCtrl false → bitAt v 0 = true →
    ∃ u, Sys2Proof.Machine.exec (.clearFirst i v) s = .next u ∧ (u.r Reg.saFirstError = 0 ∧ u.mem = s.mem ∧ u.evlog = s.evlog ∧
      ∀ k, k ≠ Reg.saFirstError → k ≠ Reg.saEvlogCtrl → u.r k = s.r k)) ∧
  (∀ (s : State) (d : Fin 32), d ≠ 0 → s.now % 256 = 0 → (s.die d).powered = true → s.overrun d = false →
    ∃ u, Sys2Proof.Machine.exec (.diePoll d true false) s = .next u ∧
      (u.die d).missed = 0 ∧ u.regs = s.regs ∧ u.mem = s.mem ∧ u.tokens = s.tokens) ∧
  (∀ (s : State) (d : Fin 32), d ≠ 0 → s.now % 256 = 0 → (s.die d).powered = true → s.overrun d = false → (s.die d).missed < 15 →
    ∃ u, Sys2Proof.Machine.exec (.diePoll d false false) s = .next u ∧
      (u.die d).missed = (s.die d).missed + 1 ∧ u.regs = s.regs ∧ u.mem = s.mem ∧
      u.tokens = s.tokens) ∧
  (∀ (s : State) (d : Fin 32) (answered fault : Bool), d ≠ 0 → s.now % 256 = 0 → (s.die d).powered = true →
    bitAt (s.r Reg.saDieFailed) d = false → fault = true ∨ s.overrun d = true ∨ answered = false ∧ 15 ≤ (s.die d).missed →
    ∃ u, Sys2Proof.Machine.exec (.diePoll d answered fault) s = .next u ∧ bitAt (u.r Reg.saDieFailed) d = true ∧ u.ready d = false ∧
      (u.die d).powered = false ∧ (∀ e : Fin 32, e ≠ d → bitAt (u.r Reg.saDieFailed) e = bitAt (s.r Reg.saDieFailed) e) ∧
      (d.val < 2 ∨ 6 ≤ d.val ∧ d.val < 16 → u.mem = s.mem) ∧
      (∀ k, (2 ≤ d.val ∧ d.val ≤ 5 ∧ k / 4096 = d.val - 2) ∨ u.token k = s.token k) ∧
      ((s.die 0).queue.length < 64 → ∃ x l, (u.die 0).queue = (s.die 0).queue ++ x :: l ∧ x.code = Ev.dieFailed ∧
        x.items.head? = some d.val ∧ x.stops = (s.partsUsing d).map fun p => ⟨p, Ev.dieFailed, .fault⟩)) ∧
  (∀ (s : State) (i : Iface) (v : W32), s.writable i Reg.sbSaHeartbeat false →
    ∃ u, Sys2Proof.Machine.exec (.saHeartbeat i v) s = .next u ∧ (u.power.heartbeat = s.clk ∧ u.mem = s.mem ∧ u.tokens = s.tokens ∧
      ∀ k, k ≠ Reg.sbSaHeartbeat → u.r k = s.r k)) ∧
  (∀ (s : State) (fatal : Bool), fatal = true ∨
    s.power.heartbeat + max 100 (s.rf Reg.sbSaWatchdog 16 16) * 3125 ≤ s.clk →
    ∃ u, Sys2Proof.Machine.exec (.saWatchdogFired fatal) s = .next u ∧ u.power.down = true ∧ u.pins.faultN = false ∧ u.mem = s.mem ∧
      u.rf Reg.sbSaWatchdog 0 1 = 1 ∧ u.tokens = s.tokens ∧ (∀ t : Fin 768, (u.tile t).state = 5 ∨ (u.tile t).state = 6) ∧
      (∀ uk ∈ walkUnits, ∀ o, 1 ≤ o → o ≤ 31 → (u.walker (walkKey uk.1 o uk.2)).state = 3) ∧
      ∀ p : Fin 6, u.linkState p = 0 ∧ u.rf (Reg.lnLinkStatus p) 14 4 = 8)

/-- R354, R356, R357, R362, R363, R366, R370: a STREAM entry goes to its engine 64 ticks before its start and begins to move with
its ready token at its threshold, else it is late and stops the partition; a granule is read, and written to its destination; with
the last one the completion token's arrive is sent; at its deadline what is left is abandoned; a refresh notes the temperature; a
clean patrol read moves the pass on; a stack is retired; the standby bank's indirect access reads or writes a word. -/
def Obligations.StreamsAndStacks : Prop :=
  (∀ (s : State) (m : Fin 16) (o : Fin 32) (d : Disp), (s.walker (walkKey (10 + m) o 0)).dispatched = [d] → eType d.entry = 1 →
    d.tick = s.now + 64 → s.beyondRestart (10 + m) d = false →
    ∃ u, Sys2Proof.Machine.exec (.streamEntry m o) s = .next u ∧
      (u.walker (walkKey (10 + m) o 0)).dispatched = [] ∧ u.mem = s.mem ∧ u.regs = s.regs ∧
      u.tokens = s.tokens ∧ ∃ x, u.strm m = s.strm m ++ [x] ∧ x.owner = o.val ∧ x.entry = d.entry ∧ x.start = s.now + 64 ∧
        x.moving = false) ∧
  (∀ (s : State) (m : Fin 16) (o : Fin 32) (x : Stream), s.strm m = [x] → x.owner = o.val → x.moving = false → x.start = s.now →
    ∃ u, Sys2Proof.Machine.exec (.streamReadyTest m o) s = .next u ∧ u.mem = s.mem ∧ u.tokens = s.tokens ∧
      if thresholdOf (fld x.entry 212 12) (fld x.entry 224 6) (fld x.entry 230 2) x.iters ≤
          (if s.partOfToken (fld x.entry 198 14) = some (x.owner - 1) then (s.token (fld x.entry 198 14)).val.toNat else 0) then
        u.strm m = [{ x with moving := true, before := s.snapshot (stDst x.entry) (256 * stN x.entry) }] ∧ u.regs = s.regs
      else u.strm m = [] ∧ u.rf (Reg.mnStreamLate m) 0 32 = min (s.rf (Reg.mnStreamLate m) 0 32 + 1) 0xFFFFFFFF ∧
        ((s.die (16 + m)).queue.length < 63 → ∃ r, (u.die (16 + m)).queue.getLast? = some r ∧ r.code = Ev.streamLate ∧ r.stop = true ∧
          r.part = x.owner - 1)) ∧
  (∀ (s : State) (m : Fin 16) (o : Fin 32) (x : Stream) (i : BitVec 14) (g : BitVec 24) (data : Payload),
    let a := stSrc x.entry + 256 * g.toNat
    let h : Granule := { g := g.toNat, data := data }
    s.strm m = [x] → x.owner = o.val → x.moving = true → x.idx = i.toNat → s.now ≤ x.start + fld x.entry 33 24 →
    x.done.length + x.bad.length < stN x.entry → x.open_ g.toNat = true → (x.bufs.any fun h => h.g == g.toNat) = false →
    s.tickRoom m 4 = true → (x.way m h).isSome = true →
    (bitAt x.entry 232 = true ∧ data = 0) ∨ (bitAt x.entry 232 = false ∧ (s.setStrm m []).served x a = true ∧
      s.streamBar (x.owner - 1) a = none ∧ s.stackDead a = false ∧ data = BitVec.ofNat 2048 (s.load a 256)) →
    ∃ u, Sys2Proof.Machine.exec (.streamComplete m o i [(g, .ok)]) s = .next u ∧
      u.strm m = [{ x with bufs := x.bufs ++ [h] }] ∧ u.mem = s.mem ∧
      u.tokens = s.tokens ∧ u.tokOps = s.tokOps) ∧
  (∀ (s : State) (m : Fin 16) (o : Fin 32) (x : Stream) (i : BitVec 14) (g : BitVec 24) (data : Payload),
    let a := stSrc x.entry + 256 * g.toNat
    let b := stDst x.entry + 256 * g.toNat
    let h : Granule := { g := g.toNat, data := data }
    let y := { x with bufs := x.bufs ++ [h] }
    s.strm m = [x] → x.owner = o.val → x.moving = true → x.idx = i.toNat → s.now ≤ x.start + fld x.entry 33 24 →
    x.done.length + x.bad.length < stN x.entry → x.done.length + 1 < stN x.entry → x.open_ g.toNat = true →
    (x.bufs.any fun h => h.g == g.toNat) = false → s.tickRoom m 4 = true → y.way m h = none →
    (bitAt x.entry 232 = true ∧ data = 0 ∧ ((s.setStrm m []).takeTick m).served y b = true) ∨
      (bitAt x.entry 232 = false ∧ (s.setStrm m []).served x a = true ∧ s.streamBar (x.owner - 1) a = none ∧ s.stackDead a = false ∧
        data = BitVec.ofNat 2048 (s.load a 256) ∧
        (((((s.setStrm m []).takeTick m).usePath a).countHbm false a 256).served y b = true)) →
    s.streamBar (x.owner - 1) b = none → s.stackDead b = false → s.alone (whoStream m x.owner x.idx) →
    (∀ k, k < 256 → SMap.get memDefault x.before (b + k) = s.byte (b + k)) →
    ∃ u, Sys2Proof.Machine.exec (.streamComplete m o i [(g, .ok)]) s = .next u ∧ u.tokens = s.tokens ∧ u.tokOps = s.tokOps ∧
      (∀ k, k < 256 → (u.byte (b + k)).toNat = fld data (8 * k) 8) ∧ (∀ k, k < b ∨ b + 256 ≤ k → u.byte k = s.byte k) ∧
      u.strm m = [{ x with bufs := y.bufs.erase h, done := x.done ++ [g.toNat] }]) ∧
  (∀ (s : State) (m : Fin 16) (o : Fin 32) (x : Stream) (i : BitVec 14) (g : BitVec 24) (h : Granule) (e : Ecc),
    let b := stDst x.entry + 256 * g.toNat
    s.strm m = [x] → x.owner = o.val → x.moving = true → x.idx = i.toNat → s.now ≤ x.start + fld x.entry 33 24 →
    x.done.length + x.bad.length < stN x.entry → x.open_ g.toNat = true → x.bufs.find? (fun h => h.g == g.toNat) = some h →
    x.way m h = none → (s.setStrm m []).served x b = true → s.streamBar (x.owner - 1) b = none → s.stackDead b = false →
    s.alone (whoStream m x.owner x.idx) →
    fld x.entry 182 16 = 0 ∨ s.partOfToken (fld x.entry 168 14) = some (x.owner - 1) →
    (∀ k, k < 256 → SMap.get memDefault x.before (b + k) = s.byte (b + k)) →
    ∃ u, Sys2Proof.Machine.exec (.streamComplete m o i [(g, e)]) s = .next u ∧ u.tokens = s.tokens ∧
      (∀ k, k < 256 → (u.byte (b + k)).toNat = fld h.data (8 * k) 8) ∧ (∀ k, k < b ∨ b + 256 ≤ k → u.byte k = s.byte k) ∧
      if x.done.length + 1 < stN x.entry then
        u.strm m = [{ x with bufs := x.bufs.erase h, done := x.done ++ [g.toNat] }] ∧ u.tokOps = s.tokOps
      else u.strm m = [] ∧ u.rf (Reg.mnStreamsDone m) 0 32 = min (s.rf (Reg.mnStreamsDone m) 0 32 + 1) 0xFFFFFFFF ∧ u.tokOps = s.tokOps ++ (if fld x.entry 182 16 = 0 then []
        else [⟨fld x.entry 168 14, false, BitVec.ofNat 32 (fld x.entry 182 16), m / 4⟩])) ∧
  (∀ (s : State) (m : Fin 16) (o : Fin 32) (x : Stream) (i : BitVec 14), s.strm m = [x] → x.owner = o.val → x.moving = true →
    x.idx = i.toNat → s.now = x.start + fld x.entry 33 24 →
    ∃ u, Sys2Proof.Machine.exec (.streamDeadline m o i) s = .next u ∧
      u.strm m = [] ∧ u.mem = s.mem ∧ u.tokens = s.tokens ∧ u.tokOps = s.tokOps ∧
      u.rf (Reg.mnStreamLate m) 0 32 = min (s.rf (Reg.mnStreamLate m) 0 32 + 1) 0xFFFFFFFF ∧
      ((s.die (16 + m)).queue.length < 63 → ∃ r, (u.die (16 + m)).queue.getLast? = some r ∧ r.code = Ev.streamLate ∧ r.stop = true ∧
        r.part = x.owner - 1)) ∧
  (∀ (s : State) (k : Fin 32) (t : Byte), s.stackAwake k = true →
    ∃ u, Sys2Proof.Machine.exec (.hbmRefresh k t) s = .next u ∧ (u.rf (Reg.mnStackStatus (k / 2) (k % 2)) 4 8 = t.toNat ∧
      u.rf (Reg.mnStackStatus (k / 2) (k % 2)) 3 1 = (if 85 < t.toNat then 1 else 0) ∧
      (u.stack k).refreshes = (s.stack k).refreshes + 1 ∧ u.mem = s.mem ∧ u.tokens = s.tokens ∧
      ∀ r, r ≠ Reg.mnStackStatus (k / 2) (k % 2) → u.r r = s.r r)) ∧
  (∀ (s : State) (k : Fin 32), s.stackAwake k = true → s.rf (Reg.mnScrubCtrl (k / 2)) 16 1 = 1 →
    s.streamWants (pathOf (k * stackBytes + 128 * (s.stack k).scrubAt)) = false →
    ∃ u, Sys2Proof.Machine.exec (.hbmScrub k .ok) s = .next u ∧ u.mem = s.mem ∧ u.tokens = s.tokens ∧
      if (s.stack k).scrubAt + 1 < stackWords then (u.stack k).scrubAt = (s.stack k).scrubAt + 1
      else (u.stack k).scrubAt = 0 ∧ (u.stack k).scrubStart = s.clk ∧
        u.rf (Reg.mnScrubDone (k / 2) (k % 2)) 0 32 = min (s.rf (Reg.mnScrubDone (k / 2) (k % 2)) 0 32 + 1) 0xFFFFFFFF) ∧
  (∀ (s : State) (k : Fin 32) (requested responds : Bool), (requested = true → bitAt (s.r Reg.saStackRetireReq) k = true) →
    bitAt (s.r (Reg.mnStackStatus (k / 2) (k % 2))) 1 = false →
    ∃ u, Sys2Proof.Machine.exec (.stackRetired k requested responds) s = .next u ∧ bitAt (u.r Reg.saStackActive) k = false ∧
      bitAt (u.r (Reg.mnStackStatus (k / 2) (k % 2))) 1 = true ∧ bitAt (u.r (Reg.mnStackStatus (k / 2) (k % 2))) 2 = responds ∧ u.mem = s.mem ∧ u.tokens = s.tokens) ∧
  (∀ (s : State) (i : Iface) (m : Fin 16) (wide hi : Bool) (v : W64),
    let off := s.rf (Reg.mnStIndAddr m) 0 18
    let up := if wide = false ∧ hi = true then 4 else 0
    let a := streamBank m (!s.bankActive (10 + m)) + off + up
    let n := if wide = true then 8 else 4
    s.writable i (Reg.mnStIndData m + up) wide →
    ∃ u, Sys2Proof.Machine.exec (.stIndDataAccess i m wide hi true v) s = .next u ∧
      (u.rf (Reg.mnStIndAddr m) 0 18 = (if wide = true ∨ hi = true then (off + 8) % 2 ^ 18 else off) ∧
      u.tokens = s.tokens ∧ (∀ b, b < a ∨ a + n ≤ b → u.byte b = s.byte b) ∧
      if s.bankStandby (10 + m) = 1 ∨ s.bankStandby (10 + m) = 4 then u.mem = s.mem
      else ∀ k, k < n → (u.byte (a + k)).toNat = fld v (8 * k) 8)) ∧
  (∀ (s : State) (i : Iface) (m : Fin 16) (wide hi : Bool) (v : W64),
    let off := s.rf (Reg.mnStIndAddr m) 0 18
    let up := if wide = false ∧ hi = true then 4 else 0
    let a := streamBank m (!s.bankActive (10 + m)) + off + up
    let n := if wide = true then 8 else 4
    s.readable i (Reg.mnStIndData m + up) wide →
    ∃ u, Sys2Proof.Machine.exec (.stIndDataAccess i m wide hi false v) s = .next u ∧ (u.mem = s.mem ∧ u.tokens = s.tokens ∧
      u.rf (Reg.mnStIndAddr m) 0 18 = (if wide = true ∨ hi = true then (off + 8) % 2 ^ 18 else off) ∧
      ∀ k, k < n → fld (u.got i) (8 * k) 8 = (s.byte (a + k)).toNat))

/-! ## The host -/

/-- R374, R376, R377, R378, R379, R385: a doorbell or the shadow tail moves a running ring's tail, and one outside the ring puts
it in ERROR; enabling a submission or completion ring with a valid configuration starts it empty; disabling one with nothing in
flight ends it, and one with descriptors in flight drains; the descriptor at HEAD is dispatched, or refused, and HEAD moves on. -/
def Obligations.HostRingControl : Prop :=
  (∀ (s : State) (f : Fin 17) (r : Fin 4) (v : W32),
    let n := s.sqSize f r
    let h := s.rf (Reg.rgSqHead f r) 0 16
    let q := s.ring (ringKey f r)
    s.fnUp f = true → s.warmBusy = false → s.sqState f r = 1 → s.rf (Reg.rgSqCtrl f r) 6 1 = 0 → fld v 0 16 < n →
    (q.tail + n - h) % n ≤ (fld v 0 16 + n - h) % n →
    ∃ u, Sys2Proof.Machine.exec (.doorbell f r v) s = .next u ∧
      u.ring (ringKey f r) = { q with tail := fld v 0 16 } ∧ u.regs = s.regs ∧ u.mem = s.mem ∧
      u.tokens = s.tokens) ∧
  (∀ (s : State) (f : Fin 17) (r : Fin 4) (v : W32),
    s.fnUp f = true → s.warmBusy = false → s.sqState f r = 1 → s.rf (Reg.rgSqCtrl f r) 6 1 = 0 → s.sqSize f r ≤ fld v 0 16 →
    ∃ u, Sys2Proof.Machine.exec (.doorbell f r v) s = .next u ∧
      u.sqState f r = 2 ∧ u.rf (Reg.rgSqStatus f r) 16 16 = Ev.ringTailInvalid ∧
      (u.ring (ringKey f r)) = s.ring (ringKey f r) ∧ u.mem = s.mem ∧ u.tokens = s.tokens) ∧
  (∀ (s : State) (f : Fin 17) (r : Fin 4) (v : W32),
    let n := s.sqSize f r
    let h := s.rf (Reg.rgSqHead f r) 0 16
    let q := s.ring (ringKey f r)
    s.fnUp f = true → s.sqState f r = 1 → s.rf (Reg.rgSqCtrl f r) 6 1 = 1 →
    q.polled + max 1 (s.rf (Reg.rgSqCtrl f r) 8 8) * 3125 ≤ s.clk → v.toNat < n →
    (q.tail + n - h) % n ≤ (v.toNat + n - h) % n →
    ∃ u, Sys2Proof.Machine.exec (.shadowPoll f r (some v)) s = .next u ∧
      u.ring (ringKey f r) = { q with tail := v.toNat, polled := s.clk } ∧
      u.regs = s.regs ∧ u.mem = s.mem ∧ u.tokens = s.tokens) ∧
  (∀ (s : State) (f : Fin 17) (r : Fin 4) (v : W32), s.fnUp f = true → s.warmBusy = false → s.sqState f r ≠ 3 →
    bitAt (s.r (Reg.rgSqCtrl f r)) 5 = false → 6 ≤ fld v 0 5 → fld v 0 5 ≤ 16 → s.rf (Reg.rgSqBase f r) 0 12 = 0 →
    (bitAt v 6 = true → s.rf (Reg.rgSqShadow f r) 0 3 = 0) →
    ∃ u, Sys2Proof.Machine.exec (.ringEnable f (r.castLE (by decide)) v) s = .next u ∧
      u.sqState f r = 1 ∧ bitAt (u.r (Reg.rgSqCtrl f r)) 5 = true ∧
      u.sqSize f r = 2 ^ fld v 0 5 ∧ u.rf (Reg.rgSqHead f r) 0 16 = 0 ∧ (u.ring (ringKey f r)).tail = 0 ∧
      (u.ring (ringKey f r)).jobs = [] ∧ u.mem = s.mem ∧ u.tokens = s.tokens) ∧
  (∀ (s : State) (f : Fin 17) (r : Fin 4) (v : W32), s.fnUp f = true → s.warmBusy = false →
    bitAt (s.r (Reg.rgCqCtrl f r)) 5 = false → 6 ≤ fld v 0 5 → fld v 0 5 ≤ 16 → s.rf (Reg.rgCqBase f r) 0 12 = 0 →
    ∃ u, Sys2Proof.Machine.exec (.ringEnable f ((r.natAdd 4).castLE (by decide)) v) s = .next u ∧
      bitAt (u.r (Reg.rgCqCtrl f r)) 5 = true ∧
      u.rf (Reg.rgCqHead f r) 0 16 = 0 ∧ u.rf (Reg.rgCqTail f r) 0 16 = 0 ∧ u.rf (Reg.rgCqTail f r) 16 1 = 1 ∧
      u.mem = s.mem ∧ u.tokens = s.tokens) ∧
  (∀ (s : State) (f : Fin 17) (r : Fin 4) (v : W32), s.fnUp f = true → s.warmBusy = false →
    bitAt (s.r (Reg.rgSqCtrl f r)) 5 = true → s.ringArmed f r = false → (s.ring (ringKey f r)).jobs = [] →
    ∃ u, Sys2Proof.Machine.exec (.ringDisable f (r.castLE (by decide)) v) s = .next u ∧ u.sqState f r = 0 ∧
      bitAt (u.r (Reg.rgSqCtrl f r)) 5 = false ∧ u.mem = s.mem ∧ u.tokens = s.tokens) ∧
  (∀ (s : State) (f : Fin 17) (r : Fin 4) (v : W32), s.fnUp f = true → s.warmBusy = false →
    bitAt (s.r (Reg.rgSqCtrl f r)) 5 = true → s.ringArmed f r = false → (s.ring (ringKey f r)).jobs ≠ [] →
    ∃ u, Sys2Proof.Machine.exec (.ringDisable f (r.castLE (by decide)) v) s = .next u ∧ u.sqState f r = 3 ∧
      (u.ring (ringKey f r)).jobs.length = (s.ring (ringKey f r)).jobs.length ∧
      bitAt (u.r (Reg.rgSqCtrl f r)) 5 = false ∧ u.mem = s.mem ∧ u.tokens = s.tokens) ∧
  (∀ (s : State) (f : Fin 17) (r : Fin 4) (d : Desc) (c : Nat), s.ringWaits f r = true → s.ringTurn f r = true →
    (s.ring (ringKey f r)).jobs = [] → s.descRefusal f d = some c →
    ∃ u, Sys2Proof.Machine.exec (.descriptorDispatch f r (some d)) s = .next u ∧
      (let q := s.ring (ringKey f r)
      (u.ring (ringKey f r)).jobs = [{ id := q.nextId, desc := d, begun := s.clk, phase := 2, cls := 1, code := c }] ∧
      u.mem = s.mem ∧ u.tokens = s.tokens ∧
      u.rf (Reg.rgSqHead f r) 0 16 = (s.rf (Reg.rgSqHead f r) 0 16 + 1) % s.sqSize f r % 65536)) ∧
  (∀ (s : State) (f : Fin 17) (r : Fin 4) (d : Desc), s.ringWaits f r = true → s.ringTurn f r = true → s.fenced f r d = false →
    s.descRefusal f d = none →
    ∃ u, Sys2Proof.Machine.exec (.descriptorDispatch f r (some d)) s = .next u ∧
      (let q := s.ring (ringKey f r)
      (u.ring (ringKey f r)).jobs = q.jobs ++ [{ id := q.nextId, desc := d, begun := s.clk }] ∧
      (u.ring (ringKey f r)).nextId = q.nextId + 1 ∧ u.mem = s.mem ∧ u.tokens = s.tokens ∧
      u.rf (Reg.rgSqHead f r) 0 16 = (s.rf (Reg.rgSqHead f r) 0 16 + 1) % s.sqSize f r % 65536 ∧
      ∀ k, k ≠ Reg.rgSqHead f r → u.r k = s.r k))

/-- R380, R381, R383, R385: a finished descriptor's token operation is sent before its completion; the completion goes to the tail
of an enabled ring with room; a head is taken within the ring, a completion ring's or the notify ring's; a delayed interrupt whose
vector is not masked is signalled; a due entry that concerns no partition goes to the PF's notify ring. -/
def Obligations.CompletionsAndInterrupts : Prop :=
  (∀ (s : State) (f : Fin 17) (r : Fin 4) (j : Job) (ok : Bool), (s.ring (ringKey f r)).jobs = [j] → j.tokenDue = true →
    ∃ u, Sys2Proof.Machine.exec (.completionWrite f r ok) s = .next u ∧
      (u.ring (ringKey f r)).jobs = [{ j with phase := 3 }] ∧ u.regs = s.regs ∧
      u.mem = s.mem ∧ u.tokens = s.tokens ∧ u.hostOut = s.hostOut ∧
      u.tokOps = s.tokOps ++ [⟨fld j.desc 64 16 % 0x4000, bitAt j.desc 78, BitVec.ofNat 32 (fld j.desc 96 32), 4⟩]) ∧
  (∀ (s : State) (f : Fin 17) (r : Fin 4) (j : Job) (ok : Bool),
    let tail := s.rf (Reg.rgCqTail f r) 0 16
    let n := 2 ^ s.rf (Reg.rgCqCtrl f r) 0 5
    (s.ring (ringKey f r)).jobs = [j] → j.phase = 2 ∨ j.phase = 3 ∧ (s.tokOps.any fun o => o.token == fld j.desc 64 16 % 0x4000) = false →
    j.tokenDue = false → s.fnUp f = true → s.cqRoom f r = true →
    ∃ u, Sys2Proof.Machine.exec (.completionWrite f r ok) s = .next u ∧
      (u.ring (ringKey f r)).jobs = [] ∧ u.mem = s.mem ∧ u.tokens = s.tokens ∧
      u.tokOps = s.tokOps ∧ (if ok = true then s.hostGets u f ((s.r (Reg.rgCqBase f r)).toNat + 32 * tail)
        (bytesLE 32 (completionOf j (s.rf (Reg.rgSqHead f r) 0 16) (s.rf (Reg.rgCqTail f r) 16 1))) else u.hostOut = s.hostOut) ∧
      u.rf (Reg.rgCqTail f r) 0 16 = (tail + 1) % n % 65536) ∧
  (∀ (s : State) (f : Fin 17) (r : Fin 4) (v : W32),
    let n := 2 ^ s.rf (Reg.rgCqCtrl f r) 0 5
    let t := s.rf (Reg.rgCqTail f r) 0 16
    s.fnUp f = true → s.warmBusy = false → fld v 0 16 < n →
    (t + n - fld v 0 16 % n) % n ≤ (t + n - s.rf (Reg.rgCqHead f r) 0 16 % n) % n →
    ∃ u, Sys2Proof.Machine.exec (.cqHeadWrite f (r.castLE (by decide)) v) s = .next u ∧
      (u.rf (Reg.rgCqHead f r) 0 16 = fld v 0 16 ∧ u.mem = s.mem ∧
      u.tokens = s.tokens ∧ ∀ k, k ≠ Reg.rgCqHead f r → u.r k = s.r k)) ∧
  (∀ (s : State) (f : Fin 17) (v : W32),
    let n := 2 ^ s.rf (Reg.rgNrCtrl f) 0 5
    let t := s.rf (Reg.rgNrTail f) 0 16
    s.fnUp f = true → s.warmBusy = false → fld v 0 16 < n →
    (t + n - fld v 0 16 % n) % n ≤ (t + n - s.rf (Reg.rgNrHead f) 0 16 % n) % n →
    ∃ u, Sys2Proof.Machine.exec (.cqHeadWrite f 4 v) s = .next u ∧ (u.rf (Reg.rgNrHead f) 0 16 = fld v 0 16 ∧ u.mem = s.mem ∧
      u.tokens = s.tokens ∧ ∀ k, k ≠ Reg.rgNrHead f → u.r k = s.r k)) ∧
  (∀ (s : State) (f : Fin 17) (r : Fin 4) (t : Nat), s.fnUp f = true → s.rf (Reg.rgCqCtrl f r) 24 8 ≠ 0 →
    (s.ring (ringKey f r)).irqFirst = some t → t + s.rf (Reg.rgCqCtrl f r) 24 8 * 3125 ≤ s.clk → s.signals f (s.rf (Reg.rgCqCtrl f r) 8 8) →
    ∃ u, Sys2Proof.Machine.exec (.irqDelayExpiry f r) s = .next u ∧
      u.irqs = s.irqs ++ [(f.val, s.rf (Reg.rgCqCtrl f r) 8 8)] ∧ u.regs = s.regs ∧
      u.mem = s.mem ∧ (u.ring (ringKey f r)).irqPend = 0 ∧ (u.ring (ringKey f r)).irqFirst = none) ∧
  (∀ (s : State) (n : Note) (vf : Bool),
    let tail := s.rf (Reg.rgNrTail 0) 0 16
    s.notes = [n] → 16 ≤ n.part → s.rf (Reg.rgNrCtrl 0) 5 1 = 1 →
    (tail + 1) % 2 ^ s.rf (Reg.rgNrCtrl 0) 0 5 ≠ s.rf (Reg.rgNrHead 0) 0 16 →
    ∃ u, Sys2Proof.Machine.exec (.notifyEntry true vf) s = .next u ∧ u.notes = [] ∧ u.mem = s.mem ∧ u.tokens = s.tokens ∧
      (s.signals 0 (s.rf (Reg.rgNrCtrl 0) 8 8) → u.irqs = s.irqs ++ [(0, s.rf (Reg.rgNrCtrl 0) 8 8)]) ∧
      (∃ w, u.hostOut = s.hostOut ++ [w] ∧ w.fn = 0 ∧ w.addr = (s.r (Reg.rgNrBase 0)).toNat + 64 * tail ∧
        w.relaxed = false ∧ w.bytes.length = 64 ∧ w.bytes.take 1 = bytesLE 1 n.type ∧ w.bytes.drop 16 = bytesLE 48 n.payload) ∧
      u.rf (Reg.rgNrTail 0) 0 16 = (tail + 1) % 2 ^ s.rf (Reg.rgNrCtrl 0) 0 5 % 65536)

/-- R386, R389, R394, R395, R396, R397, R398, R399, R401, R611: what PING, WAIT, NEWT, QUERY, MIRROR and CHECKPOINT answer; a STOP
has HOST_STOP reported and answers when that has stopped its partition; a movement starts, and a cell of it moves between host
memory and this module; resets of the host interface disable their functions' rings, and an FLR of a VF asks for its partition's
stop. -/
def Obligations.HostCommands : Prop :=
  (∀ (s : State) (f : Fin 17) (r : Fin 4) (j : Job), s.starts f r j 0 →
    ∃ u, Sys2Proof.Machine.exec (.ping f r) s = .next u ∧
      u.ends f r j 0 0 1 s.now 0 ∧ u.regs = s.regs ∧ u.mem = s.mem ∧ u.tokens = s.tokens) ∧
  (∀ (s : State) (f : Fin 17) (r : Fin 4) (j : Job),
    let v := (s.token (fld j.desc 160 16 % 0x4000)).val.toNat
    s.starts f r j 0x0A → 0x8000 ≤ fld j.desc 160 16 → fld j.desc 128 32 ≤ v →
    ∃ u, Sys2Proof.Machine.exec (.wait f r) s = .next u ∧
      u.ends f r j 0 0 0 v 0 ∧ u.regs = s.regs ∧ u.mem = s.mem ∧ u.tokens = s.tokens) ∧
  (∀ (s : State) (f : Fin 17) (r : Fin 4) (j : Job),
    let v := (s.token (fld j.desc 160 16 % 0x4000)).val.toNat
    s.starts f r j 0x0A → fld j.desc 160 16 < 0x8000 ∨ v < fld j.desc 128 32 →
    ∃ u, Sys2Proof.Machine.exec (.wait f r) s = .next u ∧ u.regs = s.regs ∧ u.mem = s.mem ∧ u.tokens = s.tokens ∧
      if bitAt j.desc 176 = true ∧ fld j.desc 192 64 ≤ s.now then u.ends f r j 0 0 0 s.now 0
      else if fld j.desc 256 32 ≠ 0 ∧ j.begun + fld j.desc 256 32 * 3125 ≤ s.clk then
        u.ends f r j 3 Ev.waitTimeout 0 (if 0x8000 ≤ fld j.desc 160 16 then v else s.now) 0
      else u = s) ∧
  (∀ (s : State) (f : Fin 17) (r : Fin 4) (j : Job) (q : Nat), s.starts f r j 0x0C →
    s.newtPort (fld j.desc 64 16 % 0x8000) = some q → (s.port q).newtsRouted.length < 64 →
    ∃ u, Sys2Proof.Machine.exec (.newt f r) s = .next u ∧
      u.ends f r j 0 0 0 0 0 ∧ u.regs = s.regs ∧ u.mem = s.mem ∧ u.nseq = s.nseq + 1 ∧
      ∃ n, (u.port q).newtsRouted = (s.port q).newtsRouted ++ [n] ∧ fld n 0 8 = 0x20 ∧ fld n 16 15 = fld j.desc 64 16 % 0x8000 ∧
        fld n 128 384 = fld j.desc 128 384) ∧
  (∀ (s : State) (f : Fin 17) (r : Fin 4) (j : Job), s.starts f r j 0x11 → (s.die 0).queue.length < 48 →
    ∃ u, Sys2Proof.Machine.exec (.stop f r) s = .next u ∧
      s.runs u f r j ∧ u.regs = s.regs ∧ u.mem = s.mem ∧ u.tokens = s.tokens ∧ u.tiles = s.tiles ∧
      (u.die 0).queue = (s.die 0).queue ++ [{ code := Ev.hostStop, die := 0, part := dPart f j.desc, flags := 2
                                              stops := [⟨dPart f j.desc, Ev.hostStop, .host⟩] }]) ∧
  (∀ (s : State) (f : Fin 17) (r : Fin 4) (j : Job) (x : Report) (p : Fin 16), (s.ring (ringKey f r)).jobs = [j] → j.phase = 1 →
    fld j.desc 0 8 = 0x11 → dPart f j.desc = p → (s.die 0).queue = [x] → x.stops = [⟨p, Ev.hostStop, .host⟩] → x.code = Ev.hostStop →
    x.stop = false → (s.die 0).dropped = 0 → s.arbiterFree = true → findRate x.code x.die x.unit s.rates = none → s.stoppable p →
    (∀ m, m ∈ (s.inj 0).msgs → m.part ≠ p) →
    ∃ u, Sys2Proof.Machine.exec (.eventReport 0) s = .next u ∧
      (u.ring (ringKey f r)).jobs = [{ j with phase := 2, result := s.now }] ∧
      s.stoppedBy u p Ev.hostStop ∧ u.mem = s.mem ∧ u.tokens = s.tokens) ∧
  (∀ (s : State) (f : Fin 17) (r : Fin 4) (j : Job), s.starts f r j 0x12 →
    ∃ u, Sys2Proof.Machine.exec (.query f r true) s = .next u ∧
      u.ends f r j 0 0 0 0 0 ∧ u.regs = s.regs ∧ u.mem = s.mem ∧ u.tokens = s.tokens ∧
      s.hostGets u f (fld j.desc 128 64) (bytesLE 256 (s.statusBlock (dPart f j.desc)))) ∧
  (∀ (s : State) (f : Fin 17) (r : Fin 4) (j : Job) (x : Fin 26), s.starts f r j 2 → s.bankBusy x = false →
    (∀ u : Fin 26, bitAt j.desc (if u.val < 6 then 128 + u else if u.val < 10 then 130 + u else 134 + u) = decide (u = x)) →
    ∃ u, Sys2Proof.Machine.exec (.mirror f r) s = .next u ∧
      (u.ends f r j 0 0 0 0 0 ∧ u.bankStandby x = 3 ∧ u.bankSame x = true ∧ u.tokens = s.tokens ∧
      u.bankActive x = s.bankActive x ∧ (∀ y : Fin 26, y ≠ x → u.r (bankReg y) = s.r (bankReg y)) ∧
      (∀ k, k < unitBank x (!s.bankActive x) ∨ unitBank x (!s.bankActive x) + bankBytes x ≤ k → u.byte k = s.byte k) ∧
      ∀ k, k < bankBytes x → u.byte (unitBank x (!s.bankActive x) + k) = s.byte (unitBank x (s.bankActive x) + k))) ∧
  (∀ (s : State) (f : Fin 17) (r : Fin 4) (j : Job) (data : List Byte),
    let p := dPart f j.desc
    s.starts f r j 0x10 → bitAt j.desc 192 = false → bitAt j.desc 193 = false →
    s.ckptRefusal f p j (takeBytes (4096 + 4 * (s.tokensOf p).length + 0x800000 * (s.tilesOf p).length) data) = none →
    (s.bulk (s.ckptReads p (fld j.desc 128 64) false false) [] []).isSome = true →
    ∃ u, Sys2Proof.Machine.exec (.checkpoint f r data none none []) s = .next u ∧
      u.ends f r j 0 0 0 0 0 ∧ u.mem = s.mem ∧ u.tokens = s.tokens ∧
      s.hostGets u f (fld j.desc 128 64)
        (s.ckptHead p ++ (s.tilesOf p).flatMap fun t => s.bytes (tileAddr t 0) 0x800000)) ∧
  (∀ (s : State) (f : Fin 17) (r : Fin 4) (j : Job) (data : List Byte),
    let p := dPart f j.desc
    let n := 4096 + 4 * (s.tokensOf p).length
    s.starts f r j 0x10 → bitAt j.desc 192 = true → bitAt j.desc 193 = false →
    s.ckptRefusal f p j (takeBytes (n + 0x800000 * (s.tilesOf p).length) data) = none →
    (s.bulk [] (s.ckptWrites p (fld j.desc 128 64) true false) []).isSome = true → s.alone (whoJob f r j.id) →
    ∃ u, Sys2Proof.Machine.exec (.checkpoint f r data none none []) s = .next u ∧ (u.ends f r j 0 0 0 0 0 ∧ u.hostOut = s.hostOut ∧
      (∀ (i k : Nat), (s.tokensOf p)[i]? = some k →
        (u.token k).val.toNat = field (takeBytes (n + 0x800000 * (s.tilesOf p).length) data) (4096 + 4 * i) 4) ∧
      (∀ k, k ∉ s.tokensOf p → u.token k = s.token k) ∧
      (∀ (i t a : Nat), (s.tilesOf p)[i]? = some t → a < 0x800000 →
        u.byte (tileAddr t 0 + a) = data.getD (n + 0x800000 * i + a) 0) ∧
      ∀ b, (∀ t, t ∈ s.tilesOf p → b < tileAddr t 0 ∨ tileAddr t 0 + 0x800000 ≤ b) → u.byte b = s.byte b)) ∧
  (∀ (s : State) (f : Fin 17) (r : Fin 4) (j : Job) (i : BitVec 24) (data : List Byte), s.starts f r j 8 →
    bitAt j.desc 288 = false → bitAt j.desc 289 = true → s.isLocal (fld j.desc 192 64) = true → s.dmaCheck f j = none →
    ∃ u, Sys2Proof.Machine.exec (.dma f r 0 i data none []) s = .next u ∧ (u.ring (ringKey f r)).jobs = [{ j with
        phase := 1, begun := s.clk, before := s.snapshot (s.dmaTo j) (fld j.desc 256 32) }] ∧
      u.regs = s.regs ∧ u.mem = s.mem ∧ u.tokens = s.tokens) ∧
  (∀ (s : State) (f : Fin 17) (r : Fin 4) (j : Job) (i : BitVec 24) (data : List Byte),
    let b := fld j.desc 192 64 % 2 ^ 48 + 256 * i.toNat
    let n := min 256 (fld j.desc 256 32 - 256 * i.toNat)
    (s.ring (ringKey f r)).jobs = [j] → j.phase = 1 → fld j.desc 0 8 = 8 → bitAt j.desc 288 = false →
    bitAt j.desc 289 = true → s.isLocal (fld j.desc 192 64) = true → 256 * i.toNat < fld j.desc 256 32 →
    j.moved.contains i.toNat = false → regionOf b ≠ .bank → regionOf (b + n - 1) = regionOf b →
    (∀ k, k < n → s.stackDead (b + k) = false) →
    (s.dmaPass .host .here (fld j.desc 128 64 + 256 * i.toNat) b n).isSome = true → s.alone (whoJob f r j.id) →
    (∀ k, k < n → SMap.get memDefault j.before (b + k) = s.byte (b + k)) →
    ∃ u, Sys2Proof.Machine.exec (.dma f r 0 i data none []) s = .next u ∧
      u.tokens = s.tokens ∧ (∀ k, k < n → u.byte (b + k) = data.getD k 0) ∧
      (∀ k, k < b ∨ b + n ≤ k → u.byte k = s.byte k) ∧
      if j.moved.length + 1 = (fld j.desc 256 32 + 255) / 256 then u.ends f r j 0 0 0 0 0
      else (u.ring (ringKey f r)).jobs = [{ j with moved := i.toNat :: j.moved }]) ∧
  (∀ (s : State) (f : Fin 17) (r : Fin 4) (j : Job) (i : BitVec 24) (data : List Byte),
    let a := fld j.desc 128 64 % 2 ^ 48 + 256 * i.toNat
    let b := fld j.desc 192 64 + 256 * i.toNat
    let n := min 256 (fld j.desc 256 32 - 256 * i.toNat)
    (s.ring (ringKey f r)).jobs = [j] → j.phase = 1 → fld j.desc 0 8 = 8 → bitAt j.desc 288 = true →
    bitAt j.desc 289 = false → s.isLocal (fld j.desc 128 64) = true → 256 * i.toNat < fld j.desc 256 32 →
    j.moved.contains i.toNat = false → (s.dmaPass .here .host a b n).isSome = true →
    ∃ u, Sys2Proof.Machine.exec (.dma f r 0 i data none [.ok]) s = .next u ∧
      u.tokens = s.tokens ∧ u.mem = s.mem ∧ s.hostGets u f b (s.liveBytes a n) ∧
      if j.moved.length + 1 = (fld j.desc 256 32 + 255) / 256 then u.ends f r j 0 0 0 0 0
      else (u.ring (ringKey f r)).jobs = [{ j with moved := i.toNat :: j.moved }]) ∧
  (∀ (s : State) (n : Fin 16), s.fnUp (n + 1) = true → (s.die 0).queue.length < 48 →
    ∃ u, Sys2Proof.Machine.exec (.flrVf n) s = .next u ∧
      (∀ r : Fin 4, u.sqState (n + 1) r = 0 ∧ (u.ring (ringKey (n + 1) r)).jobs = []) ∧
      (u.die 0).queue = (s.die 0).queue ++ [{ code := Ev.hostStop, die := 0, part := n, flags := 2
                                              stops := [⟨n, Ev.hostStop, .host⟩] }] ∧
      u.rf (Reg.rgNrCtrl (n + 1)) 5 1 = 0 ∧ u.pcieFn (n + 1) = {} ∧ u.mem = s.mem ∧ u.tokens = s.tokens) ∧
  (∀ s : State, s.fnUp 0 = true →
    ∃ u, Sys2Proof.Machine.exec .flrPf s = .next u ∧ ((∀ r : Fin 4, u.sqState 0 r = 0 ∧ (u.ring (ringKey 0 r)).jobs = []) ∧
      u.rf (Reg.rgNrCtrl 0) 5 1 = 0 ∧ u.pcieFn 0 = {} ∧ u.mem = s.mem ∧ u.tokens = s.tokens ∧
      ∀ (f : Fin 17) (r : Fin 4), f ≠ 0 → u.sqState f r = s.sqState f r)) ∧
  (∀ s : State, s.fnUp 0 = true →
    ∃ u, Sys2Proof.Machine.exec .hotReset s = .next u ∧
      (∀ (f : Fin 17) (r : Fin 4), u.sqState f r = 0 ∧ (u.ring (ringKey f r)).jobs = []) ∧
      (∀ f : Fin 17, u.pcieFn f = {}) ∧ u.mem = s.mem ∧ u.tokens = s.tokens ∧ u.pcieUp = s.pcieUp) ∧
  (∀ s : State, s.pcieUp = true →
    ∃ u, Sys2Proof.Machine.exec .pcieLinkDown s = .next u ∧
      (∀ (f : Fin 17) (r : Fin 4), u.sqState f r = 0 ∧ (u.ring (ringKey f r)).jobs = []) ∧
      (∀ f : Fin 17, u.pcieFn f = {}) ∧ u.mem = s.mem ∧ u.tokens = s.tokens ∧ u.pcieUp = false)

/-! ## Jobs -/

/-- R63, R64, R245, R247, R249, R392, R393: an accepted LAUNCH_AT or CHANGEOVER arms its banks and its partition; CANCEL
withdraws; at the tick the partition's tiles begin word 0 of their other bank; a drained bank becomes EMPTY. -/
def Obligations.Launches : Prop :=
  (∀ (s : State) (f : Fin 17) (r : Fin 4) (j : Job),
    let p := dPart f j.desc
    let a := s.armedOf f r j true
    s.starts f r j 4 → s.power.entering = none → s.power.mode = 0 → s.dumping p = false → s.contextLost p = false → s.launchRefusal a.tick = none →
    s.armRefusal p a = none → s.rotaStart p a.ctx = false → s.aboveLevel p = false →
    ∃ u, Sys2Proof.Machine.exec (.launchAt f r) s = .next u ∧ (s.runs u f r j ∧ (u.part p).armed = (s.part p).armed ++ [a] ∧
      (u.part p).tileStandby = 4 ∧ u.tokens = s.tokens ∧ u.tiles = s.tiles ∧
      (s.partState p ≠ 3 → s.partState p ≠ 4 → u.partState p = 2) ∧
      ∀ x, x ∈ a.units → x < 26 → u.bankStandby x = 4 ∧ (u.r (armFtcReg x)).toNat = fld j.desc 128 64)) ∧
  (∀ (s : State) (f : Fin 17) (r : Fin 4) (j : Job),
    let p := dPart f j.desc
    s.starts f r j 4 → s.power.entering = none → s.power.mode = 0 → s.dumping p = false → s.contextLost p = false →
    ∃ u, Sys2Proof.Machine.exec (.launchAt f r) s = .next u ∧
      (let l := fld j.desc 128 64
      (l % 4096 ≠ 0 → u.ends f r j 1 Ev.launchMisaligned 0 0 0 ∧ u.regs = s.regs ∧ u.mem = s.mem) ∧
      (l % 4096 = 0 → s.timeState ≠ 2 → u.ends f r j 1 Ev.launchNoTime 0 0 0 ∧ u.regs = s.regs ∧ u.mem = s.mem) ∧
      (l % 4096 = 0 → s.timeState = 2 → l < s.now + 8192 → u.ends f r j 1 Ev.launchLate 0 0 0 ∧ u.regs = s.regs ∧
        u.mem = s.mem) ∧
      (l % 4096 = 0 → s.timeState = 2 → s.now + 2 ^ 38 < l → u.ends f r j 1 Ev.launchTooFar 0 0 0 ∧ u.regs = s.regs ∧
        u.mem = s.mem))) ∧
  (∀ (s : State) (f : Fin 17) (r : Fin 4) (j : Job),
    let p := dPart f j.desc
    let a := s.armedOf f r j false
    s.starts f r j 5 → s.power.entering = none → s.power.mode = 0 → s.armRefusal p a = none →
    (bitAt j.desc 200 = true → s.contextLost p = false ∧ s.rotaRuns p = false ∧ s.aboveLevel p = false) →
    ∃ u, Sys2Proof.Machine.exec (.changeover f r) s = .next u ∧
      (s.runs u f r j ∧ (u.part p).armed = (s.part p).armed ++ [a] ∧ u.tokens = s.tokens ∧
      u.tiles = s.tiles ∧ ∀ x, x ∈ a.units → x < 26 → u.bankStandby x = 4 ∧ (u.r (armFtcReg x)).toNat = fld j.desc 128 64)) ∧
  (∀ (s : State) (f : Fin 17) (r : Fin 4) (j : Job) (a : Armed),
    let p := dPart f j.desc
    s.starts f r j 6 → (s.part p).armed = [a] → a.tick = fld j.desc 128 64 → a.byRota = false → s.now + 4096 < a.tick →
    ∃ u, Sys2Proof.Machine.exec (.cancel f r) s = .next u ∧
      (u.ends f r j 0 0 0 0 0 ∧ (u.part p).armed = [] ∧ u.mem = s.mem ∧ u.tokens = s.tokens ∧
      u.tiles = s.tiles ∧ ∀ x, x ∈ a.units → x < 26 → s.bankStandby x = 4 → u.bankStandby x = 3)) ∧
  (∀ (s : State) (p : Fin 16) (a : Armed), (s.part p).armed = [a] → (∀ q : Fin 16, q ≠ p → (s.part q).armed = []) → a.tick ≤ s.now →
    a.restart = true → a.byRota = false → (s.part p).stopAfter = none → s.busyWalkers p a = [] →
    (∀ t, t ∈ s.tilesOf p → changeable a.launch (s.tile t) = true) → a.units.Nodup → (∀ x, x ∈ a.units → x < 26) →
    (∀ x, x ∈ a.units → s.bankStandby x = 4 ∧ (s.r (armFtcReg x)).toNat = a.tick) →
    ∃ u, Sys2Proof.Machine.exec .changeoverTick s = .next u ∧
      ((u.part p).armed = [] ∧ u.partState p = 3 ∧ u.mem = s.mem ∧ u.tokens = s.tokens ∧
      (∀ t, t < 768 → s.hasQuarter p (t / 48) = true → (u.tile t).state = 1 ∧ (u.tile t).pc = 0 ∧
        (u.tile t).bank = !(s.tile t).bank ∧ (u.tile t).progLen = (s.tile t).stbyLen) ∧
      (∀ t, t < 768 → s.hasQuarter p (t / 48) = false → u.tile t = s.tile t) ∧
      ∀ x, x ∈ a.units → u.bankActive x = !s.bankActive x)) ∧
  (∀ (s : State) (x : Fin 26), s.bankStandby x = 1 → s.bankInForce x = false →
    ∃ u, Sys2Proof.Machine.exec (.bankDrainEnd x) s = .next u ∧
      (u.bankStandby x = 0 ∧ u.bankActive x = s.bankActive x ∧ u.mem = s.mem ∧
      u.tokens = s.tokens ∧ ∀ k, k ≠ bankReg x → u.r k = s.r k))

/-- R404, R412, R414, R415, R417: a rota's next slice is armed once its fill is complete, with the tiles' standby programs where
its context is enabled; a fill that is late is recorded and stops the partition; in full-static mode the outgoing context is saved
and the incoming one begins its first slice with zeros and the token map's values; a halted rota is marked so; a finished scrub is
over. -/
def Obligations.RotasAndScrub : Prop :=
  (∀ (s : State) (p : Fin 16) (x : Rota),
    let y := { x with filled := true }
    let c := fld (s.rotaEntry p (x.k + 1)) 0 6
    let t0 := if x.nextOn = true then (s.fillTiles (s.part p).progs c).updPart p fun q => { q with tileStandby := 3 } else s
    let t := t0.updPart p fun q => { q with rota := some y }
    (s.part p).rota = some x → s.rotaRuns p = true → x.filled = false → x.mirrored = true →
    s.now + 8192 ≤ s.nextSlice p x → t.armRefusal p (t.rotaArmed p y) = none → (x.nextOn = true → t.aboveLevel p = false) →
    ∃ u, Sys2Proof.Machine.exec (.rotaFillDone p) s = .next u ∧ (u.part p).rota = some y ∧
      (u.part p).armed = (s.part p).armed ++ [t.rotaArmed p y] ∧ u.tokens = s.tokens ∧
      (x.nextOn = false → u.tiles = s.tiles) ∧
      (x.nextOn = true → (u.part p).tileStandby = 4 ∧ (∀ k : Fin 768, (u.tile k).state = (s.tile k).state ∧ (u.tile k).pc = (s.tile k).pc) ∧
        ∀ (z : TileProg), (s.part p).progs = [z] → z.ctx = c → (u.tile z.tile).stbyLen = z.words.length)) ∧
  (∀ (s : State) (p : Fin 16) (x : Rota), (s.part p).rota = some x → s.rotaRuns p = true → x.filled = false →
    s.nextSlice p x ≤ s.now + 8192 →
    ∃ u, Sys2Proof.Machine.exec (.rotaFillLate p) s = .next u ∧
      u.dies = (s.fail 0 p Ev.rotaFillLate [s.nextSlice p x]).dies ∧ u.regs = s.regs ∧
      u.mem = s.mem ∧ u.tokens = s.tokens ∧ u.tiles = s.tiles) ∧
  (∀ (s : State) (p : Fin 16) (x : Rota) (im : Image), (s.part p).rota = some x → (s.part p).active = some im →
    im.rotaMode = true → x.swapped = false → s.partState p = 3 → x.filled = true →
    s.nextSlice p x ≤ s.now + 4096 * im.swapOf x.k → (∀ t, t ∈ s.tilesOf p → changeable false (s.tile t) = true) →
    x.nextOn = false →
    ∃ u, Sys2Proof.Machine.exec (.rotaSwapStart p) s = .next u ∧ u.regs = s.regs ∧ u.tokens = s.tokens ∧ u.tiles = s.tiles ∧
      ∃ y, (u.part p).rota = some y ∧ y.swapped = true ∧
        (x.on = true → y.saved = fld (s.rotaEntry p x.k) 0 6 :: x.saved) ∧ (x.on = false → u.mem = s.mem ∧ y.saved = x.saved)) ∧
  (∀ (s : State) (p : Fin 16) (x : Rota) (im : Image),
    let d := fld (s.rotaEntry p (x.k + 1)) 0 6
    (s.part p).rota = some x → (s.part p).active = some im →
    im.rotaMode = true → x.swapped = false → s.partState p = 3 → x.filled = true →
    s.nextSlice p x ≤ s.now + 4096 * im.swapOf x.k → (∀ t, t ∈ s.tilesOf p → changeable false (s.tile t) = true) →
    x.nextOn = true → d ≠ fld (s.rotaEntry p x.k) 0 6 → x.saved.contains d = false →
    ∃ u, Sys2Proof.Machine.exec (.rotaSwapStart p) s = .next u ∧ (u.regs = s.regs ∧ u.tiles = s.tiles ∧
      (∀ t a, t ∈ s.tilesOf p → a < (im.ctxs.getD d (0, 0)).1 → u.byte (tileAddr t a) = 0) ∧
      (∀ k, k ∈ s.tokensOf p → (u.token k).val = (match im.tokens.find? fun e => tmToken e == k && tmInit e with
        | some e => (e >>> 32).setWidth 32
        | none => 0)) ∧
      ∀ k, k ∉ s.tokensOf p → u.token k = s.token k)) ∧
  (∀ (s : State) (i : Iface) (p : Fin 16) (v : W32) (x : Rota), s.writable i (Reg.saRotaCtrl p) false → bitAt v 0 = true →
    s.rotaRuns p = true → (s.part p).rota = some x →
    ∃ u, Sys2Proof.Machine.exec (.rotaHalt i p v) s = .next u ∧ (u.part p).rota = some { x with halted := true } ∧
      u.rf (Reg.saRotaStatus p) 14 2 = 2 ∧ (u.part p).armed = (s.part p).armed ∧ u.mem = s.mem ∧ u.tokens = s.tokens) ∧
  (∀ (s : State) (p : Fin 16), s.scrubbing p = true →
    ∃ u, Sys2Proof.Machine.exec .partScrubbed s = .next u ∧ u.scrubbing p = false ∧ (u.part p).scrubMask = 0 ∧ u.mem = s.mem ∧
      u.tokens = s.tokens ∧ u.partState p = s.partState p)

/-- R387, R388, R390, R391, R400, R434, R447: a LOAD without weights whose checks all pass has its banks LOADING while it runs,
and its image standing by with the banks VALID when its roots are formed; one that fails a check of steps 1 to 10 is refused with
its code; a bind keeps its input digest, and its record is written when its token has met its threshold; a rehash begins, and
answers for the weights as they stand. -/
def Obligations.LoadsAndBinds : Prop :=
  (∀ (s s1 : State) (f : Fin 17) (r : Fin 4) (j : Job) (image : List Byte) (root : BitVec 256),
    let p := dPart f j.desc
    let img := takeBytes (fld j.desc 192 64) image
    let o := imgOwner (headerOf img) p
    let s2 := (s1.reachHost f (fld j.desc 128 64) (fld j.desc 192 64)).reachHost f (fld j.desc 256 64) 0
    s.starts f r j 1 → fld j.desc 320 16 = 0 → s.dumping p = false → s.contextLost p = false →
    s.scrubbing p = false → s.rotaRuns p = false → s.bulk [] [] (loadMoves img) = some s1 →
    s2.firstSteps p (decide (f.val = 0)) img 0 = none →
    progCheck img = none → (s2.placeAll img o).bankSteps img o = none → usesExcluded img = false →
    (s2.placeAll img o).rotaCheck img (imageOf img) o = none →
    ∃ u, Sys2Proof.Machine.exec (.load f r image [] [] root none none []) s = .next u ∧
      ((u.ring (ringKey f r)).jobs = [{ j with
        phase := 1, begun := s1.clk
        load := some { img := img, regions := [], root := (if fld j.desc 384 64 = 0 then none else some root), units := segUnits img
                       part := if hOwner (headerOf img) = 0 then p else hOwner (headerOf img) } }] ∧
      u.hostOut = s.hostOut ∧ ∀ x, x ∈ segUnits img → u.bankStandby x = 2 ∧ u.bankActive x = s1.bankActive x)) ∧
  (∀ (s : State) (f : Fin 17) (r : Fin 4) (j : Job) (x : LoadHeld) (image wlist : List Byte) (data : List (List Byte)) (root : BitVec 256),
    let got := s.weightsRoot x.regions
    (s.ring (ringKey f r)).jobs = [j] → j.phase = 1 → fld j.desc 0 8 = 1 → j.load = some x → s.someJunction = true →
    (x.root = none ∨ x.root = some (BitVec.ofNat 256 (ofBytesLE got))) →
    ∃ u, Sys2Proof.Machine.exec (.load f r image wlist data root none none []) s = .next u ∧
      u.ends f r j 0 0 0 (ofBytesLE (got.take 8)) 0 ∧
      u.mem = s.mem ∧ u.tokens = s.tokens ∧ (∀ y, y ∈ x.units → y < 26 → u.bankStandby y = 3 ∧ u.bankActive y = s.bankActive y) ∧
      ∃ im, (u.part (if hOwner (headerOf x.img) = 0 then dPart f j.desc else hOwner (headerOf x.img))).standby = some im ∧
        im.header = headerOf x.img ∧ im.root = BitVec.ofNat 256 (ofBytesLE got)) ∧
  (∀ (s s1 : State) (f : Fin 17) (r : Fin 4) (j : Job) (image wlist : List Byte) (data : List (List Byte)) (root : BitVec 256) (c : Nat),
    let p := dPart f j.desc
    let n := fld j.desc 320 16
    let img := takeBytes (fld j.desc 192 64) image
    let s2 := (s1.reachHost f (fld j.desc 128 64) (fld j.desc 192 64)).reachHost f (fld j.desc 256 64) (32 * n)
    s.starts f r j 1 → s.dumping p = false → s.contextLost p = false → s.scrubbing p = false → s.rotaRuns p = false →
    weightsOk wlist n = true →
    s.bulk [] (((weightsOf wlist n).filter fun w => w.src ≠ 0).map fun w => (w.dst, w.len)) (loadMoves img) = some s1 →
    s2.firstSteps p (decide (f.val = 0)) img n = some c →
    ∃ u, Sys2Proof.Machine.exec (.load f r image wlist data root none none []) s = .next u ∧
      u.ends f r j 1 c 0 0 0 ∧ u.mem = s.mem ∧
      u.tokens = s.tokens ∧ u.parts = s.parts) ∧
  (∀ (s : State) (f : Fin 17) (r : Fin 4) (j : Job), s.starts f r j 0x13 →
    ∃ u, Sys2Proof.Machine.exec (.rehash f r none []) s = .next u ∧ (s.runs u f r j ∧ u.mem = s.mem ∧ u.tokens = s.tokens ∧
      ∀ m : Fin 16, ((s.part (dPart f j.desc)).regions.any fun x => stackOf x.1 / 2 == m.val) = true → u.r (Reg.mnHashStatus m) = 1)) ∧
  (∀ (s : State) (f : Fin 17) (r : Fin 4) (j : Job),
    let p := dPart f j.desc
    let got := s.weightsRoot (s.part p).regions
    (s.ring (ringKey f r)).jobs = [j] → j.phase = 1 → fld j.desc 0 8 = 0x13 →
    ∃ u, Sys2Proof.Machine.exec (.rehash f r none []) s = .next u ∧ u.mem = s.mem ∧ u.tokens = s.tokens ∧
      if BitVec.ofNat 256 (ofBytesLE got) = (s.part p).root then u.ends f r j 0 0 0 (ofBytesLE (got.take 8)) 0
      else u.ends f r j 2 Ev.weightsChanged 0 (ofBytesLE (got.take 8)) 0) ∧
  (∀ (s : State) (f : Fin 17) (r : Fin 4) (j : Job) (bs : List Byte),
    let p := dPart f j.desc
    let ins := rangesOf bs 0 (fld j.desc 160 16)
    let outs := rangesOf bs (fld j.desc 160 16) (fld j.desc 176 16)
    s.starts f r j 3 → (∀ x, x ∈ ins ++ outs → s.inPart p x.1 (max x.2 1) = true) → (s.part p).binds.length < 16 →
    ((s.reachHost f (fld j.desc 192 64) (16 * (fld j.desc 160 16 + fld j.desc 176 16))).bulk ins [] []).isSome = true →
    ∃ u, Sys2Proof.Machine.exec (.bind f r (some bs) none []) s = .next u ∧
      u.ends f r j 0 0 0 ((s.digestOf ins).toNat % 2 ^ 64) 0 ∧ u.mem = s.mem ∧
      u.tokens = s.tokens ∧ ∃ b, (u.part p).binds = (s.part p).binds ++ [b] ∧ b.ins = ins ∧ b.outs = outs ∧
        b.inDigest = s.digestOf ins ∧ b.sub = fld j.desc 128 32 ∧ b.token = fld j.desc 256 16 ∧
        b.thresh = fld j.desc 288 32 ∧ b.rec_ = fld j.desc 320 64 ∧ b.fn = f.val ∧ b.begun = s.now) ∧
  (∀ (s : State) (p : Fin 16) (b : Bind), (s.part p).binds = [b] → s.bindMet p b = true → (s.bulk b.outs [] []).isSome = true →
    s.prot.idFault = false →
    ∃ u, Sys2Proof.Machine.exec (.bindDone p 0 none [] true) s = .next u ∧
      (u.part p).binds = [] ∧ u.mem = s.mem ∧ u.tokens = s.tokens ∧
      u.r Reg.saProvSeq = s.r Reg.saProvSeq + 1 ∧
      (∃ bs, s.hostGets u b.fn b.rec_ bs ∧ bs.length = 4096 ∧ bs.take 4 = [0x48, 0x46, 0x50, 0x52] ∧
        (bs.drop 160).take 32 = bytesLE 32 b.inDigest.toNat ∧ (bs.drop 192).take 32 = bytesLE 32 (s.digestOf b.outs).toNat) ∧
      ∃ n, u.notes = s.notes ++ [n] ∧ n.type = 3 ∧ n.part = p.val)

/-! ## Power and resets -/

/-- R487, R488, R490, R494, R495, R514, R517: with no level withdrawn a request chooses the target and begins the change; a change
switches at its boundary; a power sample is the sum of the rails' telemetry; a die's temperature is the largest of its working
sensors; a rail near its target counts nothing; an AVSBus answer completes a voltage write or gives a reading; an overdue request
is sent once more; a marked master's status is asked for. -/
def Obligations.LevelsAndSupplies : Prop :=
  (∀ (s : State) (i : Iface) (v : W32), s.writable i Reg.saPlRequest false → s.rf Reg.sbPlStatus 8 4 = 0 →
    let t := min (max (fld v 0 2) (max s.powerStep s.thermStep)) s.floorEff
    ∃ u, Sys2Proof.Machine.exec (.plRequestWrite i v) s = .next u ∧
      u.rf Reg.saPlRequest 0 2 = fld v 0 2 ∧ u.mem = s.mem ∧ u.tokens = s.tokens ∧
      fld u.plStatus 2 2 = t ∧ u.level = s.level ∧ (t = s.level → u.power.change = s.power.change) ∧
      (s.power.change = none → s.power.trip = false → s.level < t → u.power.change = some { level := t, left := [] }) ∧
      (s.power.change = none → s.power.trip = false → t < s.level → (∀ c, c ∈ s.runningC → bitAt (s.r Reg.sbAvsStatus) c = false) →
        u.power.change = some { level := t, left := s.runningC.map coreRail }) ∧
      (fld v 0 2 ≤ s.floorEff → u.dies = s.dies)) ∧
  (∀ (s : State) (c : LevelChange), s.power.change = some c → s.now % 61440 = 0 → c.switched = false → c.left = [] →
    c.level < s.level →
    ∃ u, Sys2Proof.Machine.exec .levelSwitch s = .next u ∧
      u.level = c.level ∧ u.power.lastChange = some s.clk ∧ u.mem = s.mem ∧ u.tokens = s.tokens) ∧
  (∀ (s : State) (c : LevelChange), s.power.change = some c → s.now % 61440 = 0 → c.switched = false → c.left = [] →
    s.level < c.level → c.level ≤ s.floorEff → s.runningC ≠ [] →
    ∃ u, Sys2Proof.Machine.exec .levelSwitch s = .next u ∧ u.level = c.level ∧ u.mem = s.mem ∧ u.tokens = s.tokens ∧
      u.power.change = some { c with left := s.runningC.map coreRail, switched := true }) ∧
  (∀ s : State,
    let w := (allRails.map s.railPower).foldl (· + ·) 0 / 1000
    s.clk % 312500 = 0 → s.power.trip = false →
    ∃ u, Sys2Proof.Machine.exec .powerSample s = .next u ∧
      u.rf Reg.sbPowerNow 0 16 = w % 65536 ∧ u.power.samples.getLast? = some w ∧ u.mem = s.mem ∧
      u.tokens = s.tokens) ∧
  (∀ (s : State) (d : Fin 32) (vs : List (BitVec 12)), s.clk % 31250 = 0 → s.power.trip = false → s.power.tripLast = [] →
    (d.val ≤ 1 ∨ (s.die d).powered = true) → vs.length = sensorCount d → (∀ v, v ∈ vs → -160 ≤ v.toInt ∧ v.toInt ≤ 600) →
    (∀ i, i < sensorCount d → (SMap.get (fun _ => {}) s.mon.sensors (d * 64 + i)).run < 99999) → s.r (Reg.sbTempSensorFailed d) = 0 →
    ∃ u, Sys2Proof.Machine.exec (.thermalSample [(d, vs)]) s = .next u ∧ u.mem = s.mem ∧ u.tokens = s.tokens ∧
      ∃ v, v ∈ vs ∧ (∀ x, x ∈ vs → x.toInt ≤ v.toInt) ∧ u.r (Reg.sbTemp d) = v.setWidth 64) ∧
  (∀ (s : State) (r : Fin 128) (h : BitVec 13), (railSpec r).isSome = true → s.clk % 3125 = 0 →
    ((railDies r).any s.sensedDies.contains) = true → 2 * s.railTarget r ≤ h.toNat + 100 →
    ∃ u, Sys2Proof.Machine.exec (.voltageSense r h) s = .next u ∧
      SMap.get (fun _ => 0) u.mon.lowRun r = 0 ∧ SMap.get (fun _ => 0) u.mon.lostRun r = 0 ∧
      u.regs = s.regs ∧ u.mem = s.mem ∧ u.tokens = s.tokens ∧ u.dies = s.dies) ∧
  (∀ (s : State) (m : Fin 8) (q : AvsReq) (qs : List AvsReq) (data : BitVec 16), s.avsQ m = q :: qs → q.kind ≤ 3 → bitAt data 0 = true →
    ∃ u, Sys2Proof.Machine.exec (.avsResponse m 0 data none) s = .next u ∧
      u.volt q.rail = q.mv ∧ u.rf Reg.sbAvsStatus m 1 = 0 ∧ u.mem = s.mem ∧
      u.tokens = s.tokens) ∧
  (∀ (s : State) (m : Fin 8) (q : AvsReq) (qs : List AvsReq) (data : BitVec 16), s.avsQ m = q :: qs → q.kind = 5 ∨ q.kind = 6 →
    ∃ u, Sys2Proof.Machine.exec (.avsResponse m 0 data none) s = .next u ∧
      u.rf Reg.sbAvsStatus m 1 = 0 ∧ u.mem = s.mem ∧ u.tokens = s.tokens ∧
      SMap.get (fun _ => 0) (if q.kind = 5 then u.power.railMv else u.power.railCa) q.rail = data.toNat ∧
      SMap.get (fun _ => 0) u.power.railFail q.rail = 0) ∧
  (∀ (s : State) (m : Fin 8) (q : AvsReq) (qs : List AvsReq), s.avsQ m = q :: qs → s.avsDue q ≤ s.clk → q.retried = false →
    q.kind ≠ 4 ∨ s.power.trip = false →
    ∃ u, Sys2Proof.Machine.exec (.avsTimeout m) s = .next u ∧
      u.avsQ m = { q with retried := true, sent := s.clk, acked := none } :: qs ∧ u.regs = s.regs ∧
      u.mem = s.mem ∧ u.tokens = s.tokens ∧ u.dies = s.dies) ∧
  (∀ (s : State) (m : Fin 8), s.rf Reg.sbAvsStatus m 1 = 1 →
    SMap.get (fun _ => 0) s.power.avsPolled m + 3125000 ≤ s.clk →
    ∃ u, Sys2Proof.Machine.exec (.avsStatusPoll m) s = .next u ∧
      u.avsQ m = s.avsQ m ++ [{ kind := 7, rail := 16 * m, mv := 0, sent := s.clk }] ∧
      SMap.get (fun _ => 0) u.power.avsPolled m = s.clk ∧ u.regs = s.regs ∧ u.mem = s.mem ∧ u.tokens = s.tokens)

/-- R518, R519, R522, R523: a firing detector owes core cycles by its margin; at the end of a window the cycles removed are judged
against those it held; a re-plan starts by a write or by hours, ends with a plan that awaits commit, and one that waits too long
is recorded. -/
def Obligations.DroopAndMargin : Prop :=
  (∀ (s : State) (c : Fin 4) (m : BitVec 8), s.coreRuns c = true → SMap.get (fun _ => 0) s.mon.owed c = 0 →
    let thresh := s.rf (Reg.cnDroopCtrl c) 0 8
    ∃ u, Sys2Proof.Machine.exec (.droopFire c m) s = .next u ∧ SMap.get (fun _ => 0) u.mon.owed c =
        (if 4 * m.toNat < thresh then 4 else if 2 * m.toNat < thresh then 2 else if m.toNat < thresh then 1 else 0) ∧ u.regs = s.regs ∧ u.mem = s.mem ∧
      u.tokens = s.tokens ∧ u.tiles = s.tiles) ∧
  (∀ (s : State) (c : Fin 4), s.now % 312500 = 0 →
    ∃ u, Sys2Proof.Machine.exec (.droopSustained c) s = .next u ∧
      SMap.get (fun _ => 0) u.mon.removed c = 0 ∧ SMap.get (fun _ => 0) u.mon.cycles c = 0 ∧ u.mem = s.mem ∧ u.tokens = s.tokens ∧
      if SMap.get (fun _ => 0) s.mon.cycles c < 16 * SMap.get (fun _ => 0) s.mon.removed c then bitAt (u.r Reg.saMarginCtrl) 1 = true
      else u.regs = s.regs ∧ u.dies = s.dies) ∧
  (∀ (s : State) (i : Iface) (v : W32), s.writable i Reg.saMarginCtrl false → bitAt v 0 = true → s.mon.planBusy = false →
    s.mon.pending = none →
    ∃ u, Sys2Proof.Machine.exec (.replan false i v) s = .next u ∧ (u.mon.planBusy = true ∧ u.mon.planAt = s.clk ∧ u.mem = s.mem ∧
      u.tokens = s.tokens ∧ u.dies = s.dies ∧ ∀ k, k ≠ Reg.saMarginCtrl → u.r k = s.r k)) ∧
  (∀ (s : State) (i : Iface) (v : W32), s.rf Reg.saOperHours 0 32 % 1000 = 0 → s.rf Reg.saOperHours 0 32 ≠ s.prot.planHours →
    ∃ u, Sys2Proof.Machine.exec (.replan true i v) s = .next u ∧
      u.mon.planBusy = true ∧ u.prot.planHours = s.rf Reg.saOperHours 0 32 ∧ u.mem = s.mem ∧
      u.tokens = s.tokens ∧ u.dies = s.dies ∧ u.regs = s.regs ∧
      if s.mon.planBusy = true then u.mon.planDue = true ∧ u.mon.planAt = s.mon.planAt else u.mon.planAt = s.clk) ∧
  (∀ (s : State) (reads : List AgeingRead), s.mon.planBusy = true → s.mon.planAt + 312500000 ≤ s.clk →
    ∃ u, Sys2Proof.Machine.exec (.marginPlanReady reads) s = .next u ∧ u.mon.planBusy = s.mon.planDue ∧ u.mon.pendingSince = s.clk ∧
      (∃ plan cut, u.mon.pending = some (plan, cut) ∧ plan.length = 32 ∧
        ∀ d : Fin 32, plan.getD d 0 = s.newPlan d (ageSlowdown d (reads.getD d { canaries := [], pairs := [] })).1) ∧
      bitAt (u.r Reg.saMarginCtrl) 2 = true ∧ u.mem = s.mem ∧ u.tokens = s.tokens ∧
      ∀ d : Fin 32, u.r (Reg.saMarginPlan d) = s.r (Reg.saMarginPlan d)) ∧
  (∀ s : State, s.planPending = true → s.mon.pendingSince + 168 * 11250000000000 < s.clk → s.mon.pendLogged = 0 →
    ∃ u, Sys2Proof.Machine.exec .marginPlanPending s = .next u ∧
      u.mon.pendLogged = s.clk ∧ u.dies = (s.note 0 Ev.marginPlanPending []).dies ∧
      u.regs = s.regs ∧ u.mem = s.mem ∧ u.tokens = s.tokens)

/-- R372, R497, R498, R499, R604: a request for a module state is held; WAITM begins the entry where nothing stands against it,
and is refused with a reason where something does; an entry clamps the dies of its state and completes once none is left to be
powered down; the wake sources, and the wake back to M0; a configuration write brings the link up and sets what it writes. -/
def Obligations.ModuleStates : Prop :=
  (∀ (s : State) (i : Iface) (v : W32), s.writable i Reg.saPmRequest false →
    ∃ u, Sys2Proof.Machine.exec (.pmRequestWrite i v) s = .next u ∧
      (u.rf Reg.saPmRequest 0 3 = fld v 0 3 ∧ u.mem = s.mem ∧ u.tokens = s.tokens ∧
      ∀ k, k ≠ Reg.saPmRequest → u.r k = s.r k)) ∧
  (∀ s : State, 1 ≤ s.rf Reg.saModulePmode 0 3 → s.rf Reg.saModulePmode 0 3 ≤ 4 → s.power.entering = none → s.power.mode = 0 →
    s.power.down = false → s.power.trip = false →
    ∃ u, Sys2Proof.Machine.exec .waitm s = .next u ∧ (u.mem = s.mem ∧ u.tokens = s.tokens ∧
      (s.entryRefused (s.rf Reg.saModulePmode 0 3) = none → u.power.entering = some (s.rf Reg.saModulePmode 0 3) ∧
        u.regs = s.regs) ∧
      ∀ r, s.entryRefused (s.rf Reg.saModulePmode 0 3) = some r → u.power = s.power ∧ u.rf Reg.saModulePmode 0 3 = 0 ∧
        u.dies = (s.note 0 Ev.pmEntryRefused [s.rf Reg.saModulePmode 0 3, r]).dies)) ∧
  (∀ (s : State) (ok : BitVec 6) (k : Nat), s.power.entering = some k → s.power.change = none → 2 ≤ k → s.power.begun = false →
    ∃ u, Sys2Proof.Machine.exec (.pmEntered ok) s = .next u ∧ (u.power.begun = true ∧ u.power.entering = some k ∧ u.tokens = [] ∧
      u.power.offWalk = ((offOrder (if k = 2 then 12 else 2)).filter fun d => (s.die d).powered) ∧
      ∀ d, d ∈ sleepDies k → u.ready d = false)) ∧
  (∀ (s : State) (ok : BitVec 6) (k : Nat), s.power.entering = some k → s.power.change = none → k < 2 ∨ s.power.begun = true →
    s.power.offWalk = [] →
    ∃ u, Sys2Proof.Machine.exec (.pmEntered ok) s = .next u ∧
      u.power.mode = k ∧ u.power.entering = none ∧ u.power.begun = false ∧ u.mem = s.mem ∧
      u.tokens = s.tokens ∧ u.tiles = s.tiles ∧ (k ≠ 4 → u.regs = s.regs) ∧ (k = 4 → u.pcieUp = false) ∧
      u.dies = (s.note 0 Ev.pmEntered [k, s.now]).dies) ∧
  (∀ (s : State) (reads : List (Fin 64 × List Byte)) (boot : BitVec 4) (code : Nat) (during : Bool), s.power.wake = some (code, during) →
    s.power.entering = none → 1 ≤ s.power.mode → s.power.mode ≤ 3 → s.awake = true → s.power.heldResets = [] →
    ∃ u, Sys2Proof.Machine.exec (.moduleWake reads boot) s = .next u ∧
      u.power.mode = 0 ∧ u.power.wake = none ∧ u.mem = s.mem ∧ u.tokens = s.tokens ∧
      u.r Reg.saLastWakeSource = BitVec.ofNat 64 (code + s.power.mode * 16 + b2n during * 128) ∧
      u.r Reg.saWakeFtc = u.r Reg.sbFtc) ∧
  (∀ s : State, s.power.wake = none → s.power.entering = none → 1 ≤ s.power.mode → s.power.mode ≤ 3 →
    s.r Reg.saWakeAlarmFtc ≠ 0 → s.r Reg.saWakeAlarmFtc ≤ s.r Reg.sbFtc →
    ∃ u, Sys2Proof.Machine.exec .wakeAlarm s = .next u ∧
      u.power.wake = some (4, false) ∧ u.regs = s.regs ∧ u.mem = s.mem ∧ u.tokens = s.tokens) ∧
  (∀ s : State, s.power.wake = none → s.power.entering = none → 1 ≤ s.power.mode → s.power.mode ≤ 3 →
    bitAt (s.r Reg.saPmCtrl) 1 = true →
    ∃ u, Sys2Proof.Machine.exec .wakePin s = .next u ∧
      u.power.wake = some (6, false) ∧ u.regs = s.regs ∧ u.mem = s.mem ∧ u.tokens = s.tokens) ∧
  (∀ s : State, s.power.wake = none → s.power.entering = none → 1 ≤ s.power.mode → s.power.mode ≤ 3 →
    ∃ u, Sys2Proof.Machine.exec .ethWakeFrame s = .next u ∧ u.power.wake = some (3, false) ∧ u.regs = s.regs ∧ u.mem = s.mem ∧
      u.tokens = s.tokens) ∧
  (∀ (s : State) (f : Fin 17) (w : CfgWrite), s.warmBusy = false →
    ∃ u, Sys2Proof.Machine.exec (.pcieConfigurationWrite f w) s = .next u ∧ u.pcieUp = true ∧ u.mem = s.mem ∧ u.tokens = s.tokens ∧
      (∀ n, w = .vfs n → u.vfs = n.val ∧ ∀ (g : Fin 17) (r : Fin 4), n.val < g.val →
        u.sqState g r = 0 ∧ (u.ring (ringKey g r)).jobs = []) ∧
      ((∀ n, w ≠ .vfs n) → u.regs = s.regs ∧ u.vfs = s.vfs ∧ ∀ g : Fin 17, g ≠ f → u.pcieFn g = s.pcieFn g) ∧
      (∀ x y, w = .control x y → (u.pcieFn f).relaxed = x ∧ (u.pcieFn f).payload = y) ∧
      (∀ x y, w = .msix x y → (u.pcieFn f).msixOn = x ∧ (u.pcieFn f).msixMask = y) ∧
      (∀ x, w = .ats x → (u.pcieFn f).ats = x) ∧ (∀ x, w = .power x → (u.pcieFn f).d3 = x) ∧
      (w = .other → u.pcieFn f = s.pcieFn f))

/-- R498, R506, R507, R508, R510, R602, R605: the steps of a die's ready chain, and the power-down request that the walk down
sends for the next die; what the resets of a partition, a tile and a port leave; what warm, compute and cold resets clear; a
reset's end; the power pins and the reference clock. -/
def Obligations.ResetsAndPower : Prop :=
  (∀ (s : State) (d : Fin 32) (ring : BitVec 16), s.walking = true → bitAt (s.r Reg.saDieFailed) d = false →
    s.overrun d = false →
    ∃ u, Sys2Proof.Machine.exec (.readyChainStep d true true 0 ring []) s = .next u ∧ u.mem = s.mem ∧ u.tokens = s.tokens ∧
      (s.seqStep d = 0 → s.mayPower d = true → u.seqStep d = 1 ∧ (u.die d).powered = true) ∧
      (s.seqStep d = 1 → s.railAsked d = false → u.seqStep d = 2 ∧ u.power.pgAt = s.clk) ∧ (s.seqStep d = 2 → u.seqStep d = 3) ∧
      (s.seqStep d = 3 → u.seqStep d = 4) ∧
      (s.seqStep d = 4 → u.seqStep d = 5 ∧ bitAt (u.r Reg.saDieReady) d = true ∧ (u.die d).stopped = false)) ∧
  (∀ (s : State) (d : Fin 32) (ok pg : Bool) (bad : BitVec 4) (ring : BitVec 16) (stops : List (Fin 24)),
    s.power.entering.isSome = true → s.power.begun = true → s.power.offWalk.head? = some d.val →
    ((s.avsQ (dieRail d / 16)).any fun q => q.kind == 4) = false →
    s.power.offAt + s.rf (Reg.sbSeqTable (seqEntry d)) 16 16 * 3125 ≤ s.clk →
    ∃ u, Sys2Proof.Machine.exec (.readyChainStep d ok pg bad ring stops) s = .next u ∧
      u.regs = s.regs ∧ u.mem = s.mem ∧ u.tokens = s.tokens ∧
      u.avsQ (dieRail d / 16) = s.avsQ (dieRail d / 16) ++ [{ kind := 4, rail := dieRail d, mv := 0, sent := s.clk }]) ∧
  (∀ (s : State) (i : Iface) (v : W32) (p : Fin 16), s.writable i Reg.saResetCmd false → fld v 0 3 = 4 → bitAt v 3 = true →
    fld v 4 10 = p.val → s.power.entering = none → s.power.mode = 0 → s.power.resets = [] →
    s.power.trip = false →
    ∃ u, Sys2Proof.Machine.exec (.partitionReset i v) s = .next u ∧ (u.partState p = 0 ∧ u.rf (Reg.saStopStatus p) 0 2 = 0 ∧
      { u.part p with binds := [], scrubMask := 0 } = {} ∧ (∀ b, b ∈ (u.part p).binds → b.met.isSome = true) ∧
      u.power.resets = [(4, p.val)] ∧ u.rf Reg.saResetStatus 0 3 = 4 ∧
      (∀ t, t < 768 → s.hasQuarter p (t / 48) = true → u.tile t = {}) ∧
      ∀ t, t < 768 → s.hasQuarter p (t / 48) = false → u.tile t = s.tile t)) ∧
  (∀ (s : State) (i : Iface) (v : W32) (t : Fin 768), s.writable i Reg.saResetCmd false → fld v 0 3 = 5 → bitAt v 3 = true →
    fld v 4 10 = t.val → s.power.entering = none → s.power.mode = 0 → s.power.resets = [] →
    s.power.trip = false →
    (s.tile t).state = 0 ∨ (s.tile t).state = 5 ∨ (s.tile t).state = 6 →
    ∃ u, Sys2Proof.Machine.exec (.tileReset i v) s = .next u ∧ (u.tile t = { ({} : Tile) with
        bank := (s.tile t).bank, progLen := (s.tile t).progLen, stbyLen := (s.tile t).stbyLen } ∧
      u.power.resets = [(5, t.val)] ∧ u.mem = s.mem ∧ u.tokens = s.tokens ∧ ∀ k, k ≠ t.val → u.tile k = s.tile k)) ∧
  (∀ (s : State) (i : Iface) (v : W32) (p : Fin 6), s.writable i Reg.saResetCmd false → fld v 0 3 = 6 → bitAt v 3 = true →
    fld v 4 10 = p.val → s.power.entering = none → s.power.mode = 0 → s.power.resets = [] →
    s.power.trip = false →
    ∃ u, Sys2Proof.Machine.exec (.resetCmdPort i v) s = .next u ∧ u.linkState p = 0 ∧ u.rf (Reg.lnLinkStatus p) 14 4 = 1 ∧
      u.power.resets = [(6, p.val)] ∧ (u.port p).replay = [] ∧ (u.port p).expects = (s.port p).expects ∧ u.tokens = s.tokens) ∧
  (∀ (s : State) (i : Iface) (v : W32), s.writable i Reg.saResetCmd false → fld v 0 3 = 3 → bitAt v 3 = true →
    s.power.entering = none → s.power.mode = 0 → s.power.resets = [] →
    s.power.trip = false →
    ∃ u, Sys2Proof.Machine.exec (.computeReset i v) s = .next u ∧
      u.tokens = [] ∧ u.tokOps = [] ∧ u.lineCells = [] ∧ u.streams = [] ∧
      (∀ k, k < 0x180000000 → u.byte (0x100000000000 + k) = 0) ∧ (∀ p : Fin 16, (u.part p).armed = []) ∧
      u.power.resets = [(3, fld v 4 10)]) ∧
  (∀ (s : State) (i : Iface) (v : W32) (boot : BitVec 4), s.writable i Reg.saResetCmd false → fld v 0 3 = 2 → bitAt v 3 = true →
    s.power.entering = none → s.power.mode = 0 → s.power.resets = [] →
    s.power.trip = false → bitAt boot 0 = true → bitAt boot 1 = true →
    ∃ u, Sys2Proof.Machine.exec (.warmReset i v boot) s = .next u ∧
      u.tokens = [] ∧ u.tokOps = [] ∧ u.rings = [] ∧ u.walkers = [] ∧ u.transits = [] ∧
      (∀ p : Fin 16, { u.part p with binds := [], scrubMask := 0 } = {}) ∧ u.power.resets = [(2, fld v 4 10)]) ∧
  (∀ (s : State) (pin : Bool) (i : Iface) (v : W32) (boot : BitVec 4), bitAt boot 0 = true → bitAt boot 1 = true →
    (pin = true ∧ s.pins.powerOn = true ∧ s.pins.aux = true) ∨
      (pin = false ∧ s.pins.powerOn = true ∧ s.writable i Reg.saResetCmd false ∧ fld v 0 3 = 1 ∧ bitAt v 3 = true ∧ s.power.entering = none ∧
        s.power.mode = 0 ∧ s.power.resets = []) →
    ∃ u, Sys2Proof.Machine.exec (.coldReset pin i v boot) s = .next u ∧ u.tokens = [] ∧ u.tiles = [] ∧ u.rings = [] ∧ u.parts = [] ∧
      u.walkers = [] ∧ u.now = 0 ∧ u.rf Reg.saResetStatus 0 3 = 1 ∧ u.pcieUp = false ∧ u.power.mode = 0 ∧
      u.prot.rowFuses = s.prot.rowFuses ∧ u.prot.stackFuses = s.prot.stackFuses) ∧
  (∀ (s : State) (r : Nat × Nat), s.power.resets = [r] → s.resetComplete r = true →
    ∃ u, Sys2Proof.Machine.exec .resetDone s = .next u ∧
      (u.power.resets = [] ∧ bitAt (u.r Reg.saResetStatus) 3 = false ∧ u.mem = s.mem ∧
      u.tokens = s.tokens ∧ ∀ k, k ≠ Reg.saResetStatus → u.r k = s.r k)) ∧
  (∀ (s : State) (boot : BitVec 4), s.pins.powerOn = false → s.pins.aux = true →
    ∃ u, Sys2Proof.Machine.exec (.powerOn boot) s = .next u ∧
      u.pins.powerOn = true ∧ u.pins.refclk = true ∧ u.tokens = [] ∧ u.rings = []) ∧
  (∀ s : State, s.pins.powerOn = true → s.power.trip = false →
    ∃ u, Sys2Proof.Machine.exec .powerOnFall s = .next u ∧
      (u.pins.powerOn = false ∧ u.tokens = [] ∧ (∀ d : Fin 32, 2 ≤ d.val → u.ready d = false) ∧
      u.power.offWalk = ((offOrder 2).filter fun d => (s.die d).powered) ∧
      (u.power.offWalk = [] → u.pins.hbmEn = 0 ∧ u.pins.railEn = 0 ∧ u.power.mode = 4 ∧ u.pcieUp = false) ∧
      ∀ d ds, u.power.offWalk = d :: ds →
        u.avsQ (dieRail d / 16) = [{ kind := 4, rail := dieRail d, mv := 0, sent := s.clk }])) ∧
  (∀ (s : State) (boot : BitVec 4),
    ∃ u, Sys2Proof.Machine.exec (.auxPowerLost false boot) s = .next u ∧ u.pins.aux = false ∧ u.pins.hbmEn = 0 ∧ u.power.mode = 4 ∧
      u.pcieUp = false) ∧
  (∀ (s : State) (boot : BitVec 4), s.pins.aux = false → s.pins.powerOn = false →
    ∃ u, Sys2Proof.Machine.exec (.auxPowerLost true boot) s = .next u ∧
      u.pins.aux = true ∧ u.regs = s.regs ∧ u.mem = s.mem ∧ u.power = s.power) ∧
  (∀ s : State, bitAt (s.r Reg.saDieFailed) 1 = false →
    ∃ u, Sys2Proof.Machine.exec .refclkLost s = .next u ∧
      u.pins.refclk = false ∧ bitAt (u.r Reg.saDieFailed) 1 = true ∧ u.pins.faultN = false ∧
      u.mem = s.mem ∧ u.tokens = s.tokens)

/-! ## Configuration, lock-step, trace and registers -/

/-- R526 to R532, R535: BEGIN, an append, SEAL, COMMIT and ROLLBACK through the interface that began the transaction, the
application of an armed one, and the two timeouts. -/
def Obligations.Transactions : Prop :=
  (∀ (s : State) (i : Iface) (v : W32), s.writable i Reg.saTxnCtrl false →
    ∃ u, Sys2Proof.Machine.exec (.txnBegin i v) s = .next u ∧
      u.mem = s.mem ∧ u.tokens = s.tokens ∧ u.dies = s.dies ∧ u.armedTxns = s.armedTxns ∧
      (s.txn = none → u.txn = some { id := (s.prot.txnId + 1) % 65536, owner := i.code, touched := s.clk } ∧
        ∀ k, k ≠ Reg.saTxnCtrl → u.r k = s.r k) ∧
      (s.txn ≠ none → u.txn = s.txn ∧ u.rf Reg.saTxnStatus 48 16 = Ev.txnBusy)) ∧
  (∀ (s : State) (i : Iface) (wide hi : Bool) (v d : W64) (t : Txn) (e : TxnEntry), s.writable i (Reg.saTxnEntryData + (if !wide && hi then 4 else 0)) wide →
    s.txn = some t → t.owner = i.code → t.sealed = false → t.entries.length < 4096 →
    d = (if wide then v else setFld (s.r Reg.saTxnEntryData) (if hi then 32 else 0) 32 (fld v 0 32)) →
    e = { addr := s.rf Reg.saTxnEntryAddr 0 48, wide := bitAt (s.r Reg.saTxnEntryAddr) 48, data := d } →
    ∃ u, Sys2Proof.Machine.exec (.txnAppend i wide hi v) s = .next u ∧
      (u.r Reg.saTxnEntryData = d ∧ u.mem = s.mem ∧ u.tokens = s.tokens ∧ u.armedTxns = s.armedTxns ∧
      (entryRefusal i e = none → u.dies = s.dies ∧ (∀ k, k ≠ Reg.saTxnEntryData → u.r k = s.r k) ∧
        u.txn = some { t with entries := t.entries ++ [e], touched := s.clk, protected_ := t.protected_ || e.isProtected }) ∧
      ∀ c, entryRefusal i e = some c → u.txn = some t ∧ u.rf Reg.saTxnStatus 48 16 = Ev.txnEntryRefused ∧
        u.dies = (s.note 0 Ev.txnEntryRefused [e.addr, c]).dies)) ∧
  (∀ (s : State) (i : Iface) (v : W32) (t : Txn), s.writable i Reg.saTxnCtrl false → s.txn = some t → t.owner = i.code →
    t.sealed = false → t.entries ≠ [] → fld v 3 2 < 3 → s.prot.nonces.length < 2 ^ 256 →
    ∃ u, Sys2Proof.Machine.exec (.txnSeal i v) s = .next u ∧
      u.mem = s.mem ∧ u.tokens = s.tokens ∧ u.dies = s.dies ∧ u.freeCtr = s.freeCtr + 1 ∧
      (∀ k, k ≠ Reg.saTxnCtrl → u.r k = s.r k) ∧
      ∃ x, u.txn = some x ∧ x.sealed = true ∧ x.entries = t.entries ∧ x.mode = fld v 3 2 ∧ x.sealedAt = s.clk ∧
        x.tick = (s.r Reg.saTxnCommitFtc).toNat ∧ x.id = t.id ∧ x.owner = t.owner ∧ x.hashes = s.stageHashes t.entries ∧
        x.nonce = freshNonce s.prot.nonces (Config.freeNonce s.freeCtr) (s.prot.nonces.length + 1) ∧
        x.nonce ∉ s.prot.nonces ∧ u.prot.nonces = x.nonce :: s.prot.nonces ∧
        x.digest = BitVec.ofNat 384 (ofBytesLE (sha384 (s.txnBytes x)))) ∧
  (∀ (s : State) (i : Iface) (v : W32) (full : BitVec 16) (t : Txn), s.writable i Reg.saTxnCtrl false → s.txn = some t →
    t.owner = i.code → t.sealed = false → (t.protected_ = true ∨ t.entries = []) → fld v 3 2 < 2 →
    ∃ u, Sys2Proof.Machine.exec (.txnCommit i v full) s = .next u ∧ u.mem = s.mem ∧ u.tokens = s.tokens ∧
      (t.protected_ = true → u.txn = some t ∧ u.rf Reg.saTxnStatus 48 16 = Ev.txnSealed ∧ u.dies = s.dies) ∧
      (t.protected_ = false → t.entries = [] → fld v 3 2 = 0 → u.txn = none ∧ u.armedTxns = s.armedTxns ∧
        u.dies = (s.note 0 Ev.txnCommitted [t.id, 0, 0, s.now]).dies) ∧
      (t.protected_ = false → t.entries = [] → fld v 3 2 = 1 → s.armedTxns.length < 4 → (s.r Reg.saTxnCommitFtc).toNat % 4096 = 0 →
        s.now + 8192 ≤ (s.r Reg.saTxnCommitFtc).toNat → (s.r Reg.saTxnCommitFtc).toNat ≤ s.now + 2 ^ 38 → u.txn = none ∧
        u.armedTxns = s.armedTxns ++ [{ t with mode := 1, tick := (s.r Reg.saTxnCommitFtc).toNat }])) ∧
  (∀ (s : State) (i : Iface) (v : W32) (full : BitVec 16) (t : Txn) (d : W64), s.writable i Reg.saTxnCtrl false →
    s.txn = some t → t.owner = i.code → t.sealed = false → t.protected_ = false → fld v 3 2 = 0 →
    t.entries = [{ addr := 0x300000000000 + Reg.saWakeAlarmFtc, wide := true, data := d }] →
    ((s.reached i).write32 Reg.saTxnCtrl (setFld v 0 3 3)).stepSeven
      { t with mode := 0, tick := (s.r Reg.saTxnCommitFtc).toNat } full = none →
    ∃ u, Sys2Proof.Machine.exec (.txnCommit i v full) s = .next u ∧
      (u.txn = none ∧ u.r Reg.saWakeAlarmFtc = d ∧ u.armedTxns = s.armedTxns ∧
      u.mem = s.mem ∧ u.tokens = s.tokens ∧ u.dies = (s.note 0 Ev.txnCommitted [t.id, 1, 0, s.now]).dies ∧
      ∀ k, k ≠ Reg.saTxnCtrl → k ≠ Reg.saWakeAlarmFtc → u.r k = s.r k)) ∧
  (∀ (s : State) (i : Iface) (v : W32) (t : Txn), s.writable i Reg.saTxnCtrl false → s.txn = some t → t.id = fld v 16 16 →
    ∃ u, Sys2Proof.Machine.exec (.txnRollback i v) s = .next u ∧ u.mem = s.mem ∧ u.tokens = s.tokens ∧ u.armedTxns = s.armedTxns ∧
      (t.owner = i.code → u.txn = none ∧ u.dies = (s.note 0 Ev.txnDiscarded [t.id, 6]).dies ∧
        ∀ k, k ≠ Reg.saTxnCtrl → u.r k = s.r k) ∧
      (t.owner ≠ i.code → u.txn = some t ∧ u.rf Reg.saTxnStatus 48 16 = Ev.txnNotOwner ∧ u.dies = s.dies)) ∧
  (∀ (s : State) (full : BitVec 16) (x : Txn), s.armedTxns = [x] → x.mode = 1 → x.tick ≤ s.now → s.mon.pending = none →
    ∃ u, Sys2Proof.Machine.exec (.txnApply full) s = .next u ∧
      (∀ c, (s.withArmedTxns []).stepSeven x full = some c → u.armedTxns = [] ∧ u.txn = s.txn ∧ u.regs = s.regs ∧
        u.mem = s.mem ∧ u.tokens = s.tokens ∧ u.dies = (((s.withArmedTxns []).noteRefusal x full).note 0 Ev.txnApplyRefused [x.id, c]).dies) ∧
      (x.entries = [] → x.sealed = false → u.armedTxns = [] ∧ u.txn = s.txn ∧ u.regs = s.regs ∧ u.mem = s.mem ∧
        u.tokens = s.tokens ∧ u.dies = s.dies) ∧
      (∀ d : W64, (s.withArmedTxns []).stepSeven x full = none →
        x.entries = [{ addr := 0x300000000000 + Reg.saWakeAlarmFtc, wide := true, data := d }] →
        u.r Reg.saWakeAlarmFtc = d ∧ u.armedTxns = [] ∧ u.txn = s.txn ∧ u.mem = s.mem ∧ u.tokens = s.tokens ∧ u.dies = s.dies ∧
          ∀ k, k ≠ Reg.saWakeAlarmFtc → u.r k = s.r k)) ∧
  (∀ (s : State) (x : Txn), s.txn = some x →
    ∃ u, Sys2Proof.Machine.exec .txnTimeout s = .next u ∧
      u.regs = s.regs ∧ u.mem = s.mem ∧ u.tokens = s.tokens ∧ u.armedTxns = s.armedTxns ∧
      (x.sealed = false → x.touched + 187500000000 ≤ s.clk → u.txn = none ∧
        u.dies = (s.note 0 Ev.txnDiscarded [x.id, 4]).dies) ∧
      (x.sealed = true → x.sealedAt + 187500000000 < s.clk → u.txn = none ∧
        u.dies = (s.note 0 Ev.txnDiscarded [x.id, 5]).dies) ∧
      (x.sealed = false → s.clk < x.touched + 187500000000 → u.txn = some x ∧ u.dies = s.dies) ∧
      (x.sealed = true → s.clk ≤ x.sealedAt + 187500000000 → u.txn = some x ∧ u.dies = s.dies))

/-- R536, R537, R539 to R541, R580: a fuse request burned, a write of the stage that advances its address, an erase, a
verification, and a read of the certificate chain. -/
def Obligations.FusesAndStage : Prop :=
  (∀ (s : State) (i : Nat) (rest : List Nat) (ok : Bool), s.prot.burning = i :: rest → i < 16 →
    ∃ u, Sys2Proof.Machine.exec (.fuseBurn ok) s = .next u ∧
      u.prot.burning = rest ∧ u.r (Reg.saFuseReq i) = 0 ∧ u.mem = s.mem ∧ u.tokens = s.tokens ∧
      u.rf Reg.saFuseStatus 0 1 = b2n (decide (rest ≠ [])) ∧
      u.rf Reg.saFuseStatus 16 16 = (if ok then Ev.fuseBurned else Ev.fuseBurnFailed) ∧
      (fld (s.r (Reg.saFuseReq i)) 0 4 = 5 → u.rf Reg.saFuseStatus 8 8 =
        if ok then fld (s.r (Reg.saFuseReq i)) 4 8 else s.rf Reg.saFuseStatus 8 8)) ∧
  (∀ (s : State) (i : Iface) (wide hi : Bool) (v : W64) (b n : Nat), s.writable i (Reg.saStageData + (if !wide && hi then 4 else 0)) wide →
    b = stageBase s.stageTarget + s.rf Reg.saStageAddr 0 23 / 8 * 8 + (if !wide && hi then 4 else 0) → n = (if wide then 8 else 4) →
    ∃ u, Sys2Proof.Machine.exec (.stageWrite i wide hi v) s = .next u ∧ u.tokens = s.tokens ∧ u.dies = s.dies ∧
      (∀ j, j < n → u.byte (b + j) = (v >>> (8 * j)).setWidth 8) ∧ (∀ x, x < b ∨ b + n ≤ x → u.byte x = s.byte x) ∧
      (wide || hi → u.rf Reg.saStageAddr 0 23 = (s.rf Reg.saStageAddr 0 23 / 8 * 8 + 8) % 0x800000) ∧
      (wide = false → hi = false → u.r Reg.saStageAddr = s.r Reg.saStageAddr)) ∧
  (∀ (s : State) (i : Iface) (v : W32) (cause : Fin 3) (version : BitVec 16) (b : Nat), s.writable i Reg.saStageCtrl false →
    bitAt v 2 = false → b = stageBase (if fld v 0 1 = 1 then 2 else 1 - s.rf Reg.saFwStatus 0 1) →
    ∃ u, Sys2Proof.Machine.exec (.stageErase i v cause version) s = .next u ∧ u.tokens = s.tokens ∧ u.dies = s.dies ∧
      (∀ x, b ≤ x → x < b + 0x800000 → u.byte x = 0) ∧ (∀ x, x < b ∨ b + 0x800000 ≤ x → u.byte x = s.byte x)) ∧
  (∀ (s : State) (i : Iface) (v : W32) (cause : Fin 3) (version : BitVec 16) (k : Nat), s.writable i Reg.saStageCtrl false →
    bitAt v 1 = false → k = 1 - s.rf Reg.saFwStatus 0 1 →
    ∃ u, Sys2Proof.Machine.exec (.stageVerify i v cause version) s = .next u ∧ u.mem = s.mem ∧ u.tokens = s.tokens ∧
      (cause = 0 → bitAt (u.r Reg.saFwStatus) (1 + k) = true ∧ u.rf Reg.saFwStatus (32 + 16 * k) 16 = version.toNat ∧
        u.dies = (s.note 0 Ev.fwStaged []).dies) ∧
      (cause ≠ 0 → bitAt (u.r Reg.saFwStatus) (1 + k) = false ∧ u.dies = (s.note 0 Ev.fwVerifyFailed [cause.val]).dies)) ∧
  (∀ (s : State) (i : Iface) (wide hi : Bool), s.readable i (Reg.saIdCertData + (if !wide && hi then 4 else 0)) wide →
    ∃ u, Sys2Proof.Machine.exec (.idCertRead i wide hi) s = .next u ∧ (u.mem = s.mem ∧ u.tokens = s.tokens ∧ u.dies = s.dies ∧
      u.got i = (if wide then s.certWord else BitVec.ofNat 64 (fld s.certWord (if hi then 32 else 0) 32)) ∧
      (wide || hi → u.rf Reg.saIdCertAddr 0 14 = (s.rf Reg.saIdCertAddr 0 14 / 8 * 8 + 8) % 16384) ∧
      (wide = false → hi = false → u.r Reg.saIdCertAddr = s.r Reg.saIdCertAddr) ∧
      ∀ k, k ≠ Reg.saIdCertAddr → u.r k = s.r k))

/-- R455 to R458: what a partition in lock-step sends and keeps at a frame start, what a START, an equal FRAME and a different
START do when they arrive, and the twin that never starts. -/
def Obligations.LockStep : Prop :=
  (∀ (s : State) (p : Fin 16) (k : Nat), s.lsState p = 1 → s.partState p = 3 → s.now = (s.part p).lastLaunch + 4096 * k →
    1 ≤ k → k ≤ 256 → (s.ls p).narrowing = none →
    ∃ u, Sys2Proof.Machine.exec (.lockstepFrameSend p) s = .next u ∧
      u.mem = s.mem ∧ u.tokens = s.tokens ∧ (u.ls p).cur = [] ∧ u.lsState p = 1 ∧
      (u.ls p).twin = (s.ls p).twin ∧ (∃ o : LsFrame, o.f = k - 1 ∧ (u.ls p).own = (s.ls p).own ++ [o] ∧
        ∀ j, j < 6 → fld o.digs (32 * j) 32 = crcDone (SMap.get (fun _ => 0) (s.ls p).cur j) % 2 ^ 32) ∧
      ∀ t, u.tile t = s.tile t) ∧
  (∀ (s : State) (n : Newt) (p : Nat), nwType n = 0x21 → nwScope n = 1 → nwDst n = s.coords → p < 16 → s.lsState p = 1 →
    s.lsMatches p n = true → (∀ q, q < 16 → q ≠ p → s.lsState q = 0 ∨ s.lsMatches q n = false) → (s.ls p).twin = [] → nwBody n 0 1 = 3 →
    ∃ u, Sys2Proof.Machine.exec (.lockstepNewt n) s = .next u ∧ u.mem = s.mem ∧ u.tokens = s.tokens ∧
      (nwBody n 12 32 = s.activeDigest p → u.lsState p = 2 ∧ u.dies = s.dies) ∧
      (nwBody n 12 32 ≠ s.activeDigest p → u.lsState p = 0 ∧ u.dies = (s.noteP 0 p Ev.lockstepImageDiffers []).dies)) ∧
  (∀ (s : State) (n : Newt) (p : Nat) (o : LsFrame), nwType n = 0x21 → nwScope n = 1 → nwDst n = s.coords → p < 16 →
    s.lsState p = 2 → s.lsMatches p n = true → (∀ q, q < 16 → q ≠ p → s.lsState q = 0 ∨ s.lsMatches q n = false) → (s.ls p).twin = [] →
    (s.ls p).own = [o] → nwBody n 0 1 = 1 → nwBody n 4 8 = o.f → BitVec.ofNat 192 (nwBody n 12 24) = o.digs →
    ∃ u, Sys2Proof.Machine.exec (.lockstepNewt n) s = .next u ∧
      u.mem = s.mem ∧ u.tokens = s.tokens ∧ u.dies = s.dies ∧ (u.ls p).own = [] ∧
      (u.ls p).twin = [] ∧ u.lsState p = 2 ∧ u.rf (Reg.saLsStatus p) 32 32 = satInc32 (s.rf (Reg.saLsStatus p) 32 32)) ∧
  (∀ (s : State) (n : Newt) (p : Nat) (o : LsFrame), nwType n = 0x21 → nwScope n = 1 → nwDst n = s.coords → p < 16 →
    s.lsState p = 2 → s.lsMatches p n = true → (∀ q, q < 16 → q ≠ p → s.lsState q = 0 ∨ s.lsMatches q n = false) → (s.ls p).twin = [] →
    (s.ls p).own = [o] → (s.ls p).narrowing = none → bitAt (s.ls p).ctrl 1 = false → nwBody n 0 1 = 1 → nwBody n 4 8 = o.f →
    BitVec.ofNat 192 (nwBody n 12 24) ≠ o.digs →
    ∃ u, Sys2Proof.Machine.exec (.lockstepNewt n) s = .next u ∧
      u.mem = s.mem ∧ u.tokens = s.tokens ∧ (u.ls p).own = [] ∧ (u.ls p).twin = [] ∧
      u.r (Reg.saLsDivFrame p) = BitVec.ofNat 64 o.f ∧ u.rf (Reg.saLsGaps p) 32 32 = satInc32 (s.rf (Reg.saLsGaps p) 32 32) ∧
      u.rf (Reg.saLsGaps p) 0 32 = s.rf (Reg.saLsGaps p) 0 32 ∧ u.rf (Reg.saLsStatus p) 32 32 = s.rf (Reg.saLsStatus p) 32 32) ∧
  (∀ (s : State) (p : Fin 16), s.lsState p = 1 →
    ∃ u, Sys2Proof.Machine.exec (.lockstepNoPartner p) s = .next u ∧ u.mem = s.mem ∧ u.tokens = s.tokens ∧
      (s.now < (s.part p).lastLaunch + 1048576 → u.regs = s.regs ∧ u.dies = s.dies) ∧
      ((s.part p).lastLaunch + 1048576 ≤ s.now → u.lsState p = 0 ∧ u.dies = (s.noteP 0 p Ev.lockstepNoPartner []).dies))

/-- R544, R545, R551 to R555: GO arms a snapshot, the copies take their counters' values at one tick; a trace unit enabled,
disabled, triggered, writing a record, spilling and read. -/
def Obligations.SnapshotsAndTrace : Prop :=
  (∀ (s : State) (i : Iface) (v : W32), s.writable i Reg.saCtrSnapCmd false → bitAt v 0 = true →
    ∃ u, Sys2Proof.Machine.exec (.ctrSnapGo i v) s = .next u ∧
      u.rf Reg.saCtrSnapStatus 0 1 = 1 ∧ u.mem = s.mem ∧ u.tokens = s.tokens ∧ u.dies = s.dies ∧
      ∃ t, u.snapAt = some t ∧ t % 4096 = 0 ∧ s.now ≤ t ∧ (s.now ≤ (s.r Reg.saCtrSnapFtc).toNat → (s.r Reg.saCtrSnapFtc).toNat ≤ t ∧
        t < (s.r Reg.saCtrSnapFtc).toNat + 4096) ∧ ((s.r Reg.saCtrSnapFtc).toNat < s.now → t ≤ s.now + 4096)) ∧
  (∀ (s : State) (t : Nat), s.snapAt = some t → t ≤ s.now →
    ∃ u, Sys2Proof.Machine.exec .ctrSnapshot s = .next u ∧
      (u.snapAt = none ∧ u.mem = s.mem ∧ u.tokens = s.tokens ∧ u.dies = s.dies ∧
      u.r Reg.saCtrSnapAt = BitVec.ofNat 64 s.now ∧ u.rf Reg.saCtrSnapStatus 0 1 = 0 ∧
      u.rf Reg.saCtrSnapStatus 32 32 = (s.rf Reg.saCtrSnapStatus 32 32 + 1) % 2 ^ 32 ∧
      ∀ x ∈ counters, (x.1 = 0 ∨ (s.die x.1).powered = true) → u.r (x.2 + 8) = s.r x.2 ∧ u.r x.2 = s.r x.2)) ∧
  (∀ (s : State) (i : Iface) (c : Fin 4) (v : W32), s.writable i (Reg.cnTraceCtrl c) false → s.traceOn c = false →
    bitAt v 3 = false → bitAt v 4 = false →
    ∃ u, Sys2Proof.Machine.exec (.traceEnable i c v) s = .next u ∧
      (u.traceOn c = true ∧ u.traceState c = 1 ∧ u.traceHeld c = 0 ∧ (u.tr c).queue = [] ∧
      (u.tr c).writeIdx = 0 ∧ u.r (Reg.cnTraceDropped c) = 0 ∧ u.r (Reg.cnTraceTrigInfo c) = 0 ∧ u.mem = s.mem ∧ u.tokens = s.tokens ∧
      u.dies = s.dies ∧ ∀ d, d ≠ c.val → u.tr d = s.tr d)) ∧
  (∀ (s : State) (i : Iface) (c : Fin 4) (v : W32), s.writable i (Reg.cnTraceCtrl c) false → s.traceOn c = true →
    fld v 1 3 = s.rf (Reg.cnTraceCtrl c) 1 3 → fld v 6 3 = s.rf (Reg.cnTraceCtrl c) 6 3 →
    (bitAt v 4 = false → ∃ u, Sys2Proof.Machine.exec (.traceDisable i c v) s = .next u ∧
      u.traceOn c = false ∧ u.tr c = s.tr c ∧ u.mem = s.mem ∧
      u.tokens = s.tokens ∧ u.dies = s.dies ∧ (s.traceState c ≠ 0 → (s.tr c).queue = [] → (s.tr c).staged = [] →
        u.traceState c = 4)) ∧
    (bitAt v 0 = true → ∃ u, Sys2Proof.Machine.exec (.traceTrigger i c v) s = .next u ∧
      ((u.tr c).trigs = (s.tr c).trigs ++ [(3, 0xFFFFFFFF, 0)] ∧
      u.traceOn c = true ∧ u.mem = s.mem ∧ u.tokens = s.tokens ∧ u.dies = s.dies ∧
      ∀ k, k ≠ Reg.cnTraceCtrl c → u.r k = s.r k))) ∧
  (∀ (s : State) (c : Fin 4) (r : BitVec 256) (q : List (BitVec 256)), s.traceState c = 1 → s.ready (cDie c) = true →
    s.traceOn c = true → s.traceSpills c = false → s.traceMode c ≤ 1 → (s.tr c).queue = r :: q → (s.tr c).trigs = [] →
    (s.tr c).postLeft = none → (s.tr c).wroteAt ≠ some s.clk → s.traceMatch c r = false → s.rf (Reg.cnTraceStatus c) 3 1 = 0 → s.traceHeld c < 524288 →
    ∃ u, Sys2Proof.Machine.exec (.traceRecordWrite c none) s = .next u ∧ ((u.tr c).queue = q ∧ u.traceHeld c = s.traceHeld c + 1 ∧
      SMap.get (fun _ => 0) (u.tr c).sram (s.tr c).writeIdx = r ∧ (u.tr c).writeIdx = ((s.tr c).writeIdx + 1) % 524288 ∧
      u.mem = s.mem ∧ u.tokens = s.tokens ∧ u.dies = s.dies ∧ ∀ k, k ≠ Reg.cnTraceStatus c → u.r k = s.r k)) ∧
  (∀ (s : State) (c : Fin 4), s.traceOn c = true → (s.tr c).staged.length = 8 → 8 ≤ s.traceCap c →
    (s.tr c).spillIdx + 8 ≤ s.traceCap c → (s.tr c).spillAt ≠ some (s.now / 4096) →
    s.alone (whoTrace c) → s.rf (Reg.cnTraceSpillBase c) 0 48 % 32 = 0 →
    (∀ j, j < 256 → s.stackDead (s.rf (Reg.cnTraceSpillBase c) 0 48 + 32 * (s.tr c).spillIdx + j) = false) →
    ∃ u, Sys2Proof.Machine.exec (.traceSpill c) s = .next u ∧ ((u.tr c).staged = [] ∧ u.tokens = s.tokens ∧ u.dies = s.dies ∧
      (∀ j, j < 8 → BitVec.ofNat 256 (u.load (s.rf (Reg.cnTraceSpillBase c) 0 48 + 32 * ((s.tr c).spillIdx + j)) 32) =
        (s.tr c).staged.getD j 0) ∧
      ∀ a, a < s.rf (Reg.cnTraceSpillBase c) 0 48 + 32 * (s.tr c).spillIdx ∨
        s.rf (Reg.cnTraceSpillBase c) 0 48 + 32 * ((s.tr c).spillIdx + 8) ≤ a → u.byte a = s.byte a)) ∧
  (∀ (s : State) (i : Iface) (c : Fin 4) (wide hi : Bool) (ecc : Ecc),
    s.readable i (Reg.cnTraceRdData c 3 + (if !wide && hi then 4 else 0)) wide → s.traceSpills c = false →
    ∃ u, Sys2Proof.Machine.exec (.traceRead i c wide hi ecc) s = .next u ∧
      (u.got i = BitVec.ofNat 64 (fld (s.heldRecord c (s.rf (Reg.cnTraceRdIndex c) 0 32)) (if !wide && hi then 224 else 192)
        (if wide then 64 else 32)) ∧
      u.rf (Reg.cnTraceRdIndex c) 0 32 = (if wide || hi then s.rf (Reg.cnTraceRdIndex c) 0 32 + 1 else
        s.rf (Reg.cnTraceRdIndex c) 0 32) % 2 ^ 32 ∧ u.mem = s.mem ∧ u.tokens = s.tokens ∧
      u.dies = s.dies ∧ ∀ k, k ≠ Reg.cnTraceRdIndex c → k ≠ Reg.cnTraceRdStatus c → u.r k = s.r k))

/-- R558, R561, R562, R564: GO starts a dump or is refused, and its end; a wait-for graph is built, held, released and read. -/
def Obligations.DumpsAndGraphs : Prop :=
  (∀ (s : State) (i : Iface) (v : W32), s.writable i Reg.saDumpCtrl false → bitAt v 0 = true →
    ∃ u, Sys2Proof.Machine.exec (.stopDump i v) s = .next u ∧ u.mem = s.mem ∧ u.tokens = s.tokens ∧ u.dies = s.dies ∧
      (s.rf Reg.saDebugEn 3 1 = 0 → u.dump = s.dump ∧ u.rf Reg.saDumpStatus 16 16 = Ev.dumpDisabled) ∧
      (s.rf Reg.saDebugEn 3 1 = 1 → s.rf (Reg.saStopStatus (fld v 4 4)) 0 1 = 0 → u.dump = s.dump ∧
        u.rf Reg.saDumpStatus 16 16 = Ev.dumpNotStopped) ∧
      (s.rf Reg.saDebugEn 3 1 = 1 → s.rf (Reg.saStopStatus (fld v 4 4)) 0 1 = 1 → s.dump = none → u.r Reg.saDumpStatus = 1 ∧
        ∃ d, u.dump = some d ∧ d.part = fld v 4 4 ∧ d.sram = bitAt v 1 ∧ d.skip = bitAt v 2 ∧ d.start = s.now)) ∧
  (∀ (s : State) (d : Dump), s.dump = some d →
    ∃ u, Sys2Proof.Machine.exec (.dumpDone none) s = .next u ∧
      u.dump = none ∧ u.rf Reg.saDumpStatus 0 2 = 2 ∧ u.mem = s.mem ∧ u.tokens = s.tokens ∧
      ∀ t, u.tile t = s.tile t) ∧
  (∀ (s : State) (d : Dump), s.dump = some d →
    ∃ u, Sys2Proof.Machine.exec (.dumpDone (some 0)) s = .next u ∧
      u.dump = none ∧ u.rf Reg.saDumpStatus 0 2 = 3 ∧ u.r Reg.saDumpBytes = 0 ∧
      u.rf Reg.saDumpStatus 16 16 = Ev.dumpFailed ∧ u.mem = s.mem ∧ u.hostOut = s.hostOut ∧
      u.dies = (s.noteP 0 d.part Ev.dumpFailed []).dies) ∧
  (∀ (s : State) (i : Iface) (v : W32), s.writable i Reg.saWfgCtrl false → bitAt v 2 = false →
    ∃ u, Sys2Proof.Machine.exec (.wfgBuild false i v) s = .next u ∧
      u.mem = s.mem ∧ u.tokens = s.tokens ∧ u.wfg.words = s.wfg.words ∧
      (s.wfg.building = none → u.wfg.building = some (s.now, 0) ∧ u.rf Reg.saWfgStatus 0 2 = 1 ∧ u.dies = s.dies) ∧
      (s.wfg.building ≠ none → u.wfg.building = s.wfg.building ∧ u.dies = (s.note 0 Ev.wfgBusy [0]).dies)) ∧
  (∀ (s : State) (start reason : Nat), s.wfg.building = some (start, reason) →
    ∃ u, Sys2Proof.Machine.exec .wfgBuilt s = .next u ∧
      (u.wfg.building = none ∧ u.wfg.heldAt = some s.clk ∧ u.wfg.words = s.graphWords start reason ∧
      u.rf Reg.saWfgStatus 0 2 = 2 ∧ u.mem = s.mem ∧ u.tokens = s.tokens ∧ ∀ k, k ≠ Reg.saWfgStatus → u.r k = s.r k)) ∧
  (∀ (s : State) (i : Iface) (v : W32), s.writable i Reg.saWfgCtrl false → bitAt v 0 = false → s.wfg.building = none →
    ∃ u, Sys2Proof.Machine.exec (.wfgRelease i v) s = .next u ∧
      u.wfg.words = [] ∧ u.wfg.heldAt = none ∧ u.r Reg.saWfgStatus = 0 ∧ u.mem = s.mem ∧
      u.tokens = s.tokens ∧ u.dies = s.dies) ∧
  (∀ (s : State) (i : Iface) (wide hi : Bool) (x : W64), s.readable i (Reg.saWfgRdData + (if !wide && hi then 4 else 0)) wide →
    x = s.wfg.words.getD (s.rf Reg.saWfgRdIndex 0 16) 0 →
    ∃ u, Sys2Proof.Machine.exec (.wfgRead i wide hi) s = .next u ∧
      (u.got i = (if wide then x else BitVec.ofNat 64 (fld x (if hi then 32 else 0) 32)) ∧
      u.rf Reg.saWfgRdIndex 0 16 = (if wide || hi then s.rf Reg.saWfgRdIndex 0 16 + 1 else s.rf Reg.saWfgRdIndex 0 16) % 65536 ∧ u.wfg = s.wfg ∧ u.mem = s.mem ∧
      u.tokens = s.tokens ∧ u.dies = s.dies ∧ ∀ k, k ≠ Reg.saWfgRdIndex → u.r k = s.r k))

/-- R93, R374, R580, R585, R586, R590, R591: a permitted write and read of a register, the re-arming of the fault capture, the
frames of an I3C target, its dynamic address, a line stop's failure, and an invalidation of cached translations. -/
def Obligations.RegisterAccess : Prop :=
  (∀ (s : State) (i : Iface) (v : W64) (boot : BitVec 4) (full : BitVec 16) (cause : Fin 3) (version : BitVec 16),
    s.writable i Reg.saWakeAlarmFtc true →
    ∃ u, Sys2Proof.Machine.exec (.registerWrite i .regs (BitVec.ofNat 48 Reg.saWakeAlarmFtc) .w64 v boot full cause version 0) s = .next u ∧
      (u.r Reg.saWakeAlarmFtc = v ∧ u.mem = s.mem ∧ u.tokens = s.tokens ∧ u.dies = s.dies ∧
      ∀ k, k ≠ Reg.saWakeAlarmFtc → u.r k = s.r k)) ∧
  (∀ (s : State) (i : Iface) (ecc : Ecc), s.readable i Reg.saWakeAlarmFtc true →
    ∃ u, Sys2Proof.Machine.exec (.registerRead i .regs (BitVec.ofNat 48 Reg.saWakeAlarmFtc) .w64 ecc false) s = .next u ∧
      u.got i = s.view Reg.saWakeAlarmFtc ∧ u.regs = s.regs ∧ u.mem = s.mem ∧ u.tokens = s.tokens ∧ u.dies = s.dies) ∧
  (∀ (s : State) (i : Iface) (key : BitVec 48) (wide : Bool) (v : W64) (boot : BitVec 4) (full : BitVec 16) (cause : Fin 3)
    (version : BitVec 16) (n code : Nat) (x : W64), s.offline i = false → s.barred i key.toNat wide = some (n, code, x) →
    s.power.down = false → bitAt (s.r Reg.saRegFault) 63 = false → n < 16 →
    ∃ u, Sys2Proof.Machine.exec (.registerWrite i .regs key (if wide then .w64 else .w32) v boot full cause version 0) s = .next u ∧
      (bitAt (u.r Reg.saRegFault) 63 = true ∧
      u.rf Reg.saRegFault 50 4 = n ∧ u.rf Reg.saRegFault 48 2 = i.code ∧ bitAt (u.r Reg.saRegFault) 54 = true ∧
      bitAt (u.r Reg.saRegFault) 55 = wide ∧ u.mem = s.mem ∧ u.tokens = s.tokens ∧
      ∀ k, k ≠ Reg.saRegFault → k ≠ Reg.saRegFaultCount → u.r k = s.r k)) ∧
  (∀ (s : State) (i : Iface), s.writable i Reg.saRegFault true →
    ∃ u, Sys2Proof.Machine.exec (.regFaultRearm i true) s = .next u ∧
      (u.rf Reg.saRegFault 63 1 = b2n (bitAt (s.setBits Reg.saRegFault) 63) ∧ u.rf Reg.saRegFault 0 63 = s.rf Reg.saRegFault 0 63 ∧
      u.mem = s.mem ∧ u.tokens = s.tokens ∧ u.dies = s.dies ∧ ∀ k, k ≠ Reg.saRegFault → u.r k = s.r k)) ∧
  (∀ (s : State) (v : W64) (boot : BitVec 4) (full : BitVec 16) (cause : Fin 3) (version : BitVec 16),
    s.writable .i3cSa Reg.saWakeAlarmFtc true →
    ∃ u, Sys2Proof.Machine.exec (.i3cWrite false (bytesLE 1 1 ++ bytesLE 6 (0x300000000000 + Reg.saWakeAlarmFtc) ++ bytesLE 8 v.toNat) boot full cause
      version 0) s = .next u ∧ (u.r Reg.saWakeAlarmFtc = v ∧ u.mem = s.mem ∧ u.tokens = s.tokens ∧ u.dies = s.dies ∧
      ∀ k, k ≠ Reg.saWakeAlarmFtc → u.r k = s.r k)) ∧
  (∀ (s : State) (bs : List Byte) (boot : BitVec 4) (full : BitVec 16) (cause : Fin 3) (version : BitVec 16),
    s.offline .i3cSa = false → i3cFramed bs = false → bitAt (s.r Reg.saRegFault) 63 = false →
    ∃ u, Sys2Proof.Machine.exec (.i3cWrite false bs boot full cause version 0) s = .next u ∧ (bitAt (u.r Reg.saRegFault) 63 = true ∧
      u.rf Reg.saRegFault 50 4 = 6 ∧ u.mem = s.mem ∧ u.tokens = s.tokens ∧
      ∀ k, k ≠ Reg.saRegFault → k ≠ Reg.saRegFaultCount → u.r k = s.r k)) ∧
  (∀ (s : State) (sb wide : Bool) (key : Nat), s.offline (i3cIface sb) = false → key < 0x30000000 →
    ∃ u, Sys2Proof.Machine.exec (.i3cReadSetup sb 0 wide (BitVec.ofNat 48 (0x300000000000 + key)) []) s = .next u ∧
      (u.i3cT (b2n sb)).readAddr = some (key, wide) ∧ u.regs = s.regs ∧ u.mem = s.mem ∧ u.tokens = s.tokens ∧ u.dies = s.dies) ∧
  (∀ (s : State) (ecc : Ecc), s.readable .i3cSa Reg.saWakeAlarmFtc true →
    (s.i3cT 0).readAddr = some (Reg.saWakeAlarmFtc, true) →
    ∃ u, Sys2Proof.Machine.exec (.i3cRead false ecc false) s = .next u ∧
      u.got .i3cSa = s.view Reg.saWakeAlarmFtc ∧ (u.i3cT 0).readAddr = none ∧
      u.regs = s.regs ∧ u.mem = s.mem ∧ u.tokens = s.tokens ∧ u.dies = s.dies) ∧
  (∀ (s : State) (sb : Bool) (a : BitVec 7), s.offline (i3cIface sb) = false →
    ∃ u, Sys2Proof.Machine.exec (.dynamicAddress sb a) s = .next u ∧
      (u.i3cT (b2n sb)).dyn = some a ∧ u.regs = s.regs ∧ u.mem = s.mem ∧
      u.tokens = s.tokens ∧ u.dies = s.dies) ∧
  (∀ (s : State) (c : Fin 4) (r : Fin 24), s.ready (cDie c) = true →
    ∃ u, Sys2Proof.Machine.exec (.lineStopFailed c r) s = .next u ∧
      u.mem = s.mem ∧ u.tokens = s.tokens ∧ u.rf (Reg.cnRowMap c r) 9 1 = 1 ∧
      bitAt u.failedQuarters (4 * c + r / 6) = true ∧
      u.dies = ((s.exhaust c r).note (cDie c) Ev.lineStopFailed [c.val, r.val]).dies) ∧
  (∀ (s : State) (f : Fin 17) (a n : W64), s.fnUp f = true →
    ∃ u, Sys2Proof.Machine.exec (.atsInvalidation f a n) s = .next u ∧
      (u.atsDone = s.atsDone ++ [f.val] ∧ u.regs = s.regs ∧ u.mem = s.mem ∧
      u.tokens = s.tokens ∧ (∀ p ∈ SMap.get (fun _ => []) u.ats f.val, p * 4096 + 4096 ≤ a.toNat ∨ a.toNat + n.toNat ≤ p * 4096) ∧
      ∀ g, g ≠ f.val → SMap.get (fun _ => []) u.ats g = SMap.get (fun _ => []) s.ats g))

/-! ## Rules and the whole machine -/

/-- R70: a rising edge of the 1PPS input, where PPS_IN_EN is 1: both stamps are written at once, the FTC to the tick and the WTB,
the count goes up by one, and the FTC does not move. -/
def Obligations.PpsInputIsStamped : Prop :=
  ∀ s : State, s.rf Reg.sbTimeCtrl 10 1 = 1 →
    ∃ u, Sys2Proof.Machine.exec .ppsInEdge s = .next u ∧
      (u.r Reg.sbPpsInFtc = s.r Reg.sbFtc ∧ u.rf Reg.sbPpsInWtb 0 48 = fld s.wtbNsWord 0 48 ∧
      u.rf Reg.sbPpsInWtb 48 16 = s.rf Reg.sbWtbSec 0 16 ∧ u.r Reg.sbFtc = s.r Reg.sbFtc ∧
      u.rf Reg.sbPpsCount 0 32 = (s.rf Reg.sbPpsCount 0 32 + 1) % 2 ^ 32 ∧ u.mem = s.mem ∧ u.tokens = s.tokens ∧ u.dies = s.dies ∧
      ∀ k, k ≠ Reg.sbPpsInFtc → k ≠ Reg.sbPpsInWtb → k ≠ Reg.sbPpsCount → u.r k = s.r k)

/-- R97: an arrive whose sum exceeds 0xFFFF_FFFF leaves the value there and sets SATURATED; it is recorded once for the token, and
again only after a set, which clears SATURATED. -/
def Obligations.ArrivesSaturate : Prop :=
  (∀ (s : State) (c : Fin 4) (k src : Nat) (a : W32), s.tokOps = [⟨k, false, a, src⟩] → s.tokenReaches c ⟨k, false, a, src⟩ = true →
    0xFFFFFFFF < (s.token k).val.toNat + a.toNat →
    ∃ u, Sys2Proof.Machine.exec (.tokenUpdateCycle c) s = .next u ∧
      u.tokOps = [] ∧ u.regs = s.regs ∧ u.mem = s.mem ∧ (u.token k).val = 0xFFFFFFFF ∧
      (u.token k).sat = true ∧ (u.token k).logged = true ∧ (∀ j, j ≠ k → u.token j = s.token j) ∧
      u.dies = if (s.token k).logged = true then s.dies
        else (s.noteP (cDie (k / 4096)) (partNum (s.partOfToken k)) Ev.tokenSaturated [k]).dies) ∧
  (∀ (s : State) (c : Fin 4) (k src : Nat) (v : W32), s.tokOps = [⟨k, true, v, src⟩] → s.tokenReaches c ⟨k, true, v, src⟩ = true →
    ∃ u, Sys2Proof.Machine.exec (.tokenUpdateCycle c) s = .next u ∧
      (u.tokOps = [] ∧ u.regs = s.regs ∧ u.mem = s.mem ∧ u.dies = s.dies ∧
      (u.token k).val = v ∧ (u.token k).sat = false ∧ (u.token k).logged = false ∧ ∀ j, j ≠ k → u.token j = s.token j))

/-- R10: an access to register space that is not naturally aligned, or of another width than 32 or 64 bits, completes without
effect, a read returns 0, and the event log has REG_ACCESS_ALIGN; beside it stands the capture of R591. -/
def Obligations.MisalignedAccesses : Prop :=
  (∀ (s : State) (i : Iface) (key : BitVec 48) (w : Width) (v : W64) (boot : BitVec 4) (full : BitVec 16) (cause : Fin 3)
    (version : BitVec 16) (quiet : Fin 3), s.offline i = false → widthOk w key.toNat = false →
    ∃ u, Sys2Proof.Machine.exec (.registerWrite i .regs key w v boot full cause version quiet) s = .next u ∧
      u.mem = s.mem ∧ u.tokens = s.tokens ∧
      u.tiles = s.tiles ∧ u.txn = s.txn ∧ (∀ k, k ≠ Reg.saRegFault → k ≠ Reg.saRegFaultCount → u.r k = s.r k) ∧
      u.dies = (s.note 0 Ev.regAccessAlign [(0x300000000000 + key.toNat) % 2 ^ 48]).dies) ∧
  (∀ (s : State) (i : Iface) (key : BitVec 48) (w : Width) (silent : Bool) (ecc : Ecc), s.offline i = false →
    widthOk w key.toNat = false →
    ∃ u, Sys2Proof.Machine.exec (.registerRead i .regs key w ecc silent) s = .next u ∧
      u.got i = 0 ∧ u.mem = s.mem ∧ u.tokens = s.tokens ∧
      u.tiles = s.tiles ∧ u.txn = s.txn ∧ (∀ k, k ≠ Reg.saRegFault → k ≠ Reg.saRegFaultCount → u.r k = s.r k) ∧
      u.dies = (s.note 0 Ev.regAccessAlign [(0x300000000000 + key.toNat) % 2 ^ 48]).dies)

/-- The model's own form of a step (log 1): the command at the front of the queue is run with the rest of the queue, and with
nothing waiting the module idles. -/
def Obligations.StepRunsTheFrontCommand : Prop :=
  (∀ (s : State) (c : Instr) (cs : List Instr), s.pending = c :: cs →
    Sys2Proof.Machine.step s = Sys2Proof.Machine.exec c (s.withPending cs)) ∧
  (∀ s : State, s.pending = [] → Sys2Proof.Machine.step s = .next s)

/-- Every command of the table answers a next state in every state, and leaves the queue as it finds it. -/
def Obligations.EveryCommandAnswers : Prop :=
  ∀ (c : Instr) (s : State), ∃ u, Sys2Proof.Machine.exec c s = .next u ∧ u.pending = s.pending

/-- The commands that wait are taken first in, first out, one to a step: none is lost, and none stops the module. -/
def Obligations.QueueDrainsInOrder : Prop :=
  ∀ (cs ds : List Instr) (s : State), s.pending = cs ++ ds →
    ∃ u, Sys2Proof.core.run cs.length s = .next u ∧ u.pending = ds

/-- R2, R22, R43, R94, R399, R511, R524: what reset leaves. That memory reads 0 is the model's choice (log 2). -/
def Obligations.ResetState : Prop :=
  Memory.wf State.reset.mem = true ∧ State.reset.pending = [] ∧ State.reset.now = 0 ∧
    (∀ a, State.reset.byte a = 0) ∧ (∀ k, State.reset.token k = {}) ∧ (∀ t, (State.reset.tile t).state = 0) ∧
    (∀ p, p < 16 → State.reset.partState p = 0) ∧ State.reset.r Reg.sbFtc = 0 ∧ State.reset.r Reg.saDieReady = 1 ∧
    State.reset.rf Reg.saModulePmode 0 3 = 0 ∧ State.reset.rf Reg.sbTimeStatus 0 3 = 0 ∧
    (∀ c r, c < 4 → r < 24 → State.reset.rf (Reg.cnRowMap c r) 0 4 = 8 ∧ State.reset.rf (Reg.cnRowMap c r) 4 4 = 8) ∧
    (∀ p, p < 6 → State.reset.linkState p = 0)

/-- Memory keeps its canonical form: addresses rise, and no byte is listed that reads as an unlisted one does. -/
def Obligations.MemoryStaysCanonical : Prop :=
  ∀ s u : State, Memory.wf s.mem = true → Sys2Proof.Machine.step s = .next u → Memory.wf u.mem = true
end

