-- ==== Sys2Proof/Laws/SMap.lean ====
section
/-!
SUPPORT. Sparse maps: a read after a write, and that every operation keeps the canonical form.
-/
namespace Sys2Proof.Machine

theorem SMap.get_erase_same (d : Nat → α) (m : SMap α) (k : Nat) : SMap.get d (SMap.erase m k) k = d k := by
  induction m with
  | nil => rfl
  | cons p m ih =>
    simp only [SMap.erase]
    split
    · exact ih
    · next h => simp [SMap.get, h, ih]

theorem SMap.get_erase_ne (d : Nat → α) (m : SMap α) {k j : Nat} (h : j ≠ k) :
    SMap.get d (SMap.erase m k) j = SMap.get d m j := by
  induction m with
  | nil => rfl
  | cons p m ih =>
    simp only [SMap.erase]
    split
    · next hp => simp [SMap.get, hp, h.symm, ih]
    · simp [SMap.get, ih]

theorem SMap.get_insert_ne (d : Nat → α) (m : SMap α) (v : α) {k j : Nat} (h : j ≠ k) :
    SMap.get d (SMap.insert m k v) j = SMap.get d m j := by
  induction m with
  | nil => simp [SMap.insert, SMap.get, h.symm]
  | cons p m ih =>
    simp only [SMap.insert]
    split
    · simp [SMap.get, h.symm]
    · simp [SMap.get, ih]

theorem SMap.get_insert_erase (d : Nat → α) (m : SMap α) (k : Nat) (v : α) :
    SMap.get d (SMap.insert (SMap.erase m k) k v) k = v := by
  induction m with
  | nil => simp [SMap.erase, SMap.insert, SMap.get]
  | cons p m ih =>
    simp only [SMap.erase]
    split
    · exact ih
    · next hp =>
      simp only [SMap.insert]
      split
      · simp [SMap.get]
      · simp [SMap.get, hp, ih]

/-- A read after a write of the same key. -/
@[simp] theorem SMap.get_set_same [DecidableEq α] (d : Nat → α) (m : SMap α) (k : Nat) (v : α) :
    SMap.get d (SMap.set d m k v) k = v := by
  simp only [SMap.set]
  split
  · next h => rw [SMap.get_erase_same, h]
  · exact SMap.get_insert_erase d m k v

/-- A write leaves every other key alone. -/
@[simp] theorem SMap.get_set_ne [DecidableEq α] (d : Nat → α) (m : SMap α) (v : α) {k j : Nat} (h : j ≠ k) :
    SMap.get d (SMap.set d m k v) j = SMap.get d m j := by
  simp only [SMap.set]
  split
  · exact SMap.get_erase_ne d m h
  · rw [SMap.get_insert_ne d _ v h, SMap.get_erase_ne d m h]

theorem SMap.above_mono {b c : Nat} (h : c ≤ b) (m : SMap α) (hm : SMap.above b m = true) : SMap.above c m = true := by
  induction m with
  | nil => rfl
  | cons p m ih =>
    simp only [SMap.above, Bool.and_eq_true, decide_eq_true_eq] at hm ⊢
    exact ⟨h.trans hm.1, ih hm.2⟩

theorem SMap.above_erase (b : Nat) (m : SMap α) (k : Nat) (h : SMap.above b m = true) :
    SMap.above b (SMap.erase m k) = true := by
  induction m with
  | nil => rfl
  | cons p m ih =>
    simp only [SMap.above, Bool.and_eq_true, decide_eq_true_eq] at h
    simp only [SMap.erase]
    split
    · exact ih h.2
    · simp [SMap.above, h.1, ih h.2]

theorem SMap.above_insert (b : Nat) (m : SMap α) (k : Nat) (v : α) (hk : b ≤ k) (h : SMap.above b m = true) :
    SMap.above b (SMap.insert m k v) = true := by
  induction m with
  | nil => simp [SMap.insert, SMap.above, hk]
  | cons p m ih =>
    simp only [SMap.above, Bool.and_eq_true, decide_eq_true_eq] at h
    simp only [SMap.insert]
    split
    · simp [SMap.above, hk, h.1, h.2]
    · simp [SMap.above, h.1, ih h.2]

theorem SMap.wf_erase [DecidableEq α] (d : Nat → α) (m : SMap α) (k : Nat) (h : SMap.wf d m = true) :
    SMap.wf d (SMap.erase m k) = true := by
  induction m with
  | nil => rfl
  | cons p m ih =>
    simp only [SMap.wf, Bool.and_eq_true, decide_eq_true_eq] at h
    simp only [SMap.erase]
    split
    · exact ih h.2
    · simp only [SMap.wf, Bool.and_eq_true, decide_eq_true_eq]
      exact ⟨⟨h.1.1, SMap.above_erase _ _ _ h.1.2⟩, ih h.2⟩

theorem SMap.wf_insert [DecidableEq α] (d : Nat → α) (m : SMap α) (k : Nat) (v : α) (hv : v ≠ d k)
    (h : SMap.wf d m = true) (hn : ∀ p ∈ m, p.1 ≠ k) : SMap.wf d (SMap.insert m k v) = true := by
  induction m with
  | nil => simp [SMap.insert, SMap.wf, SMap.above, hv]
  | cons p m ih =>
    have hp : p.1 ≠ k := hn p (by simp)
    have hm := ih (by simp only [SMap.wf, Bool.and_eq_true] at h; exact h.2) (fun q hq => hn q (by simp [hq]))
    simp only [SMap.wf, Bool.and_eq_true, decide_eq_true_eq] at h
    simp only [SMap.insert]
    split
    · next hk =>
      simp only [SMap.wf, SMap.above, Bool.and_eq_true, decide_eq_true_eq]
      exact ⟨⟨hv, hk, SMap.above_mono (by omega) m h.1.2⟩, h⟩
    · next hk =>
      simp only [SMap.wf, Bool.and_eq_true, decide_eq_true_eq]
      exact ⟨⟨h.1.1, SMap.above_insert _ _ _ _ (by omega) h.1.2⟩, hm⟩

theorem SMap.not_mem_erase (m : SMap α) (k : Nat) : ∀ p ∈ SMap.erase m k, p.1 ≠ k := by
  induction m with
  | nil => simp [SMap.erase]
  | cons q m ih =>
    simp only [SMap.erase]
    split
    · exact ih
    · next h =>
      intro p hp
      rcases List.mem_cons.1 hp with rfl | hp
      · exact h
      · exact ih p hp

/-- A write keeps the canonical form. -/
theorem SMap.wf_set [DecidableEq α] (d : Nat → α) (m : SMap α) (k : Nat) (v : α) (h : SMap.wf d m = true) :
    SMap.wf d (SMap.set d m k v) = true := by
  simp only [SMap.set]
  split
  · exact SMap.wf_erase d m k h
  · next hv => exact SMap.wf_insert d _ k v hv (SMap.wf_erase d m k h) (SMap.not_mem_erase m k)

theorem SMap.above_keep (f : Nat → Bool) (b : Nat) (m : SMap α) (h : SMap.above b m = true) :
    SMap.above b (SMap.keep f m) = true := by
  induction m with
  | nil => rfl
  | cons p m ih =>
    simp only [SMap.above, Bool.and_eq_true, decide_eq_true_eq] at h
    simp only [SMap.keep]
    split
    · simp [SMap.above, h.1, ih h.2]
    · exact ih h.2

/-- Dropping keys keeps the canonical form. -/
theorem SMap.wf_keep [DecidableEq α] (d : Nat → α) (f : Nat → Bool) (m : SMap α) (h : SMap.wf d m = true) :
    SMap.wf d (SMap.keep f m) = true := by
  induction m with
  | nil => rfl
  | cons p m ih =>
    simp only [SMap.wf, Bool.and_eq_true, decide_eq_true_eq] at h
    simp only [SMap.keep]
    split
    · simp only [SMap.wf, Bool.and_eq_true, decide_eq_true_eq]
      exact ⟨⟨h.1.1, SMap.above_keep f _ m h.1.2⟩, ih h.2⟩
    · exact ih h.2

/-- A key that is kept reads as before. -/
theorem SMap.get_keep (d : Nat → α) (f : Nat → Bool) (m : SMap α) (k : Nat) (hk : f k = true) :
    SMap.get d (SMap.keep f m) k = SMap.get d m k := by
  induction m with
  | nil => rfl
  | cons p m ih =>
    simp only [SMap.keep]
    split
    · simp [SMap.get, ih]
    · next hp =>
      have : p.1 ≠ k := by rintro rfl; exact hp hk
      simp [SMap.get, this, ih]

/-- A key that is not kept reads as its default. -/
theorem SMap.get_keep_not (d : Nat → α) (f : Nat → Bool) (m : SMap α) (k : Nat) (hk : f k = false) :
    SMap.get d (SMap.keep f m) k = d k := by
  induction m with
  | nil => rfl
  | cons p m ih =>
    simp only [SMap.keep]
    split
    · next hp =>
      have : p.1 ≠ k := by rintro rfl; simp [hk] at hp
      simp [SMap.get, this, ih]
    · exact ih

end Sys2Proof.Machine
end

