-- ==== Sys2Proof/Laws/State.lean ====
section
/-!
SUPPORT. Which fields of the state each elementary update leaves alone, one lemma per field per update, so that no proof
unfolds a record update.
-/
namespace Sys2Proof.Machine
open Sys2Proof

@[simp] theorem State.w_pending (s : State) (k : Nat) (v : W64) : (s.w k v).pending = s.pending := (rfl)
@[simp] theorem State.w_freeCtr (s : State) (k : Nat) (v : W64) : (s.w k v).freeCtr = s.freeCtr := (rfl)
@[simp] theorem State.w_mem (s : State) (k : Nat) (v : W64) : (s.w k v).mem = s.mem := (rfl)
@[simp] theorem State.w_dies (s : State) (k : Nat) (v : W64) : (s.w k v).dies = s.dies := (rfl)
@[simp] theorem State.w_evlog (s : State) (k : Nat) (v : W64) : (s.w k v).evlog = s.evlog := (rfl)
@[simp] theorem State.w_acceptAt (s : State) (k : Nat) (v : W64) : (s.w k v).acceptAt = s.acceptAt := (rfl)
@[simp] theorem State.w_rates (s : State) (k : Nat) (v : W64) : (s.w k v).rates = s.rates := (rfl)
@[simp] theorem State.w_time (s : State) (k : Nat) (v : W64) : (s.w k v).time = s.time := (rfl)
@[simp] theorem State.w_ptime (s : State) (k : Nat) (v : W64) : (s.w k v).ptime = s.ptime := (rfl)
@[simp] theorem State.w_tiles (s : State) (k : Nat) (v : W64) : (s.w k v).tiles = s.tiles := (rfl)
@[simp] theorem State.w_lineCells (s : State) (k : Nat) (v : W64) : (s.w k v).lineCells = s.lineCells := (rfl)
@[simp] theorem State.w_tokens (s : State) (k : Nat) (v : W64) : (s.w k v).tokens = s.tokens := (rfl)
@[simp] theorem State.w_tokOps (s : State) (k : Nat) (v : W64) : (s.w k v).tokOps = s.tokOps := (rfl)
@[simp] theorem State.w_spent (s : State) (k : Nat) (v : W64) : (s.w k v).spent = s.spent := (rfl)
@[simp] theorem State.w_recent (s : State) (k : Nat) (v : W64) : (s.w k v).recent = s.recent := (rfl)
@[simp] theorem State.w_walkers (s : State) (k : Nat) (v : W64) : (s.w k v).walkers = s.walkers := (rfl)
@[simp] theorem State.w_preWalkers (s : State) (k : Nat) (v : W64) : (s.w k v).preWalkers = s.preWalkers := (rfl)
@[simp] theorem State.w_transits (s : State) (k : Nat) (v : W64) : (s.w k v).transits = s.transits := (rfl)
@[simp] theorem State.w_sramReads (s : State) (k : Nat) (v : W64) : (s.w k v).sramReads = s.sramReads := (rfl)
@[simp] theorem State.w_jn (s : State) (k : Nat) (v : W64) : (s.w k v).jn = s.jn := (rfl)
@[simp] theorem State.w_ports (s : State) (k : Nat) (v : W64) : (s.w k v).ports = s.ports := (rfl)
@[simp] theorem State.w_rings (s : State) (k : Nat) (v : W64) : (s.w k v).rings = s.rings := (rfl)
@[simp] theorem State.w_turn (s : State) (k : Nat) (v : W64) : (s.w k v).turn = s.turn := (rfl)
@[simp] theorem State.w_notify (s : State) (k : Nat) (v : W64) : (s.w k v).notify = s.notify := (rfl)
@[simp] theorem State.w_notes (s : State) (k : Nat) (v : W64) : (s.w k v).notes = s.notes := (rfl)
@[simp] theorem State.w_hostOut (s : State) (k : Nat) (v : W64) : (s.w k v).hostOut = s.hostOut := (rfl)
@[simp] theorem State.w_irqs (s : State) (k : Nat) (v : W64) : (s.w k v).irqs = s.irqs := (rfl)
@[simp] theorem State.w_vfs (s : State) (k : Nat) (v : W64) : (s.w k v).vfs = s.vfs := (rfl)
@[simp] theorem State.w_pcieUp (s : State) (k : Nat) (v : W64) : (s.w k v).pcieUp = s.pcieUp := (rfl)
@[simp] theorem State.w_pcie (s : State) (k : Nat) (v : W64) : (s.w k v).pcie = s.pcie := (rfl)
@[simp] theorem State.w_ats (s : State) (k : Nat) (v : W64) : (s.w k v).ats = s.ats := (rfl)
@[simp] theorem State.w_atsDone (s : State) (k : Nat) (v : W64) : (s.w k v).atsDone = s.atsDone := (rfl)
@[simp] theorem State.w_parts (s : State) (k : Nat) (v : W64) : (s.w k v).parts = s.parts := (rfl)
@[simp] theorem State.w_lock (s : State) (k : Nat) (v : W64) : (s.w k v).lock = s.lock := (rfl)
@[simp] theorem State.w_power (s : State) (k : Nat) (v : W64) : (s.w k v).power = s.power := (rfl)
@[simp] theorem State.w_pins (s : State) (k : Nat) (v : W64) : (s.w k v).pins = s.pins := (rfl)
@[simp] theorem State.w_mon (s : State) (k : Nat) (v : W64) : (s.w k v).mon = s.mon := (rfl)
@[simp] theorem State.w_txn (s : State) (k : Nat) (v : W64) : (s.w k v).txn = s.txn := (rfl)
@[simp] theorem State.w_armedTxns (s : State) (k : Nat) (v : W64) : (s.w k v).armedTxns = s.armedTxns := (rfl)
@[simp] theorem State.w_prot (s : State) (k : Nat) (v : W64) : (s.w k v).prot = s.prot := (rfl)
@[simp] theorem State.w_snapAt (s : State) (k : Nat) (v : W64) : (s.w k v).snapAt = s.snapAt := (rfl)
@[simp] theorem State.w_trace (s : State) (k : Nat) (v : W64) : (s.w k v).trace = s.trace := (rfl)
@[simp] theorem State.w_traceQ (s : State) (k : Nat) (v : W64) : (s.w k v).traceQ = s.traceQ := (rfl)
@[simp] theorem State.w_dump (s : State) (k : Nat) (v : W64) : (s.w k v).dump = s.dump := (rfl)
@[simp] theorem State.w_wfg (s : State) (k : Nat) (v : W64) : (s.w k v).wfg = s.wfg := (rfl)
@[simp] theorem State.w_i3c (s : State) (k : Nat) (v : W64) : (s.w k v).i3c = s.i3c := (rfl)
@[simp] theorem State.w_readData (s : State) (k : Nat) (v : W64) : (s.w k v).readData = s.readData := (rfl)
@[simp] theorem State.w_inject (s : State) (k : Nat) (v : W64) : (s.w k v).inject = s.inject := (rfl)
@[simp] theorem State.w_streams (s : State) (k : Nat) (v : W64) : (s.w k v).streams = s.streams := (rfl)
@[simp] theorem State.w_engine (s : State) (k : Nat) (v : W64) : (s.w k v).engine = s.engine := (rfl)
@[simp] theorem State.w_grants (s : State) (k : Nat) (v : W64) : (s.w k v).grants = s.grants := (rfl)
@[simp] theorem State.w_hbm (s : State) (k : Nat) (v : W64) : (s.w k v).hbm = s.hbm := (rfl)
@[simp] theorem State.w_spray (s : State) (k : Nat) (v : W64) : (s.w k v).spray = s.spray := (rfl)
@[simp] theorem State.w_nseq (s : State) (k : Nat) (v : W64) : (s.w k v).nseq = s.nseq := (rfl)
@[simp] theorem State.w_lastNseq (s : State) (k : Nat) (v : W64) : (s.w k v).lastNseq = s.lastNseq := (rfl)
@[simp] theorem State.w_flipPrev (s : State) (k : Nat) (v : W64) : (s.w k v).flipPrev = s.flipPrev := (rfl)
@[simp] theorem State.w_skipScrub (s : State) (k : Nat) (v : W64) : (s.w k v).skipScrub = s.skipScrub := (rfl)
@[simp] theorem State.w_failedQuarters (s : State) (k : Nat) (v : W64) : (s.w k v).failedQuarters = s.failedQuarters := (rfl)
@[simp] theorem State.w_ethOut (s : State) (k : Nat) (v : W64) : (s.w k v).ethOut = s.ethOut := (rfl)
@[simp] theorem State.w_setNow (s : State) (k : Nat) (v : W64) : (s.w k v).setNow = s.setNow := (rfl)
@[simp] theorem State.w_txnNow (s : State) (k : Nat) (v : W64) : (s.w k v).txnNow = s.txnNow := (rfl)
@[simp] theorem State.w_cycleNow (s : State) (k : Nat) (v : W64) : (s.w k v).cycleNow = s.cycleNow := (rfl)

@[simp] theorem State.setDie_pending (s : State) (k : Nat) (x : Die) : (s.setDie k x).pending = s.pending := (rfl)
@[simp] theorem State.setDie_freeCtr (s : State) (k : Nat) (x : Die) : (s.setDie k x).freeCtr = s.freeCtr := (rfl)
@[simp] theorem State.setDie_regs (s : State) (k : Nat) (x : Die) : (s.setDie k x).regs = s.regs := (rfl)
@[simp] theorem State.setDie_mem (s : State) (k : Nat) (x : Die) : (s.setDie k x).mem = s.mem := (rfl)
@[simp] theorem State.setDie_evlog (s : State) (k : Nat) (x : Die) : (s.setDie k x).evlog = s.evlog := (rfl)
@[simp] theorem State.setDie_acceptAt (s : State) (k : Nat) (x : Die) : (s.setDie k x).acceptAt = s.acceptAt := (rfl)
@[simp] theorem State.setDie_rates (s : State) (k : Nat) (x : Die) : (s.setDie k x).rates = s.rates := (rfl)
@[simp] theorem State.setDie_time (s : State) (k : Nat) (x : Die) : (s.setDie k x).time = s.time := (rfl)
@[simp] theorem State.setDie_ptime (s : State) (k : Nat) (x : Die) : (s.setDie k x).ptime = s.ptime := (rfl)
@[simp] theorem State.setDie_tiles (s : State) (k : Nat) (x : Die) : (s.setDie k x).tiles = s.tiles := (rfl)
@[simp] theorem State.setDie_lineCells (s : State) (k : Nat) (x : Die) : (s.setDie k x).lineCells = s.lineCells := (rfl)
@[simp] theorem State.setDie_tokens (s : State) (k : Nat) (x : Die) : (s.setDie k x).tokens = s.tokens := (rfl)
@[simp] theorem State.setDie_tokOps (s : State) (k : Nat) (x : Die) : (s.setDie k x).tokOps = s.tokOps := (rfl)
@[simp] theorem State.setDie_spent (s : State) (k : Nat) (x : Die) : (s.setDie k x).spent = s.spent := (rfl)
@[simp] theorem State.setDie_recent (s : State) (k : Nat) (x : Die) : (s.setDie k x).recent = s.recent := (rfl)
@[simp] theorem State.setDie_walkers (s : State) (k : Nat) (x : Die) : (s.setDie k x).walkers = s.walkers := (rfl)
@[simp] theorem State.setDie_preWalkers (s : State) (k : Nat) (x : Die) : (s.setDie k x).preWalkers = s.preWalkers := (rfl)
@[simp] theorem State.setDie_transits (s : State) (k : Nat) (x : Die) : (s.setDie k x).transits = s.transits := (rfl)
@[simp] theorem State.setDie_sramReads (s : State) (k : Nat) (x : Die) : (s.setDie k x).sramReads = s.sramReads := (rfl)
@[simp] theorem State.setDie_jn (s : State) (k : Nat) (x : Die) : (s.setDie k x).jn = s.jn := (rfl)
@[simp] theorem State.setDie_ports (s : State) (k : Nat) (x : Die) : (s.setDie k x).ports = s.ports := (rfl)
@[simp] theorem State.setDie_rings (s : State) (k : Nat) (x : Die) : (s.setDie k x).rings = s.rings := (rfl)
@[simp] theorem State.setDie_turn (s : State) (k : Nat) (x : Die) : (s.setDie k x).turn = s.turn := (rfl)
@[simp] theorem State.setDie_notify (s : State) (k : Nat) (x : Die) : (s.setDie k x).notify = s.notify := (rfl)
@[simp] theorem State.setDie_notes (s : State) (k : Nat) (x : Die) : (s.setDie k x).notes = s.notes := (rfl)
@[simp] theorem State.setDie_hostOut (s : State) (k : Nat) (x : Die) : (s.setDie k x).hostOut = s.hostOut := (rfl)
@[simp] theorem State.setDie_irqs (s : State) (k : Nat) (x : Die) : (s.setDie k x).irqs = s.irqs := (rfl)
@[simp] theorem State.setDie_vfs (s : State) (k : Nat) (x : Die) : (s.setDie k x).vfs = s.vfs := (rfl)
@[simp] theorem State.setDie_pcieUp (s : State) (k : Nat) (x : Die) : (s.setDie k x).pcieUp = s.pcieUp := (rfl)
@[simp] theorem State.setDie_pcie (s : State) (k : Nat) (x : Die) : (s.setDie k x).pcie = s.pcie := (rfl)
@[simp] theorem State.setDie_ats (s : State) (k : Nat) (x : Die) : (s.setDie k x).ats = s.ats := (rfl)
@[simp] theorem State.setDie_atsDone (s : State) (k : Nat) (x : Die) : (s.setDie k x).atsDone = s.atsDone := (rfl)
@[simp] theorem State.setDie_parts (s : State) (k : Nat) (x : Die) : (s.setDie k x).parts = s.parts := (rfl)
@[simp] theorem State.setDie_lock (s : State) (k : Nat) (x : Die) : (s.setDie k x).lock = s.lock := (rfl)
@[simp] theorem State.setDie_power (s : State) (k : Nat) (x : Die) : (s.setDie k x).power = s.power := (rfl)
@[simp] theorem State.setDie_pins (s : State) (k : Nat) (x : Die) : (s.setDie k x).pins = s.pins := (rfl)
@[simp] theorem State.setDie_mon (s : State) (k : Nat) (x : Die) : (s.setDie k x).mon = s.mon := (rfl)
@[simp] theorem State.setDie_txn (s : State) (k : Nat) (x : Die) : (s.setDie k x).txn = s.txn := (rfl)
@[simp] theorem State.setDie_armedTxns (s : State) (k : Nat) (x : Die) : (s.setDie k x).armedTxns = s.armedTxns := (rfl)
@[simp] theorem State.setDie_prot (s : State) (k : Nat) (x : Die) : (s.setDie k x).prot = s.prot := (rfl)
@[simp] theorem State.setDie_snapAt (s : State) (k : Nat) (x : Die) : (s.setDie k x).snapAt = s.snapAt := (rfl)
@[simp] theorem State.setDie_trace (s : State) (k : Nat) (x : Die) : (s.setDie k x).trace = s.trace := (rfl)
@[simp] theorem State.setDie_traceQ (s : State) (k : Nat) (x : Die) : (s.setDie k x).traceQ = s.traceQ := (rfl)
@[simp] theorem State.setDie_dump (s : State) (k : Nat) (x : Die) : (s.setDie k x).dump = s.dump := (rfl)
@[simp] theorem State.setDie_wfg (s : State) (k : Nat) (x : Die) : (s.setDie k x).wfg = s.wfg := (rfl)
@[simp] theorem State.setDie_i3c (s : State) (k : Nat) (x : Die) : (s.setDie k x).i3c = s.i3c := (rfl)
@[simp] theorem State.setDie_readData (s : State) (k : Nat) (x : Die) : (s.setDie k x).readData = s.readData := (rfl)
@[simp] theorem State.setDie_inject (s : State) (k : Nat) (x : Die) : (s.setDie k x).inject = s.inject := (rfl)
@[simp] theorem State.setDie_streams (s : State) (k : Nat) (x : Die) : (s.setDie k x).streams = s.streams := (rfl)
@[simp] theorem State.setDie_engine (s : State) (k : Nat) (x : Die) : (s.setDie k x).engine = s.engine := (rfl)
@[simp] theorem State.setDie_grants (s : State) (k : Nat) (x : Die) : (s.setDie k x).grants = s.grants := (rfl)
@[simp] theorem State.setDie_hbm (s : State) (k : Nat) (x : Die) : (s.setDie k x).hbm = s.hbm := (rfl)
@[simp] theorem State.setDie_spray (s : State) (k : Nat) (x : Die) : (s.setDie k x).spray = s.spray := (rfl)
@[simp] theorem State.setDie_nseq (s : State) (k : Nat) (x : Die) : (s.setDie k x).nseq = s.nseq := (rfl)
@[simp] theorem State.setDie_lastNseq (s : State) (k : Nat) (x : Die) : (s.setDie k x).lastNseq = s.lastNseq := (rfl)
@[simp] theorem State.setDie_flipPrev (s : State) (k : Nat) (x : Die) : (s.setDie k x).flipPrev = s.flipPrev := (rfl)
@[simp] theorem State.setDie_skipScrub (s : State) (k : Nat) (x : Die) : (s.setDie k x).skipScrub = s.skipScrub := (rfl)
@[simp] theorem State.setDie_failedQuarters (s : State) (k : Nat) (x : Die) : (s.setDie k x).failedQuarters = s.failedQuarters := (rfl)
@[simp] theorem State.setDie_ethOut (s : State) (k : Nat) (x : Die) : (s.setDie k x).ethOut = s.ethOut := (rfl)
@[simp] theorem State.setDie_setNow (s : State) (k : Nat) (x : Die) : (s.setDie k x).setNow = s.setNow := (rfl)
@[simp] theorem State.setDie_txnNow (s : State) (k : Nat) (x : Die) : (s.setDie k x).txnNow = s.txnNow := (rfl)
@[simp] theorem State.setDie_cycleNow (s : State) (k : Nat) (x : Die) : (s.setDie k x).cycleNow = s.cycleNow := (rfl)

@[simp] theorem State.setPt_pending (s : State) (k : Nat) (x : PortTime) : (s.setPt k x).pending = s.pending := (rfl)
@[simp] theorem State.setPt_freeCtr (s : State) (k : Nat) (x : PortTime) : (s.setPt k x).freeCtr = s.freeCtr := (rfl)
@[simp] theorem State.setPt_regs (s : State) (k : Nat) (x : PortTime) : (s.setPt k x).regs = s.regs := (rfl)
@[simp] theorem State.setPt_mem (s : State) (k : Nat) (x : PortTime) : (s.setPt k x).mem = s.mem := (rfl)
@[simp] theorem State.setPt_dies (s : State) (k : Nat) (x : PortTime) : (s.setPt k x).dies = s.dies := (rfl)
@[simp] theorem State.setPt_evlog (s : State) (k : Nat) (x : PortTime) : (s.setPt k x).evlog = s.evlog := (rfl)
@[simp] theorem State.setPt_acceptAt (s : State) (k : Nat) (x : PortTime) : (s.setPt k x).acceptAt = s.acceptAt := (rfl)
@[simp] theorem State.setPt_rates (s : State) (k : Nat) (x : PortTime) : (s.setPt k x).rates = s.rates := (rfl)
@[simp] theorem State.setPt_time (s : State) (k : Nat) (x : PortTime) : (s.setPt k x).time = s.time := (rfl)
@[simp] theorem State.setPt_tiles (s : State) (k : Nat) (x : PortTime) : (s.setPt k x).tiles = s.tiles := (rfl)
@[simp] theorem State.setPt_lineCells (s : State) (k : Nat) (x : PortTime) : (s.setPt k x).lineCells = s.lineCells := (rfl)
@[simp] theorem State.setPt_tokens (s : State) (k : Nat) (x : PortTime) : (s.setPt k x).tokens = s.tokens := (rfl)
@[simp] theorem State.setPt_tokOps (s : State) (k : Nat) (x : PortTime) : (s.setPt k x).tokOps = s.tokOps := (rfl)
@[simp] theorem State.setPt_spent (s : State) (k : Nat) (x : PortTime) : (s.setPt k x).spent = s.spent := (rfl)
@[simp] theorem State.setPt_recent (s : State) (k : Nat) (x : PortTime) : (s.setPt k x).recent = s.recent := (rfl)
@[simp] theorem State.setPt_walkers (s : State) (k : Nat) (x : PortTime) : (s.setPt k x).walkers = s.walkers := (rfl)
@[simp] theorem State.setPt_preWalkers (s : State) (k : Nat) (x : PortTime) : (s.setPt k x).preWalkers = s.preWalkers := (rfl)
@[simp] theorem State.setPt_transits (s : State) (k : Nat) (x : PortTime) : (s.setPt k x).transits = s.transits := (rfl)
@[simp] theorem State.setPt_sramReads (s : State) (k : Nat) (x : PortTime) : (s.setPt k x).sramReads = s.sramReads := (rfl)
@[simp] theorem State.setPt_jn (s : State) (k : Nat) (x : PortTime) : (s.setPt k x).jn = s.jn := (rfl)
@[simp] theorem State.setPt_ports (s : State) (k : Nat) (x : PortTime) : (s.setPt k x).ports = s.ports := (rfl)
@[simp] theorem State.setPt_rings (s : State) (k : Nat) (x : PortTime) : (s.setPt k x).rings = s.rings := (rfl)
@[simp] theorem State.setPt_turn (s : State) (k : Nat) (x : PortTime) : (s.setPt k x).turn = s.turn := (rfl)
@[simp] theorem State.setPt_notify (s : State) (k : Nat) (x : PortTime) : (s.setPt k x).notify = s.notify := (rfl)
@[simp] theorem State.setPt_notes (s : State) (k : Nat) (x : PortTime) : (s.setPt k x).notes = s.notes := (rfl)
@[simp] theorem State.setPt_hostOut (s : State) (k : Nat) (x : PortTime) : (s.setPt k x).hostOut = s.hostOut := (rfl)
@[simp] theorem State.setPt_irqs (s : State) (k : Nat) (x : PortTime) : (s.setPt k x).irqs = s.irqs := (rfl)
@[simp] theorem State.setPt_vfs (s : State) (k : Nat) (x : PortTime) : (s.setPt k x).vfs = s.vfs := (rfl)
@[simp] theorem State.setPt_pcieUp (s : State) (k : Nat) (x : PortTime) : (s.setPt k x).pcieUp = s.pcieUp := (rfl)
@[simp] theorem State.setPt_pcie (s : State) (k : Nat) (x : PortTime) : (s.setPt k x).pcie = s.pcie := (rfl)
@[simp] theorem State.setPt_ats (s : State) (k : Nat) (x : PortTime) : (s.setPt k x).ats = s.ats := (rfl)
@[simp] theorem State.setPt_atsDone (s : State) (k : Nat) (x : PortTime) : (s.setPt k x).atsDone = s.atsDone := (rfl)
@[simp] theorem State.setPt_parts (s : State) (k : Nat) (x : PortTime) : (s.setPt k x).parts = s.parts := (rfl)
@[simp] theorem State.setPt_lock (s : State) (k : Nat) (x : PortTime) : (s.setPt k x).lock = s.lock := (rfl)
@[simp] theorem State.setPt_power (s : State) (k : Nat) (x : PortTime) : (s.setPt k x).power = s.power := (rfl)
@[simp] theorem State.setPt_pins (s : State) (k : Nat) (x : PortTime) : (s.setPt k x).pins = s.pins := (rfl)
@[simp] theorem State.setPt_mon (s : State) (k : Nat) (x : PortTime) : (s.setPt k x).mon = s.mon := (rfl)
@[simp] theorem State.setPt_txn (s : State) (k : Nat) (x : PortTime) : (s.setPt k x).txn = s.txn := (rfl)
@[simp] theorem State.setPt_armedTxns (s : State) (k : Nat) (x : PortTime) : (s.setPt k x).armedTxns = s.armedTxns := (rfl)
@[simp] theorem State.setPt_prot (s : State) (k : Nat) (x : PortTime) : (s.setPt k x).prot = s.prot := (rfl)
@[simp] theorem State.setPt_snapAt (s : State) (k : Nat) (x : PortTime) : (s.setPt k x).snapAt = s.snapAt := (rfl)
@[simp] theorem State.setPt_trace (s : State) (k : Nat) (x : PortTime) : (s.setPt k x).trace = s.trace := (rfl)
@[simp] theorem State.setPt_traceQ (s : State) (k : Nat) (x : PortTime) : (s.setPt k x).traceQ = s.traceQ := (rfl)
@[simp] theorem State.setPt_dump (s : State) (k : Nat) (x : PortTime) : (s.setPt k x).dump = s.dump := (rfl)
@[simp] theorem State.setPt_wfg (s : State) (k : Nat) (x : PortTime) : (s.setPt k x).wfg = s.wfg := (rfl)
@[simp] theorem State.setPt_i3c (s : State) (k : Nat) (x : PortTime) : (s.setPt k x).i3c = s.i3c := (rfl)
@[simp] theorem State.setPt_readData (s : State) (k : Nat) (x : PortTime) : (s.setPt k x).readData = s.readData := (rfl)
@[simp] theorem State.setPt_inject (s : State) (k : Nat) (x : PortTime) : (s.setPt k x).inject = s.inject := (rfl)
@[simp] theorem State.setPt_streams (s : State) (k : Nat) (x : PortTime) : (s.setPt k x).streams = s.streams := (rfl)
@[simp] theorem State.setPt_engine (s : State) (k : Nat) (x : PortTime) : (s.setPt k x).engine = s.engine := (rfl)
@[simp] theorem State.setPt_grants (s : State) (k : Nat) (x : PortTime) : (s.setPt k x).grants = s.grants := (rfl)
@[simp] theorem State.setPt_hbm (s : State) (k : Nat) (x : PortTime) : (s.setPt k x).hbm = s.hbm := (rfl)
@[simp] theorem State.setPt_spray (s : State) (k : Nat) (x : PortTime) : (s.setPt k x).spray = s.spray := (rfl)
@[simp] theorem State.setPt_nseq (s : State) (k : Nat) (x : PortTime) : (s.setPt k x).nseq = s.nseq := (rfl)
@[simp] theorem State.setPt_lastNseq (s : State) (k : Nat) (x : PortTime) : (s.setPt k x).lastNseq = s.lastNseq := (rfl)
@[simp] theorem State.setPt_flipPrev (s : State) (k : Nat) (x : PortTime) : (s.setPt k x).flipPrev = s.flipPrev := (rfl)
@[simp] theorem State.setPt_skipScrub (s : State) (k : Nat) (x : PortTime) : (s.setPt k x).skipScrub = s.skipScrub := (rfl)
@[simp] theorem State.setPt_failedQuarters (s : State) (k : Nat) (x : PortTime) : (s.setPt k x).failedQuarters = s.failedQuarters := (rfl)
@[simp] theorem State.setPt_ethOut (s : State) (k : Nat) (x : PortTime) : (s.setPt k x).ethOut = s.ethOut := (rfl)
@[simp] theorem State.setPt_setNow (s : State) (k : Nat) (x : PortTime) : (s.setPt k x).setNow = s.setNow := (rfl)
@[simp] theorem State.setPt_txnNow (s : State) (k : Nat) (x : PortTime) : (s.setPt k x).txnNow = s.txnNow := (rfl)
@[simp] theorem State.setPt_cycleNow (s : State) (k : Nat) (x : PortTime) : (s.setPt k x).cycleNow = s.cycleNow := (rfl)

@[simp] theorem State.setTile_pending (s : State) (k : Nat) (x : Tile) : (s.setTile k x).pending = s.pending := (rfl)
@[simp] theorem State.setTile_freeCtr (s : State) (k : Nat) (x : Tile) : (s.setTile k x).freeCtr = s.freeCtr := (rfl)
@[simp] theorem State.setTile_regs (s : State) (k : Nat) (x : Tile) : (s.setTile k x).regs = s.regs := (rfl)
@[simp] theorem State.setTile_mem (s : State) (k : Nat) (x : Tile) : (s.setTile k x).mem = s.mem := (rfl)
@[simp] theorem State.setTile_dies (s : State) (k : Nat) (x : Tile) : (s.setTile k x).dies = s.dies := (rfl)
@[simp] theorem State.setTile_evlog (s : State) (k : Nat) (x : Tile) : (s.setTile k x).evlog = s.evlog := (rfl)
@[simp] theorem State.setTile_acceptAt (s : State) (k : Nat) (x : Tile) : (s.setTile k x).acceptAt = s.acceptAt := (rfl)
@[simp] theorem State.setTile_rates (s : State) (k : Nat) (x : Tile) : (s.setTile k x).rates = s.rates := (rfl)
@[simp] theorem State.setTile_time (s : State) (k : Nat) (x : Tile) : (s.setTile k x).time = s.time := (rfl)
@[simp] theorem State.setTile_ptime (s : State) (k : Nat) (x : Tile) : (s.setTile k x).ptime = s.ptime := (rfl)
@[simp] theorem State.setTile_lineCells (s : State) (k : Nat) (x : Tile) : (s.setTile k x).lineCells = s.lineCells := (rfl)
@[simp] theorem State.setTile_tokens (s : State) (k : Nat) (x : Tile) : (s.setTile k x).tokens = s.tokens := (rfl)
@[simp] theorem State.setTile_tokOps (s : State) (k : Nat) (x : Tile) : (s.setTile k x).tokOps = s.tokOps := (rfl)
@[simp] theorem State.setTile_spent (s : State) (k : Nat) (x : Tile) : (s.setTile k x).spent = s.spent := (rfl)
@[simp] theorem State.setTile_recent (s : State) (k : Nat) (x : Tile) : (s.setTile k x).recent = s.recent := (rfl)
@[simp] theorem State.setTile_walkers (s : State) (k : Nat) (x : Tile) : (s.setTile k x).walkers = s.walkers := (rfl)
@[simp] theorem State.setTile_preWalkers (s : State) (k : Nat) (x : Tile) : (s.setTile k x).preWalkers = s.preWalkers := (rfl)
@[simp] theorem State.setTile_transits (s : State) (k : Nat) (x : Tile) : (s.setTile k x).transits = s.transits := (rfl)
@[simp] theorem State.setTile_sramReads (s : State) (k : Nat) (x : Tile) : (s.setTile k x).sramReads = s.sramReads := (rfl)
@[simp] theorem State.setTile_jn (s : State) (k : Nat) (x : Tile) : (s.setTile k x).jn = s.jn := (rfl)
@[simp] theorem State.setTile_ports (s : State) (k : Nat) (x : Tile) : (s.setTile k x).ports = s.ports := (rfl)
@[simp] theorem State.setTile_rings (s : State) (k : Nat) (x : Tile) : (s.setTile k x).rings = s.rings := (rfl)
@[simp] theorem State.setTile_turn (s : State) (k : Nat) (x : Tile) : (s.setTile k x).turn = s.turn := (rfl)
@[simp] theorem State.setTile_notify (s : State) (k : Nat) (x : Tile) : (s.setTile k x).notify = s.notify := (rfl)
@[simp] theorem State.setTile_notes (s : State) (k : Nat) (x : Tile) : (s.setTile k x).notes = s.notes := (rfl)
@[simp] theorem State.setTile_hostOut (s : State) (k : Nat) (x : Tile) : (s.setTile k x).hostOut = s.hostOut := (rfl)
@[simp] theorem State.setTile_irqs (s : State) (k : Nat) (x : Tile) : (s.setTile k x).irqs = s.irqs := (rfl)
@[simp] theorem State.setTile_vfs (s : State) (k : Nat) (x : Tile) : (s.setTile k x).vfs = s.vfs := (rfl)
@[simp] theorem State.setTile_pcieUp (s : State) (k : Nat) (x : Tile) : (s.setTile k x).pcieUp = s.pcieUp := (rfl)
@[simp] theorem State.setTile_pcie (s : State) (k : Nat) (x : Tile) : (s.setTile k x).pcie = s.pcie := (rfl)
@[simp] theorem State.setTile_ats (s : State) (k : Nat) (x : Tile) : (s.setTile k x).ats = s.ats := (rfl)
@[simp] theorem State.setTile_atsDone (s : State) (k : Nat) (x : Tile) : (s.setTile k x).atsDone = s.atsDone := (rfl)
@[simp] theorem State.setTile_parts (s : State) (k : Nat) (x : Tile) : (s.setTile k x).parts = s.parts := (rfl)
@[simp] theorem State.setTile_lock (s : State) (k : Nat) (x : Tile) : (s.setTile k x).lock = s.lock := (rfl)
@[simp] theorem State.setTile_power (s : State) (k : Nat) (x : Tile) : (s.setTile k x).power = s.power := (rfl)
@[simp] theorem State.setTile_pins (s : State) (k : Nat) (x : Tile) : (s.setTile k x).pins = s.pins := (rfl)
@[simp] theorem State.setTile_mon (s : State) (k : Nat) (x : Tile) : (s.setTile k x).mon = s.mon := (rfl)
@[simp] theorem State.setTile_txn (s : State) (k : Nat) (x : Tile) : (s.setTile k x).txn = s.txn := (rfl)
@[simp] theorem State.setTile_armedTxns (s : State) (k : Nat) (x : Tile) : (s.setTile k x).armedTxns = s.armedTxns := (rfl)
@[simp] theorem State.setTile_prot (s : State) (k : Nat) (x : Tile) : (s.setTile k x).prot = s.prot := (rfl)
@[simp] theorem State.setTile_snapAt (s : State) (k : Nat) (x : Tile) : (s.setTile k x).snapAt = s.snapAt := (rfl)
@[simp] theorem State.setTile_trace (s : State) (k : Nat) (x : Tile) : (s.setTile k x).trace = s.trace := (rfl)
@[simp] theorem State.setTile_traceQ (s : State) (k : Nat) (x : Tile) : (s.setTile k x).traceQ = s.traceQ := (rfl)
@[simp] theorem State.setTile_dump (s : State) (k : Nat) (x : Tile) : (s.setTile k x).dump = s.dump := (rfl)
@[simp] theorem State.setTile_wfg (s : State) (k : Nat) (x : Tile) : (s.setTile k x).wfg = s.wfg := (rfl)
@[simp] theorem State.setTile_i3c (s : State) (k : Nat) (x : Tile) : (s.setTile k x).i3c = s.i3c := (rfl)
@[simp] theorem State.setTile_readData (s : State) (k : Nat) (x : Tile) : (s.setTile k x).readData = s.readData := (rfl)
@[simp] theorem State.setTile_inject (s : State) (k : Nat) (x : Tile) : (s.setTile k x).inject = s.inject := (rfl)
@[simp] theorem State.setTile_streams (s : State) (k : Nat) (x : Tile) : (s.setTile k x).streams = s.streams := (rfl)
@[simp] theorem State.setTile_engine (s : State) (k : Nat) (x : Tile) : (s.setTile k x).engine = s.engine := (rfl)
@[simp] theorem State.setTile_grants (s : State) (k : Nat) (x : Tile) : (s.setTile k x).grants = s.grants := (rfl)
@[simp] theorem State.setTile_hbm (s : State) (k : Nat) (x : Tile) : (s.setTile k x).hbm = s.hbm := (rfl)
@[simp] theorem State.setTile_spray (s : State) (k : Nat) (x : Tile) : (s.setTile k x).spray = s.spray := (rfl)
@[simp] theorem State.setTile_nseq (s : State) (k : Nat) (x : Tile) : (s.setTile k x).nseq = s.nseq := (rfl)
@[simp] theorem State.setTile_lastNseq (s : State) (k : Nat) (x : Tile) : (s.setTile k x).lastNseq = s.lastNseq := (rfl)
@[simp] theorem State.setTile_flipPrev (s : State) (k : Nat) (x : Tile) : (s.setTile k x).flipPrev = s.flipPrev := (rfl)
@[simp] theorem State.setTile_skipScrub (s : State) (k : Nat) (x : Tile) : (s.setTile k x).skipScrub = s.skipScrub := (rfl)
@[simp] theorem State.setTile_failedQuarters (s : State) (k : Nat) (x : Tile) : (s.setTile k x).failedQuarters = s.failedQuarters := (rfl)
@[simp] theorem State.setTile_ethOut (s : State) (k : Nat) (x : Tile) : (s.setTile k x).ethOut = s.ethOut := (rfl)
@[simp] theorem State.setTile_setNow (s : State) (k : Nat) (x : Tile) : (s.setTile k x).setNow = s.setNow := (rfl)
@[simp] theorem State.setTile_txnNow (s : State) (k : Nat) (x : Tile) : (s.setTile k x).txnNow = s.txnNow := (rfl)
@[simp] theorem State.setTile_cycleNow (s : State) (k : Nat) (x : Tile) : (s.setTile k x).cycleNow = s.cycleNow := (rfl)

@[simp] theorem State.setToken_pending (s : State) (k : Nat) (x : Token) : (s.setToken k x).pending = s.pending := (rfl)
@[simp] theorem State.setToken_freeCtr (s : State) (k : Nat) (x : Token) : (s.setToken k x).freeCtr = s.freeCtr := (rfl)
@[simp] theorem State.setToken_regs (s : State) (k : Nat) (x : Token) : (s.setToken k x).regs = s.regs := (rfl)
@[simp] theorem State.setToken_mem (s : State) (k : Nat) (x : Token) : (s.setToken k x).mem = s.mem := (rfl)
@[simp] theorem State.setToken_dies (s : State) (k : Nat) (x : Token) : (s.setToken k x).dies = s.dies := (rfl)
@[simp] theorem State.setToken_evlog (s : State) (k : Nat) (x : Token) : (s.setToken k x).evlog = s.evlog := (rfl)
@[simp] theorem State.setToken_acceptAt (s : State) (k : Nat) (x : Token) : (s.setToken k x).acceptAt = s.acceptAt := (rfl)
@[simp] theorem State.setToken_rates (s : State) (k : Nat) (x : Token) : (s.setToken k x).rates = s.rates := (rfl)
@[simp] theorem State.setToken_time (s : State) (k : Nat) (x : Token) : (s.setToken k x).time = s.time := (rfl)
@[simp] theorem State.setToken_ptime (s : State) (k : Nat) (x : Token) : (s.setToken k x).ptime = s.ptime := (rfl)
@[simp] theorem State.setToken_tiles (s : State) (k : Nat) (x : Token) : (s.setToken k x).tiles = s.tiles := (rfl)
@[simp] theorem State.setToken_lineCells (s : State) (k : Nat) (x : Token) : (s.setToken k x).lineCells = s.lineCells := (rfl)
@[simp] theorem State.setToken_tokOps (s : State) (k : Nat) (x : Token) : (s.setToken k x).tokOps = s.tokOps := (rfl)
@[simp] theorem State.setToken_spent (s : State) (k : Nat) (x : Token) : (s.setToken k x).spent = s.spent := (rfl)
@[simp] theorem State.setToken_recent (s : State) (k : Nat) (x : Token) : (s.setToken k x).recent = s.recent := (rfl)
@[simp] theorem State.setToken_walkers (s : State) (k : Nat) (x : Token) : (s.setToken k x).walkers = s.walkers := (rfl)
@[simp] theorem State.setToken_preWalkers (s : State) (k : Nat) (x : Token) : (s.setToken k x).preWalkers = s.preWalkers := (rfl)
@[simp] theorem State.setToken_transits (s : State) (k : Nat) (x : Token) : (s.setToken k x).transits = s.transits := (rfl)
@[simp] theorem State.setToken_sramReads (s : State) (k : Nat) (x : Token) : (s.setToken k x).sramReads = s.sramReads := (rfl)
@[simp] theorem State.setToken_jn (s : State) (k : Nat) (x : Token) : (s.setToken k x).jn = s.jn := (rfl)
@[simp] theorem State.setToken_ports (s : State) (k : Nat) (x : Token) : (s.setToken k x).ports = s.ports := (rfl)
@[simp] theorem State.setToken_rings (s : State) (k : Nat) (x : Token) : (s.setToken k x).rings = s.rings := (rfl)
@[simp] theorem State.setToken_turn (s : State) (k : Nat) (x : Token) : (s.setToken k x).turn = s.turn := (rfl)
@[simp] theorem State.setToken_notify (s : State) (k : Nat) (x : Token) : (s.setToken k x).notify = s.notify := (rfl)
@[simp] theorem State.setToken_notes (s : State) (k : Nat) (x : Token) : (s.setToken k x).notes = s.notes := (rfl)
@[simp] theorem State.setToken_hostOut (s : State) (k : Nat) (x : Token) : (s.setToken k x).hostOut = s.hostOut := (rfl)
@[simp] theorem State.setToken_irqs (s : State) (k : Nat) (x : Token) : (s.setToken k x).irqs = s.irqs := (rfl)
@[simp] theorem State.setToken_vfs (s : State) (k : Nat) (x : Token) : (s.setToken k x).vfs = s.vfs := (rfl)
@[simp] theorem State.setToken_pcieUp (s : State) (k : Nat) (x : Token) : (s.setToken k x).pcieUp = s.pcieUp := (rfl)
@[simp] theorem State.setToken_pcie (s : State) (k : Nat) (x : Token) : (s.setToken k x).pcie = s.pcie := (rfl)
@[simp] theorem State.setToken_ats (s : State) (k : Nat) (x : Token) : (s.setToken k x).ats = s.ats := (rfl)
@[simp] theorem State.setToken_atsDone (s : State) (k : Nat) (x : Token) : (s.setToken k x).atsDone = s.atsDone := (rfl)
@[simp] theorem State.setToken_parts (s : State) (k : Nat) (x : Token) : (s.setToken k x).parts = s.parts := (rfl)
@[simp] theorem State.setToken_lock (s : State) (k : Nat) (x : Token) : (s.setToken k x).lock = s.lock := (rfl)
@[simp] theorem State.setToken_power (s : State) (k : Nat) (x : Token) : (s.setToken k x).power = s.power := (rfl)
@[simp] theorem State.setToken_pins (s : State) (k : Nat) (x : Token) : (s.setToken k x).pins = s.pins := (rfl)
@[simp] theorem State.setToken_mon (s : State) (k : Nat) (x : Token) : (s.setToken k x).mon = s.mon := (rfl)
@[simp] theorem State.setToken_txn (s : State) (k : Nat) (x : Token) : (s.setToken k x).txn = s.txn := (rfl)
@[simp] theorem State.setToken_armedTxns (s : State) (k : Nat) (x : Token) : (s.setToken k x).armedTxns = s.armedTxns := (rfl)
@[simp] theorem State.setToken_prot (s : State) (k : Nat) (x : Token) : (s.setToken k x).prot = s.prot := (rfl)
@[simp] theorem State.setToken_snapAt (s : State) (k : Nat) (x : Token) : (s.setToken k x).snapAt = s.snapAt := (rfl)
@[simp] theorem State.setToken_trace (s : State) (k : Nat) (x : Token) : (s.setToken k x).trace = s.trace := (rfl)
@[simp] theorem State.setToken_traceQ (s : State) (k : Nat) (x : Token) : (s.setToken k x).traceQ = s.traceQ := (rfl)
@[simp] theorem State.setToken_dump (s : State) (k : Nat) (x : Token) : (s.setToken k x).dump = s.dump := (rfl)
@[simp] theorem State.setToken_wfg (s : State) (k : Nat) (x : Token) : (s.setToken k x).wfg = s.wfg := (rfl)
@[simp] theorem State.setToken_i3c (s : State) (k : Nat) (x : Token) : (s.setToken k x).i3c = s.i3c := (rfl)
@[simp] theorem State.setToken_readData (s : State) (k : Nat) (x : Token) : (s.setToken k x).readData = s.readData := (rfl)
@[simp] theorem State.setToken_inject (s : State) (k : Nat) (x : Token) : (s.setToken k x).inject = s.inject := (rfl)
@[simp] theorem State.setToken_streams (s : State) (k : Nat) (x : Token) : (s.setToken k x).streams = s.streams := (rfl)
@[simp] theorem State.setToken_engine (s : State) (k : Nat) (x : Token) : (s.setToken k x).engine = s.engine := (rfl)
@[simp] theorem State.setToken_grants (s : State) (k : Nat) (x : Token) : (s.setToken k x).grants = s.grants := (rfl)
@[simp] theorem State.setToken_hbm (s : State) (k : Nat) (x : Token) : (s.setToken k x).hbm = s.hbm := (rfl)
@[simp] theorem State.setToken_spray (s : State) (k : Nat) (x : Token) : (s.setToken k x).spray = s.spray := (rfl)
@[simp] theorem State.setToken_nseq (s : State) (k : Nat) (x : Token) : (s.setToken k x).nseq = s.nseq := (rfl)
@[simp] theorem State.setToken_lastNseq (s : State) (k : Nat) (x : Token) : (s.setToken k x).lastNseq = s.lastNseq := (rfl)
@[simp] theorem State.setToken_flipPrev (s : State) (k : Nat) (x : Token) : (s.setToken k x).flipPrev = s.flipPrev := (rfl)
@[simp] theorem State.setToken_skipScrub (s : State) (k : Nat) (x : Token) : (s.setToken k x).skipScrub = s.skipScrub := (rfl)
@[simp] theorem State.setToken_failedQuarters (s : State) (k : Nat) (x : Token) : (s.setToken k x).failedQuarters = s.failedQuarters := (rfl)
@[simp] theorem State.setToken_ethOut (s : State) (k : Nat) (x : Token) : (s.setToken k x).ethOut = s.ethOut := (rfl)
@[simp] theorem State.setToken_setNow (s : State) (k : Nat) (x : Token) : (s.setToken k x).setNow = s.setNow := (rfl)
@[simp] theorem State.setToken_txnNow (s : State) (k : Nat) (x : Token) : (s.setToken k x).txnNow = s.txnNow := (rfl)
@[simp] theorem State.setToken_cycleNow (s : State) (k : Nat) (x : Token) : (s.setToken k x).cycleNow = s.cycleNow := (rfl)

@[simp] theorem State.setWalker_pending (s : State) (k : Nat) (x : Walker) : (s.setWalker k x).pending = s.pending := (rfl)
@[simp] theorem State.setWalker_freeCtr (s : State) (k : Nat) (x : Walker) : (s.setWalker k x).freeCtr = s.freeCtr := (rfl)
@[simp] theorem State.setWalker_regs (s : State) (k : Nat) (x : Walker) : (s.setWalker k x).regs = s.regs := (rfl)
@[simp] theorem State.setWalker_mem (s : State) (k : Nat) (x : Walker) : (s.setWalker k x).mem = s.mem := (rfl)
@[simp] theorem State.setWalker_dies (s : State) (k : Nat) (x : Walker) : (s.setWalker k x).dies = s.dies := (rfl)
@[simp] theorem State.setWalker_evlog (s : State) (k : Nat) (x : Walker) : (s.setWalker k x).evlog = s.evlog := (rfl)
@[simp] theorem State.setWalker_acceptAt (s : State) (k : Nat) (x : Walker) : (s.setWalker k x).acceptAt = s.acceptAt := (rfl)
@[simp] theorem State.setWalker_rates (s : State) (k : Nat) (x : Walker) : (s.setWalker k x).rates = s.rates := (rfl)
@[simp] theorem State.setWalker_time (s : State) (k : Nat) (x : Walker) : (s.setWalker k x).time = s.time := (rfl)
@[simp] theorem State.setWalker_ptime (s : State) (k : Nat) (x : Walker) : (s.setWalker k x).ptime = s.ptime := (rfl)
@[simp] theorem State.setWalker_tiles (s : State) (k : Nat) (x : Walker) : (s.setWalker k x).tiles = s.tiles := (rfl)
@[simp] theorem State.setWalker_lineCells (s : State) (k : Nat) (x : Walker) : (s.setWalker k x).lineCells = s.lineCells := (rfl)
@[simp] theorem State.setWalker_tokens (s : State) (k : Nat) (x : Walker) : (s.setWalker k x).tokens = s.tokens := (rfl)
@[simp] theorem State.setWalker_tokOps (s : State) (k : Nat) (x : Walker) : (s.setWalker k x).tokOps = s.tokOps := (rfl)
@[simp] theorem State.setWalker_spent (s : State) (k : Nat) (x : Walker) : (s.setWalker k x).spent = s.spent := (rfl)
@[simp] theorem State.setWalker_recent (s : State) (k : Nat) (x : Walker) : (s.setWalker k x).recent = s.recent := (rfl)
@[simp] theorem State.setWalker_preWalkers (s : State) (k : Nat) (x : Walker) : (s.setWalker k x).preWalkers = s.preWalkers := (rfl)
@[simp] theorem State.setWalker_transits (s : State) (k : Nat) (x : Walker) : (s.setWalker k x).transits = s.transits := (rfl)
@[simp] theorem State.setWalker_sramReads (s : State) (k : Nat) (x : Walker) : (s.setWalker k x).sramReads = s.sramReads := (rfl)
@[simp] theorem State.setWalker_jn (s : State) (k : Nat) (x : Walker) : (s.setWalker k x).jn = s.jn := (rfl)
@[simp] theorem State.setWalker_ports (s : State) (k : Nat) (x : Walker) : (s.setWalker k x).ports = s.ports := (rfl)
@[simp] theorem State.setWalker_rings (s : State) (k : Nat) (x : Walker) : (s.setWalker k x).rings = s.rings := (rfl)
@[simp] theorem State.setWalker_turn (s : State) (k : Nat) (x : Walker) : (s.setWalker k x).turn = s.turn := (rfl)
@[simp] theorem State.setWalker_notify (s : State) (k : Nat) (x : Walker) : (s.setWalker k x).notify = s.notify := (rfl)
@[simp] theorem State.setWalker_notes (s : State) (k : Nat) (x : Walker) : (s.setWalker k x).notes = s.notes := (rfl)
@[simp] theorem State.setWalker_hostOut (s : State) (k : Nat) (x : Walker) : (s.setWalker k x).hostOut = s.hostOut := (rfl)
@[simp] theorem State.setWalker_irqs (s : State) (k : Nat) (x : Walker) : (s.setWalker k x).irqs = s.irqs := (rfl)
@[simp] theorem State.setWalker_vfs (s : State) (k : Nat) (x : Walker) : (s.setWalker k x).vfs = s.vfs := (rfl)
@[simp] theorem State.setWalker_pcieUp (s : State) (k : Nat) (x : Walker) : (s.setWalker k x).pcieUp = s.pcieUp := (rfl)
@[simp] theorem State.setWalker_pcie (s : State) (k : Nat) (x : Walker) : (s.setWalker k x).pcie = s.pcie := (rfl)
@[simp] theorem State.setWalker_ats (s : State) (k : Nat) (x : Walker) : (s.setWalker k x).ats = s.ats := (rfl)
@[simp] theorem State.setWalker_atsDone (s : State) (k : Nat) (x : Walker) : (s.setWalker k x).atsDone = s.atsDone := (rfl)
@[simp] theorem State.setWalker_parts (s : State) (k : Nat) (x : Walker) : (s.setWalker k x).parts = s.parts := (rfl)
@[simp] theorem State.setWalker_lock (s : State) (k : Nat) (x : Walker) : (s.setWalker k x).lock = s.lock := (rfl)
@[simp] theorem State.setWalker_power (s : State) (k : Nat) (x : Walker) : (s.setWalker k x).power = s.power := (rfl)
@[simp] theorem State.setWalker_pins (s : State) (k : Nat) (x : Walker) : (s.setWalker k x).pins = s.pins := (rfl)
@[simp] theorem State.setWalker_mon (s : State) (k : Nat) (x : Walker) : (s.setWalker k x).mon = s.mon := (rfl)
@[simp] theorem State.setWalker_txn (s : State) (k : Nat) (x : Walker) : (s.setWalker k x).txn = s.txn := (rfl)
@[simp] theorem State.setWalker_armedTxns (s : State) (k : Nat) (x : Walker) : (s.setWalker k x).armedTxns = s.armedTxns := (rfl)
@[simp] theorem State.setWalker_prot (s : State) (k : Nat) (x : Walker) : (s.setWalker k x).prot = s.prot := (rfl)
@[simp] theorem State.setWalker_snapAt (s : State) (k : Nat) (x : Walker) : (s.setWalker k x).snapAt = s.snapAt := (rfl)
@[simp] theorem State.setWalker_trace (s : State) (k : Nat) (x : Walker) : (s.setWalker k x).trace = s.trace := (rfl)
@[simp] theorem State.setWalker_traceQ (s : State) (k : Nat) (x : Walker) : (s.setWalker k x).traceQ = s.traceQ := (rfl)
@[simp] theorem State.setWalker_dump (s : State) (k : Nat) (x : Walker) : (s.setWalker k x).dump = s.dump := (rfl)
@[simp] theorem State.setWalker_wfg (s : State) (k : Nat) (x : Walker) : (s.setWalker k x).wfg = s.wfg := (rfl)
@[simp] theorem State.setWalker_i3c (s : State) (k : Nat) (x : Walker) : (s.setWalker k x).i3c = s.i3c := (rfl)
@[simp] theorem State.setWalker_readData (s : State) (k : Nat) (x : Walker) : (s.setWalker k x).readData = s.readData := (rfl)
@[simp] theorem State.setWalker_inject (s : State) (k : Nat) (x : Walker) : (s.setWalker k x).inject = s.inject := (rfl)
@[simp] theorem State.setWalker_streams (s : State) (k : Nat) (x : Walker) : (s.setWalker k x).streams = s.streams := (rfl)
@[simp] theorem State.setWalker_engine (s : State) (k : Nat) (x : Walker) : (s.setWalker k x).engine = s.engine := (rfl)
@[simp] theorem State.setWalker_grants (s : State) (k : Nat) (x : Walker) : (s.setWalker k x).grants = s.grants := (rfl)
@[simp] theorem State.setWalker_hbm (s : State) (k : Nat) (x : Walker) : (s.setWalker k x).hbm = s.hbm := (rfl)
@[simp] theorem State.setWalker_spray (s : State) (k : Nat) (x : Walker) : (s.setWalker k x).spray = s.spray := (rfl)
@[simp] theorem State.setWalker_nseq (s : State) (k : Nat) (x : Walker) : (s.setWalker k x).nseq = s.nseq := (rfl)
@[simp] theorem State.setWalker_lastNseq (s : State) (k : Nat) (x : Walker) : (s.setWalker k x).lastNseq = s.lastNseq := (rfl)
@[simp] theorem State.setWalker_flipPrev (s : State) (k : Nat) (x : Walker) : (s.setWalker k x).flipPrev = s.flipPrev := (rfl)
@[simp] theorem State.setWalker_skipScrub (s : State) (k : Nat) (x : Walker) : (s.setWalker k x).skipScrub = s.skipScrub := (rfl)
@[simp] theorem State.setWalker_failedQuarters (s : State) (k : Nat) (x : Walker) : (s.setWalker k x).failedQuarters = s.failedQuarters := (rfl)
@[simp] theorem State.setWalker_ethOut (s : State) (k : Nat) (x : Walker) : (s.setWalker k x).ethOut = s.ethOut := (rfl)
@[simp] theorem State.setWalker_setNow (s : State) (k : Nat) (x : Walker) : (s.setWalker k x).setNow = s.setNow := (rfl)
@[simp] theorem State.setWalker_txnNow (s : State) (k : Nat) (x : Walker) : (s.setWalker k x).txnNow = s.txnNow := (rfl)
@[simp] theorem State.setWalker_cycleNow (s : State) (k : Nat) (x : Walker) : (s.setWalker k x).cycleNow = s.cycleNow := (rfl)

@[simp] theorem State.setPreWalker_pending (s : State) (k : Nat) (x : Walker) : (s.setPreWalker k x).pending = s.pending := (rfl)
@[simp] theorem State.setPreWalker_freeCtr (s : State) (k : Nat) (x : Walker) : (s.setPreWalker k x).freeCtr = s.freeCtr := (rfl)
@[simp] theorem State.setPreWalker_regs (s : State) (k : Nat) (x : Walker) : (s.setPreWalker k x).regs = s.regs := (rfl)
@[simp] theorem State.setPreWalker_mem (s : State) (k : Nat) (x : Walker) : (s.setPreWalker k x).mem = s.mem := (rfl)
@[simp] theorem State.setPreWalker_dies (s : State) (k : Nat) (x : Walker) : (s.setPreWalker k x).dies = s.dies := (rfl)
@[simp] theorem State.setPreWalker_evlog (s : State) (k : Nat) (x : Walker) : (s.setPreWalker k x).evlog = s.evlog := (rfl)
@[simp] theorem State.setPreWalker_acceptAt (s : State) (k : Nat) (x : Walker) : (s.setPreWalker k x).acceptAt = s.acceptAt := (rfl)
@[simp] theorem State.setPreWalker_rates (s : State) (k : Nat) (x : Walker) : (s.setPreWalker k x).rates = s.rates := (rfl)
@[simp] theorem State.setPreWalker_time (s : State) (k : Nat) (x : Walker) : (s.setPreWalker k x).time = s.time := (rfl)
@[simp] theorem State.setPreWalker_ptime (s : State) (k : Nat) (x : Walker) : (s.setPreWalker k x).ptime = s.ptime := (rfl)
@[simp] theorem State.setPreWalker_tiles (s : State) (k : Nat) (x : Walker) : (s.setPreWalker k x).tiles = s.tiles := (rfl)
@[simp] theorem State.setPreWalker_lineCells (s : State) (k : Nat) (x : Walker) : (s.setPreWalker k x).lineCells = s.lineCells := (rfl)
@[simp] theorem State.setPreWalker_tokens (s : State) (k : Nat) (x : Walker) : (s.setPreWalker k x).tokens = s.tokens := (rfl)
@[simp] theorem State.setPreWalker_tokOps (s : State) (k : Nat) (x : Walker) : (s.setPreWalker k x).tokOps = s.tokOps := (rfl)
@[simp] theorem State.setPreWalker_spent (s : State) (k : Nat) (x : Walker) : (s.setPreWalker k x).spent = s.spent := (rfl)
@[simp] theorem State.setPreWalker_recent (s : State) (k : Nat) (x : Walker) : (s.setPreWalker k x).recent = s.recent := (rfl)
@[simp] theorem State.setPreWalker_walkers (s : State) (k : Nat) (x : Walker) : (s.setPreWalker k x).walkers = s.walkers := (rfl)
@[simp] theorem State.setPreWalker_transits (s : State) (k : Nat) (x : Walker) : (s.setPreWalker k x).transits = s.transits := (rfl)
@[simp] theorem State.setPreWalker_sramReads (s : State) (k : Nat) (x : Walker) : (s.setPreWalker k x).sramReads = s.sramReads := (rfl)
@[simp] theorem State.setPreWalker_jn (s : State) (k : Nat) (x : Walker) : (s.setPreWalker k x).jn = s.jn := (rfl)
@[simp] theorem State.setPreWalker_ports (s : State) (k : Nat) (x : Walker) : (s.setPreWalker k x).ports = s.ports := (rfl)
@[simp] theorem State.setPreWalker_rings (s : State) (k : Nat) (x : Walker) : (s.setPreWalker k x).rings = s.rings := (rfl)
@[simp] theorem State.setPreWalker_turn (s : State) (k : Nat) (x : Walker) : (s.setPreWalker k x).turn = s.turn := (rfl)
@[simp] theorem State.setPreWalker_notify (s : State) (k : Nat) (x : Walker) : (s.setPreWalker k x).notify = s.notify := (rfl)
@[simp] theorem State.setPreWalker_notes (s : State) (k : Nat) (x : Walker) : (s.setPreWalker k x).notes = s.notes := (rfl)
@[simp] theorem State.setPreWalker_hostOut (s : State) (k : Nat) (x : Walker) : (s.setPreWalker k x).hostOut = s.hostOut := (rfl)
@[simp] theorem State.setPreWalker_irqs (s : State) (k : Nat) (x : Walker) : (s.setPreWalker k x).irqs = s.irqs := (rfl)
@[simp] theorem State.setPreWalker_vfs (s : State) (k : Nat) (x : Walker) : (s.setPreWalker k x).vfs = s.vfs := (rfl)
@[simp] theorem State.setPreWalker_pcieUp (s : State) (k : Nat) (x : Walker) : (s.setPreWalker k x).pcieUp = s.pcieUp := (rfl)
@[simp] theorem State.setPreWalker_pcie (s : State) (k : Nat) (x : Walker) : (s.setPreWalker k x).pcie = s.pcie := (rfl)
@[simp] theorem State.setPreWalker_ats (s : State) (k : Nat) (x : Walker) : (s.setPreWalker k x).ats = s.ats := (rfl)
@[simp] theorem State.setPreWalker_atsDone (s : State) (k : Nat) (x : Walker) : (s.setPreWalker k x).atsDone = s.atsDone := (rfl)
@[simp] theorem State.setPreWalker_parts (s : State) (k : Nat) (x : Walker) : (s.setPreWalker k x).parts = s.parts := (rfl)
@[simp] theorem State.setPreWalker_lock (s : State) (k : Nat) (x : Walker) : (s.setPreWalker k x).lock = s.lock := (rfl)
@[simp] theorem State.setPreWalker_power (s : State) (k : Nat) (x : Walker) : (s.setPreWalker k x).power = s.power := (rfl)
@[simp] theorem State.setPreWalker_pins (s : State) (k : Nat) (x : Walker) : (s.setPreWalker k x).pins = s.pins := (rfl)
@[simp] theorem State.setPreWalker_mon (s : State) (k : Nat) (x : Walker) : (s.setPreWalker k x).mon = s.mon := (rfl)
@[simp] theorem State.setPreWalker_txn (s : State) (k : Nat) (x : Walker) : (s.setPreWalker k x).txn = s.txn := (rfl)
@[simp] theorem State.setPreWalker_armedTxns (s : State) (k : Nat) (x : Walker) : (s.setPreWalker k x).armedTxns = s.armedTxns := (rfl)
@[simp] theorem State.setPreWalker_prot (s : State) (k : Nat) (x : Walker) : (s.setPreWalker k x).prot = s.prot := (rfl)
@[simp] theorem State.setPreWalker_snapAt (s : State) (k : Nat) (x : Walker) : (s.setPreWalker k x).snapAt = s.snapAt := (rfl)
@[simp] theorem State.setPreWalker_trace (s : State) (k : Nat) (x : Walker) : (s.setPreWalker k x).trace = s.trace := (rfl)
@[simp] theorem State.setPreWalker_traceQ (s : State) (k : Nat) (x : Walker) : (s.setPreWalker k x).traceQ = s.traceQ := (rfl)
@[simp] theorem State.setPreWalker_dump (s : State) (k : Nat) (x : Walker) : (s.setPreWalker k x).dump = s.dump := (rfl)
@[simp] theorem State.setPreWalker_wfg (s : State) (k : Nat) (x : Walker) : (s.setPreWalker k x).wfg = s.wfg := (rfl)
@[simp] theorem State.setPreWalker_i3c (s : State) (k : Nat) (x : Walker) : (s.setPreWalker k x).i3c = s.i3c := (rfl)
@[simp] theorem State.setPreWalker_readData (s : State) (k : Nat) (x : Walker) : (s.setPreWalker k x).readData = s.readData := (rfl)
@[simp] theorem State.setPreWalker_inject (s : State) (k : Nat) (x : Walker) : (s.setPreWalker k x).inject = s.inject := (rfl)
@[simp] theorem State.setPreWalker_streams (s : State) (k : Nat) (x : Walker) : (s.setPreWalker k x).streams = s.streams := (rfl)
@[simp] theorem State.setPreWalker_engine (s : State) (k : Nat) (x : Walker) : (s.setPreWalker k x).engine = s.engine := (rfl)
@[simp] theorem State.setPreWalker_grants (s : State) (k : Nat) (x : Walker) : (s.setPreWalker k x).grants = s.grants := (rfl)
@[simp] theorem State.setPreWalker_hbm (s : State) (k : Nat) (x : Walker) : (s.setPreWalker k x).hbm = s.hbm := (rfl)
@[simp] theorem State.setPreWalker_spray (s : State) (k : Nat) (x : Walker) : (s.setPreWalker k x).spray = s.spray := (rfl)
@[simp] theorem State.setPreWalker_nseq (s : State) (k : Nat) (x : Walker) : (s.setPreWalker k x).nseq = s.nseq := (rfl)
@[simp] theorem State.setPreWalker_lastNseq (s : State) (k : Nat) (x : Walker) : (s.setPreWalker k x).lastNseq = s.lastNseq := (rfl)
@[simp] theorem State.setPreWalker_flipPrev (s : State) (k : Nat) (x : Walker) : (s.setPreWalker k x).flipPrev = s.flipPrev := (rfl)
@[simp] theorem State.setPreWalker_skipScrub (s : State) (k : Nat) (x : Walker) : (s.setPreWalker k x).skipScrub = s.skipScrub := (rfl)
@[simp] theorem State.setPreWalker_failedQuarters (s : State) (k : Nat) (x : Walker) : (s.setPreWalker k x).failedQuarters = s.failedQuarters := (rfl)
@[simp] theorem State.setPreWalker_ethOut (s : State) (k : Nat) (x : Walker) : (s.setPreWalker k x).ethOut = s.ethOut := (rfl)
@[simp] theorem State.setPreWalker_setNow (s : State) (k : Nat) (x : Walker) : (s.setPreWalker k x).setNow = s.setNow := (rfl)
@[simp] theorem State.setPreWalker_txnNow (s : State) (k : Nat) (x : Walker) : (s.setPreWalker k x).txnNow = s.txnNow := (rfl)
@[simp] theorem State.setPreWalker_cycleNow (s : State) (k : Nat) (x : Walker) : (s.setPreWalker k x).cycleNow = s.cycleNow := (rfl)

@[simp] theorem State.setPort_pending (s : State) (k : Nat) (x : Port) : (s.setPort k x).pending = s.pending := (rfl)
@[simp] theorem State.setPort_freeCtr (s : State) (k : Nat) (x : Port) : (s.setPort k x).freeCtr = s.freeCtr := (rfl)
@[simp] theorem State.setPort_regs (s : State) (k : Nat) (x : Port) : (s.setPort k x).regs = s.regs := (rfl)
@[simp] theorem State.setPort_mem (s : State) (k : Nat) (x : Port) : (s.setPort k x).mem = s.mem := (rfl)
@[simp] theorem State.setPort_dies (s : State) (k : Nat) (x : Port) : (s.setPort k x).dies = s.dies := (rfl)
@[simp] theorem State.setPort_evlog (s : State) (k : Nat) (x : Port) : (s.setPort k x).evlog = s.evlog := (rfl)
@[simp] theorem State.setPort_acceptAt (s : State) (k : Nat) (x : Port) : (s.setPort k x).acceptAt = s.acceptAt := (rfl)
@[simp] theorem State.setPort_rates (s : State) (k : Nat) (x : Port) : (s.setPort k x).rates = s.rates := (rfl)
@[simp] theorem State.setPort_time (s : State) (k : Nat) (x : Port) : (s.setPort k x).time = s.time := (rfl)
@[simp] theorem State.setPort_ptime (s : State) (k : Nat) (x : Port) : (s.setPort k x).ptime = s.ptime := (rfl)
@[simp] theorem State.setPort_tiles (s : State) (k : Nat) (x : Port) : (s.setPort k x).tiles = s.tiles := (rfl)
@[simp] theorem State.setPort_lineCells (s : State) (k : Nat) (x : Port) : (s.setPort k x).lineCells = s.lineCells := (rfl)
@[simp] theorem State.setPort_tokens (s : State) (k : Nat) (x : Port) : (s.setPort k x).tokens = s.tokens := (rfl)
@[simp] theorem State.setPort_tokOps (s : State) (k : Nat) (x : Port) : (s.setPort k x).tokOps = s.tokOps := (rfl)
@[simp] theorem State.setPort_spent (s : State) (k : Nat) (x : Port) : (s.setPort k x).spent = s.spent := (rfl)
@[simp] theorem State.setPort_recent (s : State) (k : Nat) (x : Port) : (s.setPort k x).recent = s.recent := (rfl)
@[simp] theorem State.setPort_walkers (s : State) (k : Nat) (x : Port) : (s.setPort k x).walkers = s.walkers := (rfl)
@[simp] theorem State.setPort_preWalkers (s : State) (k : Nat) (x : Port) : (s.setPort k x).preWalkers = s.preWalkers := (rfl)
@[simp] theorem State.setPort_transits (s : State) (k : Nat) (x : Port) : (s.setPort k x).transits = s.transits := (rfl)
@[simp] theorem State.setPort_sramReads (s : State) (k : Nat) (x : Port) : (s.setPort k x).sramReads = s.sramReads := (rfl)
@[simp] theorem State.setPort_jn (s : State) (k : Nat) (x : Port) : (s.setPort k x).jn = s.jn := (rfl)
@[simp] theorem State.setPort_rings (s : State) (k : Nat) (x : Port) : (s.setPort k x).rings = s.rings := (rfl)
@[simp] theorem State.setPort_turn (s : State) (k : Nat) (x : Port) : (s.setPort k x).turn = s.turn := (rfl)
@[simp] theorem State.setPort_notify (s : State) (k : Nat) (x : Port) : (s.setPort k x).notify = s.notify := (rfl)
@[simp] theorem State.setPort_notes (s : State) (k : Nat) (x : Port) : (s.setPort k x).notes = s.notes := (rfl)
@[simp] theorem State.setPort_hostOut (s : State) (k : Nat) (x : Port) : (s.setPort k x).hostOut = s.hostOut := (rfl)
@[simp] theorem State.setPort_irqs (s : State) (k : Nat) (x : Port) : (s.setPort k x).irqs = s.irqs := (rfl)
@[simp] theorem State.setPort_vfs (s : State) (k : Nat) (x : Port) : (s.setPort k x).vfs = s.vfs := (rfl)
@[simp] theorem State.setPort_pcieUp (s : State) (k : Nat) (x : Port) : (s.setPort k x).pcieUp = s.pcieUp := (rfl)
@[simp] theorem State.setPort_pcie (s : State) (k : Nat) (x : Port) : (s.setPort k x).pcie = s.pcie := (rfl)
@[simp] theorem State.setPort_ats (s : State) (k : Nat) (x : Port) : (s.setPort k x).ats = s.ats := (rfl)
@[simp] theorem State.setPort_atsDone (s : State) (k : Nat) (x : Port) : (s.setPort k x).atsDone = s.atsDone := (rfl)
@[simp] theorem State.setPort_parts (s : State) (k : Nat) (x : Port) : (s.setPort k x).parts = s.parts := (rfl)
@[simp] theorem State.setPort_lock (s : State) (k : Nat) (x : Port) : (s.setPort k x).lock = s.lock := (rfl)
@[simp] theorem State.setPort_power (s : State) (k : Nat) (x : Port) : (s.setPort k x).power = s.power := (rfl)
@[simp] theorem State.setPort_pins (s : State) (k : Nat) (x : Port) : (s.setPort k x).pins = s.pins := (rfl)
@[simp] theorem State.setPort_mon (s : State) (k : Nat) (x : Port) : (s.setPort k x).mon = s.mon := (rfl)
@[simp] theorem State.setPort_txn (s : State) (k : Nat) (x : Port) : (s.setPort k x).txn = s.txn := (rfl)
@[simp] theorem State.setPort_armedTxns (s : State) (k : Nat) (x : Port) : (s.setPort k x).armedTxns = s.armedTxns := (rfl)
@[simp] theorem State.setPort_prot (s : State) (k : Nat) (x : Port) : (s.setPort k x).prot = s.prot := (rfl)
@[simp] theorem State.setPort_snapAt (s : State) (k : Nat) (x : Port) : (s.setPort k x).snapAt = s.snapAt := (rfl)
@[simp] theorem State.setPort_trace (s : State) (k : Nat) (x : Port) : (s.setPort k x).trace = s.trace := (rfl)
@[simp] theorem State.setPort_traceQ (s : State) (k : Nat) (x : Port) : (s.setPort k x).traceQ = s.traceQ := (rfl)
@[simp] theorem State.setPort_dump (s : State) (k : Nat) (x : Port) : (s.setPort k x).dump = s.dump := (rfl)
@[simp] theorem State.setPort_wfg (s : State) (k : Nat) (x : Port) : (s.setPort k x).wfg = s.wfg := (rfl)
@[simp] theorem State.setPort_i3c (s : State) (k : Nat) (x : Port) : (s.setPort k x).i3c = s.i3c := (rfl)
@[simp] theorem State.setPort_readData (s : State) (k : Nat) (x : Port) : (s.setPort k x).readData = s.readData := (rfl)
@[simp] theorem State.setPort_inject (s : State) (k : Nat) (x : Port) : (s.setPort k x).inject = s.inject := (rfl)
@[simp] theorem State.setPort_streams (s : State) (k : Nat) (x : Port) : (s.setPort k x).streams = s.streams := (rfl)
@[simp] theorem State.setPort_engine (s : State) (k : Nat) (x : Port) : (s.setPort k x).engine = s.engine := (rfl)
@[simp] theorem State.setPort_grants (s : State) (k : Nat) (x : Port) : (s.setPort k x).grants = s.grants := (rfl)
@[simp] theorem State.setPort_hbm (s : State) (k : Nat) (x : Port) : (s.setPort k x).hbm = s.hbm := (rfl)
@[simp] theorem State.setPort_spray (s : State) (k : Nat) (x : Port) : (s.setPort k x).spray = s.spray := (rfl)
@[simp] theorem State.setPort_nseq (s : State) (k : Nat) (x : Port) : (s.setPort k x).nseq = s.nseq := (rfl)
@[simp] theorem State.setPort_lastNseq (s : State) (k : Nat) (x : Port) : (s.setPort k x).lastNseq = s.lastNseq := (rfl)
@[simp] theorem State.setPort_flipPrev (s : State) (k : Nat) (x : Port) : (s.setPort k x).flipPrev = s.flipPrev := (rfl)
@[simp] theorem State.setPort_skipScrub (s : State) (k : Nat) (x : Port) : (s.setPort k x).skipScrub = s.skipScrub := (rfl)
@[simp] theorem State.setPort_failedQuarters (s : State) (k : Nat) (x : Port) : (s.setPort k x).failedQuarters = s.failedQuarters := (rfl)
@[simp] theorem State.setPort_ethOut (s : State) (k : Nat) (x : Port) : (s.setPort k x).ethOut = s.ethOut := (rfl)
@[simp] theorem State.setPort_setNow (s : State) (k : Nat) (x : Port) : (s.setPort k x).setNow = s.setNow := (rfl)
@[simp] theorem State.setPort_txnNow (s : State) (k : Nat) (x : Port) : (s.setPort k x).txnNow = s.txnNow := (rfl)
@[simp] theorem State.setPort_cycleNow (s : State) (k : Nat) (x : Port) : (s.setPort k x).cycleNow = s.cycleNow := (rfl)

@[simp] theorem State.setRing_pending (s : State) (k : Nat) (x : Ring) : (s.setRing k x).pending = s.pending := (rfl)
@[simp] theorem State.setRing_freeCtr (s : State) (k : Nat) (x : Ring) : (s.setRing k x).freeCtr = s.freeCtr := (rfl)
@[simp] theorem State.setRing_regs (s : State) (k : Nat) (x : Ring) : (s.setRing k x).regs = s.regs := (rfl)
@[simp] theorem State.setRing_mem (s : State) (k : Nat) (x : Ring) : (s.setRing k x).mem = s.mem := (rfl)
@[simp] theorem State.setRing_dies (s : State) (k : Nat) (x : Ring) : (s.setRing k x).dies = s.dies := (rfl)
@[simp] theorem State.setRing_evlog (s : State) (k : Nat) (x : Ring) : (s.setRing k x).evlog = s.evlog := (rfl)
@[simp] theorem State.setRing_acceptAt (s : State) (k : Nat) (x : Ring) : (s.setRing k x).acceptAt = s.acceptAt := (rfl)
@[simp] theorem State.setRing_rates (s : State) (k : Nat) (x : Ring) : (s.setRing k x).rates = s.rates := (rfl)
@[simp] theorem State.setRing_time (s : State) (k : Nat) (x : Ring) : (s.setRing k x).time = s.time := (rfl)
@[simp] theorem State.setRing_ptime (s : State) (k : Nat) (x : Ring) : (s.setRing k x).ptime = s.ptime := (rfl)
@[simp] theorem State.setRing_tiles (s : State) (k : Nat) (x : Ring) : (s.setRing k x).tiles = s.tiles := (rfl)
@[simp] theorem State.setRing_lineCells (s : State) (k : Nat) (x : Ring) : (s.setRing k x).lineCells = s.lineCells := (rfl)
@[simp] theorem State.setRing_tokens (s : State) (k : Nat) (x : Ring) : (s.setRing k x).tokens = s.tokens := (rfl)
@[simp] theorem State.setRing_tokOps (s : State) (k : Nat) (x : Ring) : (s.setRing k x).tokOps = s.tokOps := (rfl)
@[simp] theorem State.setRing_spent (s : State) (k : Nat) (x : Ring) : (s.setRing k x).spent = s.spent := (rfl)
@[simp] theorem State.setRing_recent (s : State) (k : Nat) (x : Ring) : (s.setRing k x).recent = s.recent := (rfl)
@[simp] theorem State.setRing_walkers (s : State) (k : Nat) (x : Ring) : (s.setRing k x).walkers = s.walkers := (rfl)
@[simp] theorem State.setRing_preWalkers (s : State) (k : Nat) (x : Ring) : (s.setRing k x).preWalkers = s.preWalkers := (rfl)
@[simp] theorem State.setRing_transits (s : State) (k : Nat) (x : Ring) : (s.setRing k x).transits = s.transits := (rfl)
@[simp] theorem State.setRing_sramReads (s : State) (k : Nat) (x : Ring) : (s.setRing k x).sramReads = s.sramReads := (rfl)
@[simp] theorem State.setRing_jn (s : State) (k : Nat) (x : Ring) : (s.setRing k x).jn = s.jn := (rfl)
@[simp] theorem State.setRing_ports (s : State) (k : Nat) (x : Ring) : (s.setRing k x).ports = s.ports := (rfl)
@[simp] theorem State.setRing_turn (s : State) (k : Nat) (x : Ring) : (s.setRing k x).turn = s.turn := (rfl)
@[simp] theorem State.setRing_notify (s : State) (k : Nat) (x : Ring) : (s.setRing k x).notify = s.notify := (rfl)
@[simp] theorem State.setRing_notes (s : State) (k : Nat) (x : Ring) : (s.setRing k x).notes = s.notes := (rfl)
@[simp] theorem State.setRing_hostOut (s : State) (k : Nat) (x : Ring) : (s.setRing k x).hostOut = s.hostOut := (rfl)
@[simp] theorem State.setRing_irqs (s : State) (k : Nat) (x : Ring) : (s.setRing k x).irqs = s.irqs := (rfl)
@[simp] theorem State.setRing_vfs (s : State) (k : Nat) (x : Ring) : (s.setRing k x).vfs = s.vfs := (rfl)
@[simp] theorem State.setRing_pcieUp (s : State) (k : Nat) (x : Ring) : (s.setRing k x).pcieUp = s.pcieUp := (rfl)
@[simp] theorem State.setRing_pcie (s : State) (k : Nat) (x : Ring) : (s.setRing k x).pcie = s.pcie := (rfl)
@[simp] theorem State.setRing_ats (s : State) (k : Nat) (x : Ring) : (s.setRing k x).ats = s.ats := (rfl)
@[simp] theorem State.setRing_atsDone (s : State) (k : Nat) (x : Ring) : (s.setRing k x).atsDone = s.atsDone := (rfl)
@[simp] theorem State.setRing_parts (s : State) (k : Nat) (x : Ring) : (s.setRing k x).parts = s.parts := (rfl)
@[simp] theorem State.setRing_lock (s : State) (k : Nat) (x : Ring) : (s.setRing k x).lock = s.lock := (rfl)
@[simp] theorem State.setRing_power (s : State) (k : Nat) (x : Ring) : (s.setRing k x).power = s.power := (rfl)
@[simp] theorem State.setRing_pins (s : State) (k : Nat) (x : Ring) : (s.setRing k x).pins = s.pins := (rfl)
@[simp] theorem State.setRing_mon (s : State) (k : Nat) (x : Ring) : (s.setRing k x).mon = s.mon := (rfl)
@[simp] theorem State.setRing_txn (s : State) (k : Nat) (x : Ring) : (s.setRing k x).txn = s.txn := (rfl)
@[simp] theorem State.setRing_armedTxns (s : State) (k : Nat) (x : Ring) : (s.setRing k x).armedTxns = s.armedTxns := (rfl)
@[simp] theorem State.setRing_prot (s : State) (k : Nat) (x : Ring) : (s.setRing k x).prot = s.prot := (rfl)
@[simp] theorem State.setRing_snapAt (s : State) (k : Nat) (x : Ring) : (s.setRing k x).snapAt = s.snapAt := (rfl)
@[simp] theorem State.setRing_trace (s : State) (k : Nat) (x : Ring) : (s.setRing k x).trace = s.trace := (rfl)
@[simp] theorem State.setRing_traceQ (s : State) (k : Nat) (x : Ring) : (s.setRing k x).traceQ = s.traceQ := (rfl)
@[simp] theorem State.setRing_dump (s : State) (k : Nat) (x : Ring) : (s.setRing k x).dump = s.dump := (rfl)
@[simp] theorem State.setRing_wfg (s : State) (k : Nat) (x : Ring) : (s.setRing k x).wfg = s.wfg := (rfl)
@[simp] theorem State.setRing_i3c (s : State) (k : Nat) (x : Ring) : (s.setRing k x).i3c = s.i3c := (rfl)
@[simp] theorem State.setRing_readData (s : State) (k : Nat) (x : Ring) : (s.setRing k x).readData = s.readData := (rfl)
@[simp] theorem State.setRing_inject (s : State) (k : Nat) (x : Ring) : (s.setRing k x).inject = s.inject := (rfl)
@[simp] theorem State.setRing_streams (s : State) (k : Nat) (x : Ring) : (s.setRing k x).streams = s.streams := (rfl)
@[simp] theorem State.setRing_engine (s : State) (k : Nat) (x : Ring) : (s.setRing k x).engine = s.engine := (rfl)
@[simp] theorem State.setRing_grants (s : State) (k : Nat) (x : Ring) : (s.setRing k x).grants = s.grants := (rfl)
@[simp] theorem State.setRing_hbm (s : State) (k : Nat) (x : Ring) : (s.setRing k x).hbm = s.hbm := (rfl)
@[simp] theorem State.setRing_spray (s : State) (k : Nat) (x : Ring) : (s.setRing k x).spray = s.spray := (rfl)
@[simp] theorem State.setRing_nseq (s : State) (k : Nat) (x : Ring) : (s.setRing k x).nseq = s.nseq := (rfl)
@[simp] theorem State.setRing_lastNseq (s : State) (k : Nat) (x : Ring) : (s.setRing k x).lastNseq = s.lastNseq := (rfl)
@[simp] theorem State.setRing_flipPrev (s : State) (k : Nat) (x : Ring) : (s.setRing k x).flipPrev = s.flipPrev := (rfl)
@[simp] theorem State.setRing_skipScrub (s : State) (k : Nat) (x : Ring) : (s.setRing k x).skipScrub = s.skipScrub := (rfl)
@[simp] theorem State.setRing_failedQuarters (s : State) (k : Nat) (x : Ring) : (s.setRing k x).failedQuarters = s.failedQuarters := (rfl)
@[simp] theorem State.setRing_ethOut (s : State) (k : Nat) (x : Ring) : (s.setRing k x).ethOut = s.ethOut := (rfl)
@[simp] theorem State.setRing_setNow (s : State) (k : Nat) (x : Ring) : (s.setRing k x).setNow = s.setNow := (rfl)
@[simp] theorem State.setRing_txnNow (s : State) (k : Nat) (x : Ring) : (s.setRing k x).txnNow = s.txnNow := (rfl)
@[simp] theorem State.setRing_cycleNow (s : State) (k : Nat) (x : Ring) : (s.setRing k x).cycleNow = s.cycleNow := (rfl)

@[simp] theorem State.setPcieFn_pending (s : State) (k : Nat) (x : PcieFn) : (s.setPcieFn k x).pending = s.pending := (rfl)
@[simp] theorem State.setPcieFn_freeCtr (s : State) (k : Nat) (x : PcieFn) : (s.setPcieFn k x).freeCtr = s.freeCtr := (rfl)
@[simp] theorem State.setPcieFn_regs (s : State) (k : Nat) (x : PcieFn) : (s.setPcieFn k x).regs = s.regs := (rfl)
@[simp] theorem State.setPcieFn_mem (s : State) (k : Nat) (x : PcieFn) : (s.setPcieFn k x).mem = s.mem := (rfl)
@[simp] theorem State.setPcieFn_dies (s : State) (k : Nat) (x : PcieFn) : (s.setPcieFn k x).dies = s.dies := (rfl)
@[simp] theorem State.setPcieFn_evlog (s : State) (k : Nat) (x : PcieFn) : (s.setPcieFn k x).evlog = s.evlog := (rfl)
@[simp] theorem State.setPcieFn_acceptAt (s : State) (k : Nat) (x : PcieFn) : (s.setPcieFn k x).acceptAt = s.acceptAt := (rfl)
@[simp] theorem State.setPcieFn_rates (s : State) (k : Nat) (x : PcieFn) : (s.setPcieFn k x).rates = s.rates := (rfl)
@[simp] theorem State.setPcieFn_time (s : State) (k : Nat) (x : PcieFn) : (s.setPcieFn k x).time = s.time := (rfl)
@[simp] theorem State.setPcieFn_ptime (s : State) (k : Nat) (x : PcieFn) : (s.setPcieFn k x).ptime = s.ptime := (rfl)
@[simp] theorem State.setPcieFn_tiles (s : State) (k : Nat) (x : PcieFn) : (s.setPcieFn k x).tiles = s.tiles := (rfl)
@[simp] theorem State.setPcieFn_lineCells (s : State) (k : Nat) (x : PcieFn) : (s.setPcieFn k x).lineCells = s.lineCells := (rfl)
@[simp] theorem State.setPcieFn_tokens (s : State) (k : Nat) (x : PcieFn) : (s.setPcieFn k x).tokens = s.tokens := (rfl)
@[simp] theorem State.setPcieFn_tokOps (s : State) (k : Nat) (x : PcieFn) : (s.setPcieFn k x).tokOps = s.tokOps := (rfl)
@[simp] theorem State.setPcieFn_spent (s : State) (k : Nat) (x : PcieFn) : (s.setPcieFn k x).spent = s.spent := (rfl)
@[simp] theorem State.setPcieFn_recent (s : State) (k : Nat) (x : PcieFn) : (s.setPcieFn k x).recent = s.recent := (rfl)
@[simp] theorem State.setPcieFn_walkers (s : State) (k : Nat) (x : PcieFn) : (s.setPcieFn k x).walkers = s.walkers := (rfl)
@[simp] theorem State.setPcieFn_preWalkers (s : State) (k : Nat) (x : PcieFn) : (s.setPcieFn k x).preWalkers = s.preWalkers := (rfl)
@[simp] theorem State.setPcieFn_transits (s : State) (k : Nat) (x : PcieFn) : (s.setPcieFn k x).transits = s.transits := (rfl)
@[simp] theorem State.setPcieFn_sramReads (s : State) (k : Nat) (x : PcieFn) : (s.setPcieFn k x).sramReads = s.sramReads := (rfl)
@[simp] theorem State.setPcieFn_jn (s : State) (k : Nat) (x : PcieFn) : (s.setPcieFn k x).jn = s.jn := (rfl)
@[simp] theorem State.setPcieFn_ports (s : State) (k : Nat) (x : PcieFn) : (s.setPcieFn k x).ports = s.ports := (rfl)
@[simp] theorem State.setPcieFn_rings (s : State) (k : Nat) (x : PcieFn) : (s.setPcieFn k x).rings = s.rings := (rfl)
@[simp] theorem State.setPcieFn_turn (s : State) (k : Nat) (x : PcieFn) : (s.setPcieFn k x).turn = s.turn := (rfl)
@[simp] theorem State.setPcieFn_notify (s : State) (k : Nat) (x : PcieFn) : (s.setPcieFn k x).notify = s.notify := (rfl)
@[simp] theorem State.setPcieFn_notes (s : State) (k : Nat) (x : PcieFn) : (s.setPcieFn k x).notes = s.notes := (rfl)
@[simp] theorem State.setPcieFn_hostOut (s : State) (k : Nat) (x : PcieFn) : (s.setPcieFn k x).hostOut = s.hostOut := (rfl)
@[simp] theorem State.setPcieFn_irqs (s : State) (k : Nat) (x : PcieFn) : (s.setPcieFn k x).irqs = s.irqs := (rfl)
@[simp] theorem State.setPcieFn_vfs (s : State) (k : Nat) (x : PcieFn) : (s.setPcieFn k x).vfs = s.vfs := (rfl)
@[simp] theorem State.setPcieFn_pcieUp (s : State) (k : Nat) (x : PcieFn) : (s.setPcieFn k x).pcieUp = s.pcieUp := (rfl)
@[simp] theorem State.setPcieFn_ats (s : State) (k : Nat) (x : PcieFn) : (s.setPcieFn k x).ats = s.ats := (rfl)
@[simp] theorem State.setPcieFn_atsDone (s : State) (k : Nat) (x : PcieFn) : (s.setPcieFn k x).atsDone = s.atsDone := (rfl)
@[simp] theorem State.setPcieFn_parts (s : State) (k : Nat) (x : PcieFn) : (s.setPcieFn k x).parts = s.parts := (rfl)
@[simp] theorem State.setPcieFn_lock (s : State) (k : Nat) (x : PcieFn) : (s.setPcieFn k x).lock = s.lock := (rfl)
@[simp] theorem State.setPcieFn_power (s : State) (k : Nat) (x : PcieFn) : (s.setPcieFn k x).power = s.power := (rfl)
@[simp] theorem State.setPcieFn_pins (s : State) (k : Nat) (x : PcieFn) : (s.setPcieFn k x).pins = s.pins := (rfl)
@[simp] theorem State.setPcieFn_mon (s : State) (k : Nat) (x : PcieFn) : (s.setPcieFn k x).mon = s.mon := (rfl)
@[simp] theorem State.setPcieFn_txn (s : State) (k : Nat) (x : PcieFn) : (s.setPcieFn k x).txn = s.txn := (rfl)
@[simp] theorem State.setPcieFn_armedTxns (s : State) (k : Nat) (x : PcieFn) : (s.setPcieFn k x).armedTxns = s.armedTxns := (rfl)
@[simp] theorem State.setPcieFn_prot (s : State) (k : Nat) (x : PcieFn) : (s.setPcieFn k x).prot = s.prot := (rfl)
@[simp] theorem State.setPcieFn_snapAt (s : State) (k : Nat) (x : PcieFn) : (s.setPcieFn k x).snapAt = s.snapAt := (rfl)
@[simp] theorem State.setPcieFn_trace (s : State) (k : Nat) (x : PcieFn) : (s.setPcieFn k x).trace = s.trace := (rfl)
@[simp] theorem State.setPcieFn_traceQ (s : State) (k : Nat) (x : PcieFn) : (s.setPcieFn k x).traceQ = s.traceQ := (rfl)
@[simp] theorem State.setPcieFn_dump (s : State) (k : Nat) (x : PcieFn) : (s.setPcieFn k x).dump = s.dump := (rfl)
@[simp] theorem State.setPcieFn_wfg (s : State) (k : Nat) (x : PcieFn) : (s.setPcieFn k x).wfg = s.wfg := (rfl)
@[simp] theorem State.setPcieFn_i3c (s : State) (k : Nat) (x : PcieFn) : (s.setPcieFn k x).i3c = s.i3c := (rfl)
@[simp] theorem State.setPcieFn_readData (s : State) (k : Nat) (x : PcieFn) : (s.setPcieFn k x).readData = s.readData := (rfl)
@[simp] theorem State.setPcieFn_inject (s : State) (k : Nat) (x : PcieFn) : (s.setPcieFn k x).inject = s.inject := (rfl)
@[simp] theorem State.setPcieFn_streams (s : State) (k : Nat) (x : PcieFn) : (s.setPcieFn k x).streams = s.streams := (rfl)
@[simp] theorem State.setPcieFn_engine (s : State) (k : Nat) (x : PcieFn) : (s.setPcieFn k x).engine = s.engine := (rfl)
@[simp] theorem State.setPcieFn_grants (s : State) (k : Nat) (x : PcieFn) : (s.setPcieFn k x).grants = s.grants := (rfl)
@[simp] theorem State.setPcieFn_hbm (s : State) (k : Nat) (x : PcieFn) : (s.setPcieFn k x).hbm = s.hbm := (rfl)
@[simp] theorem State.setPcieFn_spray (s : State) (k : Nat) (x : PcieFn) : (s.setPcieFn k x).spray = s.spray := (rfl)
@[simp] theorem State.setPcieFn_nseq (s : State) (k : Nat) (x : PcieFn) : (s.setPcieFn k x).nseq = s.nseq := (rfl)
@[simp] theorem State.setPcieFn_lastNseq (s : State) (k : Nat) (x : PcieFn) : (s.setPcieFn k x).lastNseq = s.lastNseq := (rfl)
@[simp] theorem State.setPcieFn_flipPrev (s : State) (k : Nat) (x : PcieFn) : (s.setPcieFn k x).flipPrev = s.flipPrev := (rfl)
@[simp] theorem State.setPcieFn_skipScrub (s : State) (k : Nat) (x : PcieFn) : (s.setPcieFn k x).skipScrub = s.skipScrub := (rfl)
@[simp] theorem State.setPcieFn_failedQuarters (s : State) (k : Nat) (x : PcieFn) : (s.setPcieFn k x).failedQuarters = s.failedQuarters := (rfl)
@[simp] theorem State.setPcieFn_ethOut (s : State) (k : Nat) (x : PcieFn) : (s.setPcieFn k x).ethOut = s.ethOut := (rfl)
@[simp] theorem State.setPcieFn_setNow (s : State) (k : Nat) (x : PcieFn) : (s.setPcieFn k x).setNow = s.setNow := (rfl)
@[simp] theorem State.setPcieFn_txnNow (s : State) (k : Nat) (x : PcieFn) : (s.setPcieFn k x).txnNow = s.txnNow := (rfl)
@[simp] theorem State.setPcieFn_cycleNow (s : State) (k : Nat) (x : PcieFn) : (s.setPcieFn k x).cycleNow = s.cycleNow := (rfl)

@[simp] theorem State.setNotif_pending (s : State) (k : Nat) (x : Notify) : (s.setNotif k x).pending = s.pending := (rfl)
@[simp] theorem State.setNotif_freeCtr (s : State) (k : Nat) (x : Notify) : (s.setNotif k x).freeCtr = s.freeCtr := (rfl)
@[simp] theorem State.setNotif_regs (s : State) (k : Nat) (x : Notify) : (s.setNotif k x).regs = s.regs := (rfl)
@[simp] theorem State.setNotif_mem (s : State) (k : Nat) (x : Notify) : (s.setNotif k x).mem = s.mem := (rfl)
@[simp] theorem State.setNotif_dies (s : State) (k : Nat) (x : Notify) : (s.setNotif k x).dies = s.dies := (rfl)
@[simp] theorem State.setNotif_evlog (s : State) (k : Nat) (x : Notify) : (s.setNotif k x).evlog = s.evlog := (rfl)
@[simp] theorem State.setNotif_acceptAt (s : State) (k : Nat) (x : Notify) : (s.setNotif k x).acceptAt = s.acceptAt := (rfl)
@[simp] theorem State.setNotif_rates (s : State) (k : Nat) (x : Notify) : (s.setNotif k x).rates = s.rates := (rfl)
@[simp] theorem State.setNotif_time (s : State) (k : Nat) (x : Notify) : (s.setNotif k x).time = s.time := (rfl)
@[simp] theorem State.setNotif_ptime (s : State) (k : Nat) (x : Notify) : (s.setNotif k x).ptime = s.ptime := (rfl)
@[simp] theorem State.setNotif_tiles (s : State) (k : Nat) (x : Notify) : (s.setNotif k x).tiles = s.tiles := (rfl)
@[simp] theorem State.setNotif_lineCells (s : State) (k : Nat) (x : Notify) : (s.setNotif k x).lineCells = s.lineCells := (rfl)
@[simp] theorem State.setNotif_tokens (s : State) (k : Nat) (x : Notify) : (s.setNotif k x).tokens = s.tokens := (rfl)
@[simp] theorem State.setNotif_tokOps (s : State) (k : Nat) (x : Notify) : (s.setNotif k x).tokOps = s.tokOps := (rfl)
@[simp] theorem State.setNotif_spent (s : State) (k : Nat) (x : Notify) : (s.setNotif k x).spent = s.spent := (rfl)
@[simp] theorem State.setNotif_recent (s : State) (k : Nat) (x : Notify) : (s.setNotif k x).recent = s.recent := (rfl)
@[simp] theorem State.setNotif_walkers (s : State) (k : Nat) (x : Notify) : (s.setNotif k x).walkers = s.walkers := (rfl)
@[simp] theorem State.setNotif_preWalkers (s : State) (k : Nat) (x : Notify) : (s.setNotif k x).preWalkers = s.preWalkers := (rfl)
@[simp] theorem State.setNotif_transits (s : State) (k : Nat) (x : Notify) : (s.setNotif k x).transits = s.transits := (rfl)
@[simp] theorem State.setNotif_sramReads (s : State) (k : Nat) (x : Notify) : (s.setNotif k x).sramReads = s.sramReads := (rfl)
@[simp] theorem State.setNotif_jn (s : State) (k : Nat) (x : Notify) : (s.setNotif k x).jn = s.jn := (rfl)
@[simp] theorem State.setNotif_ports (s : State) (k : Nat) (x : Notify) : (s.setNotif k x).ports = s.ports := (rfl)
@[simp] theorem State.setNotif_rings (s : State) (k : Nat) (x : Notify) : (s.setNotif k x).rings = s.rings := (rfl)
@[simp] theorem State.setNotif_turn (s : State) (k : Nat) (x : Notify) : (s.setNotif k x).turn = s.turn := (rfl)
@[simp] theorem State.setNotif_notes (s : State) (k : Nat) (x : Notify) : (s.setNotif k x).notes = s.notes := (rfl)
@[simp] theorem State.setNotif_hostOut (s : State) (k : Nat) (x : Notify) : (s.setNotif k x).hostOut = s.hostOut := (rfl)
@[simp] theorem State.setNotif_irqs (s : State) (k : Nat) (x : Notify) : (s.setNotif k x).irqs = s.irqs := (rfl)
@[simp] theorem State.setNotif_vfs (s : State) (k : Nat) (x : Notify) : (s.setNotif k x).vfs = s.vfs := (rfl)
@[simp] theorem State.setNotif_pcieUp (s : State) (k : Nat) (x : Notify) : (s.setNotif k x).pcieUp = s.pcieUp := (rfl)
@[simp] theorem State.setNotif_pcie (s : State) (k : Nat) (x : Notify) : (s.setNotif k x).pcie = s.pcie := (rfl)
@[simp] theorem State.setNotif_ats (s : State) (k : Nat) (x : Notify) : (s.setNotif k x).ats = s.ats := (rfl)
@[simp] theorem State.setNotif_atsDone (s : State) (k : Nat) (x : Notify) : (s.setNotif k x).atsDone = s.atsDone := (rfl)
@[simp] theorem State.setNotif_parts (s : State) (k : Nat) (x : Notify) : (s.setNotif k x).parts = s.parts := (rfl)
@[simp] theorem State.setNotif_lock (s : State) (k : Nat) (x : Notify) : (s.setNotif k x).lock = s.lock := (rfl)
@[simp] theorem State.setNotif_power (s : State) (k : Nat) (x : Notify) : (s.setNotif k x).power = s.power := (rfl)
@[simp] theorem State.setNotif_pins (s : State) (k : Nat) (x : Notify) : (s.setNotif k x).pins = s.pins := (rfl)
@[simp] theorem State.setNotif_mon (s : State) (k : Nat) (x : Notify) : (s.setNotif k x).mon = s.mon := (rfl)
@[simp] theorem State.setNotif_txn (s : State) (k : Nat) (x : Notify) : (s.setNotif k x).txn = s.txn := (rfl)
@[simp] theorem State.setNotif_armedTxns (s : State) (k : Nat) (x : Notify) : (s.setNotif k x).armedTxns = s.armedTxns := (rfl)
@[simp] theorem State.setNotif_prot (s : State) (k : Nat) (x : Notify) : (s.setNotif k x).prot = s.prot := (rfl)
@[simp] theorem State.setNotif_snapAt (s : State) (k : Nat) (x : Notify) : (s.setNotif k x).snapAt = s.snapAt := (rfl)
@[simp] theorem State.setNotif_trace (s : State) (k : Nat) (x : Notify) : (s.setNotif k x).trace = s.trace := (rfl)
@[simp] theorem State.setNotif_traceQ (s : State) (k : Nat) (x : Notify) : (s.setNotif k x).traceQ = s.traceQ := (rfl)
@[simp] theorem State.setNotif_dump (s : State) (k : Nat) (x : Notify) : (s.setNotif k x).dump = s.dump := (rfl)
@[simp] theorem State.setNotif_wfg (s : State) (k : Nat) (x : Notify) : (s.setNotif k x).wfg = s.wfg := (rfl)
@[simp] theorem State.setNotif_i3c (s : State) (k : Nat) (x : Notify) : (s.setNotif k x).i3c = s.i3c := (rfl)
@[simp] theorem State.setNotif_readData (s : State) (k : Nat) (x : Notify) : (s.setNotif k x).readData = s.readData := (rfl)
@[simp] theorem State.setNotif_inject (s : State) (k : Nat) (x : Notify) : (s.setNotif k x).inject = s.inject := (rfl)
@[simp] theorem State.setNotif_streams (s : State) (k : Nat) (x : Notify) : (s.setNotif k x).streams = s.streams := (rfl)
@[simp] theorem State.setNotif_engine (s : State) (k : Nat) (x : Notify) : (s.setNotif k x).engine = s.engine := (rfl)
@[simp] theorem State.setNotif_grants (s : State) (k : Nat) (x : Notify) : (s.setNotif k x).grants = s.grants := (rfl)
@[simp] theorem State.setNotif_hbm (s : State) (k : Nat) (x : Notify) : (s.setNotif k x).hbm = s.hbm := (rfl)
@[simp] theorem State.setNotif_spray (s : State) (k : Nat) (x : Notify) : (s.setNotif k x).spray = s.spray := (rfl)
@[simp] theorem State.setNotif_nseq (s : State) (k : Nat) (x : Notify) : (s.setNotif k x).nseq = s.nseq := (rfl)
@[simp] theorem State.setNotif_lastNseq (s : State) (k : Nat) (x : Notify) : (s.setNotif k x).lastNseq = s.lastNseq := (rfl)
@[simp] theorem State.setNotif_flipPrev (s : State) (k : Nat) (x : Notify) : (s.setNotif k x).flipPrev = s.flipPrev := (rfl)
@[simp] theorem State.setNotif_skipScrub (s : State) (k : Nat) (x : Notify) : (s.setNotif k x).skipScrub = s.skipScrub := (rfl)
@[simp] theorem State.setNotif_failedQuarters (s : State) (k : Nat) (x : Notify) : (s.setNotif k x).failedQuarters = s.failedQuarters := (rfl)
@[simp] theorem State.setNotif_ethOut (s : State) (k : Nat) (x : Notify) : (s.setNotif k x).ethOut = s.ethOut := (rfl)
@[simp] theorem State.setNotif_setNow (s : State) (k : Nat) (x : Notify) : (s.setNotif k x).setNow = s.setNow := (rfl)
@[simp] theorem State.setNotif_txnNow (s : State) (k : Nat) (x : Notify) : (s.setNotif k x).txnNow = s.txnNow := (rfl)
@[simp] theorem State.setNotif_cycleNow (s : State) (k : Nat) (x : Notify) : (s.setNotif k x).cycleNow = s.cycleNow := (rfl)

@[simp] theorem State.setPart_pending (s : State) (k : Nat) (x : Part) : (s.setPart k x).pending = s.pending := (rfl)
@[simp] theorem State.setPart_freeCtr (s : State) (k : Nat) (x : Part) : (s.setPart k x).freeCtr = s.freeCtr := (rfl)
@[simp] theorem State.setPart_regs (s : State) (k : Nat) (x : Part) : (s.setPart k x).regs = s.regs := (rfl)
@[simp] theorem State.setPart_mem (s : State) (k : Nat) (x : Part) : (s.setPart k x).mem = s.mem := (rfl)
@[simp] theorem State.setPart_dies (s : State) (k : Nat) (x : Part) : (s.setPart k x).dies = s.dies := (rfl)
@[simp] theorem State.setPart_evlog (s : State) (k : Nat) (x : Part) : (s.setPart k x).evlog = s.evlog := (rfl)
@[simp] theorem State.setPart_acceptAt (s : State) (k : Nat) (x : Part) : (s.setPart k x).acceptAt = s.acceptAt := (rfl)
@[simp] theorem State.setPart_rates (s : State) (k : Nat) (x : Part) : (s.setPart k x).rates = s.rates := (rfl)
@[simp] theorem State.setPart_time (s : State) (k : Nat) (x : Part) : (s.setPart k x).time = s.time := (rfl)
@[simp] theorem State.setPart_ptime (s : State) (k : Nat) (x : Part) : (s.setPart k x).ptime = s.ptime := (rfl)
@[simp] theorem State.setPart_tiles (s : State) (k : Nat) (x : Part) : (s.setPart k x).tiles = s.tiles := (rfl)
@[simp] theorem State.setPart_lineCells (s : State) (k : Nat) (x : Part) : (s.setPart k x).lineCells = s.lineCells := (rfl)
@[simp] theorem State.setPart_tokens (s : State) (k : Nat) (x : Part) : (s.setPart k x).tokens = s.tokens := (rfl)
@[simp] theorem State.setPart_tokOps (s : State) (k : Nat) (x : Part) : (s.setPart k x).tokOps = s.tokOps := (rfl)
@[simp] theorem State.setPart_spent (s : State) (k : Nat) (x : Part) : (s.setPart k x).spent = s.spent := (rfl)
@[simp] theorem State.setPart_recent (s : State) (k : Nat) (x : Part) : (s.setPart k x).recent = s.recent := (rfl)
@[simp] theorem State.setPart_walkers (s : State) (k : Nat) (x : Part) : (s.setPart k x).walkers = s.walkers := (rfl)
@[simp] theorem State.setPart_preWalkers (s : State) (k : Nat) (x : Part) : (s.setPart k x).preWalkers = s.preWalkers := (rfl)
@[simp] theorem State.setPart_transits (s : State) (k : Nat) (x : Part) : (s.setPart k x).transits = s.transits := (rfl)
@[simp] theorem State.setPart_sramReads (s : State) (k : Nat) (x : Part) : (s.setPart k x).sramReads = s.sramReads := (rfl)
@[simp] theorem State.setPart_jn (s : State) (k : Nat) (x : Part) : (s.setPart k x).jn = s.jn := (rfl)
@[simp] theorem State.setPart_ports (s : State) (k : Nat) (x : Part) : (s.setPart k x).ports = s.ports := (rfl)
@[simp] theorem State.setPart_rings (s : State) (k : Nat) (x : Part) : (s.setPart k x).rings = s.rings := (rfl)
@[simp] theorem State.setPart_turn (s : State) (k : Nat) (x : Part) : (s.setPart k x).turn = s.turn := (rfl)
@[simp] theorem State.setPart_notify (s : State) (k : Nat) (x : Part) : (s.setPart k x).notify = s.notify := (rfl)
@[simp] theorem State.setPart_notes (s : State) (k : Nat) (x : Part) : (s.setPart k x).notes = s.notes := (rfl)
@[simp] theorem State.setPart_hostOut (s : State) (k : Nat) (x : Part) : (s.setPart k x).hostOut = s.hostOut := (rfl)
@[simp] theorem State.setPart_irqs (s : State) (k : Nat) (x : Part) : (s.setPart k x).irqs = s.irqs := (rfl)
@[simp] theorem State.setPart_vfs (s : State) (k : Nat) (x : Part) : (s.setPart k x).vfs = s.vfs := (rfl)
@[simp] theorem State.setPart_pcieUp (s : State) (k : Nat) (x : Part) : (s.setPart k x).pcieUp = s.pcieUp := (rfl)
@[simp] theorem State.setPart_pcie (s : State) (k : Nat) (x : Part) : (s.setPart k x).pcie = s.pcie := (rfl)
@[simp] theorem State.setPart_ats (s : State) (k : Nat) (x : Part) : (s.setPart k x).ats = s.ats := (rfl)
@[simp] theorem State.setPart_atsDone (s : State) (k : Nat) (x : Part) : (s.setPart k x).atsDone = s.atsDone := (rfl)
@[simp] theorem State.setPart_lock (s : State) (k : Nat) (x : Part) : (s.setPart k x).lock = s.lock := (rfl)
@[simp] theorem State.setPart_power (s : State) (k : Nat) (x : Part) : (s.setPart k x).power = s.power := (rfl)
@[simp] theorem State.setPart_pins (s : State) (k : Nat) (x : Part) : (s.setPart k x).pins = s.pins := (rfl)
@[simp] theorem State.setPart_mon (s : State) (k : Nat) (x : Part) : (s.setPart k x).mon = s.mon := (rfl)
@[simp] theorem State.setPart_txn (s : State) (k : Nat) (x : Part) : (s.setPart k x).txn = s.txn := (rfl)
@[simp] theorem State.setPart_armedTxns (s : State) (k : Nat) (x : Part) : (s.setPart k x).armedTxns = s.armedTxns := (rfl)
@[simp] theorem State.setPart_prot (s : State) (k : Nat) (x : Part) : (s.setPart k x).prot = s.prot := (rfl)
@[simp] theorem State.setPart_snapAt (s : State) (k : Nat) (x : Part) : (s.setPart k x).snapAt = s.snapAt := (rfl)
@[simp] theorem State.setPart_trace (s : State) (k : Nat) (x : Part) : (s.setPart k x).trace = s.trace := (rfl)
@[simp] theorem State.setPart_traceQ (s : State) (k : Nat) (x : Part) : (s.setPart k x).traceQ = s.traceQ := (rfl)
@[simp] theorem State.setPart_dump (s : State) (k : Nat) (x : Part) : (s.setPart k x).dump = s.dump := (rfl)
@[simp] theorem State.setPart_wfg (s : State) (k : Nat) (x : Part) : (s.setPart k x).wfg = s.wfg := (rfl)
@[simp] theorem State.setPart_i3c (s : State) (k : Nat) (x : Part) : (s.setPart k x).i3c = s.i3c := (rfl)
@[simp] theorem State.setPart_readData (s : State) (k : Nat) (x : Part) : (s.setPart k x).readData = s.readData := (rfl)
@[simp] theorem State.setPart_inject (s : State) (k : Nat) (x : Part) : (s.setPart k x).inject = s.inject := (rfl)
@[simp] theorem State.setPart_streams (s : State) (k : Nat) (x : Part) : (s.setPart k x).streams = s.streams := (rfl)
@[simp] theorem State.setPart_engine (s : State) (k : Nat) (x : Part) : (s.setPart k x).engine = s.engine := (rfl)
@[simp] theorem State.setPart_grants (s : State) (k : Nat) (x : Part) : (s.setPart k x).grants = s.grants := (rfl)
@[simp] theorem State.setPart_hbm (s : State) (k : Nat) (x : Part) : (s.setPart k x).hbm = s.hbm := (rfl)
@[simp] theorem State.setPart_spray (s : State) (k : Nat) (x : Part) : (s.setPart k x).spray = s.spray := (rfl)
@[simp] theorem State.setPart_nseq (s : State) (k : Nat) (x : Part) : (s.setPart k x).nseq = s.nseq := (rfl)
@[simp] theorem State.setPart_lastNseq (s : State) (k : Nat) (x : Part) : (s.setPart k x).lastNseq = s.lastNseq := (rfl)
@[simp] theorem State.setPart_flipPrev (s : State) (k : Nat) (x : Part) : (s.setPart k x).flipPrev = s.flipPrev := (rfl)
@[simp] theorem State.setPart_skipScrub (s : State) (k : Nat) (x : Part) : (s.setPart k x).skipScrub = s.skipScrub := (rfl)
@[simp] theorem State.setPart_failedQuarters (s : State) (k : Nat) (x : Part) : (s.setPart k x).failedQuarters = s.failedQuarters := (rfl)
@[simp] theorem State.setPart_ethOut (s : State) (k : Nat) (x : Part) : (s.setPart k x).ethOut = s.ethOut := (rfl)
@[simp] theorem State.setPart_setNow (s : State) (k : Nat) (x : Part) : (s.setPart k x).setNow = s.setNow := (rfl)
@[simp] theorem State.setPart_txnNow (s : State) (k : Nat) (x : Part) : (s.setPart k x).txnNow = s.txnNow := (rfl)
@[simp] theorem State.setPart_cycleNow (s : State) (k : Nat) (x : Part) : (s.setPart k x).cycleNow = s.cycleNow := (rfl)

@[simp] theorem State.setLs_pending (s : State) (k : Nat) (x : LockStep) : (s.setLs k x).pending = s.pending := (rfl)
@[simp] theorem State.setLs_freeCtr (s : State) (k : Nat) (x : LockStep) : (s.setLs k x).freeCtr = s.freeCtr := (rfl)
@[simp] theorem State.setLs_regs (s : State) (k : Nat) (x : LockStep) : (s.setLs k x).regs = s.regs := (rfl)
@[simp] theorem State.setLs_mem (s : State) (k : Nat) (x : LockStep) : (s.setLs k x).mem = s.mem := (rfl)
@[simp] theorem State.setLs_dies (s : State) (k : Nat) (x : LockStep) : (s.setLs k x).dies = s.dies := (rfl)
@[simp] theorem State.setLs_evlog (s : State) (k : Nat) (x : LockStep) : (s.setLs k x).evlog = s.evlog := (rfl)
@[simp] theorem State.setLs_acceptAt (s : State) (k : Nat) (x : LockStep) : (s.setLs k x).acceptAt = s.acceptAt := (rfl)
@[simp] theorem State.setLs_rates (s : State) (k : Nat) (x : LockStep) : (s.setLs k x).rates = s.rates := (rfl)
@[simp] theorem State.setLs_time (s : State) (k : Nat) (x : LockStep) : (s.setLs k x).time = s.time := (rfl)
@[simp] theorem State.setLs_ptime (s : State) (k : Nat) (x : LockStep) : (s.setLs k x).ptime = s.ptime := (rfl)
@[simp] theorem State.setLs_tiles (s : State) (k : Nat) (x : LockStep) : (s.setLs k x).tiles = s.tiles := (rfl)
@[simp] theorem State.setLs_lineCells (s : State) (k : Nat) (x : LockStep) : (s.setLs k x).lineCells = s.lineCells := (rfl)
@[simp] theorem State.setLs_tokens (s : State) (k : Nat) (x : LockStep) : (s.setLs k x).tokens = s.tokens := (rfl)
@[simp] theorem State.setLs_tokOps (s : State) (k : Nat) (x : LockStep) : (s.setLs k x).tokOps = s.tokOps := (rfl)
@[simp] theorem State.setLs_spent (s : State) (k : Nat) (x : LockStep) : (s.setLs k x).spent = s.spent := (rfl)
@[simp] theorem State.setLs_recent (s : State) (k : Nat) (x : LockStep) : (s.setLs k x).recent = s.recent := (rfl)
@[simp] theorem State.setLs_walkers (s : State) (k : Nat) (x : LockStep) : (s.setLs k x).walkers = s.walkers := (rfl)
@[simp] theorem State.setLs_preWalkers (s : State) (k : Nat) (x : LockStep) : (s.setLs k x).preWalkers = s.preWalkers := (rfl)
@[simp] theorem State.setLs_transits (s : State) (k : Nat) (x : LockStep) : (s.setLs k x).transits = s.transits := (rfl)
@[simp] theorem State.setLs_sramReads (s : State) (k : Nat) (x : LockStep) : (s.setLs k x).sramReads = s.sramReads := (rfl)
@[simp] theorem State.setLs_jn (s : State) (k : Nat) (x : LockStep) : (s.setLs k x).jn = s.jn := (rfl)
@[simp] theorem State.setLs_ports (s : State) (k : Nat) (x : LockStep) : (s.setLs k x).ports = s.ports := (rfl)
@[simp] theorem State.setLs_rings (s : State) (k : Nat) (x : LockStep) : (s.setLs k x).rings = s.rings := (rfl)
@[simp] theorem State.setLs_turn (s : State) (k : Nat) (x : LockStep) : (s.setLs k x).turn = s.turn := (rfl)
@[simp] theorem State.setLs_notify (s : State) (k : Nat) (x : LockStep) : (s.setLs k x).notify = s.notify := (rfl)
@[simp] theorem State.setLs_notes (s : State) (k : Nat) (x : LockStep) : (s.setLs k x).notes = s.notes := (rfl)
@[simp] theorem State.setLs_hostOut (s : State) (k : Nat) (x : LockStep) : (s.setLs k x).hostOut = s.hostOut := (rfl)
@[simp] theorem State.setLs_irqs (s : State) (k : Nat) (x : LockStep) : (s.setLs k x).irqs = s.irqs := (rfl)
@[simp] theorem State.setLs_vfs (s : State) (k : Nat) (x : LockStep) : (s.setLs k x).vfs = s.vfs := (rfl)
@[simp] theorem State.setLs_pcieUp (s : State) (k : Nat) (x : LockStep) : (s.setLs k x).pcieUp = s.pcieUp := (rfl)
@[simp] theorem State.setLs_pcie (s : State) (k : Nat) (x : LockStep) : (s.setLs k x).pcie = s.pcie := (rfl)
@[simp] theorem State.setLs_ats (s : State) (k : Nat) (x : LockStep) : (s.setLs k x).ats = s.ats := (rfl)
@[simp] theorem State.setLs_atsDone (s : State) (k : Nat) (x : LockStep) : (s.setLs k x).atsDone = s.atsDone := (rfl)
@[simp] theorem State.setLs_parts (s : State) (k : Nat) (x : LockStep) : (s.setLs k x).parts = s.parts := (rfl)
@[simp] theorem State.setLs_power (s : State) (k : Nat) (x : LockStep) : (s.setLs k x).power = s.power := (rfl)
@[simp] theorem State.setLs_pins (s : State) (k : Nat) (x : LockStep) : (s.setLs k x).pins = s.pins := (rfl)
@[simp] theorem State.setLs_mon (s : State) (k : Nat) (x : LockStep) : (s.setLs k x).mon = s.mon := (rfl)
@[simp] theorem State.setLs_txn (s : State) (k : Nat) (x : LockStep) : (s.setLs k x).txn = s.txn := (rfl)
@[simp] theorem State.setLs_armedTxns (s : State) (k : Nat) (x : LockStep) : (s.setLs k x).armedTxns = s.armedTxns := (rfl)
@[simp] theorem State.setLs_prot (s : State) (k : Nat) (x : LockStep) : (s.setLs k x).prot = s.prot := (rfl)
@[simp] theorem State.setLs_snapAt (s : State) (k : Nat) (x : LockStep) : (s.setLs k x).snapAt = s.snapAt := (rfl)
@[simp] theorem State.setLs_trace (s : State) (k : Nat) (x : LockStep) : (s.setLs k x).trace = s.trace := (rfl)
@[simp] theorem State.setLs_traceQ (s : State) (k : Nat) (x : LockStep) : (s.setLs k x).traceQ = s.traceQ := (rfl)
@[simp] theorem State.setLs_dump (s : State) (k : Nat) (x : LockStep) : (s.setLs k x).dump = s.dump := (rfl)
@[simp] theorem State.setLs_wfg (s : State) (k : Nat) (x : LockStep) : (s.setLs k x).wfg = s.wfg := (rfl)
@[simp] theorem State.setLs_i3c (s : State) (k : Nat) (x : LockStep) : (s.setLs k x).i3c = s.i3c := (rfl)
@[simp] theorem State.setLs_readData (s : State) (k : Nat) (x : LockStep) : (s.setLs k x).readData = s.readData := (rfl)
@[simp] theorem State.setLs_inject (s : State) (k : Nat) (x : LockStep) : (s.setLs k x).inject = s.inject := (rfl)
@[simp] theorem State.setLs_streams (s : State) (k : Nat) (x : LockStep) : (s.setLs k x).streams = s.streams := (rfl)
@[simp] theorem State.setLs_engine (s : State) (k : Nat) (x : LockStep) : (s.setLs k x).engine = s.engine := (rfl)
@[simp] theorem State.setLs_grants (s : State) (k : Nat) (x : LockStep) : (s.setLs k x).grants = s.grants := (rfl)
@[simp] theorem State.setLs_hbm (s : State) (k : Nat) (x : LockStep) : (s.setLs k x).hbm = s.hbm := (rfl)
@[simp] theorem State.setLs_spray (s : State) (k : Nat) (x : LockStep) : (s.setLs k x).spray = s.spray := (rfl)
@[simp] theorem State.setLs_nseq (s : State) (k : Nat) (x : LockStep) : (s.setLs k x).nseq = s.nseq := (rfl)
@[simp] theorem State.setLs_lastNseq (s : State) (k : Nat) (x : LockStep) : (s.setLs k x).lastNseq = s.lastNseq := (rfl)
@[simp] theorem State.setLs_flipPrev (s : State) (k : Nat) (x : LockStep) : (s.setLs k x).flipPrev = s.flipPrev := (rfl)
@[simp] theorem State.setLs_skipScrub (s : State) (k : Nat) (x : LockStep) : (s.setLs k x).skipScrub = s.skipScrub := (rfl)
@[simp] theorem State.setLs_failedQuarters (s : State) (k : Nat) (x : LockStep) : (s.setLs k x).failedQuarters = s.failedQuarters := (rfl)
@[simp] theorem State.setLs_ethOut (s : State) (k : Nat) (x : LockStep) : (s.setLs k x).ethOut = s.ethOut := (rfl)
@[simp] theorem State.setLs_setNow (s : State) (k : Nat) (x : LockStep) : (s.setLs k x).setNow = s.setNow := (rfl)
@[simp] theorem State.setLs_txnNow (s : State) (k : Nat) (x : LockStep) : (s.setLs k x).txnNow = s.txnNow := (rfl)
@[simp] theorem State.setLs_cycleNow (s : State) (k : Nat) (x : LockStep) : (s.setLs k x).cycleNow = s.cycleNow := (rfl)

@[simp] theorem State.setTr_pending (s : State) (k : Nat) (x : Trace) : (s.setTr k x).pending = s.pending := (rfl)
@[simp] theorem State.setTr_freeCtr (s : State) (k : Nat) (x : Trace) : (s.setTr k x).freeCtr = s.freeCtr := (rfl)
@[simp] theorem State.setTr_regs (s : State) (k : Nat) (x : Trace) : (s.setTr k x).regs = s.regs := (rfl)
@[simp] theorem State.setTr_mem (s : State) (k : Nat) (x : Trace) : (s.setTr k x).mem = s.mem := (rfl)
@[simp] theorem State.setTr_dies (s : State) (k : Nat) (x : Trace) : (s.setTr k x).dies = s.dies := (rfl)
@[simp] theorem State.setTr_evlog (s : State) (k : Nat) (x : Trace) : (s.setTr k x).evlog = s.evlog := (rfl)
@[simp] theorem State.setTr_acceptAt (s : State) (k : Nat) (x : Trace) : (s.setTr k x).acceptAt = s.acceptAt := (rfl)
@[simp] theorem State.setTr_rates (s : State) (k : Nat) (x : Trace) : (s.setTr k x).rates = s.rates := (rfl)
@[simp] theorem State.setTr_time (s : State) (k : Nat) (x : Trace) : (s.setTr k x).time = s.time := (rfl)
@[simp] theorem State.setTr_ptime (s : State) (k : Nat) (x : Trace) : (s.setTr k x).ptime = s.ptime := (rfl)
@[simp] theorem State.setTr_tiles (s : State) (k : Nat) (x : Trace) : (s.setTr k x).tiles = s.tiles := (rfl)
@[simp] theorem State.setTr_lineCells (s : State) (k : Nat) (x : Trace) : (s.setTr k x).lineCells = s.lineCells := (rfl)
@[simp] theorem State.setTr_tokens (s : State) (k : Nat) (x : Trace) : (s.setTr k x).tokens = s.tokens := (rfl)
@[simp] theorem State.setTr_tokOps (s : State) (k : Nat) (x : Trace) : (s.setTr k x).tokOps = s.tokOps := (rfl)
@[simp] theorem State.setTr_spent (s : State) (k : Nat) (x : Trace) : (s.setTr k x).spent = s.spent := (rfl)
@[simp] theorem State.setTr_recent (s : State) (k : Nat) (x : Trace) : (s.setTr k x).recent = s.recent := (rfl)
@[simp] theorem State.setTr_walkers (s : State) (k : Nat) (x : Trace) : (s.setTr k x).walkers = s.walkers := (rfl)
@[simp] theorem State.setTr_preWalkers (s : State) (k : Nat) (x : Trace) : (s.setTr k x).preWalkers = s.preWalkers := (rfl)
@[simp] theorem State.setTr_transits (s : State) (k : Nat) (x : Trace) : (s.setTr k x).transits = s.transits := (rfl)
@[simp] theorem State.setTr_sramReads (s : State) (k : Nat) (x : Trace) : (s.setTr k x).sramReads = s.sramReads := (rfl)
@[simp] theorem State.setTr_jn (s : State) (k : Nat) (x : Trace) : (s.setTr k x).jn = s.jn := (rfl)
@[simp] theorem State.setTr_ports (s : State) (k : Nat) (x : Trace) : (s.setTr k x).ports = s.ports := (rfl)
@[simp] theorem State.setTr_rings (s : State) (k : Nat) (x : Trace) : (s.setTr k x).rings = s.rings := (rfl)
@[simp] theorem State.setTr_turn (s : State) (k : Nat) (x : Trace) : (s.setTr k x).turn = s.turn := (rfl)
@[simp] theorem State.setTr_notify (s : State) (k : Nat) (x : Trace) : (s.setTr k x).notify = s.notify := (rfl)
@[simp] theorem State.setTr_notes (s : State) (k : Nat) (x : Trace) : (s.setTr k x).notes = s.notes := (rfl)
@[simp] theorem State.setTr_hostOut (s : State) (k : Nat) (x : Trace) : (s.setTr k x).hostOut = s.hostOut := (rfl)
@[simp] theorem State.setTr_irqs (s : State) (k : Nat) (x : Trace) : (s.setTr k x).irqs = s.irqs := (rfl)
@[simp] theorem State.setTr_vfs (s : State) (k : Nat) (x : Trace) : (s.setTr k x).vfs = s.vfs := (rfl)
@[simp] theorem State.setTr_pcieUp (s : State) (k : Nat) (x : Trace) : (s.setTr k x).pcieUp = s.pcieUp := (rfl)
@[simp] theorem State.setTr_pcie (s : State) (k : Nat) (x : Trace) : (s.setTr k x).pcie = s.pcie := (rfl)
@[simp] theorem State.setTr_ats (s : State) (k : Nat) (x : Trace) : (s.setTr k x).ats = s.ats := (rfl)
@[simp] theorem State.setTr_atsDone (s : State) (k : Nat) (x : Trace) : (s.setTr k x).atsDone = s.atsDone := (rfl)
@[simp] theorem State.setTr_parts (s : State) (k : Nat) (x : Trace) : (s.setTr k x).parts = s.parts := (rfl)
@[simp] theorem State.setTr_lock (s : State) (k : Nat) (x : Trace) : (s.setTr k x).lock = s.lock := (rfl)
@[simp] theorem State.setTr_power (s : State) (k : Nat) (x : Trace) : (s.setTr k x).power = s.power := (rfl)
@[simp] theorem State.setTr_pins (s : State) (k : Nat) (x : Trace) : (s.setTr k x).pins = s.pins := (rfl)
@[simp] theorem State.setTr_mon (s : State) (k : Nat) (x : Trace) : (s.setTr k x).mon = s.mon := (rfl)
@[simp] theorem State.setTr_txn (s : State) (k : Nat) (x : Trace) : (s.setTr k x).txn = s.txn := (rfl)
@[simp] theorem State.setTr_armedTxns (s : State) (k : Nat) (x : Trace) : (s.setTr k x).armedTxns = s.armedTxns := (rfl)
@[simp] theorem State.setTr_prot (s : State) (k : Nat) (x : Trace) : (s.setTr k x).prot = s.prot := (rfl)
@[simp] theorem State.setTr_snapAt (s : State) (k : Nat) (x : Trace) : (s.setTr k x).snapAt = s.snapAt := (rfl)
@[simp] theorem State.setTr_traceQ (s : State) (k : Nat) (x : Trace) : (s.setTr k x).traceQ = s.traceQ := (rfl)
@[simp] theorem State.setTr_dump (s : State) (k : Nat) (x : Trace) : (s.setTr k x).dump = s.dump := (rfl)
@[simp] theorem State.setTr_wfg (s : State) (k : Nat) (x : Trace) : (s.setTr k x).wfg = s.wfg := (rfl)
@[simp] theorem State.setTr_i3c (s : State) (k : Nat) (x : Trace) : (s.setTr k x).i3c = s.i3c := (rfl)
@[simp] theorem State.setTr_readData (s : State) (k : Nat) (x : Trace) : (s.setTr k x).readData = s.readData := (rfl)
@[simp] theorem State.setTr_inject (s : State) (k : Nat) (x : Trace) : (s.setTr k x).inject = s.inject := (rfl)
@[simp] theorem State.setTr_streams (s : State) (k : Nat) (x : Trace) : (s.setTr k x).streams = s.streams := (rfl)
@[simp] theorem State.setTr_engine (s : State) (k : Nat) (x : Trace) : (s.setTr k x).engine = s.engine := (rfl)
@[simp] theorem State.setTr_grants (s : State) (k : Nat) (x : Trace) : (s.setTr k x).grants = s.grants := (rfl)
@[simp] theorem State.setTr_hbm (s : State) (k : Nat) (x : Trace) : (s.setTr k x).hbm = s.hbm := (rfl)
@[simp] theorem State.setTr_spray (s : State) (k : Nat) (x : Trace) : (s.setTr k x).spray = s.spray := (rfl)
@[simp] theorem State.setTr_nseq (s : State) (k : Nat) (x : Trace) : (s.setTr k x).nseq = s.nseq := (rfl)
@[simp] theorem State.setTr_lastNseq (s : State) (k : Nat) (x : Trace) : (s.setTr k x).lastNseq = s.lastNseq := (rfl)
@[simp] theorem State.setTr_flipPrev (s : State) (k : Nat) (x : Trace) : (s.setTr k x).flipPrev = s.flipPrev := (rfl)
@[simp] theorem State.setTr_skipScrub (s : State) (k : Nat) (x : Trace) : (s.setTr k x).skipScrub = s.skipScrub := (rfl)
@[simp] theorem State.setTr_failedQuarters (s : State) (k : Nat) (x : Trace) : (s.setTr k x).failedQuarters = s.failedQuarters := (rfl)
@[simp] theorem State.setTr_ethOut (s : State) (k : Nat) (x : Trace) : (s.setTr k x).ethOut = s.ethOut := (rfl)
@[simp] theorem State.setTr_setNow (s : State) (k : Nat) (x : Trace) : (s.setTr k x).setNow = s.setNow := (rfl)
@[simp] theorem State.setTr_txnNow (s : State) (k : Nat) (x : Trace) : (s.setTr k x).txnNow = s.txnNow := (rfl)
@[simp] theorem State.setTr_cycleNow (s : State) (k : Nat) (x : Trace) : (s.setTr k x).cycleNow = s.cycleNow := (rfl)

@[simp] theorem State.setTrq_pending (s : State) (k : Nat) (x : List (BitVec 256)) : (s.setTrq k x).pending = s.pending := (rfl)
@[simp] theorem State.setTrq_freeCtr (s : State) (k : Nat) (x : List (BitVec 256)) : (s.setTrq k x).freeCtr = s.freeCtr := (rfl)
@[simp] theorem State.setTrq_regs (s : State) (k : Nat) (x : List (BitVec 256)) : (s.setTrq k x).regs = s.regs := (rfl)
@[simp] theorem State.setTrq_mem (s : State) (k : Nat) (x : List (BitVec 256)) : (s.setTrq k x).mem = s.mem := (rfl)
@[simp] theorem State.setTrq_dies (s : State) (k : Nat) (x : List (BitVec 256)) : (s.setTrq k x).dies = s.dies := (rfl)
@[simp] theorem State.setTrq_evlog (s : State) (k : Nat) (x : List (BitVec 256)) : (s.setTrq k x).evlog = s.evlog := (rfl)
@[simp] theorem State.setTrq_acceptAt (s : State) (k : Nat) (x : List (BitVec 256)) : (s.setTrq k x).acceptAt = s.acceptAt := (rfl)
@[simp] theorem State.setTrq_rates (s : State) (k : Nat) (x : List (BitVec 256)) : (s.setTrq k x).rates = s.rates := (rfl)
@[simp] theorem State.setTrq_time (s : State) (k : Nat) (x : List (BitVec 256)) : (s.setTrq k x).time = s.time := (rfl)
@[simp] theorem State.setTrq_ptime (s : State) (k : Nat) (x : List (BitVec 256)) : (s.setTrq k x).ptime = s.ptime := (rfl)
@[simp] theorem State.setTrq_tiles (s : State) (k : Nat) (x : List (BitVec 256)) : (s.setTrq k x).tiles = s.tiles := (rfl)
@[simp] theorem State.setTrq_lineCells (s : State) (k : Nat) (x : List (BitVec 256)) : (s.setTrq k x).lineCells = s.lineCells := (rfl)
@[simp] theorem State.setTrq_tokens (s : State) (k : Nat) (x : List (BitVec 256)) : (s.setTrq k x).tokens = s.tokens := (rfl)
@[simp] theorem State.setTrq_tokOps (s : State) (k : Nat) (x : List (BitVec 256)) : (s.setTrq k x).tokOps = s.tokOps := (rfl)
@[simp] theorem State.setTrq_spent (s : State) (k : Nat) (x : List (BitVec 256)) : (s.setTrq k x).spent = s.spent := (rfl)
@[simp] theorem State.setTrq_recent (s : State) (k : Nat) (x : List (BitVec 256)) : (s.setTrq k x).recent = s.recent := (rfl)
@[simp] theorem State.setTrq_walkers (s : State) (k : Nat) (x : List (BitVec 256)) : (s.setTrq k x).walkers = s.walkers := (rfl)
@[simp] theorem State.setTrq_preWalkers (s : State) (k : Nat) (x : List (BitVec 256)) : (s.setTrq k x).preWalkers = s.preWalkers := (rfl)
@[simp] theorem State.setTrq_transits (s : State) (k : Nat) (x : List (BitVec 256)) : (s.setTrq k x).transits = s.transits := (rfl)
@[simp] theorem State.setTrq_sramReads (s : State) (k : Nat) (x : List (BitVec 256)) : (s.setTrq k x).sramReads = s.sramReads := (rfl)
@[simp] theorem State.setTrq_jn (s : State) (k : Nat) (x : List (BitVec 256)) : (s.setTrq k x).jn = s.jn := (rfl)
@[simp] theorem State.setTrq_ports (s : State) (k : Nat) (x : List (BitVec 256)) : (s.setTrq k x).ports = s.ports := (rfl)
@[simp] theorem State.setTrq_rings (s : State) (k : Nat) (x : List (BitVec 256)) : (s.setTrq k x).rings = s.rings := (rfl)
@[simp] theorem State.setTrq_turn (s : State) (k : Nat) (x : List (BitVec 256)) : (s.setTrq k x).turn = s.turn := (rfl)
@[simp] theorem State.setTrq_notify (s : State) (k : Nat) (x : List (BitVec 256)) : (s.setTrq k x).notify = s.notify := (rfl)
@[simp] theorem State.setTrq_notes (s : State) (k : Nat) (x : List (BitVec 256)) : (s.setTrq k x).notes = s.notes := (rfl)
@[simp] theorem State.setTrq_hostOut (s : State) (k : Nat) (x : List (BitVec 256)) : (s.setTrq k x).hostOut = s.hostOut := (rfl)
@[simp] theorem State.setTrq_irqs (s : State) (k : Nat) (x : List (BitVec 256)) : (s.setTrq k x).irqs = s.irqs := (rfl)
@[simp] theorem State.setTrq_vfs (s : State) (k : Nat) (x : List (BitVec 256)) : (s.setTrq k x).vfs = s.vfs := (rfl)
@[simp] theorem State.setTrq_pcieUp (s : State) (k : Nat) (x : List (BitVec 256)) : (s.setTrq k x).pcieUp = s.pcieUp := (rfl)
@[simp] theorem State.setTrq_pcie (s : State) (k : Nat) (x : List (BitVec 256)) : (s.setTrq k x).pcie = s.pcie := (rfl)
@[simp] theorem State.setTrq_ats (s : State) (k : Nat) (x : List (BitVec 256)) : (s.setTrq k x).ats = s.ats := (rfl)
@[simp] theorem State.setTrq_atsDone (s : State) (k : Nat) (x : List (BitVec 256)) : (s.setTrq k x).atsDone = s.atsDone := (rfl)
@[simp] theorem State.setTrq_parts (s : State) (k : Nat) (x : List (BitVec 256)) : (s.setTrq k x).parts = s.parts := (rfl)
@[simp] theorem State.setTrq_lock (s : State) (k : Nat) (x : List (BitVec 256)) : (s.setTrq k x).lock = s.lock := (rfl)
@[simp] theorem State.setTrq_power (s : State) (k : Nat) (x : List (BitVec 256)) : (s.setTrq k x).power = s.power := (rfl)
@[simp] theorem State.setTrq_pins (s : State) (k : Nat) (x : List (BitVec 256)) : (s.setTrq k x).pins = s.pins := (rfl)
@[simp] theorem State.setTrq_mon (s : State) (k : Nat) (x : List (BitVec 256)) : (s.setTrq k x).mon = s.mon := (rfl)
@[simp] theorem State.setTrq_txn (s : State) (k : Nat) (x : List (BitVec 256)) : (s.setTrq k x).txn = s.txn := (rfl)
@[simp] theorem State.setTrq_armedTxns (s : State) (k : Nat) (x : List (BitVec 256)) : (s.setTrq k x).armedTxns = s.armedTxns := (rfl)
@[simp] theorem State.setTrq_prot (s : State) (k : Nat) (x : List (BitVec 256)) : (s.setTrq k x).prot = s.prot := (rfl)
@[simp] theorem State.setTrq_snapAt (s : State) (k : Nat) (x : List (BitVec 256)) : (s.setTrq k x).snapAt = s.snapAt := (rfl)
@[simp] theorem State.setTrq_trace (s : State) (k : Nat) (x : List (BitVec 256)) : (s.setTrq k x).trace = s.trace := (rfl)
@[simp] theorem State.setTrq_dump (s : State) (k : Nat) (x : List (BitVec 256)) : (s.setTrq k x).dump = s.dump := (rfl)
@[simp] theorem State.setTrq_wfg (s : State) (k : Nat) (x : List (BitVec 256)) : (s.setTrq k x).wfg = s.wfg := (rfl)
@[simp] theorem State.setTrq_i3c (s : State) (k : Nat) (x : List (BitVec 256)) : (s.setTrq k x).i3c = s.i3c := (rfl)
@[simp] theorem State.setTrq_readData (s : State) (k : Nat) (x : List (BitVec 256)) : (s.setTrq k x).readData = s.readData := (rfl)
@[simp] theorem State.setTrq_inject (s : State) (k : Nat) (x : List (BitVec 256)) : (s.setTrq k x).inject = s.inject := (rfl)
@[simp] theorem State.setTrq_streams (s : State) (k : Nat) (x : List (BitVec 256)) : (s.setTrq k x).streams = s.streams := (rfl)
@[simp] theorem State.setTrq_engine (s : State) (k : Nat) (x : List (BitVec 256)) : (s.setTrq k x).engine = s.engine := (rfl)
@[simp] theorem State.setTrq_grants (s : State) (k : Nat) (x : List (BitVec 256)) : (s.setTrq k x).grants = s.grants := (rfl)
@[simp] theorem State.setTrq_hbm (s : State) (k : Nat) (x : List (BitVec 256)) : (s.setTrq k x).hbm = s.hbm := (rfl)
@[simp] theorem State.setTrq_spray (s : State) (k : Nat) (x : List (BitVec 256)) : (s.setTrq k x).spray = s.spray := (rfl)
@[simp] theorem State.setTrq_nseq (s : State) (k : Nat) (x : List (BitVec 256)) : (s.setTrq k x).nseq = s.nseq := (rfl)
@[simp] theorem State.setTrq_lastNseq (s : State) (k : Nat) (x : List (BitVec 256)) : (s.setTrq k x).lastNseq = s.lastNseq := (rfl)
@[simp] theorem State.setTrq_flipPrev (s : State) (k : Nat) (x : List (BitVec 256)) : (s.setTrq k x).flipPrev = s.flipPrev := (rfl)
@[simp] theorem State.setTrq_skipScrub (s : State) (k : Nat) (x : List (BitVec 256)) : (s.setTrq k x).skipScrub = s.skipScrub := (rfl)
@[simp] theorem State.setTrq_failedQuarters (s : State) (k : Nat) (x : List (BitVec 256)) : (s.setTrq k x).failedQuarters = s.failedQuarters := (rfl)
@[simp] theorem State.setTrq_ethOut (s : State) (k : Nat) (x : List (BitVec 256)) : (s.setTrq k x).ethOut = s.ethOut := (rfl)
@[simp] theorem State.setTrq_setNow (s : State) (k : Nat) (x : List (BitVec 256)) : (s.setTrq k x).setNow = s.setNow := (rfl)
@[simp] theorem State.setTrq_txnNow (s : State) (k : Nat) (x : List (BitVec 256)) : (s.setTrq k x).txnNow = s.txnNow := (rfl)
@[simp] theorem State.setTrq_cycleNow (s : State) (k : Nat) (x : List (BitVec 256)) : (s.setTrq k x).cycleNow = s.cycleNow := (rfl)

@[simp] theorem State.setI3cT_pending (s : State) (k : Nat) (x : I3c) : (s.setI3cT k x).pending = s.pending := (rfl)
@[simp] theorem State.setI3cT_freeCtr (s : State) (k : Nat) (x : I3c) : (s.setI3cT k x).freeCtr = s.freeCtr := (rfl)
@[simp] theorem State.setI3cT_regs (s : State) (k : Nat) (x : I3c) : (s.setI3cT k x).regs = s.regs := (rfl)
@[simp] theorem State.setI3cT_mem (s : State) (k : Nat) (x : I3c) : (s.setI3cT k x).mem = s.mem := (rfl)
@[simp] theorem State.setI3cT_dies (s : State) (k : Nat) (x : I3c) : (s.setI3cT k x).dies = s.dies := (rfl)
@[simp] theorem State.setI3cT_evlog (s : State) (k : Nat) (x : I3c) : (s.setI3cT k x).evlog = s.evlog := (rfl)
@[simp] theorem State.setI3cT_acceptAt (s : State) (k : Nat) (x : I3c) : (s.setI3cT k x).acceptAt = s.acceptAt := (rfl)
@[simp] theorem State.setI3cT_rates (s : State) (k : Nat) (x : I3c) : (s.setI3cT k x).rates = s.rates := (rfl)
@[simp] theorem State.setI3cT_time (s : State) (k : Nat) (x : I3c) : (s.setI3cT k x).time = s.time := (rfl)
@[simp] theorem State.setI3cT_ptime (s : State) (k : Nat) (x : I3c) : (s.setI3cT k x).ptime = s.ptime := (rfl)
@[simp] theorem State.setI3cT_tiles (s : State) (k : Nat) (x : I3c) : (s.setI3cT k x).tiles = s.tiles := (rfl)
@[simp] theorem State.setI3cT_lineCells (s : State) (k : Nat) (x : I3c) : (s.setI3cT k x).lineCells = s.lineCells := (rfl)
@[simp] theorem State.setI3cT_tokens (s : State) (k : Nat) (x : I3c) : (s.setI3cT k x).tokens = s.tokens := (rfl)
@[simp] theorem State.setI3cT_tokOps (s : State) (k : Nat) (x : I3c) : (s.setI3cT k x).tokOps = s.tokOps := (rfl)
@[simp] theorem State.setI3cT_spent (s : State) (k : Nat) (x : I3c) : (s.setI3cT k x).spent = s.spent := (rfl)
@[simp] theorem State.setI3cT_recent (s : State) (k : Nat) (x : I3c) : (s.setI3cT k x).recent = s.recent := (rfl)
@[simp] theorem State.setI3cT_walkers (s : State) (k : Nat) (x : I3c) : (s.setI3cT k x).walkers = s.walkers := (rfl)
@[simp] theorem State.setI3cT_preWalkers (s : State) (k : Nat) (x : I3c) : (s.setI3cT k x).preWalkers = s.preWalkers := (rfl)
@[simp] theorem State.setI3cT_transits (s : State) (k : Nat) (x : I3c) : (s.setI3cT k x).transits = s.transits := (rfl)
@[simp] theorem State.setI3cT_sramReads (s : State) (k : Nat) (x : I3c) : (s.setI3cT k x).sramReads = s.sramReads := (rfl)
@[simp] theorem State.setI3cT_jn (s : State) (k : Nat) (x : I3c) : (s.setI3cT k x).jn = s.jn := (rfl)
@[simp] theorem State.setI3cT_ports (s : State) (k : Nat) (x : I3c) : (s.setI3cT k x).ports = s.ports := (rfl)
@[simp] theorem State.setI3cT_rings (s : State) (k : Nat) (x : I3c) : (s.setI3cT k x).rings = s.rings := (rfl)
@[simp] theorem State.setI3cT_turn (s : State) (k : Nat) (x : I3c) : (s.setI3cT k x).turn = s.turn := (rfl)
@[simp] theorem State.setI3cT_notify (s : State) (k : Nat) (x : I3c) : (s.setI3cT k x).notify = s.notify := (rfl)
@[simp] theorem State.setI3cT_notes (s : State) (k : Nat) (x : I3c) : (s.setI3cT k x).notes = s.notes := (rfl)
@[simp] theorem State.setI3cT_hostOut (s : State) (k : Nat) (x : I3c) : (s.setI3cT k x).hostOut = s.hostOut := (rfl)
@[simp] theorem State.setI3cT_irqs (s : State) (k : Nat) (x : I3c) : (s.setI3cT k x).irqs = s.irqs := (rfl)
@[simp] theorem State.setI3cT_vfs (s : State) (k : Nat) (x : I3c) : (s.setI3cT k x).vfs = s.vfs := (rfl)
@[simp] theorem State.setI3cT_pcieUp (s : State) (k : Nat) (x : I3c) : (s.setI3cT k x).pcieUp = s.pcieUp := (rfl)
@[simp] theorem State.setI3cT_pcie (s : State) (k : Nat) (x : I3c) : (s.setI3cT k x).pcie = s.pcie := (rfl)
@[simp] theorem State.setI3cT_ats (s : State) (k : Nat) (x : I3c) : (s.setI3cT k x).ats = s.ats := (rfl)
@[simp] theorem State.setI3cT_atsDone (s : State) (k : Nat) (x : I3c) : (s.setI3cT k x).atsDone = s.atsDone := (rfl)
@[simp] theorem State.setI3cT_parts (s : State) (k : Nat) (x : I3c) : (s.setI3cT k x).parts = s.parts := (rfl)
@[simp] theorem State.setI3cT_lock (s : State) (k : Nat) (x : I3c) : (s.setI3cT k x).lock = s.lock := (rfl)
@[simp] theorem State.setI3cT_power (s : State) (k : Nat) (x : I3c) : (s.setI3cT k x).power = s.power := (rfl)
@[simp] theorem State.setI3cT_pins (s : State) (k : Nat) (x : I3c) : (s.setI3cT k x).pins = s.pins := (rfl)
@[simp] theorem State.setI3cT_mon (s : State) (k : Nat) (x : I3c) : (s.setI3cT k x).mon = s.mon := (rfl)
@[simp] theorem State.setI3cT_txn (s : State) (k : Nat) (x : I3c) : (s.setI3cT k x).txn = s.txn := (rfl)
@[simp] theorem State.setI3cT_armedTxns (s : State) (k : Nat) (x : I3c) : (s.setI3cT k x).armedTxns = s.armedTxns := (rfl)
@[simp] theorem State.setI3cT_prot (s : State) (k : Nat) (x : I3c) : (s.setI3cT k x).prot = s.prot := (rfl)
@[simp] theorem State.setI3cT_snapAt (s : State) (k : Nat) (x : I3c) : (s.setI3cT k x).snapAt = s.snapAt := (rfl)
@[simp] theorem State.setI3cT_trace (s : State) (k : Nat) (x : I3c) : (s.setI3cT k x).trace = s.trace := (rfl)
@[simp] theorem State.setI3cT_traceQ (s : State) (k : Nat) (x : I3c) : (s.setI3cT k x).traceQ = s.traceQ := (rfl)
@[simp] theorem State.setI3cT_dump (s : State) (k : Nat) (x : I3c) : (s.setI3cT k x).dump = s.dump := (rfl)
@[simp] theorem State.setI3cT_wfg (s : State) (k : Nat) (x : I3c) : (s.setI3cT k x).wfg = s.wfg := (rfl)
@[simp] theorem State.setI3cT_readData (s : State) (k : Nat) (x : I3c) : (s.setI3cT k x).readData = s.readData := (rfl)
@[simp] theorem State.setI3cT_inject (s : State) (k : Nat) (x : I3c) : (s.setI3cT k x).inject = s.inject := (rfl)
@[simp] theorem State.setI3cT_streams (s : State) (k : Nat) (x : I3c) : (s.setI3cT k x).streams = s.streams := (rfl)
@[simp] theorem State.setI3cT_engine (s : State) (k : Nat) (x : I3c) : (s.setI3cT k x).engine = s.engine := (rfl)
@[simp] theorem State.setI3cT_grants (s : State) (k : Nat) (x : I3c) : (s.setI3cT k x).grants = s.grants := (rfl)
@[simp] theorem State.setI3cT_hbm (s : State) (k : Nat) (x : I3c) : (s.setI3cT k x).hbm = s.hbm := (rfl)
@[simp] theorem State.setI3cT_spray (s : State) (k : Nat) (x : I3c) : (s.setI3cT k x).spray = s.spray := (rfl)
@[simp] theorem State.setI3cT_nseq (s : State) (k : Nat) (x : I3c) : (s.setI3cT k x).nseq = s.nseq := (rfl)
@[simp] theorem State.setI3cT_lastNseq (s : State) (k : Nat) (x : I3c) : (s.setI3cT k x).lastNseq = s.lastNseq := (rfl)
@[simp] theorem State.setI3cT_flipPrev (s : State) (k : Nat) (x : I3c) : (s.setI3cT k x).flipPrev = s.flipPrev := (rfl)
@[simp] theorem State.setI3cT_skipScrub (s : State) (k : Nat) (x : I3c) : (s.setI3cT k x).skipScrub = s.skipScrub := (rfl)
@[simp] theorem State.setI3cT_failedQuarters (s : State) (k : Nat) (x : I3c) : (s.setI3cT k x).failedQuarters = s.failedQuarters := (rfl)
@[simp] theorem State.setI3cT_ethOut (s : State) (k : Nat) (x : I3c) : (s.setI3cT k x).ethOut = s.ethOut := (rfl)
@[simp] theorem State.setI3cT_setNow (s : State) (k : Nat) (x : I3c) : (s.setI3cT k x).setNow = s.setNow := (rfl)
@[simp] theorem State.setI3cT_txnNow (s : State) (k : Nat) (x : I3c) : (s.setI3cT k x).txnNow = s.txnNow := (rfl)
@[simp] theorem State.setI3cT_cycleNow (s : State) (k : Nat) (x : I3c) : (s.setI3cT k x).cycleNow = s.cycleNow := (rfl)

@[simp] theorem State.setInj_pending (s : State) (k : Nat) (x : Inject) : (s.setInj k x).pending = s.pending := (rfl)
@[simp] theorem State.setInj_freeCtr (s : State) (k : Nat) (x : Inject) : (s.setInj k x).freeCtr = s.freeCtr := (rfl)
@[simp] theorem State.setInj_regs (s : State) (k : Nat) (x : Inject) : (s.setInj k x).regs = s.regs := (rfl)
@[simp] theorem State.setInj_mem (s : State) (k : Nat) (x : Inject) : (s.setInj k x).mem = s.mem := (rfl)
@[simp] theorem State.setInj_dies (s : State) (k : Nat) (x : Inject) : (s.setInj k x).dies = s.dies := (rfl)
@[simp] theorem State.setInj_evlog (s : State) (k : Nat) (x : Inject) : (s.setInj k x).evlog = s.evlog := (rfl)
@[simp] theorem State.setInj_acceptAt (s : State) (k : Nat) (x : Inject) : (s.setInj k x).acceptAt = s.acceptAt := (rfl)
@[simp] theorem State.setInj_rates (s : State) (k : Nat) (x : Inject) : (s.setInj k x).rates = s.rates := (rfl)
@[simp] theorem State.setInj_time (s : State) (k : Nat) (x : Inject) : (s.setInj k x).time = s.time := (rfl)
@[simp] theorem State.setInj_ptime (s : State) (k : Nat) (x : Inject) : (s.setInj k x).ptime = s.ptime := (rfl)
@[simp] theorem State.setInj_tiles (s : State) (k : Nat) (x : Inject) : (s.setInj k x).tiles = s.tiles := (rfl)
@[simp] theorem State.setInj_lineCells (s : State) (k : Nat) (x : Inject) : (s.setInj k x).lineCells = s.lineCells := (rfl)
@[simp] theorem State.setInj_tokens (s : State) (k : Nat) (x : Inject) : (s.setInj k x).tokens = s.tokens := (rfl)
@[simp] theorem State.setInj_tokOps (s : State) (k : Nat) (x : Inject) : (s.setInj k x).tokOps = s.tokOps := (rfl)
@[simp] theorem State.setInj_spent (s : State) (k : Nat) (x : Inject) : (s.setInj k x).spent = s.spent := (rfl)
@[simp] theorem State.setInj_recent (s : State) (k : Nat) (x : Inject) : (s.setInj k x).recent = s.recent := (rfl)
@[simp] theorem State.setInj_walkers (s : State) (k : Nat) (x : Inject) : (s.setInj k x).walkers = s.walkers := (rfl)
@[simp] theorem State.setInj_preWalkers (s : State) (k : Nat) (x : Inject) : (s.setInj k x).preWalkers = s.preWalkers := (rfl)
@[simp] theorem State.setInj_transits (s : State) (k : Nat) (x : Inject) : (s.setInj k x).transits = s.transits := (rfl)
@[simp] theorem State.setInj_sramReads (s : State) (k : Nat) (x : Inject) : (s.setInj k x).sramReads = s.sramReads := (rfl)
@[simp] theorem State.setInj_jn (s : State) (k : Nat) (x : Inject) : (s.setInj k x).jn = s.jn := (rfl)
@[simp] theorem State.setInj_ports (s : State) (k : Nat) (x : Inject) : (s.setInj k x).ports = s.ports := (rfl)
@[simp] theorem State.setInj_rings (s : State) (k : Nat) (x : Inject) : (s.setInj k x).rings = s.rings := (rfl)
@[simp] theorem State.setInj_turn (s : State) (k : Nat) (x : Inject) : (s.setInj k x).turn = s.turn := (rfl)
@[simp] theorem State.setInj_notify (s : State) (k : Nat) (x : Inject) : (s.setInj k x).notify = s.notify := (rfl)
@[simp] theorem State.setInj_notes (s : State) (k : Nat) (x : Inject) : (s.setInj k x).notes = s.notes := (rfl)
@[simp] theorem State.setInj_hostOut (s : State) (k : Nat) (x : Inject) : (s.setInj k x).hostOut = s.hostOut := (rfl)
@[simp] theorem State.setInj_irqs (s : State) (k : Nat) (x : Inject) : (s.setInj k x).irqs = s.irqs := (rfl)
@[simp] theorem State.setInj_vfs (s : State) (k : Nat) (x : Inject) : (s.setInj k x).vfs = s.vfs := (rfl)
@[simp] theorem State.setInj_pcieUp (s : State) (k : Nat) (x : Inject) : (s.setInj k x).pcieUp = s.pcieUp := (rfl)
@[simp] theorem State.setInj_pcie (s : State) (k : Nat) (x : Inject) : (s.setInj k x).pcie = s.pcie := (rfl)
@[simp] theorem State.setInj_ats (s : State) (k : Nat) (x : Inject) : (s.setInj k x).ats = s.ats := (rfl)
@[simp] theorem State.setInj_atsDone (s : State) (k : Nat) (x : Inject) : (s.setInj k x).atsDone = s.atsDone := (rfl)
@[simp] theorem State.setInj_parts (s : State) (k : Nat) (x : Inject) : (s.setInj k x).parts = s.parts := (rfl)
@[simp] theorem State.setInj_lock (s : State) (k : Nat) (x : Inject) : (s.setInj k x).lock = s.lock := (rfl)
@[simp] theorem State.setInj_power (s : State) (k : Nat) (x : Inject) : (s.setInj k x).power = s.power := (rfl)
@[simp] theorem State.setInj_pins (s : State) (k : Nat) (x : Inject) : (s.setInj k x).pins = s.pins := (rfl)
@[simp] theorem State.setInj_mon (s : State) (k : Nat) (x : Inject) : (s.setInj k x).mon = s.mon := (rfl)
@[simp] theorem State.setInj_txn (s : State) (k : Nat) (x : Inject) : (s.setInj k x).txn = s.txn := (rfl)
@[simp] theorem State.setInj_armedTxns (s : State) (k : Nat) (x : Inject) : (s.setInj k x).armedTxns = s.armedTxns := (rfl)
@[simp] theorem State.setInj_prot (s : State) (k : Nat) (x : Inject) : (s.setInj k x).prot = s.prot := (rfl)
@[simp] theorem State.setInj_snapAt (s : State) (k : Nat) (x : Inject) : (s.setInj k x).snapAt = s.snapAt := (rfl)
@[simp] theorem State.setInj_trace (s : State) (k : Nat) (x : Inject) : (s.setInj k x).trace = s.trace := (rfl)
@[simp] theorem State.setInj_traceQ (s : State) (k : Nat) (x : Inject) : (s.setInj k x).traceQ = s.traceQ := (rfl)
@[simp] theorem State.setInj_dump (s : State) (k : Nat) (x : Inject) : (s.setInj k x).dump = s.dump := (rfl)
@[simp] theorem State.setInj_wfg (s : State) (k : Nat) (x : Inject) : (s.setInj k x).wfg = s.wfg := (rfl)
@[simp] theorem State.setInj_i3c (s : State) (k : Nat) (x : Inject) : (s.setInj k x).i3c = s.i3c := (rfl)
@[simp] theorem State.setInj_readData (s : State) (k : Nat) (x : Inject) : (s.setInj k x).readData = s.readData := (rfl)
@[simp] theorem State.setInj_streams (s : State) (k : Nat) (x : Inject) : (s.setInj k x).streams = s.streams := (rfl)
@[simp] theorem State.setInj_engine (s : State) (k : Nat) (x : Inject) : (s.setInj k x).engine = s.engine := (rfl)
@[simp] theorem State.setInj_grants (s : State) (k : Nat) (x : Inject) : (s.setInj k x).grants = s.grants := (rfl)
@[simp] theorem State.setInj_hbm (s : State) (k : Nat) (x : Inject) : (s.setInj k x).hbm = s.hbm := (rfl)
@[simp] theorem State.setInj_spray (s : State) (k : Nat) (x : Inject) : (s.setInj k x).spray = s.spray := (rfl)
@[simp] theorem State.setInj_nseq (s : State) (k : Nat) (x : Inject) : (s.setInj k x).nseq = s.nseq := (rfl)
@[simp] theorem State.setInj_lastNseq (s : State) (k : Nat) (x : Inject) : (s.setInj k x).lastNseq = s.lastNseq := (rfl)
@[simp] theorem State.setInj_flipPrev (s : State) (k : Nat) (x : Inject) : (s.setInj k x).flipPrev = s.flipPrev := (rfl)
@[simp] theorem State.setInj_skipScrub (s : State) (k : Nat) (x : Inject) : (s.setInj k x).skipScrub = s.skipScrub := (rfl)
@[simp] theorem State.setInj_failedQuarters (s : State) (k : Nat) (x : Inject) : (s.setInj k x).failedQuarters = s.failedQuarters := (rfl)
@[simp] theorem State.setInj_ethOut (s : State) (k : Nat) (x : Inject) : (s.setInj k x).ethOut = s.ethOut := (rfl)
@[simp] theorem State.setInj_setNow (s : State) (k : Nat) (x : Inject) : (s.setInj k x).setNow = s.setNow := (rfl)
@[simp] theorem State.setInj_txnNow (s : State) (k : Nat) (x : Inject) : (s.setInj k x).txnNow = s.txnNow := (rfl)
@[simp] theorem State.setInj_cycleNow (s : State) (k : Nat) (x : Inject) : (s.setInj k x).cycleNow = s.cycleNow := (rfl)

@[simp] theorem State.setStrm_pending (s : State) (k : Nat) (x : List Stream) : (s.setStrm k x).pending = s.pending := (rfl)
@[simp] theorem State.setStrm_freeCtr (s : State) (k : Nat) (x : List Stream) : (s.setStrm k x).freeCtr = s.freeCtr := (rfl)
@[simp] theorem State.setStrm_regs (s : State) (k : Nat) (x : List Stream) : (s.setStrm k x).regs = s.regs := (rfl)
@[simp] theorem State.setStrm_mem (s : State) (k : Nat) (x : List Stream) : (s.setStrm k x).mem = s.mem := (rfl)
@[simp] theorem State.setStrm_dies (s : State) (k : Nat) (x : List Stream) : (s.setStrm k x).dies = s.dies := (rfl)
@[simp] theorem State.setStrm_evlog (s : State) (k : Nat) (x : List Stream) : (s.setStrm k x).evlog = s.evlog := (rfl)
@[simp] theorem State.setStrm_acceptAt (s : State) (k : Nat) (x : List Stream) : (s.setStrm k x).acceptAt = s.acceptAt := (rfl)
@[simp] theorem State.setStrm_rates (s : State) (k : Nat) (x : List Stream) : (s.setStrm k x).rates = s.rates := (rfl)
@[simp] theorem State.setStrm_time (s : State) (k : Nat) (x : List Stream) : (s.setStrm k x).time = s.time := (rfl)
@[simp] theorem State.setStrm_ptime (s : State) (k : Nat) (x : List Stream) : (s.setStrm k x).ptime = s.ptime := (rfl)
@[simp] theorem State.setStrm_tiles (s : State) (k : Nat) (x : List Stream) : (s.setStrm k x).tiles = s.tiles := (rfl)
@[simp] theorem State.setStrm_lineCells (s : State) (k : Nat) (x : List Stream) : (s.setStrm k x).lineCells = s.lineCells := (rfl)
@[simp] theorem State.setStrm_tokens (s : State) (k : Nat) (x : List Stream) : (s.setStrm k x).tokens = s.tokens := (rfl)
@[simp] theorem State.setStrm_tokOps (s : State) (k : Nat) (x : List Stream) : (s.setStrm k x).tokOps = s.tokOps := (rfl)
@[simp] theorem State.setStrm_spent (s : State) (k : Nat) (x : List Stream) : (s.setStrm k x).spent = s.spent := (rfl)
@[simp] theorem State.setStrm_recent (s : State) (k : Nat) (x : List Stream) : (s.setStrm k x).recent = s.recent := (rfl)
@[simp] theorem State.setStrm_walkers (s : State) (k : Nat) (x : List Stream) : (s.setStrm k x).walkers = s.walkers := (rfl)
@[simp] theorem State.setStrm_preWalkers (s : State) (k : Nat) (x : List Stream) : (s.setStrm k x).preWalkers = s.preWalkers := (rfl)
@[simp] theorem State.setStrm_transits (s : State) (k : Nat) (x : List Stream) : (s.setStrm k x).transits = s.transits := (rfl)
@[simp] theorem State.setStrm_sramReads (s : State) (k : Nat) (x : List Stream) : (s.setStrm k x).sramReads = s.sramReads := (rfl)
@[simp] theorem State.setStrm_jn (s : State) (k : Nat) (x : List Stream) : (s.setStrm k x).jn = s.jn := (rfl)
@[simp] theorem State.setStrm_ports (s : State) (k : Nat) (x : List Stream) : (s.setStrm k x).ports = s.ports := (rfl)
@[simp] theorem State.setStrm_rings (s : State) (k : Nat) (x : List Stream) : (s.setStrm k x).rings = s.rings := (rfl)
@[simp] theorem State.setStrm_turn (s : State) (k : Nat) (x : List Stream) : (s.setStrm k x).turn = s.turn := (rfl)
@[simp] theorem State.setStrm_notify (s : State) (k : Nat) (x : List Stream) : (s.setStrm k x).notify = s.notify := (rfl)
@[simp] theorem State.setStrm_notes (s : State) (k : Nat) (x : List Stream) : (s.setStrm k x).notes = s.notes := (rfl)
@[simp] theorem State.setStrm_hostOut (s : State) (k : Nat) (x : List Stream) : (s.setStrm k x).hostOut = s.hostOut := (rfl)
@[simp] theorem State.setStrm_irqs (s : State) (k : Nat) (x : List Stream) : (s.setStrm k x).irqs = s.irqs := (rfl)
@[simp] theorem State.setStrm_vfs (s : State) (k : Nat) (x : List Stream) : (s.setStrm k x).vfs = s.vfs := (rfl)
@[simp] theorem State.setStrm_pcieUp (s : State) (k : Nat) (x : List Stream) : (s.setStrm k x).pcieUp = s.pcieUp := (rfl)
@[simp] theorem State.setStrm_pcie (s : State) (k : Nat) (x : List Stream) : (s.setStrm k x).pcie = s.pcie := (rfl)
@[simp] theorem State.setStrm_ats (s : State) (k : Nat) (x : List Stream) : (s.setStrm k x).ats = s.ats := (rfl)
@[simp] theorem State.setStrm_atsDone (s : State) (k : Nat) (x : List Stream) : (s.setStrm k x).atsDone = s.atsDone := (rfl)
@[simp] theorem State.setStrm_parts (s : State) (k : Nat) (x : List Stream) : (s.setStrm k x).parts = s.parts := (rfl)
@[simp] theorem State.setStrm_lock (s : State) (k : Nat) (x : List Stream) : (s.setStrm k x).lock = s.lock := (rfl)
@[simp] theorem State.setStrm_power (s : State) (k : Nat) (x : List Stream) : (s.setStrm k x).power = s.power := (rfl)
@[simp] theorem State.setStrm_pins (s : State) (k : Nat) (x : List Stream) : (s.setStrm k x).pins = s.pins := (rfl)
@[simp] theorem State.setStrm_mon (s : State) (k : Nat) (x : List Stream) : (s.setStrm k x).mon = s.mon := (rfl)
@[simp] theorem State.setStrm_txn (s : State) (k : Nat) (x : List Stream) : (s.setStrm k x).txn = s.txn := (rfl)
@[simp] theorem State.setStrm_armedTxns (s : State) (k : Nat) (x : List Stream) : (s.setStrm k x).armedTxns = s.armedTxns := (rfl)
@[simp] theorem State.setStrm_prot (s : State) (k : Nat) (x : List Stream) : (s.setStrm k x).prot = s.prot := (rfl)
@[simp] theorem State.setStrm_snapAt (s : State) (k : Nat) (x : List Stream) : (s.setStrm k x).snapAt = s.snapAt := (rfl)
@[simp] theorem State.setStrm_trace (s : State) (k : Nat) (x : List Stream) : (s.setStrm k x).trace = s.trace := (rfl)
@[simp] theorem State.setStrm_traceQ (s : State) (k : Nat) (x : List Stream) : (s.setStrm k x).traceQ = s.traceQ := (rfl)
@[simp] theorem State.setStrm_dump (s : State) (k : Nat) (x : List Stream) : (s.setStrm k x).dump = s.dump := (rfl)
@[simp] theorem State.setStrm_wfg (s : State) (k : Nat) (x : List Stream) : (s.setStrm k x).wfg = s.wfg := (rfl)
@[simp] theorem State.setStrm_i3c (s : State) (k : Nat) (x : List Stream) : (s.setStrm k x).i3c = s.i3c := (rfl)
@[simp] theorem State.setStrm_readData (s : State) (k : Nat) (x : List Stream) : (s.setStrm k x).readData = s.readData := (rfl)
@[simp] theorem State.setStrm_inject (s : State) (k : Nat) (x : List Stream) : (s.setStrm k x).inject = s.inject := (rfl)
@[simp] theorem State.setStrm_engine (s : State) (k : Nat) (x : List Stream) : (s.setStrm k x).engine = s.engine := (rfl)
@[simp] theorem State.setStrm_grants (s : State) (k : Nat) (x : List Stream) : (s.setStrm k x).grants = s.grants := (rfl)
@[simp] theorem State.setStrm_hbm (s : State) (k : Nat) (x : List Stream) : (s.setStrm k x).hbm = s.hbm := (rfl)
@[simp] theorem State.setStrm_spray (s : State) (k : Nat) (x : List Stream) : (s.setStrm k x).spray = s.spray := (rfl)
@[simp] theorem State.setStrm_nseq (s : State) (k : Nat) (x : List Stream) : (s.setStrm k x).nseq = s.nseq := (rfl)
@[simp] theorem State.setStrm_lastNseq (s : State) (k : Nat) (x : List Stream) : (s.setStrm k x).lastNseq = s.lastNseq := (rfl)
@[simp] theorem State.setStrm_flipPrev (s : State) (k : Nat) (x : List Stream) : (s.setStrm k x).flipPrev = s.flipPrev := (rfl)
@[simp] theorem State.setStrm_skipScrub (s : State) (k : Nat) (x : List Stream) : (s.setStrm k x).skipScrub = s.skipScrub := (rfl)
@[simp] theorem State.setStrm_failedQuarters (s : State) (k : Nat) (x : List Stream) : (s.setStrm k x).failedQuarters = s.failedQuarters := (rfl)
@[simp] theorem State.setStrm_ethOut (s : State) (k : Nat) (x : List Stream) : (s.setStrm k x).ethOut = s.ethOut := (rfl)
@[simp] theorem State.setStrm_setNow (s : State) (k : Nat) (x : List Stream) : (s.setStrm k x).setNow = s.setNow := (rfl)
@[simp] theorem State.setStrm_txnNow (s : State) (k : Nat) (x : List Stream) : (s.setStrm k x).txnNow = s.txnNow := (rfl)
@[simp] theorem State.setStrm_cycleNow (s : State) (k : Nat) (x : List Stream) : (s.setStrm k x).cycleNow = s.cycleNow := (rfl)

@[simp] theorem State.setStack_pending (s : State) (k : Nat) (x : Stack) : (s.setStack k x).pending = s.pending := (rfl)
@[simp] theorem State.setStack_freeCtr (s : State) (k : Nat) (x : Stack) : (s.setStack k x).freeCtr = s.freeCtr := (rfl)
@[simp] theorem State.setStack_regs (s : State) (k : Nat) (x : Stack) : (s.setStack k x).regs = s.regs := (rfl)
@[simp] theorem State.setStack_mem (s : State) (k : Nat) (x : Stack) : (s.setStack k x).mem = s.mem := (rfl)
@[simp] theorem State.setStack_dies (s : State) (k : Nat) (x : Stack) : (s.setStack k x).dies = s.dies := (rfl)
@[simp] theorem State.setStack_evlog (s : State) (k : Nat) (x : Stack) : (s.setStack k x).evlog = s.evlog := (rfl)
@[simp] theorem State.setStack_acceptAt (s : State) (k : Nat) (x : Stack) : (s.setStack k x).acceptAt = s.acceptAt := (rfl)
@[simp] theorem State.setStack_rates (s : State) (k : Nat) (x : Stack) : (s.setStack k x).rates = s.rates := (rfl)
@[simp] theorem State.setStack_time (s : State) (k : Nat) (x : Stack) : (s.setStack k x).time = s.time := (rfl)
@[simp] theorem State.setStack_ptime (s : State) (k : Nat) (x : Stack) : (s.setStack k x).ptime = s.ptime := (rfl)
@[simp] theorem State.setStack_tiles (s : State) (k : Nat) (x : Stack) : (s.setStack k x).tiles = s.tiles := (rfl)
@[simp] theorem State.setStack_lineCells (s : State) (k : Nat) (x : Stack) : (s.setStack k x).lineCells = s.lineCells := (rfl)
@[simp] theorem State.setStack_tokens (s : State) (k : Nat) (x : Stack) : (s.setStack k x).tokens = s.tokens := (rfl)
@[simp] theorem State.setStack_tokOps (s : State) (k : Nat) (x : Stack) : (s.setStack k x).tokOps = s.tokOps := (rfl)
@[simp] theorem State.setStack_spent (s : State) (k : Nat) (x : Stack) : (s.setStack k x).spent = s.spent := (rfl)
@[simp] theorem State.setStack_recent (s : State) (k : Nat) (x : Stack) : (s.setStack k x).recent = s.recent := (rfl)
@[simp] theorem State.setStack_walkers (s : State) (k : Nat) (x : Stack) : (s.setStack k x).walkers = s.walkers := (rfl)
@[simp] theorem State.setStack_preWalkers (s : State) (k : Nat) (x : Stack) : (s.setStack k x).preWalkers = s.preWalkers := (rfl)
@[simp] theorem State.setStack_transits (s : State) (k : Nat) (x : Stack) : (s.setStack k x).transits = s.transits := (rfl)
@[simp] theorem State.setStack_sramReads (s : State) (k : Nat) (x : Stack) : (s.setStack k x).sramReads = s.sramReads := (rfl)
@[simp] theorem State.setStack_jn (s : State) (k : Nat) (x : Stack) : (s.setStack k x).jn = s.jn := (rfl)
@[simp] theorem State.setStack_ports (s : State) (k : Nat) (x : Stack) : (s.setStack k x).ports = s.ports := (rfl)
@[simp] theorem State.setStack_rings (s : State) (k : Nat) (x : Stack) : (s.setStack k x).rings = s.rings := (rfl)
@[simp] theorem State.setStack_turn (s : State) (k : Nat) (x : Stack) : (s.setStack k x).turn = s.turn := (rfl)
@[simp] theorem State.setStack_notify (s : State) (k : Nat) (x : Stack) : (s.setStack k x).notify = s.notify := (rfl)
@[simp] theorem State.setStack_notes (s : State) (k : Nat) (x : Stack) : (s.setStack k x).notes = s.notes := (rfl)
@[simp] theorem State.setStack_hostOut (s : State) (k : Nat) (x : Stack) : (s.setStack k x).hostOut = s.hostOut := (rfl)
@[simp] theorem State.setStack_irqs (s : State) (k : Nat) (x : Stack) : (s.setStack k x).irqs = s.irqs := (rfl)
@[simp] theorem State.setStack_vfs (s : State) (k : Nat) (x : Stack) : (s.setStack k x).vfs = s.vfs := (rfl)
@[simp] theorem State.setStack_pcieUp (s : State) (k : Nat) (x : Stack) : (s.setStack k x).pcieUp = s.pcieUp := (rfl)
@[simp] theorem State.setStack_pcie (s : State) (k : Nat) (x : Stack) : (s.setStack k x).pcie = s.pcie := (rfl)
@[simp] theorem State.setStack_ats (s : State) (k : Nat) (x : Stack) : (s.setStack k x).ats = s.ats := (rfl)
@[simp] theorem State.setStack_atsDone (s : State) (k : Nat) (x : Stack) : (s.setStack k x).atsDone = s.atsDone := (rfl)
@[simp] theorem State.setStack_parts (s : State) (k : Nat) (x : Stack) : (s.setStack k x).parts = s.parts := (rfl)
@[simp] theorem State.setStack_lock (s : State) (k : Nat) (x : Stack) : (s.setStack k x).lock = s.lock := (rfl)
@[simp] theorem State.setStack_power (s : State) (k : Nat) (x : Stack) : (s.setStack k x).power = s.power := (rfl)
@[simp] theorem State.setStack_pins (s : State) (k : Nat) (x : Stack) : (s.setStack k x).pins = s.pins := (rfl)
@[simp] theorem State.setStack_mon (s : State) (k : Nat) (x : Stack) : (s.setStack k x).mon = s.mon := (rfl)
@[simp] theorem State.setStack_txn (s : State) (k : Nat) (x : Stack) : (s.setStack k x).txn = s.txn := (rfl)
@[simp] theorem State.setStack_armedTxns (s : State) (k : Nat) (x : Stack) : (s.setStack k x).armedTxns = s.armedTxns := (rfl)
@[simp] theorem State.setStack_prot (s : State) (k : Nat) (x : Stack) : (s.setStack k x).prot = s.prot := (rfl)
@[simp] theorem State.setStack_snapAt (s : State) (k : Nat) (x : Stack) : (s.setStack k x).snapAt = s.snapAt := (rfl)
@[simp] theorem State.setStack_trace (s : State) (k : Nat) (x : Stack) : (s.setStack k x).trace = s.trace := (rfl)
@[simp] theorem State.setStack_traceQ (s : State) (k : Nat) (x : Stack) : (s.setStack k x).traceQ = s.traceQ := (rfl)
@[simp] theorem State.setStack_dump (s : State) (k : Nat) (x : Stack) : (s.setStack k x).dump = s.dump := (rfl)
@[simp] theorem State.setStack_wfg (s : State) (k : Nat) (x : Stack) : (s.setStack k x).wfg = s.wfg := (rfl)
@[simp] theorem State.setStack_i3c (s : State) (k : Nat) (x : Stack) : (s.setStack k x).i3c = s.i3c := (rfl)
@[simp] theorem State.setStack_readData (s : State) (k : Nat) (x : Stack) : (s.setStack k x).readData = s.readData := (rfl)
@[simp] theorem State.setStack_inject (s : State) (k : Nat) (x : Stack) : (s.setStack k x).inject = s.inject := (rfl)
@[simp] theorem State.setStack_streams (s : State) (k : Nat) (x : Stack) : (s.setStack k x).streams = s.streams := (rfl)
@[simp] theorem State.setStack_engine (s : State) (k : Nat) (x : Stack) : (s.setStack k x).engine = s.engine := (rfl)
@[simp] theorem State.setStack_grants (s : State) (k : Nat) (x : Stack) : (s.setStack k x).grants = s.grants := (rfl)
@[simp] theorem State.setStack_spray (s : State) (k : Nat) (x : Stack) : (s.setStack k x).spray = s.spray := (rfl)
@[simp] theorem State.setStack_nseq (s : State) (k : Nat) (x : Stack) : (s.setStack k x).nseq = s.nseq := (rfl)
@[simp] theorem State.setStack_lastNseq (s : State) (k : Nat) (x : Stack) : (s.setStack k x).lastNseq = s.lastNseq := (rfl)
@[simp] theorem State.setStack_flipPrev (s : State) (k : Nat) (x : Stack) : (s.setStack k x).flipPrev = s.flipPrev := (rfl)
@[simp] theorem State.setStack_skipScrub (s : State) (k : Nat) (x : Stack) : (s.setStack k x).skipScrub = s.skipScrub := (rfl)
@[simp] theorem State.setStack_failedQuarters (s : State) (k : Nat) (x : Stack) : (s.setStack k x).failedQuarters = s.failedQuarters := (rfl)
@[simp] theorem State.setStack_ethOut (s : State) (k : Nat) (x : Stack) : (s.setStack k x).ethOut = s.ethOut := (rfl)
@[simp] theorem State.setStack_setNow (s : State) (k : Nat) (x : Stack) : (s.setStack k x).setNow = s.setNow := (rfl)
@[simp] theorem State.setStack_txnNow (s : State) (k : Nat) (x : Stack) : (s.setStack k x).txnNow = s.txnNow := (rfl)
@[simp] theorem State.setStack_cycleNow (s : State) (k : Nat) (x : Stack) : (s.setStack k x).cycleNow = s.cycleNow := (rfl)

@[simp] theorem State.setByte_pending (s : State) (a : Nat) (b : Byte) : (s.setByte a b).pending = s.pending := (rfl)
@[simp] theorem State.setByte_freeCtr (s : State) (a : Nat) (b : Byte) : (s.setByte a b).freeCtr = s.freeCtr := (rfl)
@[simp] theorem State.setByte_regs (s : State) (a : Nat) (b : Byte) : (s.setByte a b).regs = s.regs := (rfl)
@[simp] theorem State.setByte_dies (s : State) (a : Nat) (b : Byte) : (s.setByte a b).dies = s.dies := (rfl)
@[simp] theorem State.setByte_evlog (s : State) (a : Nat) (b : Byte) : (s.setByte a b).evlog = s.evlog := (rfl)
@[simp] theorem State.setByte_acceptAt (s : State) (a : Nat) (b : Byte) : (s.setByte a b).acceptAt = s.acceptAt := (rfl)
@[simp] theorem State.setByte_rates (s : State) (a : Nat) (b : Byte) : (s.setByte a b).rates = s.rates := (rfl)
@[simp] theorem State.setByte_time (s : State) (a : Nat) (b : Byte) : (s.setByte a b).time = s.time := (rfl)
@[simp] theorem State.setByte_ptime (s : State) (a : Nat) (b : Byte) : (s.setByte a b).ptime = s.ptime := (rfl)
@[simp] theorem State.setByte_tiles (s : State) (a : Nat) (b : Byte) : (s.setByte a b).tiles = s.tiles := (rfl)
@[simp] theorem State.setByte_lineCells (s : State) (a : Nat) (b : Byte) : (s.setByte a b).lineCells = s.lineCells := (rfl)
@[simp] theorem State.setByte_tokens (s : State) (a : Nat) (b : Byte) : (s.setByte a b).tokens = s.tokens := (rfl)
@[simp] theorem State.setByte_tokOps (s : State) (a : Nat) (b : Byte) : (s.setByte a b).tokOps = s.tokOps := (rfl)
@[simp] theorem State.setByte_spent (s : State) (a : Nat) (b : Byte) : (s.setByte a b).spent = s.spent := (rfl)
@[simp] theorem State.setByte_recent (s : State) (a : Nat) (b : Byte) : (s.setByte a b).recent = s.recent := (rfl)
@[simp] theorem State.setByte_walkers (s : State) (a : Nat) (b : Byte) : (s.setByte a b).walkers = s.walkers := (rfl)
@[simp] theorem State.setByte_preWalkers (s : State) (a : Nat) (b : Byte) : (s.setByte a b).preWalkers = s.preWalkers := (rfl)
@[simp] theorem State.setByte_transits (s : State) (a : Nat) (b : Byte) : (s.setByte a b).transits = s.transits := (rfl)
@[simp] theorem State.setByte_sramReads (s : State) (a : Nat) (b : Byte) : (s.setByte a b).sramReads = s.sramReads := (rfl)
@[simp] theorem State.setByte_jn (s : State) (a : Nat) (b : Byte) : (s.setByte a b).jn = s.jn := (rfl)
@[simp] theorem State.setByte_ports (s : State) (a : Nat) (b : Byte) : (s.setByte a b).ports = s.ports := (rfl)
@[simp] theorem State.setByte_rings (s : State) (a : Nat) (b : Byte) : (s.setByte a b).rings = s.rings := (rfl)
@[simp] theorem State.setByte_turn (s : State) (a : Nat) (b : Byte) : (s.setByte a b).turn = s.turn := (rfl)
@[simp] theorem State.setByte_notify (s : State) (a : Nat) (b : Byte) : (s.setByte a b).notify = s.notify := (rfl)
@[simp] theorem State.setByte_notes (s : State) (a : Nat) (b : Byte) : (s.setByte a b).notes = s.notes := (rfl)
@[simp] theorem State.setByte_hostOut (s : State) (a : Nat) (b : Byte) : (s.setByte a b).hostOut = s.hostOut := (rfl)
@[simp] theorem State.setByte_irqs (s : State) (a : Nat) (b : Byte) : (s.setByte a b).irqs = s.irqs := (rfl)
@[simp] theorem State.setByte_vfs (s : State) (a : Nat) (b : Byte) : (s.setByte a b).vfs = s.vfs := (rfl)
@[simp] theorem State.setByte_pcieUp (s : State) (a : Nat) (b : Byte) : (s.setByte a b).pcieUp = s.pcieUp := (rfl)
@[simp] theorem State.setByte_pcie (s : State) (a : Nat) (b : Byte) : (s.setByte a b).pcie = s.pcie := (rfl)
@[simp] theorem State.setByte_ats (s : State) (a : Nat) (b : Byte) : (s.setByte a b).ats = s.ats := (rfl)
@[simp] theorem State.setByte_atsDone (s : State) (a : Nat) (b : Byte) : (s.setByte a b).atsDone = s.atsDone := (rfl)
@[simp] theorem State.setByte_parts (s : State) (a : Nat) (b : Byte) : (s.setByte a b).parts = s.parts := (rfl)
@[simp] theorem State.setByte_lock (s : State) (a : Nat) (b : Byte) : (s.setByte a b).lock = s.lock := (rfl)
@[simp] theorem State.setByte_power (s : State) (a : Nat) (b : Byte) : (s.setByte a b).power = s.power := (rfl)
@[simp] theorem State.setByte_pins (s : State) (a : Nat) (b : Byte) : (s.setByte a b).pins = s.pins := (rfl)
@[simp] theorem State.setByte_mon (s : State) (a : Nat) (b : Byte) : (s.setByte a b).mon = s.mon := (rfl)
@[simp] theorem State.setByte_txn (s : State) (a : Nat) (b : Byte) : (s.setByte a b).txn = s.txn := (rfl)
@[simp] theorem State.setByte_armedTxns (s : State) (a : Nat) (b : Byte) : (s.setByte a b).armedTxns = s.armedTxns := (rfl)
@[simp] theorem State.setByte_prot (s : State) (a : Nat) (b : Byte) : (s.setByte a b).prot = s.prot := (rfl)
@[simp] theorem State.setByte_snapAt (s : State) (a : Nat) (b : Byte) : (s.setByte a b).snapAt = s.snapAt := (rfl)
@[simp] theorem State.setByte_trace (s : State) (a : Nat) (b : Byte) : (s.setByte a b).trace = s.trace := (rfl)
@[simp] theorem State.setByte_traceQ (s : State) (a : Nat) (b : Byte) : (s.setByte a b).traceQ = s.traceQ := (rfl)
@[simp] theorem State.setByte_dump (s : State) (a : Nat) (b : Byte) : (s.setByte a b).dump = s.dump := (rfl)
@[simp] theorem State.setByte_wfg (s : State) (a : Nat) (b : Byte) : (s.setByte a b).wfg = s.wfg := (rfl)
@[simp] theorem State.setByte_i3c (s : State) (a : Nat) (b : Byte) : (s.setByte a b).i3c = s.i3c := (rfl)
@[simp] theorem State.setByte_readData (s : State) (a : Nat) (b : Byte) : (s.setByte a b).readData = s.readData := (rfl)
@[simp] theorem State.setByte_inject (s : State) (a : Nat) (b : Byte) : (s.setByte a b).inject = s.inject := (rfl)
@[simp] theorem State.setByte_streams (s : State) (a : Nat) (b : Byte) : (s.setByte a b).streams = s.streams := (rfl)
@[simp] theorem State.setByte_engine (s : State) (a : Nat) (b : Byte) : (s.setByte a b).engine = s.engine := (rfl)
@[simp] theorem State.setByte_grants (s : State) (a : Nat) (b : Byte) : (s.setByte a b).grants = s.grants := (rfl)
@[simp] theorem State.setByte_hbm (s : State) (a : Nat) (b : Byte) : (s.setByte a b).hbm = s.hbm := (rfl)
@[simp] theorem State.setByte_spray (s : State) (a : Nat) (b : Byte) : (s.setByte a b).spray = s.spray := (rfl)
@[simp] theorem State.setByte_nseq (s : State) (a : Nat) (b : Byte) : (s.setByte a b).nseq = s.nseq := (rfl)
@[simp] theorem State.setByte_lastNseq (s : State) (a : Nat) (b : Byte) : (s.setByte a b).lastNseq = s.lastNseq := (rfl)
@[simp] theorem State.setByte_flipPrev (s : State) (a : Nat) (b : Byte) : (s.setByte a b).flipPrev = s.flipPrev := (rfl)
@[simp] theorem State.setByte_skipScrub (s : State) (a : Nat) (b : Byte) : (s.setByte a b).skipScrub = s.skipScrub := (rfl)
@[simp] theorem State.setByte_failedQuarters (s : State) (a : Nat) (b : Byte) : (s.setByte a b).failedQuarters = s.failedQuarters := (rfl)
@[simp] theorem State.setByte_ethOut (s : State) (a : Nat) (b : Byte) : (s.setByte a b).ethOut = s.ethOut := (rfl)
@[simp] theorem State.setByte_setNow (s : State) (a : Nat) (b : Byte) : (s.setByte a b).setNow = s.setNow := (rfl)
@[simp] theorem State.setByte_txnNow (s : State) (a : Nat) (b : Byte) : (s.setByte a b).txnNow = s.txnNow := (rfl)
@[simp] theorem State.setByte_cycleNow (s : State) (a : Nat) (b : Byte) : (s.setByte a b).cycleNow = s.cycleNow := (rfl)

@[simp] theorem State.zeroMem_pending (s : State) (a n : Nat) : (s.zeroMem a n).pending = s.pending := (rfl)
@[simp] theorem State.zeroMem_freeCtr (s : State) (a n : Nat) : (s.zeroMem a n).freeCtr = s.freeCtr := (rfl)
@[simp] theorem State.zeroMem_regs (s : State) (a n : Nat) : (s.zeroMem a n).regs = s.regs := (rfl)
@[simp] theorem State.zeroMem_dies (s : State) (a n : Nat) : (s.zeroMem a n).dies = s.dies := (rfl)
@[simp] theorem State.zeroMem_evlog (s : State) (a n : Nat) : (s.zeroMem a n).evlog = s.evlog := (rfl)
@[simp] theorem State.zeroMem_acceptAt (s : State) (a n : Nat) : (s.zeroMem a n).acceptAt = s.acceptAt := (rfl)
@[simp] theorem State.zeroMem_rates (s : State) (a n : Nat) : (s.zeroMem a n).rates = s.rates := (rfl)
@[simp] theorem State.zeroMem_time (s : State) (a n : Nat) : (s.zeroMem a n).time = s.time := (rfl)
@[simp] theorem State.zeroMem_ptime (s : State) (a n : Nat) : (s.zeroMem a n).ptime = s.ptime := (rfl)
@[simp] theorem State.zeroMem_tiles (s : State) (a n : Nat) : (s.zeroMem a n).tiles = s.tiles := (rfl)
@[simp] theorem State.zeroMem_lineCells (s : State) (a n : Nat) : (s.zeroMem a n).lineCells = s.lineCells := (rfl)
@[simp] theorem State.zeroMem_tokens (s : State) (a n : Nat) : (s.zeroMem a n).tokens = s.tokens := (rfl)
@[simp] theorem State.zeroMem_tokOps (s : State) (a n : Nat) : (s.zeroMem a n).tokOps = s.tokOps := (rfl)
@[simp] theorem State.zeroMem_spent (s : State) (a n : Nat) : (s.zeroMem a n).spent = s.spent := (rfl)
@[simp] theorem State.zeroMem_recent (s : State) (a n : Nat) : (s.zeroMem a n).recent = s.recent := (rfl)
@[simp] theorem State.zeroMem_walkers (s : State) (a n : Nat) : (s.zeroMem a n).walkers = s.walkers := (rfl)
@[simp] theorem State.zeroMem_preWalkers (s : State) (a n : Nat) : (s.zeroMem a n).preWalkers = s.preWalkers := (rfl)
@[simp] theorem State.zeroMem_transits (s : State) (a n : Nat) : (s.zeroMem a n).transits = s.transits := (rfl)
@[simp] theorem State.zeroMem_sramReads (s : State) (a n : Nat) : (s.zeroMem a n).sramReads = s.sramReads := (rfl)
@[simp] theorem State.zeroMem_jn (s : State) (a n : Nat) : (s.zeroMem a n).jn = s.jn := (rfl)
@[simp] theorem State.zeroMem_ports (s : State) (a n : Nat) : (s.zeroMem a n).ports = s.ports := (rfl)
@[simp] theorem State.zeroMem_rings (s : State) (a n : Nat) : (s.zeroMem a n).rings = s.rings := (rfl)
@[simp] theorem State.zeroMem_turn (s : State) (a n : Nat) : (s.zeroMem a n).turn = s.turn := (rfl)
@[simp] theorem State.zeroMem_notify (s : State) (a n : Nat) : (s.zeroMem a n).notify = s.notify := (rfl)
@[simp] theorem State.zeroMem_notes (s : State) (a n : Nat) : (s.zeroMem a n).notes = s.notes := (rfl)
@[simp] theorem State.zeroMem_hostOut (s : State) (a n : Nat) : (s.zeroMem a n).hostOut = s.hostOut := (rfl)
@[simp] theorem State.zeroMem_irqs (s : State) (a n : Nat) : (s.zeroMem a n).irqs = s.irqs := (rfl)
@[simp] theorem State.zeroMem_vfs (s : State) (a n : Nat) : (s.zeroMem a n).vfs = s.vfs := (rfl)
@[simp] theorem State.zeroMem_pcieUp (s : State) (a n : Nat) : (s.zeroMem a n).pcieUp = s.pcieUp := (rfl)
@[simp] theorem State.zeroMem_pcie (s : State) (a n : Nat) : (s.zeroMem a n).pcie = s.pcie := (rfl)
@[simp] theorem State.zeroMem_ats (s : State) (a n : Nat) : (s.zeroMem a n).ats = s.ats := (rfl)
@[simp] theorem State.zeroMem_atsDone (s : State) (a n : Nat) : (s.zeroMem a n).atsDone = s.atsDone := (rfl)
@[simp] theorem State.zeroMem_parts (s : State) (a n : Nat) : (s.zeroMem a n).parts = s.parts := (rfl)
@[simp] theorem State.zeroMem_lock (s : State) (a n : Nat) : (s.zeroMem a n).lock = s.lock := (rfl)
@[simp] theorem State.zeroMem_power (s : State) (a n : Nat) : (s.zeroMem a n).power = s.power := (rfl)
@[simp] theorem State.zeroMem_pins (s : State) (a n : Nat) : (s.zeroMem a n).pins = s.pins := (rfl)
@[simp] theorem State.zeroMem_mon (s : State) (a n : Nat) : (s.zeroMem a n).mon = s.mon := (rfl)
@[simp] theorem State.zeroMem_txn (s : State) (a n : Nat) : (s.zeroMem a n).txn = s.txn := (rfl)
@[simp] theorem State.zeroMem_armedTxns (s : State) (a n : Nat) : (s.zeroMem a n).armedTxns = s.armedTxns := (rfl)
@[simp] theorem State.zeroMem_prot (s : State) (a n : Nat) : (s.zeroMem a n).prot = s.prot := (rfl)
@[simp] theorem State.zeroMem_snapAt (s : State) (a n : Nat) : (s.zeroMem a n).snapAt = s.snapAt := (rfl)
@[simp] theorem State.zeroMem_trace (s : State) (a n : Nat) : (s.zeroMem a n).trace = s.trace := (rfl)
@[simp] theorem State.zeroMem_traceQ (s : State) (a n : Nat) : (s.zeroMem a n).traceQ = s.traceQ := (rfl)
@[simp] theorem State.zeroMem_dump (s : State) (a n : Nat) : (s.zeroMem a n).dump = s.dump := (rfl)
@[simp] theorem State.zeroMem_wfg (s : State) (a n : Nat) : (s.zeroMem a n).wfg = s.wfg := (rfl)
@[simp] theorem State.zeroMem_i3c (s : State) (a n : Nat) : (s.zeroMem a n).i3c = s.i3c := (rfl)
@[simp] theorem State.zeroMem_readData (s : State) (a n : Nat) : (s.zeroMem a n).readData = s.readData := (rfl)
@[simp] theorem State.zeroMem_inject (s : State) (a n : Nat) : (s.zeroMem a n).inject = s.inject := (rfl)
@[simp] theorem State.zeroMem_streams (s : State) (a n : Nat) : (s.zeroMem a n).streams = s.streams := (rfl)
@[simp] theorem State.zeroMem_engine (s : State) (a n : Nat) : (s.zeroMem a n).engine = s.engine := (rfl)
@[simp] theorem State.zeroMem_grants (s : State) (a n : Nat) : (s.zeroMem a n).grants = s.grants := (rfl)
@[simp] theorem State.zeroMem_hbm (s : State) (a n : Nat) : (s.zeroMem a n).hbm = s.hbm := (rfl)
@[simp] theorem State.zeroMem_spray (s : State) (a n : Nat) : (s.zeroMem a n).spray = s.spray := (rfl)
@[simp] theorem State.zeroMem_nseq (s : State) (a n : Nat) : (s.zeroMem a n).nseq = s.nseq := (rfl)
@[simp] theorem State.zeroMem_lastNseq (s : State) (a n : Nat) : (s.zeroMem a n).lastNseq = s.lastNseq := (rfl)
@[simp] theorem State.zeroMem_flipPrev (s : State) (a n : Nat) : (s.zeroMem a n).flipPrev = s.flipPrev := (rfl)
@[simp] theorem State.zeroMem_skipScrub (s : State) (a n : Nat) : (s.zeroMem a n).skipScrub = s.skipScrub := (rfl)
@[simp] theorem State.zeroMem_failedQuarters (s : State) (a n : Nat) : (s.zeroMem a n).failedQuarters = s.failedQuarters := (rfl)
@[simp] theorem State.zeroMem_ethOut (s : State) (a n : Nat) : (s.zeroMem a n).ethOut = s.ethOut := (rfl)
@[simp] theorem State.zeroMem_setNow (s : State) (a n : Nat) : (s.zeroMem a n).setNow = s.setNow := (rfl)
@[simp] theorem State.zeroMem_txnNow (s : State) (a n : Nat) : (s.zeroMem a n).txnNow = s.txnNow := (rfl)
@[simp] theorem State.zeroMem_cycleNow (s : State) (a n : Nat) : (s.zeroMem a n).cycleNow = s.cycleNow := (rfl)

@[simp] theorem State.answer_pending (s : State) (i : Iface) (v : W64) : (s.answer i v).pending = s.pending := (rfl)
@[simp] theorem State.answer_freeCtr (s : State) (i : Iface) (v : W64) : (s.answer i v).freeCtr = s.freeCtr := (rfl)
@[simp] theorem State.answer_regs (s : State) (i : Iface) (v : W64) : (s.answer i v).regs = s.regs := (rfl)
@[simp] theorem State.answer_mem (s : State) (i : Iface) (v : W64) : (s.answer i v).mem = s.mem := (rfl)
@[simp] theorem State.answer_dies (s : State) (i : Iface) (v : W64) : (s.answer i v).dies = s.dies := (rfl)
@[simp] theorem State.answer_evlog (s : State) (i : Iface) (v : W64) : (s.answer i v).evlog = s.evlog := (rfl)
@[simp] theorem State.answer_acceptAt (s : State) (i : Iface) (v : W64) : (s.answer i v).acceptAt = s.acceptAt := (rfl)
@[simp] theorem State.answer_rates (s : State) (i : Iface) (v : W64) : (s.answer i v).rates = s.rates := (rfl)
@[simp] theorem State.answer_time (s : State) (i : Iface) (v : W64) : (s.answer i v).time = s.time := (rfl)
@[simp] theorem State.answer_ptime (s : State) (i : Iface) (v : W64) : (s.answer i v).ptime = s.ptime := (rfl)
@[simp] theorem State.answer_tiles (s : State) (i : Iface) (v : W64) : (s.answer i v).tiles = s.tiles := (rfl)
@[simp] theorem State.answer_lineCells (s : State) (i : Iface) (v : W64) : (s.answer i v).lineCells = s.lineCells := (rfl)
@[simp] theorem State.answer_tokens (s : State) (i : Iface) (v : W64) : (s.answer i v).tokens = s.tokens := (rfl)
@[simp] theorem State.answer_tokOps (s : State) (i : Iface) (v : W64) : (s.answer i v).tokOps = s.tokOps := (rfl)
@[simp] theorem State.answer_spent (s : State) (i : Iface) (v : W64) : (s.answer i v).spent = s.spent := (rfl)
@[simp] theorem State.answer_recent (s : State) (i : Iface) (v : W64) : (s.answer i v).recent = s.recent := (rfl)
@[simp] theorem State.answer_walkers (s : State) (i : Iface) (v : W64) : (s.answer i v).walkers = s.walkers := (rfl)
@[simp] theorem State.answer_preWalkers (s : State) (i : Iface) (v : W64) : (s.answer i v).preWalkers = s.preWalkers := (rfl)
@[simp] theorem State.answer_transits (s : State) (i : Iface) (v : W64) : (s.answer i v).transits = s.transits := (rfl)
@[simp] theorem State.answer_sramReads (s : State) (i : Iface) (v : W64) : (s.answer i v).sramReads = s.sramReads := (rfl)
@[simp] theorem State.answer_jn (s : State) (i : Iface) (v : W64) : (s.answer i v).jn = s.jn := (rfl)
@[simp] theorem State.answer_ports (s : State) (i : Iface) (v : W64) : (s.answer i v).ports = s.ports := (rfl)
@[simp] theorem State.answer_rings (s : State) (i : Iface) (v : W64) : (s.answer i v).rings = s.rings := (rfl)
@[simp] theorem State.answer_turn (s : State) (i : Iface) (v : W64) : (s.answer i v).turn = s.turn := (rfl)
@[simp] theorem State.answer_notify (s : State) (i : Iface) (v : W64) : (s.answer i v).notify = s.notify := (rfl)
@[simp] theorem State.answer_notes (s : State) (i : Iface) (v : W64) : (s.answer i v).notes = s.notes := (rfl)
@[simp] theorem State.answer_hostOut (s : State) (i : Iface) (v : W64) : (s.answer i v).hostOut = s.hostOut := (rfl)
@[simp] theorem State.answer_irqs (s : State) (i : Iface) (v : W64) : (s.answer i v).irqs = s.irqs := (rfl)
@[simp] theorem State.answer_vfs (s : State) (i : Iface) (v : W64) : (s.answer i v).vfs = s.vfs := (rfl)
@[simp] theorem State.answer_pcieUp (s : State) (i : Iface) (v : W64) : (s.answer i v).pcieUp = s.pcieUp := (rfl)
@[simp] theorem State.answer_pcie (s : State) (i : Iface) (v : W64) : (s.answer i v).pcie = s.pcie := (rfl)
@[simp] theorem State.answer_ats (s : State) (i : Iface) (v : W64) : (s.answer i v).ats = s.ats := (rfl)
@[simp] theorem State.answer_atsDone (s : State) (i : Iface) (v : W64) : (s.answer i v).atsDone = s.atsDone := (rfl)
@[simp] theorem State.answer_parts (s : State) (i : Iface) (v : W64) : (s.answer i v).parts = s.parts := (rfl)
@[simp] theorem State.answer_lock (s : State) (i : Iface) (v : W64) : (s.answer i v).lock = s.lock := (rfl)
@[simp] theorem State.answer_power (s : State) (i : Iface) (v : W64) : (s.answer i v).power = s.power := (rfl)
@[simp] theorem State.answer_pins (s : State) (i : Iface) (v : W64) : (s.answer i v).pins = s.pins := (rfl)
@[simp] theorem State.answer_mon (s : State) (i : Iface) (v : W64) : (s.answer i v).mon = s.mon := (rfl)
@[simp] theorem State.answer_txn (s : State) (i : Iface) (v : W64) : (s.answer i v).txn = s.txn := (rfl)
@[simp] theorem State.answer_armedTxns (s : State) (i : Iface) (v : W64) : (s.answer i v).armedTxns = s.armedTxns := (rfl)
@[simp] theorem State.answer_prot (s : State) (i : Iface) (v : W64) : (s.answer i v).prot = s.prot := (rfl)
@[simp] theorem State.answer_snapAt (s : State) (i : Iface) (v : W64) : (s.answer i v).snapAt = s.snapAt := (rfl)
@[simp] theorem State.answer_trace (s : State) (i : Iface) (v : W64) : (s.answer i v).trace = s.trace := (rfl)
@[simp] theorem State.answer_traceQ (s : State) (i : Iface) (v : W64) : (s.answer i v).traceQ = s.traceQ := (rfl)
@[simp] theorem State.answer_dump (s : State) (i : Iface) (v : W64) : (s.answer i v).dump = s.dump := (rfl)
@[simp] theorem State.answer_wfg (s : State) (i : Iface) (v : W64) : (s.answer i v).wfg = s.wfg := (rfl)
@[simp] theorem State.answer_i3c (s : State) (i : Iface) (v : W64) : (s.answer i v).i3c = s.i3c := (rfl)
@[simp] theorem State.answer_inject (s : State) (i : Iface) (v : W64) : (s.answer i v).inject = s.inject := (rfl)
@[simp] theorem State.answer_streams (s : State) (i : Iface) (v : W64) : (s.answer i v).streams = s.streams := (rfl)
@[simp] theorem State.answer_engine (s : State) (i : Iface) (v : W64) : (s.answer i v).engine = s.engine := (rfl)
@[simp] theorem State.answer_grants (s : State) (i : Iface) (v : W64) : (s.answer i v).grants = s.grants := (rfl)
@[simp] theorem State.answer_hbm (s : State) (i : Iface) (v : W64) : (s.answer i v).hbm = s.hbm := (rfl)
@[simp] theorem State.answer_spray (s : State) (i : Iface) (v : W64) : (s.answer i v).spray = s.spray := (rfl)
@[simp] theorem State.answer_nseq (s : State) (i : Iface) (v : W64) : (s.answer i v).nseq = s.nseq := (rfl)
@[simp] theorem State.answer_lastNseq (s : State) (i : Iface) (v : W64) : (s.answer i v).lastNseq = s.lastNseq := (rfl)
@[simp] theorem State.answer_flipPrev (s : State) (i : Iface) (v : W64) : (s.answer i v).flipPrev = s.flipPrev := (rfl)
@[simp] theorem State.answer_skipScrub (s : State) (i : Iface) (v : W64) : (s.answer i v).skipScrub = s.skipScrub := (rfl)
@[simp] theorem State.answer_failedQuarters (s : State) (i : Iface) (v : W64) : (s.answer i v).failedQuarters = s.failedQuarters := (rfl)
@[simp] theorem State.answer_ethOut (s : State) (i : Iface) (v : W64) : (s.answer i v).ethOut = s.ethOut := (rfl)
@[simp] theorem State.answer_setNow (s : State) (i : Iface) (v : W64) : (s.answer i v).setNow = s.setNow := (rfl)
@[simp] theorem State.answer_txnNow (s : State) (i : Iface) (v : W64) : (s.answer i v).txnNow = s.txnNow := (rfl)
@[simp] theorem State.answer_cycleNow (s : State) (i : Iface) (v : W64) : (s.answer i v).cycleNow = s.cycleNow := (rfl)

@[simp] theorem State.addNote_pending (s : State) (type origin part payload : Nat) : (s.addNote type origin part payload).pending = s.pending := (rfl)
@[simp] theorem State.addNote_freeCtr (s : State) (type origin part payload : Nat) : (s.addNote type origin part payload).freeCtr = s.freeCtr := (rfl)
@[simp] theorem State.addNote_regs (s : State) (type origin part payload : Nat) : (s.addNote type origin part payload).regs = s.regs := (rfl)
@[simp] theorem State.addNote_mem (s : State) (type origin part payload : Nat) : (s.addNote type origin part payload).mem = s.mem := (rfl)
@[simp] theorem State.addNote_dies (s : State) (type origin part payload : Nat) : (s.addNote type origin part payload).dies = s.dies := (rfl)
@[simp] theorem State.addNote_evlog (s : State) (type origin part payload : Nat) : (s.addNote type origin part payload).evlog = s.evlog := (rfl)
@[simp] theorem State.addNote_acceptAt (s : State) (type origin part payload : Nat) : (s.addNote type origin part payload).acceptAt = s.acceptAt := (rfl)
@[simp] theorem State.addNote_rates (s : State) (type origin part payload : Nat) : (s.addNote type origin part payload).rates = s.rates := (rfl)
@[simp] theorem State.addNote_time (s : State) (type origin part payload : Nat) : (s.addNote type origin part payload).time = s.time := (rfl)
@[simp] theorem State.addNote_ptime (s : State) (type origin part payload : Nat) : (s.addNote type origin part payload).ptime = s.ptime := (rfl)
@[simp] theorem State.addNote_tiles (s : State) (type origin part payload : Nat) : (s.addNote type origin part payload).tiles = s.tiles := (rfl)
@[simp] theorem State.addNote_lineCells (s : State) (type origin part payload : Nat) : (s.addNote type origin part payload).lineCells = s.lineCells := (rfl)
@[simp] theorem State.addNote_tokens (s : State) (type origin part payload : Nat) : (s.addNote type origin part payload).tokens = s.tokens := (rfl)
@[simp] theorem State.addNote_tokOps (s : State) (type origin part payload : Nat) : (s.addNote type origin part payload).tokOps = s.tokOps := (rfl)
@[simp] theorem State.addNote_spent (s : State) (type origin part payload : Nat) : (s.addNote type origin part payload).spent = s.spent := (rfl)
@[simp] theorem State.addNote_recent (s : State) (type origin part payload : Nat) : (s.addNote type origin part payload).recent = s.recent := (rfl)
@[simp] theorem State.addNote_walkers (s : State) (type origin part payload : Nat) : (s.addNote type origin part payload).walkers = s.walkers := (rfl)
@[simp] theorem State.addNote_preWalkers (s : State) (type origin part payload : Nat) : (s.addNote type origin part payload).preWalkers = s.preWalkers := (rfl)
@[simp] theorem State.addNote_transits (s : State) (type origin part payload : Nat) : (s.addNote type origin part payload).transits = s.transits := (rfl)
@[simp] theorem State.addNote_sramReads (s : State) (type origin part payload : Nat) : (s.addNote type origin part payload).sramReads = s.sramReads := (rfl)
@[simp] theorem State.addNote_jn (s : State) (type origin part payload : Nat) : (s.addNote type origin part payload).jn = s.jn := (rfl)
@[simp] theorem State.addNote_ports (s : State) (type origin part payload : Nat) : (s.addNote type origin part payload).ports = s.ports := (rfl)
@[simp] theorem State.addNote_rings (s : State) (type origin part payload : Nat) : (s.addNote type origin part payload).rings = s.rings := (rfl)
@[simp] theorem State.addNote_turn (s : State) (type origin part payload : Nat) : (s.addNote type origin part payload).turn = s.turn := (rfl)
@[simp] theorem State.addNote_notify (s : State) (type origin part payload : Nat) : (s.addNote type origin part payload).notify = s.notify := (rfl)
@[simp] theorem State.addNote_hostOut (s : State) (type origin part payload : Nat) : (s.addNote type origin part payload).hostOut = s.hostOut := (rfl)
@[simp] theorem State.addNote_irqs (s : State) (type origin part payload : Nat) : (s.addNote type origin part payload).irqs = s.irqs := (rfl)
@[simp] theorem State.addNote_vfs (s : State) (type origin part payload : Nat) : (s.addNote type origin part payload).vfs = s.vfs := (rfl)
@[simp] theorem State.addNote_pcieUp (s : State) (type origin part payload : Nat) : (s.addNote type origin part payload).pcieUp = s.pcieUp := (rfl)
@[simp] theorem State.addNote_pcie (s : State) (type origin part payload : Nat) : (s.addNote type origin part payload).pcie = s.pcie := (rfl)
@[simp] theorem State.addNote_ats (s : State) (type origin part payload : Nat) : (s.addNote type origin part payload).ats = s.ats := (rfl)
@[simp] theorem State.addNote_atsDone (s : State) (type origin part payload : Nat) : (s.addNote type origin part payload).atsDone = s.atsDone := (rfl)
@[simp] theorem State.addNote_parts (s : State) (type origin part payload : Nat) : (s.addNote type origin part payload).parts = s.parts := (rfl)
@[simp] theorem State.addNote_lock (s : State) (type origin part payload : Nat) : (s.addNote type origin part payload).lock = s.lock := (rfl)
@[simp] theorem State.addNote_power (s : State) (type origin part payload : Nat) : (s.addNote type origin part payload).power = s.power := (rfl)
@[simp] theorem State.addNote_pins (s : State) (type origin part payload : Nat) : (s.addNote type origin part payload).pins = s.pins := (rfl)
@[simp] theorem State.addNote_mon (s : State) (type origin part payload : Nat) : (s.addNote type origin part payload).mon = s.mon := (rfl)
@[simp] theorem State.addNote_txn (s : State) (type origin part payload : Nat) : (s.addNote type origin part payload).txn = s.txn := (rfl)
@[simp] theorem State.addNote_armedTxns (s : State) (type origin part payload : Nat) : (s.addNote type origin part payload).armedTxns = s.armedTxns := (rfl)
@[simp] theorem State.addNote_prot (s : State) (type origin part payload : Nat) : (s.addNote type origin part payload).prot = s.prot := (rfl)
@[simp] theorem State.addNote_snapAt (s : State) (type origin part payload : Nat) : (s.addNote type origin part payload).snapAt = s.snapAt := (rfl)
@[simp] theorem State.addNote_trace (s : State) (type origin part payload : Nat) : (s.addNote type origin part payload).trace = s.trace := (rfl)
@[simp] theorem State.addNote_traceQ (s : State) (type origin part payload : Nat) : (s.addNote type origin part payload).traceQ = s.traceQ := (rfl)
@[simp] theorem State.addNote_dump (s : State) (type origin part payload : Nat) : (s.addNote type origin part payload).dump = s.dump := (rfl)
@[simp] theorem State.addNote_wfg (s : State) (type origin part payload : Nat) : (s.addNote type origin part payload).wfg = s.wfg := (rfl)
@[simp] theorem State.addNote_i3c (s : State) (type origin part payload : Nat) : (s.addNote type origin part payload).i3c = s.i3c := (rfl)
@[simp] theorem State.addNote_readData (s : State) (type origin part payload : Nat) : (s.addNote type origin part payload).readData = s.readData := (rfl)
@[simp] theorem State.addNote_inject (s : State) (type origin part payload : Nat) : (s.addNote type origin part payload).inject = s.inject := (rfl)
@[simp] theorem State.addNote_streams (s : State) (type origin part payload : Nat) : (s.addNote type origin part payload).streams = s.streams := (rfl)
@[simp] theorem State.addNote_engine (s : State) (type origin part payload : Nat) : (s.addNote type origin part payload).engine = s.engine := (rfl)
@[simp] theorem State.addNote_grants (s : State) (type origin part payload : Nat) : (s.addNote type origin part payload).grants = s.grants := (rfl)
@[simp] theorem State.addNote_hbm (s : State) (type origin part payload : Nat) : (s.addNote type origin part payload).hbm = s.hbm := (rfl)
@[simp] theorem State.addNote_spray (s : State) (type origin part payload : Nat) : (s.addNote type origin part payload).spray = s.spray := (rfl)
@[simp] theorem State.addNote_nseq (s : State) (type origin part payload : Nat) : (s.addNote type origin part payload).nseq = s.nseq := (rfl)
@[simp] theorem State.addNote_lastNseq (s : State) (type origin part payload : Nat) : (s.addNote type origin part payload).lastNseq = s.lastNseq := (rfl)
@[simp] theorem State.addNote_flipPrev (s : State) (type origin part payload : Nat) : (s.addNote type origin part payload).flipPrev = s.flipPrev := (rfl)
@[simp] theorem State.addNote_skipScrub (s : State) (type origin part payload : Nat) : (s.addNote type origin part payload).skipScrub = s.skipScrub := (rfl)
@[simp] theorem State.addNote_failedQuarters (s : State) (type origin part payload : Nat) : (s.addNote type origin part payload).failedQuarters = s.failedQuarters := (rfl)
@[simp] theorem State.addNote_ethOut (s : State) (type origin part payload : Nat) : (s.addNote type origin part payload).ethOut = s.ethOut := (rfl)
@[simp] theorem State.addNote_setNow (s : State) (type origin part payload : Nat) : (s.addNote type origin part payload).setNow = s.setNow := (rfl)
@[simp] theorem State.addNote_txnNow (s : State) (type origin part payload : Nat) : (s.addNote type origin part payload).txnNow = s.txnNow := (rfl)
@[simp] theorem State.addNote_cycleNow (s : State) (type origin part payload : Nat) : (s.addNote type origin part payload).cycleNow = s.cycleNow := (rfl)

@[simp] theorem State.withPending_pending (s : State) (x : List Instr) : (s.withPending x).pending = x := (rfl)
@[simp] theorem State.withPending_freeCtr (s : State) (x : List Instr) : (s.withPending x).freeCtr = s.freeCtr := (rfl)
@[simp] theorem State.withPending_regs (s : State) (x : List Instr) : (s.withPending x).regs = s.regs := (rfl)
@[simp] theorem State.withPending_mem (s : State) (x : List Instr) : (s.withPending x).mem = s.mem := (rfl)
@[simp] theorem State.withPending_dies (s : State) (x : List Instr) : (s.withPending x).dies = s.dies := (rfl)
@[simp] theorem State.withPending_evlog (s : State) (x : List Instr) : (s.withPending x).evlog = s.evlog := (rfl)
@[simp] theorem State.withPending_acceptAt (s : State) (x : List Instr) : (s.withPending x).acceptAt = s.acceptAt := (rfl)
@[simp] theorem State.withPending_rates (s : State) (x : List Instr) : (s.withPending x).rates = s.rates := (rfl)
@[simp] theorem State.withPending_time (s : State) (x : List Instr) : (s.withPending x).time = s.time := (rfl)
@[simp] theorem State.withPending_ptime (s : State) (x : List Instr) : (s.withPending x).ptime = s.ptime := (rfl)
@[simp] theorem State.withPending_tiles (s : State) (x : List Instr) : (s.withPending x).tiles = s.tiles := (rfl)
@[simp] theorem State.withPending_lineCells (s : State) (x : List Instr) : (s.withPending x).lineCells = s.lineCells := (rfl)
@[simp] theorem State.withPending_tokens (s : State) (x : List Instr) : (s.withPending x).tokens = s.tokens := (rfl)
@[simp] theorem State.withPending_tokOps (s : State) (x : List Instr) : (s.withPending x).tokOps = s.tokOps := (rfl)
@[simp] theorem State.withPending_spent (s : State) (x : List Instr) : (s.withPending x).spent = s.spent := (rfl)
@[simp] theorem State.withPending_recent (s : State) (x : List Instr) : (s.withPending x).recent = s.recent := (rfl)
@[simp] theorem State.withPending_walkers (s : State) (x : List Instr) : (s.withPending x).walkers = s.walkers := (rfl)
@[simp] theorem State.withPending_preWalkers (s : State) (x : List Instr) : (s.withPending x).preWalkers = s.preWalkers := (rfl)
@[simp] theorem State.withPending_transits (s : State) (x : List Instr) : (s.withPending x).transits = s.transits := (rfl)
@[simp] theorem State.withPending_sramReads (s : State) (x : List Instr) : (s.withPending x).sramReads = s.sramReads := (rfl)
@[simp] theorem State.withPending_jn (s : State) (x : List Instr) : (s.withPending x).jn = s.jn := (rfl)
@[simp] theorem State.withPending_ports (s : State) (x : List Instr) : (s.withPending x).ports = s.ports := (rfl)
@[simp] theorem State.withPending_rings (s : State) (x : List Instr) : (s.withPending x).rings = s.rings := (rfl)
@[simp] theorem State.withPending_turn (s : State) (x : List Instr) : (s.withPending x).turn = s.turn := (rfl)
@[simp] theorem State.withPending_notify (s : State) (x : List Instr) : (s.withPending x).notify = s.notify := (rfl)
@[simp] theorem State.withPending_notes (s : State) (x : List Instr) : (s.withPending x).notes = s.notes := (rfl)
@[simp] theorem State.withPending_hostOut (s : State) (x : List Instr) : (s.withPending x).hostOut = s.hostOut := (rfl)
@[simp] theorem State.withPending_irqs (s : State) (x : List Instr) : (s.withPending x).irqs = s.irqs := (rfl)
@[simp] theorem State.withPending_vfs (s : State) (x : List Instr) : (s.withPending x).vfs = s.vfs := (rfl)
@[simp] theorem State.withPending_pcieUp (s : State) (x : List Instr) : (s.withPending x).pcieUp = s.pcieUp := (rfl)
@[simp] theorem State.withPending_pcie (s : State) (x : List Instr) : (s.withPending x).pcie = s.pcie := (rfl)
@[simp] theorem State.withPending_ats (s : State) (x : List Instr) : (s.withPending x).ats = s.ats := (rfl)
@[simp] theorem State.withPending_atsDone (s : State) (x : List Instr) : (s.withPending x).atsDone = s.atsDone := (rfl)
@[simp] theorem State.withPending_parts (s : State) (x : List Instr) : (s.withPending x).parts = s.parts := (rfl)
@[simp] theorem State.withPending_lock (s : State) (x : List Instr) : (s.withPending x).lock = s.lock := (rfl)
@[simp] theorem State.withPending_power (s : State) (x : List Instr) : (s.withPending x).power = s.power := (rfl)
@[simp] theorem State.withPending_pins (s : State) (x : List Instr) : (s.withPending x).pins = s.pins := (rfl)
@[simp] theorem State.withPending_mon (s : State) (x : List Instr) : (s.withPending x).mon = s.mon := (rfl)
@[simp] theorem State.withPending_txn (s : State) (x : List Instr) : (s.withPending x).txn = s.txn := (rfl)
@[simp] theorem State.withPending_armedTxns (s : State) (x : List Instr) : (s.withPending x).armedTxns = s.armedTxns := (rfl)
@[simp] theorem State.withPending_prot (s : State) (x : List Instr) : (s.withPending x).prot = s.prot := (rfl)
@[simp] theorem State.withPending_snapAt (s : State) (x : List Instr) : (s.withPending x).snapAt = s.snapAt := (rfl)
@[simp] theorem State.withPending_trace (s : State) (x : List Instr) : (s.withPending x).trace = s.trace := (rfl)
@[simp] theorem State.withPending_traceQ (s : State) (x : List Instr) : (s.withPending x).traceQ = s.traceQ := (rfl)
@[simp] theorem State.withPending_dump (s : State) (x : List Instr) : (s.withPending x).dump = s.dump := (rfl)
@[simp] theorem State.withPending_wfg (s : State) (x : List Instr) : (s.withPending x).wfg = s.wfg := (rfl)
@[simp] theorem State.withPending_i3c (s : State) (x : List Instr) : (s.withPending x).i3c = s.i3c := (rfl)
@[simp] theorem State.withPending_readData (s : State) (x : List Instr) : (s.withPending x).readData = s.readData := (rfl)
@[simp] theorem State.withPending_inject (s : State) (x : List Instr) : (s.withPending x).inject = s.inject := (rfl)
@[simp] theorem State.withPending_streams (s : State) (x : List Instr) : (s.withPending x).streams = s.streams := (rfl)
@[simp] theorem State.withPending_engine (s : State) (x : List Instr) : (s.withPending x).engine = s.engine := (rfl)
@[simp] theorem State.withPending_grants (s : State) (x : List Instr) : (s.withPending x).grants = s.grants := (rfl)
@[simp] theorem State.withPending_hbm (s : State) (x : List Instr) : (s.withPending x).hbm = s.hbm := (rfl)
@[simp] theorem State.withPending_spray (s : State) (x : List Instr) : (s.withPending x).spray = s.spray := (rfl)
@[simp] theorem State.withPending_nseq (s : State) (x : List Instr) : (s.withPending x).nseq = s.nseq := (rfl)
@[simp] theorem State.withPending_lastNseq (s : State) (x : List Instr) : (s.withPending x).lastNseq = s.lastNseq := (rfl)
@[simp] theorem State.withPending_flipPrev (s : State) (x : List Instr) : (s.withPending x).flipPrev = s.flipPrev := (rfl)
@[simp] theorem State.withPending_skipScrub (s : State) (x : List Instr) : (s.withPending x).skipScrub = s.skipScrub := (rfl)
@[simp] theorem State.withPending_failedQuarters (s : State) (x : List Instr) : (s.withPending x).failedQuarters = s.failedQuarters := (rfl)
@[simp] theorem State.withPending_ethOut (s : State) (x : List Instr) : (s.withPending x).ethOut = s.ethOut := (rfl)
@[simp] theorem State.withPending_setNow (s : State) (x : List Instr) : (s.withPending x).setNow = s.setNow := (rfl)
@[simp] theorem State.withPending_txnNow (s : State) (x : List Instr) : (s.withPending x).txnNow = s.txnNow := (rfl)
@[simp] theorem State.withPending_cycleNow (s : State) (x : List Instr) : (s.withPending x).cycleNow = s.cycleNow := (rfl)

@[simp] theorem State.withFreeCtr_pending (s : State) (x : Nat) : (s.withFreeCtr x).pending = s.pending := (rfl)
@[simp] theorem State.withFreeCtr_freeCtr (s : State) (x : Nat) : (s.withFreeCtr x).freeCtr = x := (rfl)
@[simp] theorem State.withFreeCtr_regs (s : State) (x : Nat) : (s.withFreeCtr x).regs = s.regs := (rfl)
@[simp] theorem State.withFreeCtr_mem (s : State) (x : Nat) : (s.withFreeCtr x).mem = s.mem := (rfl)
@[simp] theorem State.withFreeCtr_dies (s : State) (x : Nat) : (s.withFreeCtr x).dies = s.dies := (rfl)
@[simp] theorem State.withFreeCtr_evlog (s : State) (x : Nat) : (s.withFreeCtr x).evlog = s.evlog := (rfl)
@[simp] theorem State.withFreeCtr_acceptAt (s : State) (x : Nat) : (s.withFreeCtr x).acceptAt = s.acceptAt := (rfl)
@[simp] theorem State.withFreeCtr_rates (s : State) (x : Nat) : (s.withFreeCtr x).rates = s.rates := (rfl)
@[simp] theorem State.withFreeCtr_time (s : State) (x : Nat) : (s.withFreeCtr x).time = s.time := (rfl)
@[simp] theorem State.withFreeCtr_ptime (s : State) (x : Nat) : (s.withFreeCtr x).ptime = s.ptime := (rfl)
@[simp] theorem State.withFreeCtr_tiles (s : State) (x : Nat) : (s.withFreeCtr x).tiles = s.tiles := (rfl)
@[simp] theorem State.withFreeCtr_lineCells (s : State) (x : Nat) : (s.withFreeCtr x).lineCells = s.lineCells := (rfl)
@[simp] theorem State.withFreeCtr_tokens (s : State) (x : Nat) : (s.withFreeCtr x).tokens = s.tokens := (rfl)
@[simp] theorem State.withFreeCtr_tokOps (s : State) (x : Nat) : (s.withFreeCtr x).tokOps = s.tokOps := (rfl)
@[simp] theorem State.withFreeCtr_spent (s : State) (x : Nat) : (s.withFreeCtr x).spent = s.spent := (rfl)
@[simp] theorem State.withFreeCtr_recent (s : State) (x : Nat) : (s.withFreeCtr x).recent = s.recent := (rfl)
@[simp] theorem State.withFreeCtr_walkers (s : State) (x : Nat) : (s.withFreeCtr x).walkers = s.walkers := (rfl)
@[simp] theorem State.withFreeCtr_preWalkers (s : State) (x : Nat) : (s.withFreeCtr x).preWalkers = s.preWalkers := (rfl)
@[simp] theorem State.withFreeCtr_transits (s : State) (x : Nat) : (s.withFreeCtr x).transits = s.transits := (rfl)
@[simp] theorem State.withFreeCtr_sramReads (s : State) (x : Nat) : (s.withFreeCtr x).sramReads = s.sramReads := (rfl)
@[simp] theorem State.withFreeCtr_jn (s : State) (x : Nat) : (s.withFreeCtr x).jn = s.jn := (rfl)
@[simp] theorem State.withFreeCtr_ports (s : State) (x : Nat) : (s.withFreeCtr x).ports = s.ports := (rfl)
@[simp] theorem State.withFreeCtr_rings (s : State) (x : Nat) : (s.withFreeCtr x).rings = s.rings := (rfl)
@[simp] theorem State.withFreeCtr_turn (s : State) (x : Nat) : (s.withFreeCtr x).turn = s.turn := (rfl)
@[simp] theorem State.withFreeCtr_notify (s : State) (x : Nat) : (s.withFreeCtr x).notify = s.notify := (rfl)
@[simp] theorem State.withFreeCtr_notes (s : State) (x : Nat) : (s.withFreeCtr x).notes = s.notes := (rfl)
@[simp] theorem State.withFreeCtr_hostOut (s : State) (x : Nat) : (s.withFreeCtr x).hostOut = s.hostOut := (rfl)
@[simp] theorem State.withFreeCtr_irqs (s : State) (x : Nat) : (s.withFreeCtr x).irqs = s.irqs := (rfl)
@[simp] theorem State.withFreeCtr_vfs (s : State) (x : Nat) : (s.withFreeCtr x).vfs = s.vfs := (rfl)
@[simp] theorem State.withFreeCtr_pcieUp (s : State) (x : Nat) : (s.withFreeCtr x).pcieUp = s.pcieUp := (rfl)
@[simp] theorem State.withFreeCtr_pcie (s : State) (x : Nat) : (s.withFreeCtr x).pcie = s.pcie := (rfl)
@[simp] theorem State.withFreeCtr_ats (s : State) (x : Nat) : (s.withFreeCtr x).ats = s.ats := (rfl)
@[simp] theorem State.withFreeCtr_atsDone (s : State) (x : Nat) : (s.withFreeCtr x).atsDone = s.atsDone := (rfl)
@[simp] theorem State.withFreeCtr_parts (s : State) (x : Nat) : (s.withFreeCtr x).parts = s.parts := (rfl)
@[simp] theorem State.withFreeCtr_lock (s : State) (x : Nat) : (s.withFreeCtr x).lock = s.lock := (rfl)
@[simp] theorem State.withFreeCtr_power (s : State) (x : Nat) : (s.withFreeCtr x).power = s.power := (rfl)
@[simp] theorem State.withFreeCtr_pins (s : State) (x : Nat) : (s.withFreeCtr x).pins = s.pins := (rfl)
@[simp] theorem State.withFreeCtr_mon (s : State) (x : Nat) : (s.withFreeCtr x).mon = s.mon := (rfl)
@[simp] theorem State.withFreeCtr_txn (s : State) (x : Nat) : (s.withFreeCtr x).txn = s.txn := (rfl)
@[simp] theorem State.withFreeCtr_armedTxns (s : State) (x : Nat) : (s.withFreeCtr x).armedTxns = s.armedTxns := (rfl)
@[simp] theorem State.withFreeCtr_prot (s : State) (x : Nat) : (s.withFreeCtr x).prot = s.prot := (rfl)
@[simp] theorem State.withFreeCtr_snapAt (s : State) (x : Nat) : (s.withFreeCtr x).snapAt = s.snapAt := (rfl)
@[simp] theorem State.withFreeCtr_trace (s : State) (x : Nat) : (s.withFreeCtr x).trace = s.trace := (rfl)
@[simp] theorem State.withFreeCtr_traceQ (s : State) (x : Nat) : (s.withFreeCtr x).traceQ = s.traceQ := (rfl)
@[simp] theorem State.withFreeCtr_dump (s : State) (x : Nat) : (s.withFreeCtr x).dump = s.dump := (rfl)
@[simp] theorem State.withFreeCtr_wfg (s : State) (x : Nat) : (s.withFreeCtr x).wfg = s.wfg := (rfl)
@[simp] theorem State.withFreeCtr_i3c (s : State) (x : Nat) : (s.withFreeCtr x).i3c = s.i3c := (rfl)
@[simp] theorem State.withFreeCtr_readData (s : State) (x : Nat) : (s.withFreeCtr x).readData = s.readData := (rfl)
@[simp] theorem State.withFreeCtr_inject (s : State) (x : Nat) : (s.withFreeCtr x).inject = s.inject := (rfl)
@[simp] theorem State.withFreeCtr_streams (s : State) (x : Nat) : (s.withFreeCtr x).streams = s.streams := (rfl)
@[simp] theorem State.withFreeCtr_engine (s : State) (x : Nat) : (s.withFreeCtr x).engine = s.engine := (rfl)
@[simp] theorem State.withFreeCtr_grants (s : State) (x : Nat) : (s.withFreeCtr x).grants = s.grants := (rfl)
@[simp] theorem State.withFreeCtr_hbm (s : State) (x : Nat) : (s.withFreeCtr x).hbm = s.hbm := (rfl)
@[simp] theorem State.withFreeCtr_spray (s : State) (x : Nat) : (s.withFreeCtr x).spray = s.spray := (rfl)
@[simp] theorem State.withFreeCtr_nseq (s : State) (x : Nat) : (s.withFreeCtr x).nseq = s.nseq := (rfl)
@[simp] theorem State.withFreeCtr_lastNseq (s : State) (x : Nat) : (s.withFreeCtr x).lastNseq = s.lastNseq := (rfl)
@[simp] theorem State.withFreeCtr_flipPrev (s : State) (x : Nat) : (s.withFreeCtr x).flipPrev = s.flipPrev := (rfl)
@[simp] theorem State.withFreeCtr_skipScrub (s : State) (x : Nat) : (s.withFreeCtr x).skipScrub = s.skipScrub := (rfl)
@[simp] theorem State.withFreeCtr_failedQuarters (s : State) (x : Nat) : (s.withFreeCtr x).failedQuarters = s.failedQuarters := (rfl)
@[simp] theorem State.withFreeCtr_ethOut (s : State) (x : Nat) : (s.withFreeCtr x).ethOut = s.ethOut := (rfl)
@[simp] theorem State.withFreeCtr_setNow (s : State) (x : Nat) : (s.withFreeCtr x).setNow = s.setNow := (rfl)
@[simp] theorem State.withFreeCtr_txnNow (s : State) (x : Nat) : (s.withFreeCtr x).txnNow = s.txnNow := (rfl)
@[simp] theorem State.withFreeCtr_cycleNow (s : State) (x : Nat) : (s.withFreeCtr x).cycleNow = s.cycleNow := (rfl)

@[simp] theorem State.withEvlog_pending (s : State) (x : SMap (BitVec 512)) : (s.withEvlog x).pending = s.pending := (rfl)
@[simp] theorem State.withEvlog_freeCtr (s : State) (x : SMap (BitVec 512)) : (s.withEvlog x).freeCtr = s.freeCtr := (rfl)
@[simp] theorem State.withEvlog_regs (s : State) (x : SMap (BitVec 512)) : (s.withEvlog x).regs = s.regs := (rfl)
@[simp] theorem State.withEvlog_mem (s : State) (x : SMap (BitVec 512)) : (s.withEvlog x).mem = s.mem := (rfl)
@[simp] theorem State.withEvlog_dies (s : State) (x : SMap (BitVec 512)) : (s.withEvlog x).dies = s.dies := (rfl)
@[simp] theorem State.withEvlog_evlog (s : State) (x : SMap (BitVec 512)) : (s.withEvlog x).evlog = x := (rfl)
@[simp] theorem State.withEvlog_acceptAt (s : State) (x : SMap (BitVec 512)) : (s.withEvlog x).acceptAt = s.acceptAt := (rfl)
@[simp] theorem State.withEvlog_rates (s : State) (x : SMap (BitVec 512)) : (s.withEvlog x).rates = s.rates := (rfl)
@[simp] theorem State.withEvlog_time (s : State) (x : SMap (BitVec 512)) : (s.withEvlog x).time = s.time := (rfl)
@[simp] theorem State.withEvlog_ptime (s : State) (x : SMap (BitVec 512)) : (s.withEvlog x).ptime = s.ptime := (rfl)
@[simp] theorem State.withEvlog_tiles (s : State) (x : SMap (BitVec 512)) : (s.withEvlog x).tiles = s.tiles := (rfl)
@[simp] theorem State.withEvlog_lineCells (s : State) (x : SMap (BitVec 512)) : (s.withEvlog x).lineCells = s.lineCells := (rfl)
@[simp] theorem State.withEvlog_tokens (s : State) (x : SMap (BitVec 512)) : (s.withEvlog x).tokens = s.tokens := (rfl)
@[simp] theorem State.withEvlog_tokOps (s : State) (x : SMap (BitVec 512)) : (s.withEvlog x).tokOps = s.tokOps := (rfl)
@[simp] theorem State.withEvlog_spent (s : State) (x : SMap (BitVec 512)) : (s.withEvlog x).spent = s.spent := (rfl)
@[simp] theorem State.withEvlog_recent (s : State) (x : SMap (BitVec 512)) : (s.withEvlog x).recent = s.recent := (rfl)
@[simp] theorem State.withEvlog_walkers (s : State) (x : SMap (BitVec 512)) : (s.withEvlog x).walkers = s.walkers := (rfl)
@[simp] theorem State.withEvlog_preWalkers (s : State) (x : SMap (BitVec 512)) : (s.withEvlog x).preWalkers = s.preWalkers := (rfl)
@[simp] theorem State.withEvlog_transits (s : State) (x : SMap (BitVec 512)) : (s.withEvlog x).transits = s.transits := (rfl)
@[simp] theorem State.withEvlog_sramReads (s : State) (x : SMap (BitVec 512)) : (s.withEvlog x).sramReads = s.sramReads := (rfl)
@[simp] theorem State.withEvlog_jn (s : State) (x : SMap (BitVec 512)) : (s.withEvlog x).jn = s.jn := (rfl)
@[simp] theorem State.withEvlog_ports (s : State) (x : SMap (BitVec 512)) : (s.withEvlog x).ports = s.ports := (rfl)
@[simp] theorem State.withEvlog_rings (s : State) (x : SMap (BitVec 512)) : (s.withEvlog x).rings = s.rings := (rfl)
@[simp] theorem State.withEvlog_turn (s : State) (x : SMap (BitVec 512)) : (s.withEvlog x).turn = s.turn := (rfl)
@[simp] theorem State.withEvlog_notify (s : State) (x : SMap (BitVec 512)) : (s.withEvlog x).notify = s.notify := (rfl)
@[simp] theorem State.withEvlog_notes (s : State) (x : SMap (BitVec 512)) : (s.withEvlog x).notes = s.notes := (rfl)
@[simp] theorem State.withEvlog_hostOut (s : State) (x : SMap (BitVec 512)) : (s.withEvlog x).hostOut = s.hostOut := (rfl)
@[simp] theorem State.withEvlog_irqs (s : State) (x : SMap (BitVec 512)) : (s.withEvlog x).irqs = s.irqs := (rfl)
@[simp] theorem State.withEvlog_vfs (s : State) (x : SMap (BitVec 512)) : (s.withEvlog x).vfs = s.vfs := (rfl)
@[simp] theorem State.withEvlog_pcieUp (s : State) (x : SMap (BitVec 512)) : (s.withEvlog x).pcieUp = s.pcieUp := (rfl)
@[simp] theorem State.withEvlog_pcie (s : State) (x : SMap (BitVec 512)) : (s.withEvlog x).pcie = s.pcie := (rfl)
@[simp] theorem State.withEvlog_ats (s : State) (x : SMap (BitVec 512)) : (s.withEvlog x).ats = s.ats := (rfl)
@[simp] theorem State.withEvlog_atsDone (s : State) (x : SMap (BitVec 512)) : (s.withEvlog x).atsDone = s.atsDone := (rfl)
@[simp] theorem State.withEvlog_parts (s : State) (x : SMap (BitVec 512)) : (s.withEvlog x).parts = s.parts := (rfl)
@[simp] theorem State.withEvlog_lock (s : State) (x : SMap (BitVec 512)) : (s.withEvlog x).lock = s.lock := (rfl)
@[simp] theorem State.withEvlog_power (s : State) (x : SMap (BitVec 512)) : (s.withEvlog x).power = s.power := (rfl)
@[simp] theorem State.withEvlog_pins (s : State) (x : SMap (BitVec 512)) : (s.withEvlog x).pins = s.pins := (rfl)
@[simp] theorem State.withEvlog_mon (s : State) (x : SMap (BitVec 512)) : (s.withEvlog x).mon = s.mon := (rfl)
@[simp] theorem State.withEvlog_txn (s : State) (x : SMap (BitVec 512)) : (s.withEvlog x).txn = s.txn := (rfl)
@[simp] theorem State.withEvlog_armedTxns (s : State) (x : SMap (BitVec 512)) : (s.withEvlog x).armedTxns = s.armedTxns := (rfl)
@[simp] theorem State.withEvlog_prot (s : State) (x : SMap (BitVec 512)) : (s.withEvlog x).prot = s.prot := (rfl)
@[simp] theorem State.withEvlog_snapAt (s : State) (x : SMap (BitVec 512)) : (s.withEvlog x).snapAt = s.snapAt := (rfl)
@[simp] theorem State.withEvlog_trace (s : State) (x : SMap (BitVec 512)) : (s.withEvlog x).trace = s.trace := (rfl)
@[simp] theorem State.withEvlog_traceQ (s : State) (x : SMap (BitVec 512)) : (s.withEvlog x).traceQ = s.traceQ := (rfl)
@[simp] theorem State.withEvlog_dump (s : State) (x : SMap (BitVec 512)) : (s.withEvlog x).dump = s.dump := (rfl)
@[simp] theorem State.withEvlog_wfg (s : State) (x : SMap (BitVec 512)) : (s.withEvlog x).wfg = s.wfg := (rfl)
@[simp] theorem State.withEvlog_i3c (s : State) (x : SMap (BitVec 512)) : (s.withEvlog x).i3c = s.i3c := (rfl)
@[simp] theorem State.withEvlog_readData (s : State) (x : SMap (BitVec 512)) : (s.withEvlog x).readData = s.readData := (rfl)
@[simp] theorem State.withEvlog_inject (s : State) (x : SMap (BitVec 512)) : (s.withEvlog x).inject = s.inject := (rfl)
@[simp] theorem State.withEvlog_streams (s : State) (x : SMap (BitVec 512)) : (s.withEvlog x).streams = s.streams := (rfl)
@[simp] theorem State.withEvlog_engine (s : State) (x : SMap (BitVec 512)) : (s.withEvlog x).engine = s.engine := (rfl)
@[simp] theorem State.withEvlog_grants (s : State) (x : SMap (BitVec 512)) : (s.withEvlog x).grants = s.grants := (rfl)
@[simp] theorem State.withEvlog_hbm (s : State) (x : SMap (BitVec 512)) : (s.withEvlog x).hbm = s.hbm := (rfl)
@[simp] theorem State.withEvlog_spray (s : State) (x : SMap (BitVec 512)) : (s.withEvlog x).spray = s.spray := (rfl)
@[simp] theorem State.withEvlog_nseq (s : State) (x : SMap (BitVec 512)) : (s.withEvlog x).nseq = s.nseq := (rfl)
@[simp] theorem State.withEvlog_lastNseq (s : State) (x : SMap (BitVec 512)) : (s.withEvlog x).lastNseq = s.lastNseq := (rfl)
@[simp] theorem State.withEvlog_flipPrev (s : State) (x : SMap (BitVec 512)) : (s.withEvlog x).flipPrev = s.flipPrev := (rfl)
@[simp] theorem State.withEvlog_skipScrub (s : State) (x : SMap (BitVec 512)) : (s.withEvlog x).skipScrub = s.skipScrub := (rfl)
@[simp] theorem State.withEvlog_failedQuarters (s : State) (x : SMap (BitVec 512)) : (s.withEvlog x).failedQuarters = s.failedQuarters := (rfl)
@[simp] theorem State.withEvlog_ethOut (s : State) (x : SMap (BitVec 512)) : (s.withEvlog x).ethOut = s.ethOut := (rfl)
@[simp] theorem State.withEvlog_setNow (s : State) (x : SMap (BitVec 512)) : (s.withEvlog x).setNow = s.setNow := (rfl)
@[simp] theorem State.withEvlog_txnNow (s : State) (x : SMap (BitVec 512)) : (s.withEvlog x).txnNow = s.txnNow := (rfl)
@[simp] theorem State.withEvlog_cycleNow (s : State) (x : SMap (BitVec 512)) : (s.withEvlog x).cycleNow = s.cycleNow := (rfl)

@[simp] theorem State.withAcceptAt_pending (s : State) (x : Option Nat) : (s.withAcceptAt x).pending = s.pending := (rfl)
@[simp] theorem State.withAcceptAt_freeCtr (s : State) (x : Option Nat) : (s.withAcceptAt x).freeCtr = s.freeCtr := (rfl)
@[simp] theorem State.withAcceptAt_regs (s : State) (x : Option Nat) : (s.withAcceptAt x).regs = s.regs := (rfl)
@[simp] theorem State.withAcceptAt_mem (s : State) (x : Option Nat) : (s.withAcceptAt x).mem = s.mem := (rfl)
@[simp] theorem State.withAcceptAt_dies (s : State) (x : Option Nat) : (s.withAcceptAt x).dies = s.dies := (rfl)
@[simp] theorem State.withAcceptAt_evlog (s : State) (x : Option Nat) : (s.withAcceptAt x).evlog = s.evlog := (rfl)
@[simp] theorem State.withAcceptAt_acceptAt (s : State) (x : Option Nat) : (s.withAcceptAt x).acceptAt = x := (rfl)
@[simp] theorem State.withAcceptAt_rates (s : State) (x : Option Nat) : (s.withAcceptAt x).rates = s.rates := (rfl)
@[simp] theorem State.withAcceptAt_time (s : State) (x : Option Nat) : (s.withAcceptAt x).time = s.time := (rfl)
@[simp] theorem State.withAcceptAt_ptime (s : State) (x : Option Nat) : (s.withAcceptAt x).ptime = s.ptime := (rfl)
@[simp] theorem State.withAcceptAt_tiles (s : State) (x : Option Nat) : (s.withAcceptAt x).tiles = s.tiles := (rfl)
@[simp] theorem State.withAcceptAt_lineCells (s : State) (x : Option Nat) : (s.withAcceptAt x).lineCells = s.lineCells := (rfl)
@[simp] theorem State.withAcceptAt_tokens (s : State) (x : Option Nat) : (s.withAcceptAt x).tokens = s.tokens := (rfl)
@[simp] theorem State.withAcceptAt_tokOps (s : State) (x : Option Nat) : (s.withAcceptAt x).tokOps = s.tokOps := (rfl)
@[simp] theorem State.withAcceptAt_spent (s : State) (x : Option Nat) : (s.withAcceptAt x).spent = s.spent := (rfl)
@[simp] theorem State.withAcceptAt_recent (s : State) (x : Option Nat) : (s.withAcceptAt x).recent = s.recent := (rfl)
@[simp] theorem State.withAcceptAt_walkers (s : State) (x : Option Nat) : (s.withAcceptAt x).walkers = s.walkers := (rfl)
@[simp] theorem State.withAcceptAt_preWalkers (s : State) (x : Option Nat) : (s.withAcceptAt x).preWalkers = s.preWalkers := (rfl)
@[simp] theorem State.withAcceptAt_transits (s : State) (x : Option Nat) : (s.withAcceptAt x).transits = s.transits := (rfl)
@[simp] theorem State.withAcceptAt_sramReads (s : State) (x : Option Nat) : (s.withAcceptAt x).sramReads = s.sramReads := (rfl)
@[simp] theorem State.withAcceptAt_jn (s : State) (x : Option Nat) : (s.withAcceptAt x).jn = s.jn := (rfl)
@[simp] theorem State.withAcceptAt_ports (s : State) (x : Option Nat) : (s.withAcceptAt x).ports = s.ports := (rfl)
@[simp] theorem State.withAcceptAt_rings (s : State) (x : Option Nat) : (s.withAcceptAt x).rings = s.rings := (rfl)
@[simp] theorem State.withAcceptAt_turn (s : State) (x : Option Nat) : (s.withAcceptAt x).turn = s.turn := (rfl)
@[simp] theorem State.withAcceptAt_notify (s : State) (x : Option Nat) : (s.withAcceptAt x).notify = s.notify := (rfl)
@[simp] theorem State.withAcceptAt_notes (s : State) (x : Option Nat) : (s.withAcceptAt x).notes = s.notes := (rfl)
@[simp] theorem State.withAcceptAt_hostOut (s : State) (x : Option Nat) : (s.withAcceptAt x).hostOut = s.hostOut := (rfl)
@[simp] theorem State.withAcceptAt_irqs (s : State) (x : Option Nat) : (s.withAcceptAt x).irqs = s.irqs := (rfl)
@[simp] theorem State.withAcceptAt_vfs (s : State) (x : Option Nat) : (s.withAcceptAt x).vfs = s.vfs := (rfl)
@[simp] theorem State.withAcceptAt_pcieUp (s : State) (x : Option Nat) : (s.withAcceptAt x).pcieUp = s.pcieUp := (rfl)
@[simp] theorem State.withAcceptAt_pcie (s : State) (x : Option Nat) : (s.withAcceptAt x).pcie = s.pcie := (rfl)
@[simp] theorem State.withAcceptAt_ats (s : State) (x : Option Nat) : (s.withAcceptAt x).ats = s.ats := (rfl)
@[simp] theorem State.withAcceptAt_atsDone (s : State) (x : Option Nat) : (s.withAcceptAt x).atsDone = s.atsDone := (rfl)
@[simp] theorem State.withAcceptAt_parts (s : State) (x : Option Nat) : (s.withAcceptAt x).parts = s.parts := (rfl)
@[simp] theorem State.withAcceptAt_lock (s : State) (x : Option Nat) : (s.withAcceptAt x).lock = s.lock := (rfl)
@[simp] theorem State.withAcceptAt_power (s : State) (x : Option Nat) : (s.withAcceptAt x).power = s.power := (rfl)
@[simp] theorem State.withAcceptAt_pins (s : State) (x : Option Nat) : (s.withAcceptAt x).pins = s.pins := (rfl)
@[simp] theorem State.withAcceptAt_mon (s : State) (x : Option Nat) : (s.withAcceptAt x).mon = s.mon := (rfl)
@[simp] theorem State.withAcceptAt_txn (s : State) (x : Option Nat) : (s.withAcceptAt x).txn = s.txn := (rfl)
@[simp] theorem State.withAcceptAt_armedTxns (s : State) (x : Option Nat) : (s.withAcceptAt x).armedTxns = s.armedTxns := (rfl)
@[simp] theorem State.withAcceptAt_prot (s : State) (x : Option Nat) : (s.withAcceptAt x).prot = s.prot := (rfl)
@[simp] theorem State.withAcceptAt_snapAt (s : State) (x : Option Nat) : (s.withAcceptAt x).snapAt = s.snapAt := (rfl)
@[simp] theorem State.withAcceptAt_trace (s : State) (x : Option Nat) : (s.withAcceptAt x).trace = s.trace := (rfl)
@[simp] theorem State.withAcceptAt_traceQ (s : State) (x : Option Nat) : (s.withAcceptAt x).traceQ = s.traceQ := (rfl)
@[simp] theorem State.withAcceptAt_dump (s : State) (x : Option Nat) : (s.withAcceptAt x).dump = s.dump := (rfl)
@[simp] theorem State.withAcceptAt_wfg (s : State) (x : Option Nat) : (s.withAcceptAt x).wfg = s.wfg := (rfl)
@[simp] theorem State.withAcceptAt_i3c (s : State) (x : Option Nat) : (s.withAcceptAt x).i3c = s.i3c := (rfl)
@[simp] theorem State.withAcceptAt_readData (s : State) (x : Option Nat) : (s.withAcceptAt x).readData = s.readData := (rfl)
@[simp] theorem State.withAcceptAt_inject (s : State) (x : Option Nat) : (s.withAcceptAt x).inject = s.inject := (rfl)
@[simp] theorem State.withAcceptAt_streams (s : State) (x : Option Nat) : (s.withAcceptAt x).streams = s.streams := (rfl)
@[simp] theorem State.withAcceptAt_engine (s : State) (x : Option Nat) : (s.withAcceptAt x).engine = s.engine := (rfl)
@[simp] theorem State.withAcceptAt_grants (s : State) (x : Option Nat) : (s.withAcceptAt x).grants = s.grants := (rfl)
@[simp] theorem State.withAcceptAt_hbm (s : State) (x : Option Nat) : (s.withAcceptAt x).hbm = s.hbm := (rfl)
@[simp] theorem State.withAcceptAt_spray (s : State) (x : Option Nat) : (s.withAcceptAt x).spray = s.spray := (rfl)
@[simp] theorem State.withAcceptAt_nseq (s : State) (x : Option Nat) : (s.withAcceptAt x).nseq = s.nseq := (rfl)
@[simp] theorem State.withAcceptAt_lastNseq (s : State) (x : Option Nat) : (s.withAcceptAt x).lastNseq = s.lastNseq := (rfl)
@[simp] theorem State.withAcceptAt_flipPrev (s : State) (x : Option Nat) : (s.withAcceptAt x).flipPrev = s.flipPrev := (rfl)
@[simp] theorem State.withAcceptAt_skipScrub (s : State) (x : Option Nat) : (s.withAcceptAt x).skipScrub = s.skipScrub := (rfl)
@[simp] theorem State.withAcceptAt_failedQuarters (s : State) (x : Option Nat) : (s.withAcceptAt x).failedQuarters = s.failedQuarters := (rfl)
@[simp] theorem State.withAcceptAt_ethOut (s : State) (x : Option Nat) : (s.withAcceptAt x).ethOut = s.ethOut := (rfl)
@[simp] theorem State.withAcceptAt_setNow (s : State) (x : Option Nat) : (s.withAcceptAt x).setNow = s.setNow := (rfl)
@[simp] theorem State.withAcceptAt_txnNow (s : State) (x : Option Nat) : (s.withAcceptAt x).txnNow = s.txnNow := (rfl)
@[simp] theorem State.withAcceptAt_cycleNow (s : State) (x : Option Nat) : (s.withAcceptAt x).cycleNow = s.cycleNow := (rfl)

@[simp] theorem State.withRates_pending (s : State) (x : List Rate) : (s.withRates x).pending = s.pending := (rfl)
@[simp] theorem State.withRates_freeCtr (s : State) (x : List Rate) : (s.withRates x).freeCtr = s.freeCtr := (rfl)
@[simp] theorem State.withRates_regs (s : State) (x : List Rate) : (s.withRates x).regs = s.regs := (rfl)
@[simp] theorem State.withRates_mem (s : State) (x : List Rate) : (s.withRates x).mem = s.mem := (rfl)
@[simp] theorem State.withRates_dies (s : State) (x : List Rate) : (s.withRates x).dies = s.dies := (rfl)
@[simp] theorem State.withRates_evlog (s : State) (x : List Rate) : (s.withRates x).evlog = s.evlog := (rfl)
@[simp] theorem State.withRates_acceptAt (s : State) (x : List Rate) : (s.withRates x).acceptAt = s.acceptAt := (rfl)
@[simp] theorem State.withRates_rates (s : State) (x : List Rate) : (s.withRates x).rates = x := (rfl)
@[simp] theorem State.withRates_time (s : State) (x : List Rate) : (s.withRates x).time = s.time := (rfl)
@[simp] theorem State.withRates_ptime (s : State) (x : List Rate) : (s.withRates x).ptime = s.ptime := (rfl)
@[simp] theorem State.withRates_tiles (s : State) (x : List Rate) : (s.withRates x).tiles = s.tiles := (rfl)
@[simp] theorem State.withRates_lineCells (s : State) (x : List Rate) : (s.withRates x).lineCells = s.lineCells := (rfl)
@[simp] theorem State.withRates_tokens (s : State) (x : List Rate) : (s.withRates x).tokens = s.tokens := (rfl)
@[simp] theorem State.withRates_tokOps (s : State) (x : List Rate) : (s.withRates x).tokOps = s.tokOps := (rfl)
@[simp] theorem State.withRates_spent (s : State) (x : List Rate) : (s.withRates x).spent = s.spent := (rfl)
@[simp] theorem State.withRates_recent (s : State) (x : List Rate) : (s.withRates x).recent = s.recent := (rfl)
@[simp] theorem State.withRates_walkers (s : State) (x : List Rate) : (s.withRates x).walkers = s.walkers := (rfl)
@[simp] theorem State.withRates_preWalkers (s : State) (x : List Rate) : (s.withRates x).preWalkers = s.preWalkers := (rfl)
@[simp] theorem State.withRates_transits (s : State) (x : List Rate) : (s.withRates x).transits = s.transits := (rfl)
@[simp] theorem State.withRates_sramReads (s : State) (x : List Rate) : (s.withRates x).sramReads = s.sramReads := (rfl)
@[simp] theorem State.withRates_jn (s : State) (x : List Rate) : (s.withRates x).jn = s.jn := (rfl)
@[simp] theorem State.withRates_ports (s : State) (x : List Rate) : (s.withRates x).ports = s.ports := (rfl)
@[simp] theorem State.withRates_rings (s : State) (x : List Rate) : (s.withRates x).rings = s.rings := (rfl)
@[simp] theorem State.withRates_turn (s : State) (x : List Rate) : (s.withRates x).turn = s.turn := (rfl)
@[simp] theorem State.withRates_notify (s : State) (x : List Rate) : (s.withRates x).notify = s.notify := (rfl)
@[simp] theorem State.withRates_notes (s : State) (x : List Rate) : (s.withRates x).notes = s.notes := (rfl)
@[simp] theorem State.withRates_hostOut (s : State) (x : List Rate) : (s.withRates x).hostOut = s.hostOut := (rfl)
@[simp] theorem State.withRates_irqs (s : State) (x : List Rate) : (s.withRates x).irqs = s.irqs := (rfl)
@[simp] theorem State.withRates_vfs (s : State) (x : List Rate) : (s.withRates x).vfs = s.vfs := (rfl)
@[simp] theorem State.withRates_pcieUp (s : State) (x : List Rate) : (s.withRates x).pcieUp = s.pcieUp := (rfl)
@[simp] theorem State.withRates_pcie (s : State) (x : List Rate) : (s.withRates x).pcie = s.pcie := (rfl)
@[simp] theorem State.withRates_ats (s : State) (x : List Rate) : (s.withRates x).ats = s.ats := (rfl)
@[simp] theorem State.withRates_atsDone (s : State) (x : List Rate) : (s.withRates x).atsDone = s.atsDone := (rfl)
@[simp] theorem State.withRates_parts (s : State) (x : List Rate) : (s.withRates x).parts = s.parts := (rfl)
@[simp] theorem State.withRates_lock (s : State) (x : List Rate) : (s.withRates x).lock = s.lock := (rfl)
@[simp] theorem State.withRates_power (s : State) (x : List Rate) : (s.withRates x).power = s.power := (rfl)
@[simp] theorem State.withRates_pins (s : State) (x : List Rate) : (s.withRates x).pins = s.pins := (rfl)
@[simp] theorem State.withRates_mon (s : State) (x : List Rate) : (s.withRates x).mon = s.mon := (rfl)
@[simp] theorem State.withRates_txn (s : State) (x : List Rate) : (s.withRates x).txn = s.txn := (rfl)
@[simp] theorem State.withRates_armedTxns (s : State) (x : List Rate) : (s.withRates x).armedTxns = s.armedTxns := (rfl)
@[simp] theorem State.withRates_prot (s : State) (x : List Rate) : (s.withRates x).prot = s.prot := (rfl)
@[simp] theorem State.withRates_snapAt (s : State) (x : List Rate) : (s.withRates x).snapAt = s.snapAt := (rfl)
@[simp] theorem State.withRates_trace (s : State) (x : List Rate) : (s.withRates x).trace = s.trace := (rfl)
@[simp] theorem State.withRates_traceQ (s : State) (x : List Rate) : (s.withRates x).traceQ = s.traceQ := (rfl)
@[simp] theorem State.withRates_dump (s : State) (x : List Rate) : (s.withRates x).dump = s.dump := (rfl)
@[simp] theorem State.withRates_wfg (s : State) (x : List Rate) : (s.withRates x).wfg = s.wfg := (rfl)
@[simp] theorem State.withRates_i3c (s : State) (x : List Rate) : (s.withRates x).i3c = s.i3c := (rfl)
@[simp] theorem State.withRates_readData (s : State) (x : List Rate) : (s.withRates x).readData = s.readData := (rfl)
@[simp] theorem State.withRates_inject (s : State) (x : List Rate) : (s.withRates x).inject = s.inject := (rfl)
@[simp] theorem State.withRates_streams (s : State) (x : List Rate) : (s.withRates x).streams = s.streams := (rfl)
@[simp] theorem State.withRates_engine (s : State) (x : List Rate) : (s.withRates x).engine = s.engine := (rfl)
@[simp] theorem State.withRates_grants (s : State) (x : List Rate) : (s.withRates x).grants = s.grants := (rfl)
@[simp] theorem State.withRates_hbm (s : State) (x : List Rate) : (s.withRates x).hbm = s.hbm := (rfl)
@[simp] theorem State.withRates_spray (s : State) (x : List Rate) : (s.withRates x).spray = s.spray := (rfl)
@[simp] theorem State.withRates_nseq (s : State) (x : List Rate) : (s.withRates x).nseq = s.nseq := (rfl)
@[simp] theorem State.withRates_lastNseq (s : State) (x : List Rate) : (s.withRates x).lastNseq = s.lastNseq := (rfl)
@[simp] theorem State.withRates_flipPrev (s : State) (x : List Rate) : (s.withRates x).flipPrev = s.flipPrev := (rfl)
@[simp] theorem State.withRates_skipScrub (s : State) (x : List Rate) : (s.withRates x).skipScrub = s.skipScrub := (rfl)
@[simp] theorem State.withRates_failedQuarters (s : State) (x : List Rate) : (s.withRates x).failedQuarters = s.failedQuarters := (rfl)
@[simp] theorem State.withRates_ethOut (s : State) (x : List Rate) : (s.withRates x).ethOut = s.ethOut := (rfl)
@[simp] theorem State.withRates_setNow (s : State) (x : List Rate) : (s.withRates x).setNow = s.setNow := (rfl)
@[simp] theorem State.withRates_txnNow (s : State) (x : List Rate) : (s.withRates x).txnNow = s.txnNow := (rfl)
@[simp] theorem State.withRates_cycleNow (s : State) (x : List Rate) : (s.withRates x).cycleNow = s.cycleNow := (rfl)

@[simp] theorem State.withTime_pending (s : State) (x : Time) : (s.withTime x).pending = s.pending := (rfl)
@[simp] theorem State.withTime_freeCtr (s : State) (x : Time) : (s.withTime x).freeCtr = s.freeCtr := (rfl)
@[simp] theorem State.withTime_regs (s : State) (x : Time) : (s.withTime x).regs = s.regs := (rfl)
@[simp] theorem State.withTime_mem (s : State) (x : Time) : (s.withTime x).mem = s.mem := (rfl)
@[simp] theorem State.withTime_dies (s : State) (x : Time) : (s.withTime x).dies = s.dies := (rfl)
@[simp] theorem State.withTime_evlog (s : State) (x : Time) : (s.withTime x).evlog = s.evlog := (rfl)
@[simp] theorem State.withTime_acceptAt (s : State) (x : Time) : (s.withTime x).acceptAt = s.acceptAt := (rfl)
@[simp] theorem State.withTime_rates (s : State) (x : Time) : (s.withTime x).rates = s.rates := (rfl)
@[simp] theorem State.withTime_time (s : State) (x : Time) : (s.withTime x).time = x := (rfl)
@[simp] theorem State.withTime_ptime (s : State) (x : Time) : (s.withTime x).ptime = s.ptime := (rfl)
@[simp] theorem State.withTime_tiles (s : State) (x : Time) : (s.withTime x).tiles = s.tiles := (rfl)
@[simp] theorem State.withTime_lineCells (s : State) (x : Time) : (s.withTime x).lineCells = s.lineCells := (rfl)
@[simp] theorem State.withTime_tokens (s : State) (x : Time) : (s.withTime x).tokens = s.tokens := (rfl)
@[simp] theorem State.withTime_tokOps (s : State) (x : Time) : (s.withTime x).tokOps = s.tokOps := (rfl)
@[simp] theorem State.withTime_spent (s : State) (x : Time) : (s.withTime x).spent = s.spent := (rfl)
@[simp] theorem State.withTime_recent (s : State) (x : Time) : (s.withTime x).recent = s.recent := (rfl)
@[simp] theorem State.withTime_walkers (s : State) (x : Time) : (s.withTime x).walkers = s.walkers := (rfl)
@[simp] theorem State.withTime_preWalkers (s : State) (x : Time) : (s.withTime x).preWalkers = s.preWalkers := (rfl)
@[simp] theorem State.withTime_transits (s : State) (x : Time) : (s.withTime x).transits = s.transits := (rfl)
@[simp] theorem State.withTime_sramReads (s : State) (x : Time) : (s.withTime x).sramReads = s.sramReads := (rfl)
@[simp] theorem State.withTime_jn (s : State) (x : Time) : (s.withTime x).jn = s.jn := (rfl)
@[simp] theorem State.withTime_ports (s : State) (x : Time) : (s.withTime x).ports = s.ports := (rfl)
@[simp] theorem State.withTime_rings (s : State) (x : Time) : (s.withTime x).rings = s.rings := (rfl)
@[simp] theorem State.withTime_turn (s : State) (x : Time) : (s.withTime x).turn = s.turn := (rfl)
@[simp] theorem State.withTime_notify (s : State) (x : Time) : (s.withTime x).notify = s.notify := (rfl)
@[simp] theorem State.withTime_notes (s : State) (x : Time) : (s.withTime x).notes = s.notes := (rfl)
@[simp] theorem State.withTime_hostOut (s : State) (x : Time) : (s.withTime x).hostOut = s.hostOut := (rfl)
@[simp] theorem State.withTime_irqs (s : State) (x : Time) : (s.withTime x).irqs = s.irqs := (rfl)
@[simp] theorem State.withTime_vfs (s : State) (x : Time) : (s.withTime x).vfs = s.vfs := (rfl)
@[simp] theorem State.withTime_pcieUp (s : State) (x : Time) : (s.withTime x).pcieUp = s.pcieUp := (rfl)
@[simp] theorem State.withTime_pcie (s : State) (x : Time) : (s.withTime x).pcie = s.pcie := (rfl)
@[simp] theorem State.withTime_ats (s : State) (x : Time) : (s.withTime x).ats = s.ats := (rfl)
@[simp] theorem State.withTime_atsDone (s : State) (x : Time) : (s.withTime x).atsDone = s.atsDone := (rfl)
@[simp] theorem State.withTime_parts (s : State) (x : Time) : (s.withTime x).parts = s.parts := (rfl)
@[simp] theorem State.withTime_lock (s : State) (x : Time) : (s.withTime x).lock = s.lock := (rfl)
@[simp] theorem State.withTime_power (s : State) (x : Time) : (s.withTime x).power = s.power := (rfl)
@[simp] theorem State.withTime_pins (s : State) (x : Time) : (s.withTime x).pins = s.pins := (rfl)
@[simp] theorem State.withTime_mon (s : State) (x : Time) : (s.withTime x).mon = s.mon := (rfl)
@[simp] theorem State.withTime_txn (s : State) (x : Time) : (s.withTime x).txn = s.txn := (rfl)
@[simp] theorem State.withTime_armedTxns (s : State) (x : Time) : (s.withTime x).armedTxns = s.armedTxns := (rfl)
@[simp] theorem State.withTime_prot (s : State) (x : Time) : (s.withTime x).prot = s.prot := (rfl)
@[simp] theorem State.withTime_snapAt (s : State) (x : Time) : (s.withTime x).snapAt = s.snapAt := (rfl)
@[simp] theorem State.withTime_trace (s : State) (x : Time) : (s.withTime x).trace = s.trace := (rfl)
@[simp] theorem State.withTime_traceQ (s : State) (x : Time) : (s.withTime x).traceQ = s.traceQ := (rfl)
@[simp] theorem State.withTime_dump (s : State) (x : Time) : (s.withTime x).dump = s.dump := (rfl)
@[simp] theorem State.withTime_wfg (s : State) (x : Time) : (s.withTime x).wfg = s.wfg := (rfl)
@[simp] theorem State.withTime_i3c (s : State) (x : Time) : (s.withTime x).i3c = s.i3c := (rfl)
@[simp] theorem State.withTime_readData (s : State) (x : Time) : (s.withTime x).readData = s.readData := (rfl)
@[simp] theorem State.withTime_inject (s : State) (x : Time) : (s.withTime x).inject = s.inject := (rfl)
@[simp] theorem State.withTime_streams (s : State) (x : Time) : (s.withTime x).streams = s.streams := (rfl)
@[simp] theorem State.withTime_engine (s : State) (x : Time) : (s.withTime x).engine = s.engine := (rfl)
@[simp] theorem State.withTime_grants (s : State) (x : Time) : (s.withTime x).grants = s.grants := (rfl)
@[simp] theorem State.withTime_hbm (s : State) (x : Time) : (s.withTime x).hbm = s.hbm := (rfl)
@[simp] theorem State.withTime_spray (s : State) (x : Time) : (s.withTime x).spray = s.spray := (rfl)
@[simp] theorem State.withTime_nseq (s : State) (x : Time) : (s.withTime x).nseq = s.nseq := (rfl)
@[simp] theorem State.withTime_lastNseq (s : State) (x : Time) : (s.withTime x).lastNseq = s.lastNseq := (rfl)
@[simp] theorem State.withTime_flipPrev (s : State) (x : Time) : (s.withTime x).flipPrev = s.flipPrev := (rfl)
@[simp] theorem State.withTime_skipScrub (s : State) (x : Time) : (s.withTime x).skipScrub = s.skipScrub := (rfl)
@[simp] theorem State.withTime_failedQuarters (s : State) (x : Time) : (s.withTime x).failedQuarters = s.failedQuarters := (rfl)
@[simp] theorem State.withTime_ethOut (s : State) (x : Time) : (s.withTime x).ethOut = s.ethOut := (rfl)
@[simp] theorem State.withTime_setNow (s : State) (x : Time) : (s.withTime x).setNow = s.setNow := (rfl)
@[simp] theorem State.withTime_txnNow (s : State) (x : Time) : (s.withTime x).txnNow = s.txnNow := (rfl)
@[simp] theorem State.withTime_cycleNow (s : State) (x : Time) : (s.withTime x).cycleNow = s.cycleNow := (rfl)

@[simp] theorem State.withPtime_pending (s : State) (x : SMap PortTime) : (s.withPtime x).pending = s.pending := (rfl)
@[simp] theorem State.withPtime_freeCtr (s : State) (x : SMap PortTime) : (s.withPtime x).freeCtr = s.freeCtr := (rfl)
@[simp] theorem State.withPtime_regs (s : State) (x : SMap PortTime) : (s.withPtime x).regs = s.regs := (rfl)
@[simp] theorem State.withPtime_mem (s : State) (x : SMap PortTime) : (s.withPtime x).mem = s.mem := (rfl)
@[simp] theorem State.withPtime_dies (s : State) (x : SMap PortTime) : (s.withPtime x).dies = s.dies := (rfl)
@[simp] theorem State.withPtime_evlog (s : State) (x : SMap PortTime) : (s.withPtime x).evlog = s.evlog := (rfl)
@[simp] theorem State.withPtime_acceptAt (s : State) (x : SMap PortTime) : (s.withPtime x).acceptAt = s.acceptAt := (rfl)
@[simp] theorem State.withPtime_rates (s : State) (x : SMap PortTime) : (s.withPtime x).rates = s.rates := (rfl)
@[simp] theorem State.withPtime_time (s : State) (x : SMap PortTime) : (s.withPtime x).time = s.time := (rfl)
@[simp] theorem State.withPtime_ptime (s : State) (x : SMap PortTime) : (s.withPtime x).ptime = x := (rfl)
@[simp] theorem State.withPtime_tiles (s : State) (x : SMap PortTime) : (s.withPtime x).tiles = s.tiles := (rfl)
@[simp] theorem State.withPtime_lineCells (s : State) (x : SMap PortTime) : (s.withPtime x).lineCells = s.lineCells := (rfl)
@[simp] theorem State.withPtime_tokens (s : State) (x : SMap PortTime) : (s.withPtime x).tokens = s.tokens := (rfl)
@[simp] theorem State.withPtime_tokOps (s : State) (x : SMap PortTime) : (s.withPtime x).tokOps = s.tokOps := (rfl)
@[simp] theorem State.withPtime_spent (s : State) (x : SMap PortTime) : (s.withPtime x).spent = s.spent := (rfl)
@[simp] theorem State.withPtime_recent (s : State) (x : SMap PortTime) : (s.withPtime x).recent = s.recent := (rfl)
@[simp] theorem State.withPtime_walkers (s : State) (x : SMap PortTime) : (s.withPtime x).walkers = s.walkers := (rfl)
@[simp] theorem State.withPtime_preWalkers (s : State) (x : SMap PortTime) : (s.withPtime x).preWalkers = s.preWalkers := (rfl)
@[simp] theorem State.withPtime_transits (s : State) (x : SMap PortTime) : (s.withPtime x).transits = s.transits := (rfl)
@[simp] theorem State.withPtime_sramReads (s : State) (x : SMap PortTime) : (s.withPtime x).sramReads = s.sramReads := (rfl)
@[simp] theorem State.withPtime_jn (s : State) (x : SMap PortTime) : (s.withPtime x).jn = s.jn := (rfl)
@[simp] theorem State.withPtime_ports (s : State) (x : SMap PortTime) : (s.withPtime x).ports = s.ports := (rfl)
@[simp] theorem State.withPtime_rings (s : State) (x : SMap PortTime) : (s.withPtime x).rings = s.rings := (rfl)
@[simp] theorem State.withPtime_turn (s : State) (x : SMap PortTime) : (s.withPtime x).turn = s.turn := (rfl)
@[simp] theorem State.withPtime_notify (s : State) (x : SMap PortTime) : (s.withPtime x).notify = s.notify := (rfl)
@[simp] theorem State.withPtime_notes (s : State) (x : SMap PortTime) : (s.withPtime x).notes = s.notes := (rfl)
@[simp] theorem State.withPtime_hostOut (s : State) (x : SMap PortTime) : (s.withPtime x).hostOut = s.hostOut := (rfl)
@[simp] theorem State.withPtime_irqs (s : State) (x : SMap PortTime) : (s.withPtime x).irqs = s.irqs := (rfl)
@[simp] theorem State.withPtime_vfs (s : State) (x : SMap PortTime) : (s.withPtime x).vfs = s.vfs := (rfl)
@[simp] theorem State.withPtime_pcieUp (s : State) (x : SMap PortTime) : (s.withPtime x).pcieUp = s.pcieUp := (rfl)
@[simp] theorem State.withPtime_pcie (s : State) (x : SMap PortTime) : (s.withPtime x).pcie = s.pcie := (rfl)
@[simp] theorem State.withPtime_ats (s : State) (x : SMap PortTime) : (s.withPtime x).ats = s.ats := (rfl)
@[simp] theorem State.withPtime_atsDone (s : State) (x : SMap PortTime) : (s.withPtime x).atsDone = s.atsDone := (rfl)
@[simp] theorem State.withPtime_parts (s : State) (x : SMap PortTime) : (s.withPtime x).parts = s.parts := (rfl)
@[simp] theorem State.withPtime_lock (s : State) (x : SMap PortTime) : (s.withPtime x).lock = s.lock := (rfl)
@[simp] theorem State.withPtime_power (s : State) (x : SMap PortTime) : (s.withPtime x).power = s.power := (rfl)
@[simp] theorem State.withPtime_pins (s : State) (x : SMap PortTime) : (s.withPtime x).pins = s.pins := (rfl)
@[simp] theorem State.withPtime_mon (s : State) (x : SMap PortTime) : (s.withPtime x).mon = s.mon := (rfl)
@[simp] theorem State.withPtime_txn (s : State) (x : SMap PortTime) : (s.withPtime x).txn = s.txn := (rfl)
@[simp] theorem State.withPtime_armedTxns (s : State) (x : SMap PortTime) : (s.withPtime x).armedTxns = s.armedTxns := (rfl)
@[simp] theorem State.withPtime_prot (s : State) (x : SMap PortTime) : (s.withPtime x).prot = s.prot := (rfl)
@[simp] theorem State.withPtime_snapAt (s : State) (x : SMap PortTime) : (s.withPtime x).snapAt = s.snapAt := (rfl)
@[simp] theorem State.withPtime_trace (s : State) (x : SMap PortTime) : (s.withPtime x).trace = s.trace := (rfl)
@[simp] theorem State.withPtime_traceQ (s : State) (x : SMap PortTime) : (s.withPtime x).traceQ = s.traceQ := (rfl)
@[simp] theorem State.withPtime_dump (s : State) (x : SMap PortTime) : (s.withPtime x).dump = s.dump := (rfl)
@[simp] theorem State.withPtime_wfg (s : State) (x : SMap PortTime) : (s.withPtime x).wfg = s.wfg := (rfl)
@[simp] theorem State.withPtime_i3c (s : State) (x : SMap PortTime) : (s.withPtime x).i3c = s.i3c := (rfl)
@[simp] theorem State.withPtime_readData (s : State) (x : SMap PortTime) : (s.withPtime x).readData = s.readData := (rfl)
@[simp] theorem State.withPtime_inject (s : State) (x : SMap PortTime) : (s.withPtime x).inject = s.inject := (rfl)
@[simp] theorem State.withPtime_streams (s : State) (x : SMap PortTime) : (s.withPtime x).streams = s.streams := (rfl)
@[simp] theorem State.withPtime_engine (s : State) (x : SMap PortTime) : (s.withPtime x).engine = s.engine := (rfl)
@[simp] theorem State.withPtime_grants (s : State) (x : SMap PortTime) : (s.withPtime x).grants = s.grants := (rfl)
@[simp] theorem State.withPtime_hbm (s : State) (x : SMap PortTime) : (s.withPtime x).hbm = s.hbm := (rfl)
@[simp] theorem State.withPtime_spray (s : State) (x : SMap PortTime) : (s.withPtime x).spray = s.spray := (rfl)
@[simp] theorem State.withPtime_nseq (s : State) (x : SMap PortTime) : (s.withPtime x).nseq = s.nseq := (rfl)
@[simp] theorem State.withPtime_lastNseq (s : State) (x : SMap PortTime) : (s.withPtime x).lastNseq = s.lastNseq := (rfl)
@[simp] theorem State.withPtime_flipPrev (s : State) (x : SMap PortTime) : (s.withPtime x).flipPrev = s.flipPrev := (rfl)
@[simp] theorem State.withPtime_skipScrub (s : State) (x : SMap PortTime) : (s.withPtime x).skipScrub = s.skipScrub := (rfl)
@[simp] theorem State.withPtime_failedQuarters (s : State) (x : SMap PortTime) : (s.withPtime x).failedQuarters = s.failedQuarters := (rfl)
@[simp] theorem State.withPtime_ethOut (s : State) (x : SMap PortTime) : (s.withPtime x).ethOut = s.ethOut := (rfl)
@[simp] theorem State.withPtime_setNow (s : State) (x : SMap PortTime) : (s.withPtime x).setNow = s.setNow := (rfl)
@[simp] theorem State.withPtime_txnNow (s : State) (x : SMap PortTime) : (s.withPtime x).txnNow = s.txnNow := (rfl)
@[simp] theorem State.withPtime_cycleNow (s : State) (x : SMap PortTime) : (s.withPtime x).cycleNow = s.cycleNow := (rfl)

@[simp] theorem State.withTiles_pending (s : State) (x : SMap Tile) : (s.withTiles x).pending = s.pending := (rfl)
@[simp] theorem State.withTiles_freeCtr (s : State) (x : SMap Tile) : (s.withTiles x).freeCtr = s.freeCtr := (rfl)
@[simp] theorem State.withTiles_regs (s : State) (x : SMap Tile) : (s.withTiles x).regs = s.regs := (rfl)
@[simp] theorem State.withTiles_mem (s : State) (x : SMap Tile) : (s.withTiles x).mem = s.mem := (rfl)
@[simp] theorem State.withTiles_dies (s : State) (x : SMap Tile) : (s.withTiles x).dies = s.dies := (rfl)
@[simp] theorem State.withTiles_evlog (s : State) (x : SMap Tile) : (s.withTiles x).evlog = s.evlog := (rfl)
@[simp] theorem State.withTiles_acceptAt (s : State) (x : SMap Tile) : (s.withTiles x).acceptAt = s.acceptAt := (rfl)
@[simp] theorem State.withTiles_rates (s : State) (x : SMap Tile) : (s.withTiles x).rates = s.rates := (rfl)
@[simp] theorem State.withTiles_time (s : State) (x : SMap Tile) : (s.withTiles x).time = s.time := (rfl)
@[simp] theorem State.withTiles_ptime (s : State) (x : SMap Tile) : (s.withTiles x).ptime = s.ptime := (rfl)
@[simp] theorem State.withTiles_tiles (s : State) (x : SMap Tile) : (s.withTiles x).tiles = x := (rfl)
@[simp] theorem State.withTiles_lineCells (s : State) (x : SMap Tile) : (s.withTiles x).lineCells = s.lineCells := (rfl)
@[simp] theorem State.withTiles_tokens (s : State) (x : SMap Tile) : (s.withTiles x).tokens = s.tokens := (rfl)
@[simp] theorem State.withTiles_tokOps (s : State) (x : SMap Tile) : (s.withTiles x).tokOps = s.tokOps := (rfl)
@[simp] theorem State.withTiles_spent (s : State) (x : SMap Tile) : (s.withTiles x).spent = s.spent := (rfl)
@[simp] theorem State.withTiles_recent (s : State) (x : SMap Tile) : (s.withTiles x).recent = s.recent := (rfl)
@[simp] theorem State.withTiles_walkers (s : State) (x : SMap Tile) : (s.withTiles x).walkers = s.walkers := (rfl)
@[simp] theorem State.withTiles_preWalkers (s : State) (x : SMap Tile) : (s.withTiles x).preWalkers = s.preWalkers := (rfl)
@[simp] theorem State.withTiles_transits (s : State) (x : SMap Tile) : (s.withTiles x).transits = s.transits := (rfl)
@[simp] theorem State.withTiles_sramReads (s : State) (x : SMap Tile) : (s.withTiles x).sramReads = s.sramReads := (rfl)
@[simp] theorem State.withTiles_jn (s : State) (x : SMap Tile) : (s.withTiles x).jn = s.jn := (rfl)
@[simp] theorem State.withTiles_ports (s : State) (x : SMap Tile) : (s.withTiles x).ports = s.ports := (rfl)
@[simp] theorem State.withTiles_rings (s : State) (x : SMap Tile) : (s.withTiles x).rings = s.rings := (rfl)
@[simp] theorem State.withTiles_turn (s : State) (x : SMap Tile) : (s.withTiles x).turn = s.turn := (rfl)
@[simp] theorem State.withTiles_notify (s : State) (x : SMap Tile) : (s.withTiles x).notify = s.notify := (rfl)
@[simp] theorem State.withTiles_notes (s : State) (x : SMap Tile) : (s.withTiles x).notes = s.notes := (rfl)
@[simp] theorem State.withTiles_hostOut (s : State) (x : SMap Tile) : (s.withTiles x).hostOut = s.hostOut := (rfl)
@[simp] theorem State.withTiles_irqs (s : State) (x : SMap Tile) : (s.withTiles x).irqs = s.irqs := (rfl)
@[simp] theorem State.withTiles_vfs (s : State) (x : SMap Tile) : (s.withTiles x).vfs = s.vfs := (rfl)
@[simp] theorem State.withTiles_pcieUp (s : State) (x : SMap Tile) : (s.withTiles x).pcieUp = s.pcieUp := (rfl)
@[simp] theorem State.withTiles_pcie (s : State) (x : SMap Tile) : (s.withTiles x).pcie = s.pcie := (rfl)
@[simp] theorem State.withTiles_ats (s : State) (x : SMap Tile) : (s.withTiles x).ats = s.ats := (rfl)
@[simp] theorem State.withTiles_atsDone (s : State) (x : SMap Tile) : (s.withTiles x).atsDone = s.atsDone := (rfl)
@[simp] theorem State.withTiles_parts (s : State) (x : SMap Tile) : (s.withTiles x).parts = s.parts := (rfl)
@[simp] theorem State.withTiles_lock (s : State) (x : SMap Tile) : (s.withTiles x).lock = s.lock := (rfl)
@[simp] theorem State.withTiles_power (s : State) (x : SMap Tile) : (s.withTiles x).power = s.power := (rfl)
@[simp] theorem State.withTiles_pins (s : State) (x : SMap Tile) : (s.withTiles x).pins = s.pins := (rfl)
@[simp] theorem State.withTiles_mon (s : State) (x : SMap Tile) : (s.withTiles x).mon = s.mon := (rfl)
@[simp] theorem State.withTiles_txn (s : State) (x : SMap Tile) : (s.withTiles x).txn = s.txn := (rfl)
@[simp] theorem State.withTiles_armedTxns (s : State) (x : SMap Tile) : (s.withTiles x).armedTxns = s.armedTxns := (rfl)
@[simp] theorem State.withTiles_prot (s : State) (x : SMap Tile) : (s.withTiles x).prot = s.prot := (rfl)
@[simp] theorem State.withTiles_snapAt (s : State) (x : SMap Tile) : (s.withTiles x).snapAt = s.snapAt := (rfl)
@[simp] theorem State.withTiles_trace (s : State) (x : SMap Tile) : (s.withTiles x).trace = s.trace := (rfl)
@[simp] theorem State.withTiles_traceQ (s : State) (x : SMap Tile) : (s.withTiles x).traceQ = s.traceQ := (rfl)
@[simp] theorem State.withTiles_dump (s : State) (x : SMap Tile) : (s.withTiles x).dump = s.dump := (rfl)
@[simp] theorem State.withTiles_wfg (s : State) (x : SMap Tile) : (s.withTiles x).wfg = s.wfg := (rfl)
@[simp] theorem State.withTiles_i3c (s : State) (x : SMap Tile) : (s.withTiles x).i3c = s.i3c := (rfl)
@[simp] theorem State.withTiles_readData (s : State) (x : SMap Tile) : (s.withTiles x).readData = s.readData := (rfl)
@[simp] theorem State.withTiles_inject (s : State) (x : SMap Tile) : (s.withTiles x).inject = s.inject := (rfl)
@[simp] theorem State.withTiles_streams (s : State) (x : SMap Tile) : (s.withTiles x).streams = s.streams := (rfl)
@[simp] theorem State.withTiles_engine (s : State) (x : SMap Tile) : (s.withTiles x).engine = s.engine := (rfl)
@[simp] theorem State.withTiles_grants (s : State) (x : SMap Tile) : (s.withTiles x).grants = s.grants := (rfl)
@[simp] theorem State.withTiles_hbm (s : State) (x : SMap Tile) : (s.withTiles x).hbm = s.hbm := (rfl)
@[simp] theorem State.withTiles_spray (s : State) (x : SMap Tile) : (s.withTiles x).spray = s.spray := (rfl)
@[simp] theorem State.withTiles_nseq (s : State) (x : SMap Tile) : (s.withTiles x).nseq = s.nseq := (rfl)
@[simp] theorem State.withTiles_lastNseq (s : State) (x : SMap Tile) : (s.withTiles x).lastNseq = s.lastNseq := (rfl)
@[simp] theorem State.withTiles_flipPrev (s : State) (x : SMap Tile) : (s.withTiles x).flipPrev = s.flipPrev := (rfl)
@[simp] theorem State.withTiles_skipScrub (s : State) (x : SMap Tile) : (s.withTiles x).skipScrub = s.skipScrub := (rfl)
@[simp] theorem State.withTiles_failedQuarters (s : State) (x : SMap Tile) : (s.withTiles x).failedQuarters = s.failedQuarters := (rfl)
@[simp] theorem State.withTiles_ethOut (s : State) (x : SMap Tile) : (s.withTiles x).ethOut = s.ethOut := (rfl)
@[simp] theorem State.withTiles_setNow (s : State) (x : SMap Tile) : (s.withTiles x).setNow = s.setNow := (rfl)
@[simp] theorem State.withTiles_txnNow (s : State) (x : SMap Tile) : (s.withTiles x).txnNow = s.txnNow := (rfl)
@[simp] theorem State.withTiles_cycleNow (s : State) (x : SMap Tile) : (s.withTiles x).cycleNow = s.cycleNow := (rfl)

@[simp] theorem State.withLineCells_pending (s : State) (x : List LineCell) : (s.withLineCells x).pending = s.pending := (rfl)
@[simp] theorem State.withLineCells_freeCtr (s : State) (x : List LineCell) : (s.withLineCells x).freeCtr = s.freeCtr := (rfl)
@[simp] theorem State.withLineCells_regs (s : State) (x : List LineCell) : (s.withLineCells x).regs = s.regs := (rfl)
@[simp] theorem State.withLineCells_mem (s : State) (x : List LineCell) : (s.withLineCells x).mem = s.mem := (rfl)
@[simp] theorem State.withLineCells_dies (s : State) (x : List LineCell) : (s.withLineCells x).dies = s.dies := (rfl)
@[simp] theorem State.withLineCells_evlog (s : State) (x : List LineCell) : (s.withLineCells x).evlog = s.evlog := (rfl)
@[simp] theorem State.withLineCells_acceptAt (s : State) (x : List LineCell) : (s.withLineCells x).acceptAt = s.acceptAt := (rfl)
@[simp] theorem State.withLineCells_rates (s : State) (x : List LineCell) : (s.withLineCells x).rates = s.rates := (rfl)
@[simp] theorem State.withLineCells_time (s : State) (x : List LineCell) : (s.withLineCells x).time = s.time := (rfl)
@[simp] theorem State.withLineCells_ptime (s : State) (x : List LineCell) : (s.withLineCells x).ptime = s.ptime := (rfl)
@[simp] theorem State.withLineCells_tiles (s : State) (x : List LineCell) : (s.withLineCells x).tiles = s.tiles := (rfl)
@[simp] theorem State.withLineCells_lineCells (s : State) (x : List LineCell) : (s.withLineCells x).lineCells = x := (rfl)
@[simp] theorem State.withLineCells_tokens (s : State) (x : List LineCell) : (s.withLineCells x).tokens = s.tokens := (rfl)
@[simp] theorem State.withLineCells_tokOps (s : State) (x : List LineCell) : (s.withLineCells x).tokOps = s.tokOps := (rfl)
@[simp] theorem State.withLineCells_spent (s : State) (x : List LineCell) : (s.withLineCells x).spent = s.spent := (rfl)
@[simp] theorem State.withLineCells_recent (s : State) (x : List LineCell) : (s.withLineCells x).recent = s.recent := (rfl)
@[simp] theorem State.withLineCells_walkers (s : State) (x : List LineCell) : (s.withLineCells x).walkers = s.walkers := (rfl)
@[simp] theorem State.withLineCells_preWalkers (s : State) (x : List LineCell) : (s.withLineCells x).preWalkers = s.preWalkers := (rfl)
@[simp] theorem State.withLineCells_transits (s : State) (x : List LineCell) : (s.withLineCells x).transits = s.transits := (rfl)
@[simp] theorem State.withLineCells_sramReads (s : State) (x : List LineCell) : (s.withLineCells x).sramReads = s.sramReads := (rfl)
@[simp] theorem State.withLineCells_jn (s : State) (x : List LineCell) : (s.withLineCells x).jn = s.jn := (rfl)
@[simp] theorem State.withLineCells_ports (s : State) (x : List LineCell) : (s.withLineCells x).ports = s.ports := (rfl)
@[simp] theorem State.withLineCells_rings (s : State) (x : List LineCell) : (s.withLineCells x).rings = s.rings := (rfl)
@[simp] theorem State.withLineCells_turn (s : State) (x : List LineCell) : (s.withLineCells x).turn = s.turn := (rfl)
@[simp] theorem State.withLineCells_notify (s : State) (x : List LineCell) : (s.withLineCells x).notify = s.notify := (rfl)
@[simp] theorem State.withLineCells_notes (s : State) (x : List LineCell) : (s.withLineCells x).notes = s.notes := (rfl)
@[simp] theorem State.withLineCells_hostOut (s : State) (x : List LineCell) : (s.withLineCells x).hostOut = s.hostOut := (rfl)
@[simp] theorem State.withLineCells_irqs (s : State) (x : List LineCell) : (s.withLineCells x).irqs = s.irqs := (rfl)
@[simp] theorem State.withLineCells_vfs (s : State) (x : List LineCell) : (s.withLineCells x).vfs = s.vfs := (rfl)
@[simp] theorem State.withLineCells_pcieUp (s : State) (x : List LineCell) : (s.withLineCells x).pcieUp = s.pcieUp := (rfl)
@[simp] theorem State.withLineCells_pcie (s : State) (x : List LineCell) : (s.withLineCells x).pcie = s.pcie := (rfl)
@[simp] theorem State.withLineCells_ats (s : State) (x : List LineCell) : (s.withLineCells x).ats = s.ats := (rfl)
@[simp] theorem State.withLineCells_atsDone (s : State) (x : List LineCell) : (s.withLineCells x).atsDone = s.atsDone := (rfl)
@[simp] theorem State.withLineCells_parts (s : State) (x : List LineCell) : (s.withLineCells x).parts = s.parts := (rfl)
@[simp] theorem State.withLineCells_lock (s : State) (x : List LineCell) : (s.withLineCells x).lock = s.lock := (rfl)
@[simp] theorem State.withLineCells_power (s : State) (x : List LineCell) : (s.withLineCells x).power = s.power := (rfl)
@[simp] theorem State.withLineCells_pins (s : State) (x : List LineCell) : (s.withLineCells x).pins = s.pins := (rfl)
@[simp] theorem State.withLineCells_mon (s : State) (x : List LineCell) : (s.withLineCells x).mon = s.mon := (rfl)
@[simp] theorem State.withLineCells_txn (s : State) (x : List LineCell) : (s.withLineCells x).txn = s.txn := (rfl)
@[simp] theorem State.withLineCells_armedTxns (s : State) (x : List LineCell) : (s.withLineCells x).armedTxns = s.armedTxns := (rfl)
@[simp] theorem State.withLineCells_prot (s : State) (x : List LineCell) : (s.withLineCells x).prot = s.prot := (rfl)
@[simp] theorem State.withLineCells_snapAt (s : State) (x : List LineCell) : (s.withLineCells x).snapAt = s.snapAt := (rfl)
@[simp] theorem State.withLineCells_trace (s : State) (x : List LineCell) : (s.withLineCells x).trace = s.trace := (rfl)
@[simp] theorem State.withLineCells_traceQ (s : State) (x : List LineCell) : (s.withLineCells x).traceQ = s.traceQ := (rfl)
@[simp] theorem State.withLineCells_dump (s : State) (x : List LineCell) : (s.withLineCells x).dump = s.dump := (rfl)
@[simp] theorem State.withLineCells_wfg (s : State) (x : List LineCell) : (s.withLineCells x).wfg = s.wfg := (rfl)
@[simp] theorem State.withLineCells_i3c (s : State) (x : List LineCell) : (s.withLineCells x).i3c = s.i3c := (rfl)
@[simp] theorem State.withLineCells_readData (s : State) (x : List LineCell) : (s.withLineCells x).readData = s.readData := (rfl)
@[simp] theorem State.withLineCells_inject (s : State) (x : List LineCell) : (s.withLineCells x).inject = s.inject := (rfl)
@[simp] theorem State.withLineCells_streams (s : State) (x : List LineCell) : (s.withLineCells x).streams = s.streams := (rfl)
@[simp] theorem State.withLineCells_engine (s : State) (x : List LineCell) : (s.withLineCells x).engine = s.engine := (rfl)
@[simp] theorem State.withLineCells_grants (s : State) (x : List LineCell) : (s.withLineCells x).grants = s.grants := (rfl)
@[simp] theorem State.withLineCells_hbm (s : State) (x : List LineCell) : (s.withLineCells x).hbm = s.hbm := (rfl)
@[simp] theorem State.withLineCells_spray (s : State) (x : List LineCell) : (s.withLineCells x).spray = s.spray := (rfl)
@[simp] theorem State.withLineCells_nseq (s : State) (x : List LineCell) : (s.withLineCells x).nseq = s.nseq := (rfl)
@[simp] theorem State.withLineCells_lastNseq (s : State) (x : List LineCell) : (s.withLineCells x).lastNseq = s.lastNseq := (rfl)
@[simp] theorem State.withLineCells_flipPrev (s : State) (x : List LineCell) : (s.withLineCells x).flipPrev = s.flipPrev := (rfl)
@[simp] theorem State.withLineCells_skipScrub (s : State) (x : List LineCell) : (s.withLineCells x).skipScrub = s.skipScrub := (rfl)
@[simp] theorem State.withLineCells_failedQuarters (s : State) (x : List LineCell) : (s.withLineCells x).failedQuarters = s.failedQuarters := (rfl)
@[simp] theorem State.withLineCells_ethOut (s : State) (x : List LineCell) : (s.withLineCells x).ethOut = s.ethOut := (rfl)
@[simp] theorem State.withLineCells_setNow (s : State) (x : List LineCell) : (s.withLineCells x).setNow = s.setNow := (rfl)
@[simp] theorem State.withLineCells_txnNow (s : State) (x : List LineCell) : (s.withLineCells x).txnNow = s.txnNow := (rfl)
@[simp] theorem State.withLineCells_cycleNow (s : State) (x : List LineCell) : (s.withLineCells x).cycleNow = s.cycleNow := (rfl)

@[simp] theorem State.withTokens_pending (s : State) (x : SMap Token) : (s.withTokens x).pending = s.pending := (rfl)
@[simp] theorem State.withTokens_freeCtr (s : State) (x : SMap Token) : (s.withTokens x).freeCtr = s.freeCtr := (rfl)
@[simp] theorem State.withTokens_regs (s : State) (x : SMap Token) : (s.withTokens x).regs = s.regs := (rfl)
@[simp] theorem State.withTokens_mem (s : State) (x : SMap Token) : (s.withTokens x).mem = s.mem := (rfl)
@[simp] theorem State.withTokens_dies (s : State) (x : SMap Token) : (s.withTokens x).dies = s.dies := (rfl)
@[simp] theorem State.withTokens_evlog (s : State) (x : SMap Token) : (s.withTokens x).evlog = s.evlog := (rfl)
@[simp] theorem State.withTokens_acceptAt (s : State) (x : SMap Token) : (s.withTokens x).acceptAt = s.acceptAt := (rfl)
@[simp] theorem State.withTokens_rates (s : State) (x : SMap Token) : (s.withTokens x).rates = s.rates := (rfl)
@[simp] theorem State.withTokens_time (s : State) (x : SMap Token) : (s.withTokens x).time = s.time := (rfl)
@[simp] theorem State.withTokens_ptime (s : State) (x : SMap Token) : (s.withTokens x).ptime = s.ptime := (rfl)
@[simp] theorem State.withTokens_tiles (s : State) (x : SMap Token) : (s.withTokens x).tiles = s.tiles := (rfl)
@[simp] theorem State.withTokens_lineCells (s : State) (x : SMap Token) : (s.withTokens x).lineCells = s.lineCells := (rfl)
@[simp] theorem State.withTokens_tokens (s : State) (x : SMap Token) : (s.withTokens x).tokens = x := (rfl)
@[simp] theorem State.withTokens_tokOps (s : State) (x : SMap Token) : (s.withTokens x).tokOps = s.tokOps := (rfl)
@[simp] theorem State.withTokens_spent (s : State) (x : SMap Token) : (s.withTokens x).spent = s.spent := (rfl)
@[simp] theorem State.withTokens_recent (s : State) (x : SMap Token) : (s.withTokens x).recent = s.recent := (rfl)
@[simp] theorem State.withTokens_walkers (s : State) (x : SMap Token) : (s.withTokens x).walkers = s.walkers := (rfl)
@[simp] theorem State.withTokens_preWalkers (s : State) (x : SMap Token) : (s.withTokens x).preWalkers = s.preWalkers := (rfl)
@[simp] theorem State.withTokens_transits (s : State) (x : SMap Token) : (s.withTokens x).transits = s.transits := (rfl)
@[simp] theorem State.withTokens_sramReads (s : State) (x : SMap Token) : (s.withTokens x).sramReads = s.sramReads := (rfl)
@[simp] theorem State.withTokens_jn (s : State) (x : SMap Token) : (s.withTokens x).jn = s.jn := (rfl)
@[simp] theorem State.withTokens_ports (s : State) (x : SMap Token) : (s.withTokens x).ports = s.ports := (rfl)
@[simp] theorem State.withTokens_rings (s : State) (x : SMap Token) : (s.withTokens x).rings = s.rings := (rfl)
@[simp] theorem State.withTokens_turn (s : State) (x : SMap Token) : (s.withTokens x).turn = s.turn := (rfl)
@[simp] theorem State.withTokens_notify (s : State) (x : SMap Token) : (s.withTokens x).notify = s.notify := (rfl)
@[simp] theorem State.withTokens_notes (s : State) (x : SMap Token) : (s.withTokens x).notes = s.notes := (rfl)
@[simp] theorem State.withTokens_hostOut (s : State) (x : SMap Token) : (s.withTokens x).hostOut = s.hostOut := (rfl)
@[simp] theorem State.withTokens_irqs (s : State) (x : SMap Token) : (s.withTokens x).irqs = s.irqs := (rfl)
@[simp] theorem State.withTokens_vfs (s : State) (x : SMap Token) : (s.withTokens x).vfs = s.vfs := (rfl)
@[simp] theorem State.withTokens_pcieUp (s : State) (x : SMap Token) : (s.withTokens x).pcieUp = s.pcieUp := (rfl)
@[simp] theorem State.withTokens_pcie (s : State) (x : SMap Token) : (s.withTokens x).pcie = s.pcie := (rfl)
@[simp] theorem State.withTokens_ats (s : State) (x : SMap Token) : (s.withTokens x).ats = s.ats := (rfl)
@[simp] theorem State.withTokens_atsDone (s : State) (x : SMap Token) : (s.withTokens x).atsDone = s.atsDone := (rfl)
@[simp] theorem State.withTokens_parts (s : State) (x : SMap Token) : (s.withTokens x).parts = s.parts := (rfl)
@[simp] theorem State.withTokens_lock (s : State) (x : SMap Token) : (s.withTokens x).lock = s.lock := (rfl)
@[simp] theorem State.withTokens_power (s : State) (x : SMap Token) : (s.withTokens x).power = s.power := (rfl)
@[simp] theorem State.withTokens_pins (s : State) (x : SMap Token) : (s.withTokens x).pins = s.pins := (rfl)
@[simp] theorem State.withTokens_mon (s : State) (x : SMap Token) : (s.withTokens x).mon = s.mon := (rfl)
@[simp] theorem State.withTokens_txn (s : State) (x : SMap Token) : (s.withTokens x).txn = s.txn := (rfl)
@[simp] theorem State.withTokens_armedTxns (s : State) (x : SMap Token) : (s.withTokens x).armedTxns = s.armedTxns := (rfl)
@[simp] theorem State.withTokens_prot (s : State) (x : SMap Token) : (s.withTokens x).prot = s.prot := (rfl)
@[simp] theorem State.withTokens_snapAt (s : State) (x : SMap Token) : (s.withTokens x).snapAt = s.snapAt := (rfl)
@[simp] theorem State.withTokens_trace (s : State) (x : SMap Token) : (s.withTokens x).trace = s.trace := (rfl)
@[simp] theorem State.withTokens_traceQ (s : State) (x : SMap Token) : (s.withTokens x).traceQ = s.traceQ := (rfl)
@[simp] theorem State.withTokens_dump (s : State) (x : SMap Token) : (s.withTokens x).dump = s.dump := (rfl)
@[simp] theorem State.withTokens_wfg (s : State) (x : SMap Token) : (s.withTokens x).wfg = s.wfg := (rfl)
@[simp] theorem State.withTokens_i3c (s : State) (x : SMap Token) : (s.withTokens x).i3c = s.i3c := (rfl)
@[simp] theorem State.withTokens_readData (s : State) (x : SMap Token) : (s.withTokens x).readData = s.readData := (rfl)
@[simp] theorem State.withTokens_inject (s : State) (x : SMap Token) : (s.withTokens x).inject = s.inject := (rfl)
@[simp] theorem State.withTokens_streams (s : State) (x : SMap Token) : (s.withTokens x).streams = s.streams := (rfl)
@[simp] theorem State.withTokens_engine (s : State) (x : SMap Token) : (s.withTokens x).engine = s.engine := (rfl)
@[simp] theorem State.withTokens_grants (s : State) (x : SMap Token) : (s.withTokens x).grants = s.grants := (rfl)
@[simp] theorem State.withTokens_hbm (s : State) (x : SMap Token) : (s.withTokens x).hbm = s.hbm := (rfl)
@[simp] theorem State.withTokens_spray (s : State) (x : SMap Token) : (s.withTokens x).spray = s.spray := (rfl)
@[simp] theorem State.withTokens_nseq (s : State) (x : SMap Token) : (s.withTokens x).nseq = s.nseq := (rfl)
@[simp] theorem State.withTokens_lastNseq (s : State) (x : SMap Token) : (s.withTokens x).lastNseq = s.lastNseq := (rfl)
@[simp] theorem State.withTokens_flipPrev (s : State) (x : SMap Token) : (s.withTokens x).flipPrev = s.flipPrev := (rfl)
@[simp] theorem State.withTokens_skipScrub (s : State) (x : SMap Token) : (s.withTokens x).skipScrub = s.skipScrub := (rfl)
@[simp] theorem State.withTokens_failedQuarters (s : State) (x : SMap Token) : (s.withTokens x).failedQuarters = s.failedQuarters := (rfl)
@[simp] theorem State.withTokens_ethOut (s : State) (x : SMap Token) : (s.withTokens x).ethOut = s.ethOut := (rfl)
@[simp] theorem State.withTokens_setNow (s : State) (x : SMap Token) : (s.withTokens x).setNow = s.setNow := (rfl)
@[simp] theorem State.withTokens_txnNow (s : State) (x : SMap Token) : (s.withTokens x).txnNow = s.txnNow := (rfl)
@[simp] theorem State.withTokens_cycleNow (s : State) (x : SMap Token) : (s.withTokens x).cycleNow = s.cycleNow := (rfl)

@[simp] theorem State.withTokOps_pending (s : State) (x : List TokOp) : (s.withTokOps x).pending = s.pending := (rfl)
@[simp] theorem State.withTokOps_freeCtr (s : State) (x : List TokOp) : (s.withTokOps x).freeCtr = s.freeCtr := (rfl)
@[simp] theorem State.withTokOps_regs (s : State) (x : List TokOp) : (s.withTokOps x).regs = s.regs := (rfl)
@[simp] theorem State.withTokOps_mem (s : State) (x : List TokOp) : (s.withTokOps x).mem = s.mem := (rfl)
@[simp] theorem State.withTokOps_dies (s : State) (x : List TokOp) : (s.withTokOps x).dies = s.dies := (rfl)
@[simp] theorem State.withTokOps_evlog (s : State) (x : List TokOp) : (s.withTokOps x).evlog = s.evlog := (rfl)
@[simp] theorem State.withTokOps_acceptAt (s : State) (x : List TokOp) : (s.withTokOps x).acceptAt = s.acceptAt := (rfl)
@[simp] theorem State.withTokOps_rates (s : State) (x : List TokOp) : (s.withTokOps x).rates = s.rates := (rfl)
@[simp] theorem State.withTokOps_time (s : State) (x : List TokOp) : (s.withTokOps x).time = s.time := (rfl)
@[simp] theorem State.withTokOps_ptime (s : State) (x : List TokOp) : (s.withTokOps x).ptime = s.ptime := (rfl)
@[simp] theorem State.withTokOps_tiles (s : State) (x : List TokOp) : (s.withTokOps x).tiles = s.tiles := (rfl)
@[simp] theorem State.withTokOps_lineCells (s : State) (x : List TokOp) : (s.withTokOps x).lineCells = s.lineCells := (rfl)
@[simp] theorem State.withTokOps_tokens (s : State) (x : List TokOp) : (s.withTokOps x).tokens = s.tokens := (rfl)
@[simp] theorem State.withTokOps_tokOps (s : State) (x : List TokOp) : (s.withTokOps x).tokOps = x := (rfl)
@[simp] theorem State.withTokOps_spent (s : State) (x : List TokOp) : (s.withTokOps x).spent = s.spent := (rfl)
@[simp] theorem State.withTokOps_recent (s : State) (x : List TokOp) : (s.withTokOps x).recent = s.recent := (rfl)
@[simp] theorem State.withTokOps_walkers (s : State) (x : List TokOp) : (s.withTokOps x).walkers = s.walkers := (rfl)
@[simp] theorem State.withTokOps_preWalkers (s : State) (x : List TokOp) : (s.withTokOps x).preWalkers = s.preWalkers := (rfl)
@[simp] theorem State.withTokOps_transits (s : State) (x : List TokOp) : (s.withTokOps x).transits = s.transits := (rfl)
@[simp] theorem State.withTokOps_sramReads (s : State) (x : List TokOp) : (s.withTokOps x).sramReads = s.sramReads := (rfl)
@[simp] theorem State.withTokOps_jn (s : State) (x : List TokOp) : (s.withTokOps x).jn = s.jn := (rfl)
@[simp] theorem State.withTokOps_ports (s : State) (x : List TokOp) : (s.withTokOps x).ports = s.ports := (rfl)
@[simp] theorem State.withTokOps_rings (s : State) (x : List TokOp) : (s.withTokOps x).rings = s.rings := (rfl)
@[simp] theorem State.withTokOps_turn (s : State) (x : List TokOp) : (s.withTokOps x).turn = s.turn := (rfl)
@[simp] theorem State.withTokOps_notify (s : State) (x : List TokOp) : (s.withTokOps x).notify = s.notify := (rfl)
@[simp] theorem State.withTokOps_notes (s : State) (x : List TokOp) : (s.withTokOps x).notes = s.notes := (rfl)
@[simp] theorem State.withTokOps_hostOut (s : State) (x : List TokOp) : (s.withTokOps x).hostOut = s.hostOut := (rfl)
@[simp] theorem State.withTokOps_irqs (s : State) (x : List TokOp) : (s.withTokOps x).irqs = s.irqs := (rfl)
@[simp] theorem State.withTokOps_vfs (s : State) (x : List TokOp) : (s.withTokOps x).vfs = s.vfs := (rfl)
@[simp] theorem State.withTokOps_pcieUp (s : State) (x : List TokOp) : (s.withTokOps x).pcieUp = s.pcieUp := (rfl)
@[simp] theorem State.withTokOps_pcie (s : State) (x : List TokOp) : (s.withTokOps x).pcie = s.pcie := (rfl)
@[simp] theorem State.withTokOps_ats (s : State) (x : List TokOp) : (s.withTokOps x).ats = s.ats := (rfl)
@[simp] theorem State.withTokOps_atsDone (s : State) (x : List TokOp) : (s.withTokOps x).atsDone = s.atsDone := (rfl)
@[simp] theorem State.withTokOps_parts (s : State) (x : List TokOp) : (s.withTokOps x).parts = s.parts := (rfl)
@[simp] theorem State.withTokOps_lock (s : State) (x : List TokOp) : (s.withTokOps x).lock = s.lock := (rfl)
@[simp] theorem State.withTokOps_power (s : State) (x : List TokOp) : (s.withTokOps x).power = s.power := (rfl)
@[simp] theorem State.withTokOps_pins (s : State) (x : List TokOp) : (s.withTokOps x).pins = s.pins := (rfl)
@[simp] theorem State.withTokOps_mon (s : State) (x : List TokOp) : (s.withTokOps x).mon = s.mon := (rfl)
@[simp] theorem State.withTokOps_txn (s : State) (x : List TokOp) : (s.withTokOps x).txn = s.txn := (rfl)
@[simp] theorem State.withTokOps_armedTxns (s : State) (x : List TokOp) : (s.withTokOps x).armedTxns = s.armedTxns := (rfl)
@[simp] theorem State.withTokOps_prot (s : State) (x : List TokOp) : (s.withTokOps x).prot = s.prot := (rfl)
@[simp] theorem State.withTokOps_snapAt (s : State) (x : List TokOp) : (s.withTokOps x).snapAt = s.snapAt := (rfl)
@[simp] theorem State.withTokOps_trace (s : State) (x : List TokOp) : (s.withTokOps x).trace = s.trace := (rfl)
@[simp] theorem State.withTokOps_traceQ (s : State) (x : List TokOp) : (s.withTokOps x).traceQ = s.traceQ := (rfl)
@[simp] theorem State.withTokOps_dump (s : State) (x : List TokOp) : (s.withTokOps x).dump = s.dump := (rfl)
@[simp] theorem State.withTokOps_wfg (s : State) (x : List TokOp) : (s.withTokOps x).wfg = s.wfg := (rfl)
@[simp] theorem State.withTokOps_i3c (s : State) (x : List TokOp) : (s.withTokOps x).i3c = s.i3c := (rfl)
@[simp] theorem State.withTokOps_readData (s : State) (x : List TokOp) : (s.withTokOps x).readData = s.readData := (rfl)
@[simp] theorem State.withTokOps_inject (s : State) (x : List TokOp) : (s.withTokOps x).inject = s.inject := (rfl)
@[simp] theorem State.withTokOps_streams (s : State) (x : List TokOp) : (s.withTokOps x).streams = s.streams := (rfl)
@[simp] theorem State.withTokOps_engine (s : State) (x : List TokOp) : (s.withTokOps x).engine = s.engine := (rfl)
@[simp] theorem State.withTokOps_grants (s : State) (x : List TokOp) : (s.withTokOps x).grants = s.grants := (rfl)
@[simp] theorem State.withTokOps_hbm (s : State) (x : List TokOp) : (s.withTokOps x).hbm = s.hbm := (rfl)
@[simp] theorem State.withTokOps_spray (s : State) (x : List TokOp) : (s.withTokOps x).spray = s.spray := (rfl)
@[simp] theorem State.withTokOps_nseq (s : State) (x : List TokOp) : (s.withTokOps x).nseq = s.nseq := (rfl)
@[simp] theorem State.withTokOps_lastNseq (s : State) (x : List TokOp) : (s.withTokOps x).lastNseq = s.lastNseq := (rfl)
@[simp] theorem State.withTokOps_flipPrev (s : State) (x : List TokOp) : (s.withTokOps x).flipPrev = s.flipPrev := (rfl)
@[simp] theorem State.withTokOps_skipScrub (s : State) (x : List TokOp) : (s.withTokOps x).skipScrub = s.skipScrub := (rfl)
@[simp] theorem State.withTokOps_failedQuarters (s : State) (x : List TokOp) : (s.withTokOps x).failedQuarters = s.failedQuarters := (rfl)
@[simp] theorem State.withTokOps_ethOut (s : State) (x : List TokOp) : (s.withTokOps x).ethOut = s.ethOut := (rfl)
@[simp] theorem State.withTokOps_setNow (s : State) (x : List TokOp) : (s.withTokOps x).setNow = s.setNow := (rfl)
@[simp] theorem State.withTokOps_txnNow (s : State) (x : List TokOp) : (s.withTokOps x).txnNow = s.txnNow := (rfl)
@[simp] theorem State.withTokOps_cycleNow (s : State) (x : List TokOp) : (s.withTokOps x).cycleNow = s.cycleNow := (rfl)

@[simp] theorem State.withSpent_pending (s : State) (x : List (Nat × Stream)) : (s.withSpent x).pending = s.pending := (rfl)
@[simp] theorem State.withSpent_freeCtr (s : State) (x : List (Nat × Stream)) : (s.withSpent x).freeCtr = s.freeCtr := (rfl)
@[simp] theorem State.withSpent_regs (s : State) (x : List (Nat × Stream)) : (s.withSpent x).regs = s.regs := (rfl)
@[simp] theorem State.withSpent_mem (s : State) (x : List (Nat × Stream)) : (s.withSpent x).mem = s.mem := (rfl)
@[simp] theorem State.withSpent_dies (s : State) (x : List (Nat × Stream)) : (s.withSpent x).dies = s.dies := (rfl)
@[simp] theorem State.withSpent_evlog (s : State) (x : List (Nat × Stream)) : (s.withSpent x).evlog = s.evlog := (rfl)
@[simp] theorem State.withSpent_acceptAt (s : State) (x : List (Nat × Stream)) : (s.withSpent x).acceptAt = s.acceptAt := (rfl)
@[simp] theorem State.withSpent_rates (s : State) (x : List (Nat × Stream)) : (s.withSpent x).rates = s.rates := (rfl)
@[simp] theorem State.withSpent_time (s : State) (x : List (Nat × Stream)) : (s.withSpent x).time = s.time := (rfl)
@[simp] theorem State.withSpent_ptime (s : State) (x : List (Nat × Stream)) : (s.withSpent x).ptime = s.ptime := (rfl)
@[simp] theorem State.withSpent_tiles (s : State) (x : List (Nat × Stream)) : (s.withSpent x).tiles = s.tiles := (rfl)
@[simp] theorem State.withSpent_lineCells (s : State) (x : List (Nat × Stream)) : (s.withSpent x).lineCells = s.lineCells := (rfl)
@[simp] theorem State.withSpent_tokens (s : State) (x : List (Nat × Stream)) : (s.withSpent x).tokens = s.tokens := (rfl)
@[simp] theorem State.withSpent_tokOps (s : State) (x : List (Nat × Stream)) : (s.withSpent x).tokOps = s.tokOps := (rfl)
@[simp] theorem State.withSpent_spent (s : State) (x : List (Nat × Stream)) : (s.withSpent x).spent = x := (rfl)
@[simp] theorem State.withSpent_recent (s : State) (x : List (Nat × Stream)) : (s.withSpent x).recent = s.recent := (rfl)
@[simp] theorem State.withSpent_walkers (s : State) (x : List (Nat × Stream)) : (s.withSpent x).walkers = s.walkers := (rfl)
@[simp] theorem State.withSpent_preWalkers (s : State) (x : List (Nat × Stream)) : (s.withSpent x).preWalkers = s.preWalkers := (rfl)
@[simp] theorem State.withSpent_transits (s : State) (x : List (Nat × Stream)) : (s.withSpent x).transits = s.transits := (rfl)
@[simp] theorem State.withSpent_sramReads (s : State) (x : List (Nat × Stream)) : (s.withSpent x).sramReads = s.sramReads := (rfl)
@[simp] theorem State.withSpent_jn (s : State) (x : List (Nat × Stream)) : (s.withSpent x).jn = s.jn := (rfl)
@[simp] theorem State.withSpent_ports (s : State) (x : List (Nat × Stream)) : (s.withSpent x).ports = s.ports := (rfl)
@[simp] theorem State.withSpent_rings (s : State) (x : List (Nat × Stream)) : (s.withSpent x).rings = s.rings := (rfl)
@[simp] theorem State.withSpent_turn (s : State) (x : List (Nat × Stream)) : (s.withSpent x).turn = s.turn := (rfl)
@[simp] theorem State.withSpent_notify (s : State) (x : List (Nat × Stream)) : (s.withSpent x).notify = s.notify := (rfl)
@[simp] theorem State.withSpent_notes (s : State) (x : List (Nat × Stream)) : (s.withSpent x).notes = s.notes := (rfl)
@[simp] theorem State.withSpent_hostOut (s : State) (x : List (Nat × Stream)) : (s.withSpent x).hostOut = s.hostOut := (rfl)
@[simp] theorem State.withSpent_irqs (s : State) (x : List (Nat × Stream)) : (s.withSpent x).irqs = s.irqs := (rfl)
@[simp] theorem State.withSpent_vfs (s : State) (x : List (Nat × Stream)) : (s.withSpent x).vfs = s.vfs := (rfl)
@[simp] theorem State.withSpent_pcieUp (s : State) (x : List (Nat × Stream)) : (s.withSpent x).pcieUp = s.pcieUp := (rfl)
@[simp] theorem State.withSpent_pcie (s : State) (x : List (Nat × Stream)) : (s.withSpent x).pcie = s.pcie := (rfl)
@[simp] theorem State.withSpent_ats (s : State) (x : List (Nat × Stream)) : (s.withSpent x).ats = s.ats := (rfl)
@[simp] theorem State.withSpent_atsDone (s : State) (x : List (Nat × Stream)) : (s.withSpent x).atsDone = s.atsDone := (rfl)
@[simp] theorem State.withSpent_parts (s : State) (x : List (Nat × Stream)) : (s.withSpent x).parts = s.parts := (rfl)
@[simp] theorem State.withSpent_lock (s : State) (x : List (Nat × Stream)) : (s.withSpent x).lock = s.lock := (rfl)
@[simp] theorem State.withSpent_power (s : State) (x : List (Nat × Stream)) : (s.withSpent x).power = s.power := (rfl)
@[simp] theorem State.withSpent_pins (s : State) (x : List (Nat × Stream)) : (s.withSpent x).pins = s.pins := (rfl)
@[simp] theorem State.withSpent_mon (s : State) (x : List (Nat × Stream)) : (s.withSpent x).mon = s.mon := (rfl)
@[simp] theorem State.withSpent_txn (s : State) (x : List (Nat × Stream)) : (s.withSpent x).txn = s.txn := (rfl)
@[simp] theorem State.withSpent_armedTxns (s : State) (x : List (Nat × Stream)) : (s.withSpent x).armedTxns = s.armedTxns := (rfl)
@[simp] theorem State.withSpent_prot (s : State) (x : List (Nat × Stream)) : (s.withSpent x).prot = s.prot := (rfl)
@[simp] theorem State.withSpent_snapAt (s : State) (x : List (Nat × Stream)) : (s.withSpent x).snapAt = s.snapAt := (rfl)
@[simp] theorem State.withSpent_trace (s : State) (x : List (Nat × Stream)) : (s.withSpent x).trace = s.trace := (rfl)
@[simp] theorem State.withSpent_traceQ (s : State) (x : List (Nat × Stream)) : (s.withSpent x).traceQ = s.traceQ := (rfl)
@[simp] theorem State.withSpent_dump (s : State) (x : List (Nat × Stream)) : (s.withSpent x).dump = s.dump := (rfl)
@[simp] theorem State.withSpent_wfg (s : State) (x : List (Nat × Stream)) : (s.withSpent x).wfg = s.wfg := (rfl)
@[simp] theorem State.withSpent_i3c (s : State) (x : List (Nat × Stream)) : (s.withSpent x).i3c = s.i3c := (rfl)
@[simp] theorem State.withSpent_readData (s : State) (x : List (Nat × Stream)) : (s.withSpent x).readData = s.readData := (rfl)
@[simp] theorem State.withSpent_inject (s : State) (x : List (Nat × Stream)) : (s.withSpent x).inject = s.inject := (rfl)
@[simp] theorem State.withSpent_streams (s : State) (x : List (Nat × Stream)) : (s.withSpent x).streams = s.streams := (rfl)
@[simp] theorem State.withSpent_engine (s : State) (x : List (Nat × Stream)) : (s.withSpent x).engine = s.engine := (rfl)
@[simp] theorem State.withSpent_grants (s : State) (x : List (Nat × Stream)) : (s.withSpent x).grants = s.grants := (rfl)
@[simp] theorem State.withSpent_hbm (s : State) (x : List (Nat × Stream)) : (s.withSpent x).hbm = s.hbm := (rfl)
@[simp] theorem State.withSpent_spray (s : State) (x : List (Nat × Stream)) : (s.withSpent x).spray = s.spray := (rfl)
@[simp] theorem State.withSpent_nseq (s : State) (x : List (Nat × Stream)) : (s.withSpent x).nseq = s.nseq := (rfl)
@[simp] theorem State.withSpent_lastNseq (s : State) (x : List (Nat × Stream)) : (s.withSpent x).lastNseq = s.lastNseq := (rfl)
@[simp] theorem State.withSpent_flipPrev (s : State) (x : List (Nat × Stream)) : (s.withSpent x).flipPrev = s.flipPrev := (rfl)
@[simp] theorem State.withSpent_skipScrub (s : State) (x : List (Nat × Stream)) : (s.withSpent x).skipScrub = s.skipScrub := (rfl)
@[simp] theorem State.withSpent_failedQuarters (s : State) (x : List (Nat × Stream)) : (s.withSpent x).failedQuarters = s.failedQuarters := (rfl)
@[simp] theorem State.withSpent_ethOut (s : State) (x : List (Nat × Stream)) : (s.withSpent x).ethOut = s.ethOut := (rfl)
@[simp] theorem State.withSpent_setNow (s : State) (x : List (Nat × Stream)) : (s.withSpent x).setNow = s.setNow := (rfl)
@[simp] theorem State.withSpent_txnNow (s : State) (x : List (Nat × Stream)) : (s.withSpent x).txnNow = s.txnNow := (rfl)
@[simp] theorem State.withSpent_cycleNow (s : State) (x : List (Nat × Stream)) : (s.withSpent x).cycleNow = s.cycleNow := (rfl)

@[simp] theorem State.withRecent_pending (s : State) (x : List Wrote) : (s.withRecent x).pending = s.pending := (rfl)
@[simp] theorem State.withRecent_freeCtr (s : State) (x : List Wrote) : (s.withRecent x).freeCtr = s.freeCtr := (rfl)
@[simp] theorem State.withRecent_regs (s : State) (x : List Wrote) : (s.withRecent x).regs = s.regs := (rfl)
@[simp] theorem State.withRecent_mem (s : State) (x : List Wrote) : (s.withRecent x).mem = s.mem := (rfl)
@[simp] theorem State.withRecent_dies (s : State) (x : List Wrote) : (s.withRecent x).dies = s.dies := (rfl)
@[simp] theorem State.withRecent_evlog (s : State) (x : List Wrote) : (s.withRecent x).evlog = s.evlog := (rfl)
@[simp] theorem State.withRecent_acceptAt (s : State) (x : List Wrote) : (s.withRecent x).acceptAt = s.acceptAt := (rfl)
@[simp] theorem State.withRecent_rates (s : State) (x : List Wrote) : (s.withRecent x).rates = s.rates := (rfl)
@[simp] theorem State.withRecent_time (s : State) (x : List Wrote) : (s.withRecent x).time = s.time := (rfl)
@[simp] theorem State.withRecent_ptime (s : State) (x : List Wrote) : (s.withRecent x).ptime = s.ptime := (rfl)
@[simp] theorem State.withRecent_tiles (s : State) (x : List Wrote) : (s.withRecent x).tiles = s.tiles := (rfl)
@[simp] theorem State.withRecent_lineCells (s : State) (x : List Wrote) : (s.withRecent x).lineCells = s.lineCells := (rfl)
@[simp] theorem State.withRecent_tokens (s : State) (x : List Wrote) : (s.withRecent x).tokens = s.tokens := (rfl)
@[simp] theorem State.withRecent_tokOps (s : State) (x : List Wrote) : (s.withRecent x).tokOps = s.tokOps := (rfl)
@[simp] theorem State.withRecent_spent (s : State) (x : List Wrote) : (s.withRecent x).spent = s.spent := (rfl)
@[simp] theorem State.withRecent_recent (s : State) (x : List Wrote) : (s.withRecent x).recent = x := (rfl)
@[simp] theorem State.withRecent_walkers (s : State) (x : List Wrote) : (s.withRecent x).walkers = s.walkers := (rfl)
@[simp] theorem State.withRecent_preWalkers (s : State) (x : List Wrote) : (s.withRecent x).preWalkers = s.preWalkers := (rfl)
@[simp] theorem State.withRecent_transits (s : State) (x : List Wrote) : (s.withRecent x).transits = s.transits := (rfl)
@[simp] theorem State.withRecent_sramReads (s : State) (x : List Wrote) : (s.withRecent x).sramReads = s.sramReads := (rfl)
@[simp] theorem State.withRecent_jn (s : State) (x : List Wrote) : (s.withRecent x).jn = s.jn := (rfl)
@[simp] theorem State.withRecent_ports (s : State) (x : List Wrote) : (s.withRecent x).ports = s.ports := (rfl)
@[simp] theorem State.withRecent_rings (s : State) (x : List Wrote) : (s.withRecent x).rings = s.rings := (rfl)
@[simp] theorem State.withRecent_turn (s : State) (x : List Wrote) : (s.withRecent x).turn = s.turn := (rfl)
@[simp] theorem State.withRecent_notify (s : State) (x : List Wrote) : (s.withRecent x).notify = s.notify := (rfl)
@[simp] theorem State.withRecent_notes (s : State) (x : List Wrote) : (s.withRecent x).notes = s.notes := (rfl)
@[simp] theorem State.withRecent_hostOut (s : State) (x : List Wrote) : (s.withRecent x).hostOut = s.hostOut := (rfl)
@[simp] theorem State.withRecent_irqs (s : State) (x : List Wrote) : (s.withRecent x).irqs = s.irqs := (rfl)
@[simp] theorem State.withRecent_vfs (s : State) (x : List Wrote) : (s.withRecent x).vfs = s.vfs := (rfl)
@[simp] theorem State.withRecent_pcieUp (s : State) (x : List Wrote) : (s.withRecent x).pcieUp = s.pcieUp := (rfl)
@[simp] theorem State.withRecent_pcie (s : State) (x : List Wrote) : (s.withRecent x).pcie = s.pcie := (rfl)
@[simp] theorem State.withRecent_ats (s : State) (x : List Wrote) : (s.withRecent x).ats = s.ats := (rfl)
@[simp] theorem State.withRecent_atsDone (s : State) (x : List Wrote) : (s.withRecent x).atsDone = s.atsDone := (rfl)
@[simp] theorem State.withRecent_parts (s : State) (x : List Wrote) : (s.withRecent x).parts = s.parts := (rfl)
@[simp] theorem State.withRecent_lock (s : State) (x : List Wrote) : (s.withRecent x).lock = s.lock := (rfl)
@[simp] theorem State.withRecent_power (s : State) (x : List Wrote) : (s.withRecent x).power = s.power := (rfl)
@[simp] theorem State.withRecent_pins (s : State) (x : List Wrote) : (s.withRecent x).pins = s.pins := (rfl)
@[simp] theorem State.withRecent_mon (s : State) (x : List Wrote) : (s.withRecent x).mon = s.mon := (rfl)
@[simp] theorem State.withRecent_txn (s : State) (x : List Wrote) : (s.withRecent x).txn = s.txn := (rfl)
@[simp] theorem State.withRecent_armedTxns (s : State) (x : List Wrote) : (s.withRecent x).armedTxns = s.armedTxns := (rfl)
@[simp] theorem State.withRecent_prot (s : State) (x : List Wrote) : (s.withRecent x).prot = s.prot := (rfl)
@[simp] theorem State.withRecent_snapAt (s : State) (x : List Wrote) : (s.withRecent x).snapAt = s.snapAt := (rfl)
@[simp] theorem State.withRecent_trace (s : State) (x : List Wrote) : (s.withRecent x).trace = s.trace := (rfl)
@[simp] theorem State.withRecent_traceQ (s : State) (x : List Wrote) : (s.withRecent x).traceQ = s.traceQ := (rfl)
@[simp] theorem State.withRecent_dump (s : State) (x : List Wrote) : (s.withRecent x).dump = s.dump := (rfl)
@[simp] theorem State.withRecent_wfg (s : State) (x : List Wrote) : (s.withRecent x).wfg = s.wfg := (rfl)
@[simp] theorem State.withRecent_i3c (s : State) (x : List Wrote) : (s.withRecent x).i3c = s.i3c := (rfl)
@[simp] theorem State.withRecent_readData (s : State) (x : List Wrote) : (s.withRecent x).readData = s.readData := (rfl)
@[simp] theorem State.withRecent_inject (s : State) (x : List Wrote) : (s.withRecent x).inject = s.inject := (rfl)
@[simp] theorem State.withRecent_streams (s : State) (x : List Wrote) : (s.withRecent x).streams = s.streams := (rfl)
@[simp] theorem State.withRecent_engine (s : State) (x : List Wrote) : (s.withRecent x).engine = s.engine := (rfl)
@[simp] theorem State.withRecent_grants (s : State) (x : List Wrote) : (s.withRecent x).grants = s.grants := (rfl)
@[simp] theorem State.withRecent_hbm (s : State) (x : List Wrote) : (s.withRecent x).hbm = s.hbm := (rfl)
@[simp] theorem State.withRecent_spray (s : State) (x : List Wrote) : (s.withRecent x).spray = s.spray := (rfl)
@[simp] theorem State.withRecent_nseq (s : State) (x : List Wrote) : (s.withRecent x).nseq = s.nseq := (rfl)
@[simp] theorem State.withRecent_lastNseq (s : State) (x : List Wrote) : (s.withRecent x).lastNseq = s.lastNseq := (rfl)
@[simp] theorem State.withRecent_flipPrev (s : State) (x : List Wrote) : (s.withRecent x).flipPrev = s.flipPrev := (rfl)
@[simp] theorem State.withRecent_skipScrub (s : State) (x : List Wrote) : (s.withRecent x).skipScrub = s.skipScrub := (rfl)
@[simp] theorem State.withRecent_failedQuarters (s : State) (x : List Wrote) : (s.withRecent x).failedQuarters = s.failedQuarters := (rfl)
@[simp] theorem State.withRecent_ethOut (s : State) (x : List Wrote) : (s.withRecent x).ethOut = s.ethOut := (rfl)
@[simp] theorem State.withRecent_setNow (s : State) (x : List Wrote) : (s.withRecent x).setNow = s.setNow := (rfl)
@[simp] theorem State.withRecent_txnNow (s : State) (x : List Wrote) : (s.withRecent x).txnNow = s.txnNow := (rfl)
@[simp] theorem State.withRecent_cycleNow (s : State) (x : List Wrote) : (s.withRecent x).cycleNow = s.cycleNow := (rfl)

@[simp] theorem State.withWalkers_pending (s : State) (x : SMap Walker) : (s.withWalkers x).pending = s.pending := (rfl)
@[simp] theorem State.withWalkers_freeCtr (s : State) (x : SMap Walker) : (s.withWalkers x).freeCtr = s.freeCtr := (rfl)
@[simp] theorem State.withWalkers_regs (s : State) (x : SMap Walker) : (s.withWalkers x).regs = s.regs := (rfl)
@[simp] theorem State.withWalkers_mem (s : State) (x : SMap Walker) : (s.withWalkers x).mem = s.mem := (rfl)
@[simp] theorem State.withWalkers_dies (s : State) (x : SMap Walker) : (s.withWalkers x).dies = s.dies := (rfl)
@[simp] theorem State.withWalkers_evlog (s : State) (x : SMap Walker) : (s.withWalkers x).evlog = s.evlog := (rfl)
@[simp] theorem State.withWalkers_acceptAt (s : State) (x : SMap Walker) : (s.withWalkers x).acceptAt = s.acceptAt := (rfl)
@[simp] theorem State.withWalkers_rates (s : State) (x : SMap Walker) : (s.withWalkers x).rates = s.rates := (rfl)
@[simp] theorem State.withWalkers_time (s : State) (x : SMap Walker) : (s.withWalkers x).time = s.time := (rfl)
@[simp] theorem State.withWalkers_ptime (s : State) (x : SMap Walker) : (s.withWalkers x).ptime = s.ptime := (rfl)
@[simp] theorem State.withWalkers_tiles (s : State) (x : SMap Walker) : (s.withWalkers x).tiles = s.tiles := (rfl)
@[simp] theorem State.withWalkers_lineCells (s : State) (x : SMap Walker) : (s.withWalkers x).lineCells = s.lineCells := (rfl)
@[simp] theorem State.withWalkers_tokens (s : State) (x : SMap Walker) : (s.withWalkers x).tokens = s.tokens := (rfl)
@[simp] theorem State.withWalkers_tokOps (s : State) (x : SMap Walker) : (s.withWalkers x).tokOps = s.tokOps := (rfl)
@[simp] theorem State.withWalkers_spent (s : State) (x : SMap Walker) : (s.withWalkers x).spent = s.spent := (rfl)
@[simp] theorem State.withWalkers_recent (s : State) (x : SMap Walker) : (s.withWalkers x).recent = s.recent := (rfl)
@[simp] theorem State.withWalkers_walkers (s : State) (x : SMap Walker) : (s.withWalkers x).walkers = x := (rfl)
@[simp] theorem State.withWalkers_preWalkers (s : State) (x : SMap Walker) : (s.withWalkers x).preWalkers = s.preWalkers := (rfl)
@[simp] theorem State.withWalkers_transits (s : State) (x : SMap Walker) : (s.withWalkers x).transits = s.transits := (rfl)
@[simp] theorem State.withWalkers_sramReads (s : State) (x : SMap Walker) : (s.withWalkers x).sramReads = s.sramReads := (rfl)
@[simp] theorem State.withWalkers_jn (s : State) (x : SMap Walker) : (s.withWalkers x).jn = s.jn := (rfl)
@[simp] theorem State.withWalkers_ports (s : State) (x : SMap Walker) : (s.withWalkers x).ports = s.ports := (rfl)
@[simp] theorem State.withWalkers_rings (s : State) (x : SMap Walker) : (s.withWalkers x).rings = s.rings := (rfl)
@[simp] theorem State.withWalkers_turn (s : State) (x : SMap Walker) : (s.withWalkers x).turn = s.turn := (rfl)
@[simp] theorem State.withWalkers_notify (s : State) (x : SMap Walker) : (s.withWalkers x).notify = s.notify := (rfl)
@[simp] theorem State.withWalkers_notes (s : State) (x : SMap Walker) : (s.withWalkers x).notes = s.notes := (rfl)
@[simp] theorem State.withWalkers_hostOut (s : State) (x : SMap Walker) : (s.withWalkers x).hostOut = s.hostOut := (rfl)
@[simp] theorem State.withWalkers_irqs (s : State) (x : SMap Walker) : (s.withWalkers x).irqs = s.irqs := (rfl)
@[simp] theorem State.withWalkers_vfs (s : State) (x : SMap Walker) : (s.withWalkers x).vfs = s.vfs := (rfl)
@[simp] theorem State.withWalkers_pcieUp (s : State) (x : SMap Walker) : (s.withWalkers x).pcieUp = s.pcieUp := (rfl)
@[simp] theorem State.withWalkers_pcie (s : State) (x : SMap Walker) : (s.withWalkers x).pcie = s.pcie := (rfl)
@[simp] theorem State.withWalkers_ats (s : State) (x : SMap Walker) : (s.withWalkers x).ats = s.ats := (rfl)
@[simp] theorem State.withWalkers_atsDone (s : State) (x : SMap Walker) : (s.withWalkers x).atsDone = s.atsDone := (rfl)
@[simp] theorem State.withWalkers_parts (s : State) (x : SMap Walker) : (s.withWalkers x).parts = s.parts := (rfl)
@[simp] theorem State.withWalkers_lock (s : State) (x : SMap Walker) : (s.withWalkers x).lock = s.lock := (rfl)
@[simp] theorem State.withWalkers_power (s : State) (x : SMap Walker) : (s.withWalkers x).power = s.power := (rfl)
@[simp] theorem State.withWalkers_pins (s : State) (x : SMap Walker) : (s.withWalkers x).pins = s.pins := (rfl)
@[simp] theorem State.withWalkers_mon (s : State) (x : SMap Walker) : (s.withWalkers x).mon = s.mon := (rfl)
@[simp] theorem State.withWalkers_txn (s : State) (x : SMap Walker) : (s.withWalkers x).txn = s.txn := (rfl)
@[simp] theorem State.withWalkers_armedTxns (s : State) (x : SMap Walker) : (s.withWalkers x).armedTxns = s.armedTxns := (rfl)
@[simp] theorem State.withWalkers_prot (s : State) (x : SMap Walker) : (s.withWalkers x).prot = s.prot := (rfl)
@[simp] theorem State.withWalkers_snapAt (s : State) (x : SMap Walker) : (s.withWalkers x).snapAt = s.snapAt := (rfl)
@[simp] theorem State.withWalkers_trace (s : State) (x : SMap Walker) : (s.withWalkers x).trace = s.trace := (rfl)
@[simp] theorem State.withWalkers_traceQ (s : State) (x : SMap Walker) : (s.withWalkers x).traceQ = s.traceQ := (rfl)
@[simp] theorem State.withWalkers_dump (s : State) (x : SMap Walker) : (s.withWalkers x).dump = s.dump := (rfl)
@[simp] theorem State.withWalkers_wfg (s : State) (x : SMap Walker) : (s.withWalkers x).wfg = s.wfg := (rfl)
@[simp] theorem State.withWalkers_i3c (s : State) (x : SMap Walker) : (s.withWalkers x).i3c = s.i3c := (rfl)
@[simp] theorem State.withWalkers_readData (s : State) (x : SMap Walker) : (s.withWalkers x).readData = s.readData := (rfl)
@[simp] theorem State.withWalkers_inject (s : State) (x : SMap Walker) : (s.withWalkers x).inject = s.inject := (rfl)
@[simp] theorem State.withWalkers_streams (s : State) (x : SMap Walker) : (s.withWalkers x).streams = s.streams := (rfl)
@[simp] theorem State.withWalkers_engine (s : State) (x : SMap Walker) : (s.withWalkers x).engine = s.engine := (rfl)
@[simp] theorem State.withWalkers_grants (s : State) (x : SMap Walker) : (s.withWalkers x).grants = s.grants := (rfl)
@[simp] theorem State.withWalkers_hbm (s : State) (x : SMap Walker) : (s.withWalkers x).hbm = s.hbm := (rfl)
@[simp] theorem State.withWalkers_spray (s : State) (x : SMap Walker) : (s.withWalkers x).spray = s.spray := (rfl)
@[simp] theorem State.withWalkers_nseq (s : State) (x : SMap Walker) : (s.withWalkers x).nseq = s.nseq := (rfl)
@[simp] theorem State.withWalkers_lastNseq (s : State) (x : SMap Walker) : (s.withWalkers x).lastNseq = s.lastNseq := (rfl)
@[simp] theorem State.withWalkers_flipPrev (s : State) (x : SMap Walker) : (s.withWalkers x).flipPrev = s.flipPrev := (rfl)
@[simp] theorem State.withWalkers_skipScrub (s : State) (x : SMap Walker) : (s.withWalkers x).skipScrub = s.skipScrub := (rfl)
@[simp] theorem State.withWalkers_failedQuarters (s : State) (x : SMap Walker) : (s.withWalkers x).failedQuarters = s.failedQuarters := (rfl)
@[simp] theorem State.withWalkers_ethOut (s : State) (x : SMap Walker) : (s.withWalkers x).ethOut = s.ethOut := (rfl)
@[simp] theorem State.withWalkers_setNow (s : State) (x : SMap Walker) : (s.withWalkers x).setNow = s.setNow := (rfl)
@[simp] theorem State.withWalkers_txnNow (s : State) (x : SMap Walker) : (s.withWalkers x).txnNow = s.txnNow := (rfl)
@[simp] theorem State.withWalkers_cycleNow (s : State) (x : SMap Walker) : (s.withWalkers x).cycleNow = s.cycleNow := (rfl)

@[simp] theorem State.withPreWalkers_pending (s : State) (x : SMap Walker) : (s.withPreWalkers x).pending = s.pending := (rfl)
@[simp] theorem State.withPreWalkers_freeCtr (s : State) (x : SMap Walker) : (s.withPreWalkers x).freeCtr = s.freeCtr := (rfl)
@[simp] theorem State.withPreWalkers_regs (s : State) (x : SMap Walker) : (s.withPreWalkers x).regs = s.regs := (rfl)
@[simp] theorem State.withPreWalkers_mem (s : State) (x : SMap Walker) : (s.withPreWalkers x).mem = s.mem := (rfl)
@[simp] theorem State.withPreWalkers_dies (s : State) (x : SMap Walker) : (s.withPreWalkers x).dies = s.dies := (rfl)
@[simp] theorem State.withPreWalkers_evlog (s : State) (x : SMap Walker) : (s.withPreWalkers x).evlog = s.evlog := (rfl)
@[simp] theorem State.withPreWalkers_acceptAt (s : State) (x : SMap Walker) : (s.withPreWalkers x).acceptAt = s.acceptAt := (rfl)
@[simp] theorem State.withPreWalkers_rates (s : State) (x : SMap Walker) : (s.withPreWalkers x).rates = s.rates := (rfl)
@[simp] theorem State.withPreWalkers_time (s : State) (x : SMap Walker) : (s.withPreWalkers x).time = s.time := (rfl)
@[simp] theorem State.withPreWalkers_ptime (s : State) (x : SMap Walker) : (s.withPreWalkers x).ptime = s.ptime := (rfl)
@[simp] theorem State.withPreWalkers_tiles (s : State) (x : SMap Walker) : (s.withPreWalkers x).tiles = s.tiles := (rfl)
@[simp] theorem State.withPreWalkers_lineCells (s : State) (x : SMap Walker) : (s.withPreWalkers x).lineCells = s.lineCells := (rfl)
@[simp] theorem State.withPreWalkers_tokens (s : State) (x : SMap Walker) : (s.withPreWalkers x).tokens = s.tokens := (rfl)
@[simp] theorem State.withPreWalkers_tokOps (s : State) (x : SMap Walker) : (s.withPreWalkers x).tokOps = s.tokOps := (rfl)
@[simp] theorem State.withPreWalkers_spent (s : State) (x : SMap Walker) : (s.withPreWalkers x).spent = s.spent := (rfl)
@[simp] theorem State.withPreWalkers_recent (s : State) (x : SMap Walker) : (s.withPreWalkers x).recent = s.recent := (rfl)
@[simp] theorem State.withPreWalkers_walkers (s : State) (x : SMap Walker) : (s.withPreWalkers x).walkers = s.walkers := (rfl)
@[simp] theorem State.withPreWalkers_preWalkers (s : State) (x : SMap Walker) : (s.withPreWalkers x).preWalkers = x := (rfl)
@[simp] theorem State.withPreWalkers_transits (s : State) (x : SMap Walker) : (s.withPreWalkers x).transits = s.transits := (rfl)
@[simp] theorem State.withPreWalkers_sramReads (s : State) (x : SMap Walker) : (s.withPreWalkers x).sramReads = s.sramReads := (rfl)
@[simp] theorem State.withPreWalkers_jn (s : State) (x : SMap Walker) : (s.withPreWalkers x).jn = s.jn := (rfl)
@[simp] theorem State.withPreWalkers_ports (s : State) (x : SMap Walker) : (s.withPreWalkers x).ports = s.ports := (rfl)
@[simp] theorem State.withPreWalkers_rings (s : State) (x : SMap Walker) : (s.withPreWalkers x).rings = s.rings := (rfl)
@[simp] theorem State.withPreWalkers_turn (s : State) (x : SMap Walker) : (s.withPreWalkers x).turn = s.turn := (rfl)
@[simp] theorem State.withPreWalkers_notify (s : State) (x : SMap Walker) : (s.withPreWalkers x).notify = s.notify := (rfl)
@[simp] theorem State.withPreWalkers_notes (s : State) (x : SMap Walker) : (s.withPreWalkers x).notes = s.notes := (rfl)
@[simp] theorem State.withPreWalkers_hostOut (s : State) (x : SMap Walker) : (s.withPreWalkers x).hostOut = s.hostOut := (rfl)
@[simp] theorem State.withPreWalkers_irqs (s : State) (x : SMap Walker) : (s.withPreWalkers x).irqs = s.irqs := (rfl)
@[simp] theorem State.withPreWalkers_vfs (s : State) (x : SMap Walker) : (s.withPreWalkers x).vfs = s.vfs := (rfl)
@[simp] theorem State.withPreWalkers_pcieUp (s : State) (x : SMap Walker) : (s.withPreWalkers x).pcieUp = s.pcieUp := (rfl)
@[simp] theorem State.withPreWalkers_pcie (s : State) (x : SMap Walker) : (s.withPreWalkers x).pcie = s.pcie := (rfl)
@[simp] theorem State.withPreWalkers_ats (s : State) (x : SMap Walker) : (s.withPreWalkers x).ats = s.ats := (rfl)
@[simp] theorem State.withPreWalkers_atsDone (s : State) (x : SMap Walker) : (s.withPreWalkers x).atsDone = s.atsDone := (rfl)
@[simp] theorem State.withPreWalkers_parts (s : State) (x : SMap Walker) : (s.withPreWalkers x).parts = s.parts := (rfl)
@[simp] theorem State.withPreWalkers_lock (s : State) (x : SMap Walker) : (s.withPreWalkers x).lock = s.lock := (rfl)
@[simp] theorem State.withPreWalkers_power (s : State) (x : SMap Walker) : (s.withPreWalkers x).power = s.power := (rfl)
@[simp] theorem State.withPreWalkers_pins (s : State) (x : SMap Walker) : (s.withPreWalkers x).pins = s.pins := (rfl)
@[simp] theorem State.withPreWalkers_mon (s : State) (x : SMap Walker) : (s.withPreWalkers x).mon = s.mon := (rfl)
@[simp] theorem State.withPreWalkers_txn (s : State) (x : SMap Walker) : (s.withPreWalkers x).txn = s.txn := (rfl)
@[simp] theorem State.withPreWalkers_armedTxns (s : State) (x : SMap Walker) : (s.withPreWalkers x).armedTxns = s.armedTxns := (rfl)
@[simp] theorem State.withPreWalkers_prot (s : State) (x : SMap Walker) : (s.withPreWalkers x).prot = s.prot := (rfl)
@[simp] theorem State.withPreWalkers_snapAt (s : State) (x : SMap Walker) : (s.withPreWalkers x).snapAt = s.snapAt := (rfl)
@[simp] theorem State.withPreWalkers_trace (s : State) (x : SMap Walker) : (s.withPreWalkers x).trace = s.trace := (rfl)
@[simp] theorem State.withPreWalkers_traceQ (s : State) (x : SMap Walker) : (s.withPreWalkers x).traceQ = s.traceQ := (rfl)
@[simp] theorem State.withPreWalkers_dump (s : State) (x : SMap Walker) : (s.withPreWalkers x).dump = s.dump := (rfl)
@[simp] theorem State.withPreWalkers_wfg (s : State) (x : SMap Walker) : (s.withPreWalkers x).wfg = s.wfg := (rfl)
@[simp] theorem State.withPreWalkers_i3c (s : State) (x : SMap Walker) : (s.withPreWalkers x).i3c = s.i3c := (rfl)
@[simp] theorem State.withPreWalkers_readData (s : State) (x : SMap Walker) : (s.withPreWalkers x).readData = s.readData := (rfl)
@[simp] theorem State.withPreWalkers_inject (s : State) (x : SMap Walker) : (s.withPreWalkers x).inject = s.inject := (rfl)
@[simp] theorem State.withPreWalkers_streams (s : State) (x : SMap Walker) : (s.withPreWalkers x).streams = s.streams := (rfl)
@[simp] theorem State.withPreWalkers_engine (s : State) (x : SMap Walker) : (s.withPreWalkers x).engine = s.engine := (rfl)
@[simp] theorem State.withPreWalkers_grants (s : State) (x : SMap Walker) : (s.withPreWalkers x).grants = s.grants := (rfl)
@[simp] theorem State.withPreWalkers_hbm (s : State) (x : SMap Walker) : (s.withPreWalkers x).hbm = s.hbm := (rfl)
@[simp] theorem State.withPreWalkers_spray (s : State) (x : SMap Walker) : (s.withPreWalkers x).spray = s.spray := (rfl)
@[simp] theorem State.withPreWalkers_nseq (s : State) (x : SMap Walker) : (s.withPreWalkers x).nseq = s.nseq := (rfl)
@[simp] theorem State.withPreWalkers_lastNseq (s : State) (x : SMap Walker) : (s.withPreWalkers x).lastNseq = s.lastNseq := (rfl)
@[simp] theorem State.withPreWalkers_flipPrev (s : State) (x : SMap Walker) : (s.withPreWalkers x).flipPrev = s.flipPrev := (rfl)
@[simp] theorem State.withPreWalkers_skipScrub (s : State) (x : SMap Walker) : (s.withPreWalkers x).skipScrub = s.skipScrub := (rfl)
@[simp] theorem State.withPreWalkers_failedQuarters (s : State) (x : SMap Walker) : (s.withPreWalkers x).failedQuarters = s.failedQuarters := (rfl)
@[simp] theorem State.withPreWalkers_ethOut (s : State) (x : SMap Walker) : (s.withPreWalkers x).ethOut = s.ethOut := (rfl)
@[simp] theorem State.withPreWalkers_setNow (s : State) (x : SMap Walker) : (s.withPreWalkers x).setNow = s.setNow := (rfl)
@[simp] theorem State.withPreWalkers_txnNow (s : State) (x : SMap Walker) : (s.withPreWalkers x).txnNow = s.txnNow := (rfl)
@[simp] theorem State.withPreWalkers_cycleNow (s : State) (x : SMap Walker) : (s.withPreWalkers x).cycleNow = s.cycleNow := (rfl)

@[simp] theorem State.withTransits_pending (s : State) (x : List Transit) : (s.withTransits x).pending = s.pending := (rfl)
@[simp] theorem State.withTransits_freeCtr (s : State) (x : List Transit) : (s.withTransits x).freeCtr = s.freeCtr := (rfl)
@[simp] theorem State.withTransits_regs (s : State) (x : List Transit) : (s.withTransits x).regs = s.regs := (rfl)
@[simp] theorem State.withTransits_mem (s : State) (x : List Transit) : (s.withTransits x).mem = s.mem := (rfl)
@[simp] theorem State.withTransits_dies (s : State) (x : List Transit) : (s.withTransits x).dies = s.dies := (rfl)
@[simp] theorem State.withTransits_evlog (s : State) (x : List Transit) : (s.withTransits x).evlog = s.evlog := (rfl)
@[simp] theorem State.withTransits_acceptAt (s : State) (x : List Transit) : (s.withTransits x).acceptAt = s.acceptAt := (rfl)
@[simp] theorem State.withTransits_rates (s : State) (x : List Transit) : (s.withTransits x).rates = s.rates := (rfl)
@[simp] theorem State.withTransits_time (s : State) (x : List Transit) : (s.withTransits x).time = s.time := (rfl)
@[simp] theorem State.withTransits_ptime (s : State) (x : List Transit) : (s.withTransits x).ptime = s.ptime := (rfl)
@[simp] theorem State.withTransits_tiles (s : State) (x : List Transit) : (s.withTransits x).tiles = s.tiles := (rfl)
@[simp] theorem State.withTransits_lineCells (s : State) (x : List Transit) : (s.withTransits x).lineCells = s.lineCells := (rfl)
@[simp] theorem State.withTransits_tokens (s : State) (x : List Transit) : (s.withTransits x).tokens = s.tokens := (rfl)
@[simp] theorem State.withTransits_tokOps (s : State) (x : List Transit) : (s.withTransits x).tokOps = s.tokOps := (rfl)
@[simp] theorem State.withTransits_spent (s : State) (x : List Transit) : (s.withTransits x).spent = s.spent := (rfl)
@[simp] theorem State.withTransits_recent (s : State) (x : List Transit) : (s.withTransits x).recent = s.recent := (rfl)
@[simp] theorem State.withTransits_walkers (s : State) (x : List Transit) : (s.withTransits x).walkers = s.walkers := (rfl)
@[simp] theorem State.withTransits_preWalkers (s : State) (x : List Transit) : (s.withTransits x).preWalkers = s.preWalkers := (rfl)
@[simp] theorem State.withTransits_transits (s : State) (x : List Transit) : (s.withTransits x).transits = x := (rfl)
@[simp] theorem State.withTransits_sramReads (s : State) (x : List Transit) : (s.withTransits x).sramReads = s.sramReads := (rfl)
@[simp] theorem State.withTransits_jn (s : State) (x : List Transit) : (s.withTransits x).jn = s.jn := (rfl)
@[simp] theorem State.withTransits_ports (s : State) (x : List Transit) : (s.withTransits x).ports = s.ports := (rfl)
@[simp] theorem State.withTransits_rings (s : State) (x : List Transit) : (s.withTransits x).rings = s.rings := (rfl)
@[simp] theorem State.withTransits_turn (s : State) (x : List Transit) : (s.withTransits x).turn = s.turn := (rfl)
@[simp] theorem State.withTransits_notify (s : State) (x : List Transit) : (s.withTransits x).notify = s.notify := (rfl)
@[simp] theorem State.withTransits_notes (s : State) (x : List Transit) : (s.withTransits x).notes = s.notes := (rfl)
@[simp] theorem State.withTransits_hostOut (s : State) (x : List Transit) : (s.withTransits x).hostOut = s.hostOut := (rfl)
@[simp] theorem State.withTransits_irqs (s : State) (x : List Transit) : (s.withTransits x).irqs = s.irqs := (rfl)
@[simp] theorem State.withTransits_vfs (s : State) (x : List Transit) : (s.withTransits x).vfs = s.vfs := (rfl)
@[simp] theorem State.withTransits_pcieUp (s : State) (x : List Transit) : (s.withTransits x).pcieUp = s.pcieUp := (rfl)
@[simp] theorem State.withTransits_pcie (s : State) (x : List Transit) : (s.withTransits x).pcie = s.pcie := (rfl)
@[simp] theorem State.withTransits_ats (s : State) (x : List Transit) : (s.withTransits x).ats = s.ats := (rfl)
@[simp] theorem State.withTransits_atsDone (s : State) (x : List Transit) : (s.withTransits x).atsDone = s.atsDone := (rfl)
@[simp] theorem State.withTransits_parts (s : State) (x : List Transit) : (s.withTransits x).parts = s.parts := (rfl)
@[simp] theorem State.withTransits_lock (s : State) (x : List Transit) : (s.withTransits x).lock = s.lock := (rfl)
@[simp] theorem State.withTransits_power (s : State) (x : List Transit) : (s.withTransits x).power = s.power := (rfl)
@[simp] theorem State.withTransits_pins (s : State) (x : List Transit) : (s.withTransits x).pins = s.pins := (rfl)
@[simp] theorem State.withTransits_mon (s : State) (x : List Transit) : (s.withTransits x).mon = s.mon := (rfl)
@[simp] theorem State.withTransits_txn (s : State) (x : List Transit) : (s.withTransits x).txn = s.txn := (rfl)
@[simp] theorem State.withTransits_armedTxns (s : State) (x : List Transit) : (s.withTransits x).armedTxns = s.armedTxns := (rfl)
@[simp] theorem State.withTransits_prot (s : State) (x : List Transit) : (s.withTransits x).prot = s.prot := (rfl)
@[simp] theorem State.withTransits_snapAt (s : State) (x : List Transit) : (s.withTransits x).snapAt = s.snapAt := (rfl)
@[simp] theorem State.withTransits_trace (s : State) (x : List Transit) : (s.withTransits x).trace = s.trace := (rfl)
@[simp] theorem State.withTransits_traceQ (s : State) (x : List Transit) : (s.withTransits x).traceQ = s.traceQ := (rfl)
@[simp] theorem State.withTransits_dump (s : State) (x : List Transit) : (s.withTransits x).dump = s.dump := (rfl)
@[simp] theorem State.withTransits_wfg (s : State) (x : List Transit) : (s.withTransits x).wfg = s.wfg := (rfl)
@[simp] theorem State.withTransits_i3c (s : State) (x : List Transit) : (s.withTransits x).i3c = s.i3c := (rfl)
@[simp] theorem State.withTransits_readData (s : State) (x : List Transit) : (s.withTransits x).readData = s.readData := (rfl)
@[simp] theorem State.withTransits_inject (s : State) (x : List Transit) : (s.withTransits x).inject = s.inject := (rfl)
@[simp] theorem State.withTransits_streams (s : State) (x : List Transit) : (s.withTransits x).streams = s.streams := (rfl)
@[simp] theorem State.withTransits_engine (s : State) (x : List Transit) : (s.withTransits x).engine = s.engine := (rfl)
@[simp] theorem State.withTransits_grants (s : State) (x : List Transit) : (s.withTransits x).grants = s.grants := (rfl)
@[simp] theorem State.withTransits_hbm (s : State) (x : List Transit) : (s.withTransits x).hbm = s.hbm := (rfl)
@[simp] theorem State.withTransits_spray (s : State) (x : List Transit) : (s.withTransits x).spray = s.spray := (rfl)
@[simp] theorem State.withTransits_nseq (s : State) (x : List Transit) : (s.withTransits x).nseq = s.nseq := (rfl)
@[simp] theorem State.withTransits_lastNseq (s : State) (x : List Transit) : (s.withTransits x).lastNseq = s.lastNseq := (rfl)
@[simp] theorem State.withTransits_flipPrev (s : State) (x : List Transit) : (s.withTransits x).flipPrev = s.flipPrev := (rfl)
@[simp] theorem State.withTransits_skipScrub (s : State) (x : List Transit) : (s.withTransits x).skipScrub = s.skipScrub := (rfl)
@[simp] theorem State.withTransits_failedQuarters (s : State) (x : List Transit) : (s.withTransits x).failedQuarters = s.failedQuarters := (rfl)
@[simp] theorem State.withTransits_ethOut (s : State) (x : List Transit) : (s.withTransits x).ethOut = s.ethOut := (rfl)
@[simp] theorem State.withTransits_setNow (s : State) (x : List Transit) : (s.withTransits x).setNow = s.setNow := (rfl)
@[simp] theorem State.withTransits_txnNow (s : State) (x : List Transit) : (s.withTransits x).txnNow = s.txnNow := (rfl)
@[simp] theorem State.withTransits_cycleNow (s : State) (x : List Transit) : (s.withTransits x).cycleNow = s.cycleNow := (rfl)

@[simp] theorem State.withSramReads_pending (s : State) (x : List SramRead) : (s.withSramReads x).pending = s.pending := (rfl)
@[simp] theorem State.withSramReads_freeCtr (s : State) (x : List SramRead) : (s.withSramReads x).freeCtr = s.freeCtr := (rfl)
@[simp] theorem State.withSramReads_regs (s : State) (x : List SramRead) : (s.withSramReads x).regs = s.regs := (rfl)
@[simp] theorem State.withSramReads_mem (s : State) (x : List SramRead) : (s.withSramReads x).mem = s.mem := (rfl)
@[simp] theorem State.withSramReads_dies (s : State) (x : List SramRead) : (s.withSramReads x).dies = s.dies := (rfl)
@[simp] theorem State.withSramReads_evlog (s : State) (x : List SramRead) : (s.withSramReads x).evlog = s.evlog := (rfl)
@[simp] theorem State.withSramReads_acceptAt (s : State) (x : List SramRead) : (s.withSramReads x).acceptAt = s.acceptAt := (rfl)
@[simp] theorem State.withSramReads_rates (s : State) (x : List SramRead) : (s.withSramReads x).rates = s.rates := (rfl)
@[simp] theorem State.withSramReads_time (s : State) (x : List SramRead) : (s.withSramReads x).time = s.time := (rfl)
@[simp] theorem State.withSramReads_ptime (s : State) (x : List SramRead) : (s.withSramReads x).ptime = s.ptime := (rfl)
@[simp] theorem State.withSramReads_tiles (s : State) (x : List SramRead) : (s.withSramReads x).tiles = s.tiles := (rfl)
@[simp] theorem State.withSramReads_lineCells (s : State) (x : List SramRead) : (s.withSramReads x).lineCells = s.lineCells := (rfl)
@[simp] theorem State.withSramReads_tokens (s : State) (x : List SramRead) : (s.withSramReads x).tokens = s.tokens := (rfl)
@[simp] theorem State.withSramReads_tokOps (s : State) (x : List SramRead) : (s.withSramReads x).tokOps = s.tokOps := (rfl)
@[simp] theorem State.withSramReads_spent (s : State) (x : List SramRead) : (s.withSramReads x).spent = s.spent := (rfl)
@[simp] theorem State.withSramReads_recent (s : State) (x : List SramRead) : (s.withSramReads x).recent = s.recent := (rfl)
@[simp] theorem State.withSramReads_walkers (s : State) (x : List SramRead) : (s.withSramReads x).walkers = s.walkers := (rfl)
@[simp] theorem State.withSramReads_preWalkers (s : State) (x : List SramRead) : (s.withSramReads x).preWalkers = s.preWalkers := (rfl)
@[simp] theorem State.withSramReads_transits (s : State) (x : List SramRead) : (s.withSramReads x).transits = s.transits := (rfl)
@[simp] theorem State.withSramReads_sramReads (s : State) (x : List SramRead) : (s.withSramReads x).sramReads = x := (rfl)
@[simp] theorem State.withSramReads_jn (s : State) (x : List SramRead) : (s.withSramReads x).jn = s.jn := (rfl)
@[simp] theorem State.withSramReads_ports (s : State) (x : List SramRead) : (s.withSramReads x).ports = s.ports := (rfl)
@[simp] theorem State.withSramReads_rings (s : State) (x : List SramRead) : (s.withSramReads x).rings = s.rings := (rfl)
@[simp] theorem State.withSramReads_turn (s : State) (x : List SramRead) : (s.withSramReads x).turn = s.turn := (rfl)
@[simp] theorem State.withSramReads_notify (s : State) (x : List SramRead) : (s.withSramReads x).notify = s.notify := (rfl)
@[simp] theorem State.withSramReads_notes (s : State) (x : List SramRead) : (s.withSramReads x).notes = s.notes := (rfl)
@[simp] theorem State.withSramReads_hostOut (s : State) (x : List SramRead) : (s.withSramReads x).hostOut = s.hostOut := (rfl)
@[simp] theorem State.withSramReads_irqs (s : State) (x : List SramRead) : (s.withSramReads x).irqs = s.irqs := (rfl)
@[simp] theorem State.withSramReads_vfs (s : State) (x : List SramRead) : (s.withSramReads x).vfs = s.vfs := (rfl)
@[simp] theorem State.withSramReads_pcieUp (s : State) (x : List SramRead) : (s.withSramReads x).pcieUp = s.pcieUp := (rfl)
@[simp] theorem State.withSramReads_pcie (s : State) (x : List SramRead) : (s.withSramReads x).pcie = s.pcie := (rfl)
@[simp] theorem State.withSramReads_ats (s : State) (x : List SramRead) : (s.withSramReads x).ats = s.ats := (rfl)
@[simp] theorem State.withSramReads_atsDone (s : State) (x : List SramRead) : (s.withSramReads x).atsDone = s.atsDone := (rfl)
@[simp] theorem State.withSramReads_parts (s : State) (x : List SramRead) : (s.withSramReads x).parts = s.parts := (rfl)
@[simp] theorem State.withSramReads_lock (s : State) (x : List SramRead) : (s.withSramReads x).lock = s.lock := (rfl)
@[simp] theorem State.withSramReads_power (s : State) (x : List SramRead) : (s.withSramReads x).power = s.power := (rfl)
@[simp] theorem State.withSramReads_pins (s : State) (x : List SramRead) : (s.withSramReads x).pins = s.pins := (rfl)
@[simp] theorem State.withSramReads_mon (s : State) (x : List SramRead) : (s.withSramReads x).mon = s.mon := (rfl)
@[simp] theorem State.withSramReads_txn (s : State) (x : List SramRead) : (s.withSramReads x).txn = s.txn := (rfl)
@[simp] theorem State.withSramReads_armedTxns (s : State) (x : List SramRead) : (s.withSramReads x).armedTxns = s.armedTxns := (rfl)
@[simp] theorem State.withSramReads_prot (s : State) (x : List SramRead) : (s.withSramReads x).prot = s.prot := (rfl)
@[simp] theorem State.withSramReads_snapAt (s : State) (x : List SramRead) : (s.withSramReads x).snapAt = s.snapAt := (rfl)
@[simp] theorem State.withSramReads_trace (s : State) (x : List SramRead) : (s.withSramReads x).trace = s.trace := (rfl)
@[simp] theorem State.withSramReads_traceQ (s : State) (x : List SramRead) : (s.withSramReads x).traceQ = s.traceQ := (rfl)
@[simp] theorem State.withSramReads_dump (s : State) (x : List SramRead) : (s.withSramReads x).dump = s.dump := (rfl)
@[simp] theorem State.withSramReads_wfg (s : State) (x : List SramRead) : (s.withSramReads x).wfg = s.wfg := (rfl)
@[simp] theorem State.withSramReads_i3c (s : State) (x : List SramRead) : (s.withSramReads x).i3c = s.i3c := (rfl)
@[simp] theorem State.withSramReads_readData (s : State) (x : List SramRead) : (s.withSramReads x).readData = s.readData := (rfl)
@[simp] theorem State.withSramReads_inject (s : State) (x : List SramRead) : (s.withSramReads x).inject = s.inject := (rfl)
@[simp] theorem State.withSramReads_streams (s : State) (x : List SramRead) : (s.withSramReads x).streams = s.streams := (rfl)
@[simp] theorem State.withSramReads_engine (s : State) (x : List SramRead) : (s.withSramReads x).engine = s.engine := (rfl)
@[simp] theorem State.withSramReads_grants (s : State) (x : List SramRead) : (s.withSramReads x).grants = s.grants := (rfl)
@[simp] theorem State.withSramReads_hbm (s : State) (x : List SramRead) : (s.withSramReads x).hbm = s.hbm := (rfl)
@[simp] theorem State.withSramReads_spray (s : State) (x : List SramRead) : (s.withSramReads x).spray = s.spray := (rfl)
@[simp] theorem State.withSramReads_nseq (s : State) (x : List SramRead) : (s.withSramReads x).nseq = s.nseq := (rfl)
@[simp] theorem State.withSramReads_lastNseq (s : State) (x : List SramRead) : (s.withSramReads x).lastNseq = s.lastNseq := (rfl)
@[simp] theorem State.withSramReads_flipPrev (s : State) (x : List SramRead) : (s.withSramReads x).flipPrev = s.flipPrev := (rfl)
@[simp] theorem State.withSramReads_skipScrub (s : State) (x : List SramRead) : (s.withSramReads x).skipScrub = s.skipScrub := (rfl)
@[simp] theorem State.withSramReads_failedQuarters (s : State) (x : List SramRead) : (s.withSramReads x).failedQuarters = s.failedQuarters := (rfl)
@[simp] theorem State.withSramReads_ethOut (s : State) (x : List SramRead) : (s.withSramReads x).ethOut = s.ethOut := (rfl)
@[simp] theorem State.withSramReads_setNow (s : State) (x : List SramRead) : (s.withSramReads x).setNow = s.setNow := (rfl)
@[simp] theorem State.withSramReads_txnNow (s : State) (x : List SramRead) : (s.withSramReads x).txnNow = s.txnNow := (rfl)
@[simp] theorem State.withSramReads_cycleNow (s : State) (x : List SramRead) : (s.withSramReads x).cycleNow = s.cycleNow := (rfl)

@[simp] theorem State.withJn_pending (s : State) (x : SMap JnSlot) : (s.withJn x).pending = s.pending := (rfl)
@[simp] theorem State.withJn_freeCtr (s : State) (x : SMap JnSlot) : (s.withJn x).freeCtr = s.freeCtr := (rfl)
@[simp] theorem State.withJn_regs (s : State) (x : SMap JnSlot) : (s.withJn x).regs = s.regs := (rfl)
@[simp] theorem State.withJn_mem (s : State) (x : SMap JnSlot) : (s.withJn x).mem = s.mem := (rfl)
@[simp] theorem State.withJn_dies (s : State) (x : SMap JnSlot) : (s.withJn x).dies = s.dies := (rfl)
@[simp] theorem State.withJn_evlog (s : State) (x : SMap JnSlot) : (s.withJn x).evlog = s.evlog := (rfl)
@[simp] theorem State.withJn_acceptAt (s : State) (x : SMap JnSlot) : (s.withJn x).acceptAt = s.acceptAt := (rfl)
@[simp] theorem State.withJn_rates (s : State) (x : SMap JnSlot) : (s.withJn x).rates = s.rates := (rfl)
@[simp] theorem State.withJn_time (s : State) (x : SMap JnSlot) : (s.withJn x).time = s.time := (rfl)
@[simp] theorem State.withJn_ptime (s : State) (x : SMap JnSlot) : (s.withJn x).ptime = s.ptime := (rfl)
@[simp] theorem State.withJn_tiles (s : State) (x : SMap JnSlot) : (s.withJn x).tiles = s.tiles := (rfl)
@[simp] theorem State.withJn_lineCells (s : State) (x : SMap JnSlot) : (s.withJn x).lineCells = s.lineCells := (rfl)
@[simp] theorem State.withJn_tokens (s : State) (x : SMap JnSlot) : (s.withJn x).tokens = s.tokens := (rfl)
@[simp] theorem State.withJn_tokOps (s : State) (x : SMap JnSlot) : (s.withJn x).tokOps = s.tokOps := (rfl)
@[simp] theorem State.withJn_spent (s : State) (x : SMap JnSlot) : (s.withJn x).spent = s.spent := (rfl)
@[simp] theorem State.withJn_recent (s : State) (x : SMap JnSlot) : (s.withJn x).recent = s.recent := (rfl)
@[simp] theorem State.withJn_walkers (s : State) (x : SMap JnSlot) : (s.withJn x).walkers = s.walkers := (rfl)
@[simp] theorem State.withJn_preWalkers (s : State) (x : SMap JnSlot) : (s.withJn x).preWalkers = s.preWalkers := (rfl)
@[simp] theorem State.withJn_transits (s : State) (x : SMap JnSlot) : (s.withJn x).transits = s.transits := (rfl)
@[simp] theorem State.withJn_sramReads (s : State) (x : SMap JnSlot) : (s.withJn x).sramReads = s.sramReads := (rfl)
@[simp] theorem State.withJn_jn (s : State) (x : SMap JnSlot) : (s.withJn x).jn = x := (rfl)
@[simp] theorem State.withJn_ports (s : State) (x : SMap JnSlot) : (s.withJn x).ports = s.ports := (rfl)
@[simp] theorem State.withJn_rings (s : State) (x : SMap JnSlot) : (s.withJn x).rings = s.rings := (rfl)
@[simp] theorem State.withJn_turn (s : State) (x : SMap JnSlot) : (s.withJn x).turn = s.turn := (rfl)
@[simp] theorem State.withJn_notify (s : State) (x : SMap JnSlot) : (s.withJn x).notify = s.notify := (rfl)
@[simp] theorem State.withJn_notes (s : State) (x : SMap JnSlot) : (s.withJn x).notes = s.notes := (rfl)
@[simp] theorem State.withJn_hostOut (s : State) (x : SMap JnSlot) : (s.withJn x).hostOut = s.hostOut := (rfl)
@[simp] theorem State.withJn_irqs (s : State) (x : SMap JnSlot) : (s.withJn x).irqs = s.irqs := (rfl)
@[simp] theorem State.withJn_vfs (s : State) (x : SMap JnSlot) : (s.withJn x).vfs = s.vfs := (rfl)
@[simp] theorem State.withJn_pcieUp (s : State) (x : SMap JnSlot) : (s.withJn x).pcieUp = s.pcieUp := (rfl)
@[simp] theorem State.withJn_pcie (s : State) (x : SMap JnSlot) : (s.withJn x).pcie = s.pcie := (rfl)
@[simp] theorem State.withJn_ats (s : State) (x : SMap JnSlot) : (s.withJn x).ats = s.ats := (rfl)
@[simp] theorem State.withJn_atsDone (s : State) (x : SMap JnSlot) : (s.withJn x).atsDone = s.atsDone := (rfl)
@[simp] theorem State.withJn_parts (s : State) (x : SMap JnSlot) : (s.withJn x).parts = s.parts := (rfl)
@[simp] theorem State.withJn_lock (s : State) (x : SMap JnSlot) : (s.withJn x).lock = s.lock := (rfl)
@[simp] theorem State.withJn_power (s : State) (x : SMap JnSlot) : (s.withJn x).power = s.power := (rfl)
@[simp] theorem State.withJn_pins (s : State) (x : SMap JnSlot) : (s.withJn x).pins = s.pins := (rfl)
@[simp] theorem State.withJn_mon (s : State) (x : SMap JnSlot) : (s.withJn x).mon = s.mon := (rfl)
@[simp] theorem State.withJn_txn (s : State) (x : SMap JnSlot) : (s.withJn x).txn = s.txn := (rfl)
@[simp] theorem State.withJn_armedTxns (s : State) (x : SMap JnSlot) : (s.withJn x).armedTxns = s.armedTxns := (rfl)
@[simp] theorem State.withJn_prot (s : State) (x : SMap JnSlot) : (s.withJn x).prot = s.prot := (rfl)
@[simp] theorem State.withJn_snapAt (s : State) (x : SMap JnSlot) : (s.withJn x).snapAt = s.snapAt := (rfl)
@[simp] theorem State.withJn_trace (s : State) (x : SMap JnSlot) : (s.withJn x).trace = s.trace := (rfl)
@[simp] theorem State.withJn_traceQ (s : State) (x : SMap JnSlot) : (s.withJn x).traceQ = s.traceQ := (rfl)
@[simp] theorem State.withJn_dump (s : State) (x : SMap JnSlot) : (s.withJn x).dump = s.dump := (rfl)
@[simp] theorem State.withJn_wfg (s : State) (x : SMap JnSlot) : (s.withJn x).wfg = s.wfg := (rfl)
@[simp] theorem State.withJn_i3c (s : State) (x : SMap JnSlot) : (s.withJn x).i3c = s.i3c := (rfl)
@[simp] theorem State.withJn_readData (s : State) (x : SMap JnSlot) : (s.withJn x).readData = s.readData := (rfl)
@[simp] theorem State.withJn_inject (s : State) (x : SMap JnSlot) : (s.withJn x).inject = s.inject := (rfl)
@[simp] theorem State.withJn_streams (s : State) (x : SMap JnSlot) : (s.withJn x).streams = s.streams := (rfl)
@[simp] theorem State.withJn_engine (s : State) (x : SMap JnSlot) : (s.withJn x).engine = s.engine := (rfl)
@[simp] theorem State.withJn_grants (s : State) (x : SMap JnSlot) : (s.withJn x).grants = s.grants := (rfl)
@[simp] theorem State.withJn_hbm (s : State) (x : SMap JnSlot) : (s.withJn x).hbm = s.hbm := (rfl)
@[simp] theorem State.withJn_spray (s : State) (x : SMap JnSlot) : (s.withJn x).spray = s.spray := (rfl)
@[simp] theorem State.withJn_nseq (s : State) (x : SMap JnSlot) : (s.withJn x).nseq = s.nseq := (rfl)
@[simp] theorem State.withJn_lastNseq (s : State) (x : SMap JnSlot) : (s.withJn x).lastNseq = s.lastNseq := (rfl)
@[simp] theorem State.withJn_flipPrev (s : State) (x : SMap JnSlot) : (s.withJn x).flipPrev = s.flipPrev := (rfl)
@[simp] theorem State.withJn_skipScrub (s : State) (x : SMap JnSlot) : (s.withJn x).skipScrub = s.skipScrub := (rfl)
@[simp] theorem State.withJn_failedQuarters (s : State) (x : SMap JnSlot) : (s.withJn x).failedQuarters = s.failedQuarters := (rfl)
@[simp] theorem State.withJn_ethOut (s : State) (x : SMap JnSlot) : (s.withJn x).ethOut = s.ethOut := (rfl)
@[simp] theorem State.withJn_setNow (s : State) (x : SMap JnSlot) : (s.withJn x).setNow = s.setNow := (rfl)
@[simp] theorem State.withJn_txnNow (s : State) (x : SMap JnSlot) : (s.withJn x).txnNow = s.txnNow := (rfl)
@[simp] theorem State.withJn_cycleNow (s : State) (x : SMap JnSlot) : (s.withJn x).cycleNow = s.cycleNow := (rfl)

@[simp] theorem State.withRings_pending (s : State) (x : SMap Ring) : (s.withRings x).pending = s.pending := (rfl)
@[simp] theorem State.withRings_freeCtr (s : State) (x : SMap Ring) : (s.withRings x).freeCtr = s.freeCtr := (rfl)
@[simp] theorem State.withRings_regs (s : State) (x : SMap Ring) : (s.withRings x).regs = s.regs := (rfl)
@[simp] theorem State.withRings_mem (s : State) (x : SMap Ring) : (s.withRings x).mem = s.mem := (rfl)
@[simp] theorem State.withRings_dies (s : State) (x : SMap Ring) : (s.withRings x).dies = s.dies := (rfl)
@[simp] theorem State.withRings_evlog (s : State) (x : SMap Ring) : (s.withRings x).evlog = s.evlog := (rfl)
@[simp] theorem State.withRings_acceptAt (s : State) (x : SMap Ring) : (s.withRings x).acceptAt = s.acceptAt := (rfl)
@[simp] theorem State.withRings_rates (s : State) (x : SMap Ring) : (s.withRings x).rates = s.rates := (rfl)
@[simp] theorem State.withRings_time (s : State) (x : SMap Ring) : (s.withRings x).time = s.time := (rfl)
@[simp] theorem State.withRings_ptime (s : State) (x : SMap Ring) : (s.withRings x).ptime = s.ptime := (rfl)
@[simp] theorem State.withRings_tiles (s : State) (x : SMap Ring) : (s.withRings x).tiles = s.tiles := (rfl)
@[simp] theorem State.withRings_lineCells (s : State) (x : SMap Ring) : (s.withRings x).lineCells = s.lineCells := (rfl)
@[simp] theorem State.withRings_tokens (s : State) (x : SMap Ring) : (s.withRings x).tokens = s.tokens := (rfl)
@[simp] theorem State.withRings_tokOps (s : State) (x : SMap Ring) : (s.withRings x).tokOps = s.tokOps := (rfl)
@[simp] theorem State.withRings_spent (s : State) (x : SMap Ring) : (s.withRings x).spent = s.spent := (rfl)
@[simp] theorem State.withRings_recent (s : State) (x : SMap Ring) : (s.withRings x).recent = s.recent := (rfl)
@[simp] theorem State.withRings_walkers (s : State) (x : SMap Ring) : (s.withRings x).walkers = s.walkers := (rfl)
@[simp] theorem State.withRings_preWalkers (s : State) (x : SMap Ring) : (s.withRings x).preWalkers = s.preWalkers := (rfl)
@[simp] theorem State.withRings_transits (s : State) (x : SMap Ring) : (s.withRings x).transits = s.transits := (rfl)
@[simp] theorem State.withRings_sramReads (s : State) (x : SMap Ring) : (s.withRings x).sramReads = s.sramReads := (rfl)
@[simp] theorem State.withRings_jn (s : State) (x : SMap Ring) : (s.withRings x).jn = s.jn := (rfl)
@[simp] theorem State.withRings_ports (s : State) (x : SMap Ring) : (s.withRings x).ports = s.ports := (rfl)
@[simp] theorem State.withRings_rings (s : State) (x : SMap Ring) : (s.withRings x).rings = x := (rfl)
@[simp] theorem State.withRings_turn (s : State) (x : SMap Ring) : (s.withRings x).turn = s.turn := (rfl)
@[simp] theorem State.withRings_notify (s : State) (x : SMap Ring) : (s.withRings x).notify = s.notify := (rfl)
@[simp] theorem State.withRings_notes (s : State) (x : SMap Ring) : (s.withRings x).notes = s.notes := (rfl)
@[simp] theorem State.withRings_hostOut (s : State) (x : SMap Ring) : (s.withRings x).hostOut = s.hostOut := (rfl)
@[simp] theorem State.withRings_irqs (s : State) (x : SMap Ring) : (s.withRings x).irqs = s.irqs := (rfl)
@[simp] theorem State.withRings_vfs (s : State) (x : SMap Ring) : (s.withRings x).vfs = s.vfs := (rfl)
@[simp] theorem State.withRings_pcieUp (s : State) (x : SMap Ring) : (s.withRings x).pcieUp = s.pcieUp := (rfl)
@[simp] theorem State.withRings_pcie (s : State) (x : SMap Ring) : (s.withRings x).pcie = s.pcie := (rfl)
@[simp] theorem State.withRings_ats (s : State) (x : SMap Ring) : (s.withRings x).ats = s.ats := (rfl)
@[simp] theorem State.withRings_atsDone (s : State) (x : SMap Ring) : (s.withRings x).atsDone = s.atsDone := (rfl)
@[simp] theorem State.withRings_parts (s : State) (x : SMap Ring) : (s.withRings x).parts = s.parts := (rfl)
@[simp] theorem State.withRings_lock (s : State) (x : SMap Ring) : (s.withRings x).lock = s.lock := (rfl)
@[simp] theorem State.withRings_power (s : State) (x : SMap Ring) : (s.withRings x).power = s.power := (rfl)
@[simp] theorem State.withRings_pins (s : State) (x : SMap Ring) : (s.withRings x).pins = s.pins := (rfl)
@[simp] theorem State.withRings_mon (s : State) (x : SMap Ring) : (s.withRings x).mon = s.mon := (rfl)
@[simp] theorem State.withRings_txn (s : State) (x : SMap Ring) : (s.withRings x).txn = s.txn := (rfl)
@[simp] theorem State.withRings_armedTxns (s : State) (x : SMap Ring) : (s.withRings x).armedTxns = s.armedTxns := (rfl)
@[simp] theorem State.withRings_prot (s : State) (x : SMap Ring) : (s.withRings x).prot = s.prot := (rfl)
@[simp] theorem State.withRings_snapAt (s : State) (x : SMap Ring) : (s.withRings x).snapAt = s.snapAt := (rfl)
@[simp] theorem State.withRings_trace (s : State) (x : SMap Ring) : (s.withRings x).trace = s.trace := (rfl)
@[simp] theorem State.withRings_traceQ (s : State) (x : SMap Ring) : (s.withRings x).traceQ = s.traceQ := (rfl)
@[simp] theorem State.withRings_dump (s : State) (x : SMap Ring) : (s.withRings x).dump = s.dump := (rfl)
@[simp] theorem State.withRings_wfg (s : State) (x : SMap Ring) : (s.withRings x).wfg = s.wfg := (rfl)
@[simp] theorem State.withRings_i3c (s : State) (x : SMap Ring) : (s.withRings x).i3c = s.i3c := (rfl)
@[simp] theorem State.withRings_readData (s : State) (x : SMap Ring) : (s.withRings x).readData = s.readData := (rfl)
@[simp] theorem State.withRings_inject (s : State) (x : SMap Ring) : (s.withRings x).inject = s.inject := (rfl)
@[simp] theorem State.withRings_streams (s : State) (x : SMap Ring) : (s.withRings x).streams = s.streams := (rfl)
@[simp] theorem State.withRings_engine (s : State) (x : SMap Ring) : (s.withRings x).engine = s.engine := (rfl)
@[simp] theorem State.withRings_grants (s : State) (x : SMap Ring) : (s.withRings x).grants = s.grants := (rfl)
@[simp] theorem State.withRings_hbm (s : State) (x : SMap Ring) : (s.withRings x).hbm = s.hbm := (rfl)
@[simp] theorem State.withRings_spray (s : State) (x : SMap Ring) : (s.withRings x).spray = s.spray := (rfl)
@[simp] theorem State.withRings_nseq (s : State) (x : SMap Ring) : (s.withRings x).nseq = s.nseq := (rfl)
@[simp] theorem State.withRings_lastNseq (s : State) (x : SMap Ring) : (s.withRings x).lastNseq = s.lastNseq := (rfl)
@[simp] theorem State.withRings_flipPrev (s : State) (x : SMap Ring) : (s.withRings x).flipPrev = s.flipPrev := (rfl)
@[simp] theorem State.withRings_skipScrub (s : State) (x : SMap Ring) : (s.withRings x).skipScrub = s.skipScrub := (rfl)
@[simp] theorem State.withRings_failedQuarters (s : State) (x : SMap Ring) : (s.withRings x).failedQuarters = s.failedQuarters := (rfl)
@[simp] theorem State.withRings_ethOut (s : State) (x : SMap Ring) : (s.withRings x).ethOut = s.ethOut := (rfl)
@[simp] theorem State.withRings_setNow (s : State) (x : SMap Ring) : (s.withRings x).setNow = s.setNow := (rfl)
@[simp] theorem State.withRings_txnNow (s : State) (x : SMap Ring) : (s.withRings x).txnNow = s.txnNow := (rfl)
@[simp] theorem State.withRings_cycleNow (s : State) (x : SMap Ring) : (s.withRings x).cycleNow = s.cycleNow := (rfl)

@[simp] theorem State.withTurn_pending (s : State) (x : Nat) : (s.withTurn x).pending = s.pending := (rfl)
@[simp] theorem State.withTurn_freeCtr (s : State) (x : Nat) : (s.withTurn x).freeCtr = s.freeCtr := (rfl)
@[simp] theorem State.withTurn_regs (s : State) (x : Nat) : (s.withTurn x).regs = s.regs := (rfl)
@[simp] theorem State.withTurn_mem (s : State) (x : Nat) : (s.withTurn x).mem = s.mem := (rfl)
@[simp] theorem State.withTurn_dies (s : State) (x : Nat) : (s.withTurn x).dies = s.dies := (rfl)
@[simp] theorem State.withTurn_evlog (s : State) (x : Nat) : (s.withTurn x).evlog = s.evlog := (rfl)
@[simp] theorem State.withTurn_acceptAt (s : State) (x : Nat) : (s.withTurn x).acceptAt = s.acceptAt := (rfl)
@[simp] theorem State.withTurn_rates (s : State) (x : Nat) : (s.withTurn x).rates = s.rates := (rfl)
@[simp] theorem State.withTurn_time (s : State) (x : Nat) : (s.withTurn x).time = s.time := (rfl)
@[simp] theorem State.withTurn_ptime (s : State) (x : Nat) : (s.withTurn x).ptime = s.ptime := (rfl)
@[simp] theorem State.withTurn_tiles (s : State) (x : Nat) : (s.withTurn x).tiles = s.tiles := (rfl)
@[simp] theorem State.withTurn_lineCells (s : State) (x : Nat) : (s.withTurn x).lineCells = s.lineCells := (rfl)
@[simp] theorem State.withTurn_tokens (s : State) (x : Nat) : (s.withTurn x).tokens = s.tokens := (rfl)
@[simp] theorem State.withTurn_tokOps (s : State) (x : Nat) : (s.withTurn x).tokOps = s.tokOps := (rfl)
@[simp] theorem State.withTurn_spent (s : State) (x : Nat) : (s.withTurn x).spent = s.spent := (rfl)
@[simp] theorem State.withTurn_recent (s : State) (x : Nat) : (s.withTurn x).recent = s.recent := (rfl)
@[simp] theorem State.withTurn_walkers (s : State) (x : Nat) : (s.withTurn x).walkers = s.walkers := (rfl)
@[simp] theorem State.withTurn_preWalkers (s : State) (x : Nat) : (s.withTurn x).preWalkers = s.preWalkers := (rfl)
@[simp] theorem State.withTurn_transits (s : State) (x : Nat) : (s.withTurn x).transits = s.transits := (rfl)
@[simp] theorem State.withTurn_sramReads (s : State) (x : Nat) : (s.withTurn x).sramReads = s.sramReads := (rfl)
@[simp] theorem State.withTurn_jn (s : State) (x : Nat) : (s.withTurn x).jn = s.jn := (rfl)
@[simp] theorem State.withTurn_ports (s : State) (x : Nat) : (s.withTurn x).ports = s.ports := (rfl)
@[simp] theorem State.withTurn_rings (s : State) (x : Nat) : (s.withTurn x).rings = s.rings := (rfl)
@[simp] theorem State.withTurn_turn (s : State) (x : Nat) : (s.withTurn x).turn = x := (rfl)
@[simp] theorem State.withTurn_notify (s : State) (x : Nat) : (s.withTurn x).notify = s.notify := (rfl)
@[simp] theorem State.withTurn_notes (s : State) (x : Nat) : (s.withTurn x).notes = s.notes := (rfl)
@[simp] theorem State.withTurn_hostOut (s : State) (x : Nat) : (s.withTurn x).hostOut = s.hostOut := (rfl)
@[simp] theorem State.withTurn_irqs (s : State) (x : Nat) : (s.withTurn x).irqs = s.irqs := (rfl)
@[simp] theorem State.withTurn_vfs (s : State) (x : Nat) : (s.withTurn x).vfs = s.vfs := (rfl)
@[simp] theorem State.withTurn_pcieUp (s : State) (x : Nat) : (s.withTurn x).pcieUp = s.pcieUp := (rfl)
@[simp] theorem State.withTurn_pcie (s : State) (x : Nat) : (s.withTurn x).pcie = s.pcie := (rfl)
@[simp] theorem State.withTurn_ats (s : State) (x : Nat) : (s.withTurn x).ats = s.ats := (rfl)
@[simp] theorem State.withTurn_atsDone (s : State) (x : Nat) : (s.withTurn x).atsDone = s.atsDone := (rfl)
@[simp] theorem State.withTurn_parts (s : State) (x : Nat) : (s.withTurn x).parts = s.parts := (rfl)
@[simp] theorem State.withTurn_lock (s : State) (x : Nat) : (s.withTurn x).lock = s.lock := (rfl)
@[simp] theorem State.withTurn_power (s : State) (x : Nat) : (s.withTurn x).power = s.power := (rfl)
@[simp] theorem State.withTurn_pins (s : State) (x : Nat) : (s.withTurn x).pins = s.pins := (rfl)
@[simp] theorem State.withTurn_mon (s : State) (x : Nat) : (s.withTurn x).mon = s.mon := (rfl)
@[simp] theorem State.withTurn_txn (s : State) (x : Nat) : (s.withTurn x).txn = s.txn := (rfl)
@[simp] theorem State.withTurn_armedTxns (s : State) (x : Nat) : (s.withTurn x).armedTxns = s.armedTxns := (rfl)
@[simp] theorem State.withTurn_prot (s : State) (x : Nat) : (s.withTurn x).prot = s.prot := (rfl)
@[simp] theorem State.withTurn_snapAt (s : State) (x : Nat) : (s.withTurn x).snapAt = s.snapAt := (rfl)
@[simp] theorem State.withTurn_trace (s : State) (x : Nat) : (s.withTurn x).trace = s.trace := (rfl)
@[simp] theorem State.withTurn_traceQ (s : State) (x : Nat) : (s.withTurn x).traceQ = s.traceQ := (rfl)
@[simp] theorem State.withTurn_dump (s : State) (x : Nat) : (s.withTurn x).dump = s.dump := (rfl)
@[simp] theorem State.withTurn_wfg (s : State) (x : Nat) : (s.withTurn x).wfg = s.wfg := (rfl)
@[simp] theorem State.withTurn_i3c (s : State) (x : Nat) : (s.withTurn x).i3c = s.i3c := (rfl)
@[simp] theorem State.withTurn_readData (s : State) (x : Nat) : (s.withTurn x).readData = s.readData := (rfl)
@[simp] theorem State.withTurn_inject (s : State) (x : Nat) : (s.withTurn x).inject = s.inject := (rfl)
@[simp] theorem State.withTurn_streams (s : State) (x : Nat) : (s.withTurn x).streams = s.streams := (rfl)
@[simp] theorem State.withTurn_engine (s : State) (x : Nat) : (s.withTurn x).engine = s.engine := (rfl)
@[simp] theorem State.withTurn_grants (s : State) (x : Nat) : (s.withTurn x).grants = s.grants := (rfl)
@[simp] theorem State.withTurn_hbm (s : State) (x : Nat) : (s.withTurn x).hbm = s.hbm := (rfl)
@[simp] theorem State.withTurn_spray (s : State) (x : Nat) : (s.withTurn x).spray = s.spray := (rfl)
@[simp] theorem State.withTurn_nseq (s : State) (x : Nat) : (s.withTurn x).nseq = s.nseq := (rfl)
@[simp] theorem State.withTurn_lastNseq (s : State) (x : Nat) : (s.withTurn x).lastNseq = s.lastNseq := (rfl)
@[simp] theorem State.withTurn_flipPrev (s : State) (x : Nat) : (s.withTurn x).flipPrev = s.flipPrev := (rfl)
@[simp] theorem State.withTurn_skipScrub (s : State) (x : Nat) : (s.withTurn x).skipScrub = s.skipScrub := (rfl)
@[simp] theorem State.withTurn_failedQuarters (s : State) (x : Nat) : (s.withTurn x).failedQuarters = s.failedQuarters := (rfl)
@[simp] theorem State.withTurn_ethOut (s : State) (x : Nat) : (s.withTurn x).ethOut = s.ethOut := (rfl)
@[simp] theorem State.withTurn_setNow (s : State) (x : Nat) : (s.withTurn x).setNow = s.setNow := (rfl)
@[simp] theorem State.withTurn_txnNow (s : State) (x : Nat) : (s.withTurn x).txnNow = s.txnNow := (rfl)
@[simp] theorem State.withTurn_cycleNow (s : State) (x : Nat) : (s.withTurn x).cycleNow = s.cycleNow := (rfl)

@[simp] theorem State.withNotify_pending (s : State) (x : SMap Notify) : (s.withNotify x).pending = s.pending := (rfl)
@[simp] theorem State.withNotify_freeCtr (s : State) (x : SMap Notify) : (s.withNotify x).freeCtr = s.freeCtr := (rfl)
@[simp] theorem State.withNotify_regs (s : State) (x : SMap Notify) : (s.withNotify x).regs = s.regs := (rfl)
@[simp] theorem State.withNotify_mem (s : State) (x : SMap Notify) : (s.withNotify x).mem = s.mem := (rfl)
@[simp] theorem State.withNotify_dies (s : State) (x : SMap Notify) : (s.withNotify x).dies = s.dies := (rfl)
@[simp] theorem State.withNotify_evlog (s : State) (x : SMap Notify) : (s.withNotify x).evlog = s.evlog := (rfl)
@[simp] theorem State.withNotify_acceptAt (s : State) (x : SMap Notify) : (s.withNotify x).acceptAt = s.acceptAt := (rfl)
@[simp] theorem State.withNotify_rates (s : State) (x : SMap Notify) : (s.withNotify x).rates = s.rates := (rfl)
@[simp] theorem State.withNotify_time (s : State) (x : SMap Notify) : (s.withNotify x).time = s.time := (rfl)
@[simp] theorem State.withNotify_ptime (s : State) (x : SMap Notify) : (s.withNotify x).ptime = s.ptime := (rfl)
@[simp] theorem State.withNotify_tiles (s : State) (x : SMap Notify) : (s.withNotify x).tiles = s.tiles := (rfl)
@[simp] theorem State.withNotify_lineCells (s : State) (x : SMap Notify) : (s.withNotify x).lineCells = s.lineCells := (rfl)
@[simp] theorem State.withNotify_tokens (s : State) (x : SMap Notify) : (s.withNotify x).tokens = s.tokens := (rfl)
@[simp] theorem State.withNotify_tokOps (s : State) (x : SMap Notify) : (s.withNotify x).tokOps = s.tokOps := (rfl)
@[simp] theorem State.withNotify_spent (s : State) (x : SMap Notify) : (s.withNotify x).spent = s.spent := (rfl)
@[simp] theorem State.withNotify_recent (s : State) (x : SMap Notify) : (s.withNotify x).recent = s.recent := (rfl)
@[simp] theorem State.withNotify_walkers (s : State) (x : SMap Notify) : (s.withNotify x).walkers = s.walkers := (rfl)
@[simp] theorem State.withNotify_preWalkers (s : State) (x : SMap Notify) : (s.withNotify x).preWalkers = s.preWalkers := (rfl)
@[simp] theorem State.withNotify_transits (s : State) (x : SMap Notify) : (s.withNotify x).transits = s.transits := (rfl)
@[simp] theorem State.withNotify_sramReads (s : State) (x : SMap Notify) : (s.withNotify x).sramReads = s.sramReads := (rfl)
@[simp] theorem State.withNotify_jn (s : State) (x : SMap Notify) : (s.withNotify x).jn = s.jn := (rfl)
@[simp] theorem State.withNotify_ports (s : State) (x : SMap Notify) : (s.withNotify x).ports = s.ports := (rfl)
@[simp] theorem State.withNotify_rings (s : State) (x : SMap Notify) : (s.withNotify x).rings = s.rings := (rfl)
@[simp] theorem State.withNotify_turn (s : State) (x : SMap Notify) : (s.withNotify x).turn = s.turn := (rfl)
@[simp] theorem State.withNotify_notify (s : State) (x : SMap Notify) : (s.withNotify x).notify = x := (rfl)
@[simp] theorem State.withNotify_notes (s : State) (x : SMap Notify) : (s.withNotify x).notes = s.notes := (rfl)
@[simp] theorem State.withNotify_hostOut (s : State) (x : SMap Notify) : (s.withNotify x).hostOut = s.hostOut := (rfl)
@[simp] theorem State.withNotify_irqs (s : State) (x : SMap Notify) : (s.withNotify x).irqs = s.irqs := (rfl)
@[simp] theorem State.withNotify_vfs (s : State) (x : SMap Notify) : (s.withNotify x).vfs = s.vfs := (rfl)
@[simp] theorem State.withNotify_pcieUp (s : State) (x : SMap Notify) : (s.withNotify x).pcieUp = s.pcieUp := (rfl)
@[simp] theorem State.withNotify_pcie (s : State) (x : SMap Notify) : (s.withNotify x).pcie = s.pcie := (rfl)
@[simp] theorem State.withNotify_ats (s : State) (x : SMap Notify) : (s.withNotify x).ats = s.ats := (rfl)
@[simp] theorem State.withNotify_atsDone (s : State) (x : SMap Notify) : (s.withNotify x).atsDone = s.atsDone := (rfl)
@[simp] theorem State.withNotify_parts (s : State) (x : SMap Notify) : (s.withNotify x).parts = s.parts := (rfl)
@[simp] theorem State.withNotify_lock (s : State) (x : SMap Notify) : (s.withNotify x).lock = s.lock := (rfl)
@[simp] theorem State.withNotify_power (s : State) (x : SMap Notify) : (s.withNotify x).power = s.power := (rfl)
@[simp] theorem State.withNotify_pins (s : State) (x : SMap Notify) : (s.withNotify x).pins = s.pins := (rfl)
@[simp] theorem State.withNotify_mon (s : State) (x : SMap Notify) : (s.withNotify x).mon = s.mon := (rfl)
@[simp] theorem State.withNotify_txn (s : State) (x : SMap Notify) : (s.withNotify x).txn = s.txn := (rfl)
@[simp] theorem State.withNotify_armedTxns (s : State) (x : SMap Notify) : (s.withNotify x).armedTxns = s.armedTxns := (rfl)
@[simp] theorem State.withNotify_prot (s : State) (x : SMap Notify) : (s.withNotify x).prot = s.prot := (rfl)
@[simp] theorem State.withNotify_snapAt (s : State) (x : SMap Notify) : (s.withNotify x).snapAt = s.snapAt := (rfl)
@[simp] theorem State.withNotify_trace (s : State) (x : SMap Notify) : (s.withNotify x).trace = s.trace := (rfl)
@[simp] theorem State.withNotify_traceQ (s : State) (x : SMap Notify) : (s.withNotify x).traceQ = s.traceQ := (rfl)
@[simp] theorem State.withNotify_dump (s : State) (x : SMap Notify) : (s.withNotify x).dump = s.dump := (rfl)
@[simp] theorem State.withNotify_wfg (s : State) (x : SMap Notify) : (s.withNotify x).wfg = s.wfg := (rfl)
@[simp] theorem State.withNotify_i3c (s : State) (x : SMap Notify) : (s.withNotify x).i3c = s.i3c := (rfl)
@[simp] theorem State.withNotify_readData (s : State) (x : SMap Notify) : (s.withNotify x).readData = s.readData := (rfl)
@[simp] theorem State.withNotify_inject (s : State) (x : SMap Notify) : (s.withNotify x).inject = s.inject := (rfl)
@[simp] theorem State.withNotify_streams (s : State) (x : SMap Notify) : (s.withNotify x).streams = s.streams := (rfl)
@[simp] theorem State.withNotify_engine (s : State) (x : SMap Notify) : (s.withNotify x).engine = s.engine := (rfl)
@[simp] theorem State.withNotify_grants (s : State) (x : SMap Notify) : (s.withNotify x).grants = s.grants := (rfl)
@[simp] theorem State.withNotify_hbm (s : State) (x : SMap Notify) : (s.withNotify x).hbm = s.hbm := (rfl)
@[simp] theorem State.withNotify_spray (s : State) (x : SMap Notify) : (s.withNotify x).spray = s.spray := (rfl)
@[simp] theorem State.withNotify_nseq (s : State) (x : SMap Notify) : (s.withNotify x).nseq = s.nseq := (rfl)
@[simp] theorem State.withNotify_lastNseq (s : State) (x : SMap Notify) : (s.withNotify x).lastNseq = s.lastNseq := (rfl)
@[simp] theorem State.withNotify_flipPrev (s : State) (x : SMap Notify) : (s.withNotify x).flipPrev = s.flipPrev := (rfl)
@[simp] theorem State.withNotify_skipScrub (s : State) (x : SMap Notify) : (s.withNotify x).skipScrub = s.skipScrub := (rfl)
@[simp] theorem State.withNotify_failedQuarters (s : State) (x : SMap Notify) : (s.withNotify x).failedQuarters = s.failedQuarters := (rfl)
@[simp] theorem State.withNotify_ethOut (s : State) (x : SMap Notify) : (s.withNotify x).ethOut = s.ethOut := (rfl)
@[simp] theorem State.withNotify_setNow (s : State) (x : SMap Notify) : (s.withNotify x).setNow = s.setNow := (rfl)
@[simp] theorem State.withNotify_txnNow (s : State) (x : SMap Notify) : (s.withNotify x).txnNow = s.txnNow := (rfl)
@[simp] theorem State.withNotify_cycleNow (s : State) (x : SMap Notify) : (s.withNotify x).cycleNow = s.cycleNow := (rfl)

@[simp] theorem State.withNotes_pending (s : State) (x : List Note) : (s.withNotes x).pending = s.pending := (rfl)
@[simp] theorem State.withNotes_freeCtr (s : State) (x : List Note) : (s.withNotes x).freeCtr = s.freeCtr := (rfl)
@[simp] theorem State.withNotes_regs (s : State) (x : List Note) : (s.withNotes x).regs = s.regs := (rfl)
@[simp] theorem State.withNotes_mem (s : State) (x : List Note) : (s.withNotes x).mem = s.mem := (rfl)
@[simp] theorem State.withNotes_dies (s : State) (x : List Note) : (s.withNotes x).dies = s.dies := (rfl)
@[simp] theorem State.withNotes_evlog (s : State) (x : List Note) : (s.withNotes x).evlog = s.evlog := (rfl)
@[simp] theorem State.withNotes_acceptAt (s : State) (x : List Note) : (s.withNotes x).acceptAt = s.acceptAt := (rfl)
@[simp] theorem State.withNotes_rates (s : State) (x : List Note) : (s.withNotes x).rates = s.rates := (rfl)
@[simp] theorem State.withNotes_time (s : State) (x : List Note) : (s.withNotes x).time = s.time := (rfl)
@[simp] theorem State.withNotes_ptime (s : State) (x : List Note) : (s.withNotes x).ptime = s.ptime := (rfl)
@[simp] theorem State.withNotes_tiles (s : State) (x : List Note) : (s.withNotes x).tiles = s.tiles := (rfl)
@[simp] theorem State.withNotes_lineCells (s : State) (x : List Note) : (s.withNotes x).lineCells = s.lineCells := (rfl)
@[simp] theorem State.withNotes_tokens (s : State) (x : List Note) : (s.withNotes x).tokens = s.tokens := (rfl)
@[simp] theorem State.withNotes_tokOps (s : State) (x : List Note) : (s.withNotes x).tokOps = s.tokOps := (rfl)
@[simp] theorem State.withNotes_spent (s : State) (x : List Note) : (s.withNotes x).spent = s.spent := (rfl)
@[simp] theorem State.withNotes_recent (s : State) (x : List Note) : (s.withNotes x).recent = s.recent := (rfl)
@[simp] theorem State.withNotes_walkers (s : State) (x : List Note) : (s.withNotes x).walkers = s.walkers := (rfl)
@[simp] theorem State.withNotes_preWalkers (s : State) (x : List Note) : (s.withNotes x).preWalkers = s.preWalkers := (rfl)
@[simp] theorem State.withNotes_transits (s : State) (x : List Note) : (s.withNotes x).transits = s.transits := (rfl)
@[simp] theorem State.withNotes_sramReads (s : State) (x : List Note) : (s.withNotes x).sramReads = s.sramReads := (rfl)
@[simp] theorem State.withNotes_jn (s : State) (x : List Note) : (s.withNotes x).jn = s.jn := (rfl)
@[simp] theorem State.withNotes_ports (s : State) (x : List Note) : (s.withNotes x).ports = s.ports := (rfl)
@[simp] theorem State.withNotes_rings (s : State) (x : List Note) : (s.withNotes x).rings = s.rings := (rfl)
@[simp] theorem State.withNotes_turn (s : State) (x : List Note) : (s.withNotes x).turn = s.turn := (rfl)
@[simp] theorem State.withNotes_notify (s : State) (x : List Note) : (s.withNotes x).notify = s.notify := (rfl)
@[simp] theorem State.withNotes_notes (s : State) (x : List Note) : (s.withNotes x).notes = x := (rfl)
@[simp] theorem State.withNotes_hostOut (s : State) (x : List Note) : (s.withNotes x).hostOut = s.hostOut := (rfl)
@[simp] theorem State.withNotes_irqs (s : State) (x : List Note) : (s.withNotes x).irqs = s.irqs := (rfl)
@[simp] theorem State.withNotes_vfs (s : State) (x : List Note) : (s.withNotes x).vfs = s.vfs := (rfl)
@[simp] theorem State.withNotes_pcieUp (s : State) (x : List Note) : (s.withNotes x).pcieUp = s.pcieUp := (rfl)
@[simp] theorem State.withNotes_pcie (s : State) (x : List Note) : (s.withNotes x).pcie = s.pcie := (rfl)
@[simp] theorem State.withNotes_ats (s : State) (x : List Note) : (s.withNotes x).ats = s.ats := (rfl)
@[simp] theorem State.withNotes_atsDone (s : State) (x : List Note) : (s.withNotes x).atsDone = s.atsDone := (rfl)
@[simp] theorem State.withNotes_parts (s : State) (x : List Note) : (s.withNotes x).parts = s.parts := (rfl)
@[simp] theorem State.withNotes_lock (s : State) (x : List Note) : (s.withNotes x).lock = s.lock := (rfl)
@[simp] theorem State.withNotes_power (s : State) (x : List Note) : (s.withNotes x).power = s.power := (rfl)
@[simp] theorem State.withNotes_pins (s : State) (x : List Note) : (s.withNotes x).pins = s.pins := (rfl)
@[simp] theorem State.withNotes_mon (s : State) (x : List Note) : (s.withNotes x).mon = s.mon := (rfl)
@[simp] theorem State.withNotes_txn (s : State) (x : List Note) : (s.withNotes x).txn = s.txn := (rfl)
@[simp] theorem State.withNotes_armedTxns (s : State) (x : List Note) : (s.withNotes x).armedTxns = s.armedTxns := (rfl)
@[simp] theorem State.withNotes_prot (s : State) (x : List Note) : (s.withNotes x).prot = s.prot := (rfl)
@[simp] theorem State.withNotes_snapAt (s : State) (x : List Note) : (s.withNotes x).snapAt = s.snapAt := (rfl)
@[simp] theorem State.withNotes_trace (s : State) (x : List Note) : (s.withNotes x).trace = s.trace := (rfl)
@[simp] theorem State.withNotes_traceQ (s : State) (x : List Note) : (s.withNotes x).traceQ = s.traceQ := (rfl)
@[simp] theorem State.withNotes_dump (s : State) (x : List Note) : (s.withNotes x).dump = s.dump := (rfl)
@[simp] theorem State.withNotes_wfg (s : State) (x : List Note) : (s.withNotes x).wfg = s.wfg := (rfl)
@[simp] theorem State.withNotes_i3c (s : State) (x : List Note) : (s.withNotes x).i3c = s.i3c := (rfl)
@[simp] theorem State.withNotes_readData (s : State) (x : List Note) : (s.withNotes x).readData = s.readData := (rfl)
@[simp] theorem State.withNotes_inject (s : State) (x : List Note) : (s.withNotes x).inject = s.inject := (rfl)
@[simp] theorem State.withNotes_streams (s : State) (x : List Note) : (s.withNotes x).streams = s.streams := (rfl)
@[simp] theorem State.withNotes_engine (s : State) (x : List Note) : (s.withNotes x).engine = s.engine := (rfl)
@[simp] theorem State.withNotes_grants (s : State) (x : List Note) : (s.withNotes x).grants = s.grants := (rfl)
@[simp] theorem State.withNotes_hbm (s : State) (x : List Note) : (s.withNotes x).hbm = s.hbm := (rfl)
@[simp] theorem State.withNotes_spray (s : State) (x : List Note) : (s.withNotes x).spray = s.spray := (rfl)
@[simp] theorem State.withNotes_nseq (s : State) (x : List Note) : (s.withNotes x).nseq = s.nseq := (rfl)
@[simp] theorem State.withNotes_lastNseq (s : State) (x : List Note) : (s.withNotes x).lastNseq = s.lastNseq := (rfl)
@[simp] theorem State.withNotes_flipPrev (s : State) (x : List Note) : (s.withNotes x).flipPrev = s.flipPrev := (rfl)
@[simp] theorem State.withNotes_skipScrub (s : State) (x : List Note) : (s.withNotes x).skipScrub = s.skipScrub := (rfl)
@[simp] theorem State.withNotes_failedQuarters (s : State) (x : List Note) : (s.withNotes x).failedQuarters = s.failedQuarters := (rfl)
@[simp] theorem State.withNotes_ethOut (s : State) (x : List Note) : (s.withNotes x).ethOut = s.ethOut := (rfl)
@[simp] theorem State.withNotes_setNow (s : State) (x : List Note) : (s.withNotes x).setNow = s.setNow := (rfl)
@[simp] theorem State.withNotes_txnNow (s : State) (x : List Note) : (s.withNotes x).txnNow = s.txnNow := (rfl)
@[simp] theorem State.withNotes_cycleNow (s : State) (x : List Note) : (s.withNotes x).cycleNow = s.cycleNow := (rfl)

@[simp] theorem State.withHostOut_pending (s : State) (x : List HostWrite) : (s.withHostOut x).pending = s.pending := (rfl)
@[simp] theorem State.withHostOut_freeCtr (s : State) (x : List HostWrite) : (s.withHostOut x).freeCtr = s.freeCtr := (rfl)
@[simp] theorem State.withHostOut_regs (s : State) (x : List HostWrite) : (s.withHostOut x).regs = s.regs := (rfl)
@[simp] theorem State.withHostOut_mem (s : State) (x : List HostWrite) : (s.withHostOut x).mem = s.mem := (rfl)
@[simp] theorem State.withHostOut_dies (s : State) (x : List HostWrite) : (s.withHostOut x).dies = s.dies := (rfl)
@[simp] theorem State.withHostOut_evlog (s : State) (x : List HostWrite) : (s.withHostOut x).evlog = s.evlog := (rfl)
@[simp] theorem State.withHostOut_acceptAt (s : State) (x : List HostWrite) : (s.withHostOut x).acceptAt = s.acceptAt := (rfl)
@[simp] theorem State.withHostOut_rates (s : State) (x : List HostWrite) : (s.withHostOut x).rates = s.rates := (rfl)
@[simp] theorem State.withHostOut_time (s : State) (x : List HostWrite) : (s.withHostOut x).time = s.time := (rfl)
@[simp] theorem State.withHostOut_ptime (s : State) (x : List HostWrite) : (s.withHostOut x).ptime = s.ptime := (rfl)
@[simp] theorem State.withHostOut_tiles (s : State) (x : List HostWrite) : (s.withHostOut x).tiles = s.tiles := (rfl)
@[simp] theorem State.withHostOut_lineCells (s : State) (x : List HostWrite) : (s.withHostOut x).lineCells = s.lineCells := (rfl)
@[simp] theorem State.withHostOut_tokens (s : State) (x : List HostWrite) : (s.withHostOut x).tokens = s.tokens := (rfl)
@[simp] theorem State.withHostOut_tokOps (s : State) (x : List HostWrite) : (s.withHostOut x).tokOps = s.tokOps := (rfl)
@[simp] theorem State.withHostOut_spent (s : State) (x : List HostWrite) : (s.withHostOut x).spent = s.spent := (rfl)
@[simp] theorem State.withHostOut_recent (s : State) (x : List HostWrite) : (s.withHostOut x).recent = s.recent := (rfl)
@[simp] theorem State.withHostOut_walkers (s : State) (x : List HostWrite) : (s.withHostOut x).walkers = s.walkers := (rfl)
@[simp] theorem State.withHostOut_preWalkers (s : State) (x : List HostWrite) : (s.withHostOut x).preWalkers = s.preWalkers := (rfl)
@[simp] theorem State.withHostOut_transits (s : State) (x : List HostWrite) : (s.withHostOut x).transits = s.transits := (rfl)
@[simp] theorem State.withHostOut_sramReads (s : State) (x : List HostWrite) : (s.withHostOut x).sramReads = s.sramReads := (rfl)
@[simp] theorem State.withHostOut_jn (s : State) (x : List HostWrite) : (s.withHostOut x).jn = s.jn := (rfl)
@[simp] theorem State.withHostOut_ports (s : State) (x : List HostWrite) : (s.withHostOut x).ports = s.ports := (rfl)
@[simp] theorem State.withHostOut_rings (s : State) (x : List HostWrite) : (s.withHostOut x).rings = s.rings := (rfl)
@[simp] theorem State.withHostOut_turn (s : State) (x : List HostWrite) : (s.withHostOut x).turn = s.turn := (rfl)
@[simp] theorem State.withHostOut_notify (s : State) (x : List HostWrite) : (s.withHostOut x).notify = s.notify := (rfl)
@[simp] theorem State.withHostOut_notes (s : State) (x : List HostWrite) : (s.withHostOut x).notes = s.notes := (rfl)
@[simp] theorem State.withHostOut_hostOut (s : State) (x : List HostWrite) : (s.withHostOut x).hostOut = x := (rfl)
@[simp] theorem State.withHostOut_irqs (s : State) (x : List HostWrite) : (s.withHostOut x).irqs = s.irqs := (rfl)
@[simp] theorem State.withHostOut_vfs (s : State) (x : List HostWrite) : (s.withHostOut x).vfs = s.vfs := (rfl)
@[simp] theorem State.withHostOut_pcieUp (s : State) (x : List HostWrite) : (s.withHostOut x).pcieUp = s.pcieUp := (rfl)
@[simp] theorem State.withHostOut_pcie (s : State) (x : List HostWrite) : (s.withHostOut x).pcie = s.pcie := (rfl)
@[simp] theorem State.withHostOut_ats (s : State) (x : List HostWrite) : (s.withHostOut x).ats = s.ats := (rfl)
@[simp] theorem State.withHostOut_atsDone (s : State) (x : List HostWrite) : (s.withHostOut x).atsDone = s.atsDone := (rfl)
@[simp] theorem State.withHostOut_parts (s : State) (x : List HostWrite) : (s.withHostOut x).parts = s.parts := (rfl)
@[simp] theorem State.withHostOut_lock (s : State) (x : List HostWrite) : (s.withHostOut x).lock = s.lock := (rfl)
@[simp] theorem State.withHostOut_power (s : State) (x : List HostWrite) : (s.withHostOut x).power = s.power := (rfl)
@[simp] theorem State.withHostOut_pins (s : State) (x : List HostWrite) : (s.withHostOut x).pins = s.pins := (rfl)
@[simp] theorem State.withHostOut_mon (s : State) (x : List HostWrite) : (s.withHostOut x).mon = s.mon := (rfl)
@[simp] theorem State.withHostOut_txn (s : State) (x : List HostWrite) : (s.withHostOut x).txn = s.txn := (rfl)
@[simp] theorem State.withHostOut_armedTxns (s : State) (x : List HostWrite) : (s.withHostOut x).armedTxns = s.armedTxns := (rfl)
@[simp] theorem State.withHostOut_prot (s : State) (x : List HostWrite) : (s.withHostOut x).prot = s.prot := (rfl)
@[simp] theorem State.withHostOut_snapAt (s : State) (x : List HostWrite) : (s.withHostOut x).snapAt = s.snapAt := (rfl)
@[simp] theorem State.withHostOut_trace (s : State) (x : List HostWrite) : (s.withHostOut x).trace = s.trace := (rfl)
@[simp] theorem State.withHostOut_traceQ (s : State) (x : List HostWrite) : (s.withHostOut x).traceQ = s.traceQ := (rfl)
@[simp] theorem State.withHostOut_dump (s : State) (x : List HostWrite) : (s.withHostOut x).dump = s.dump := (rfl)
@[simp] theorem State.withHostOut_wfg (s : State) (x : List HostWrite) : (s.withHostOut x).wfg = s.wfg := (rfl)
@[simp] theorem State.withHostOut_i3c (s : State) (x : List HostWrite) : (s.withHostOut x).i3c = s.i3c := (rfl)
@[simp] theorem State.withHostOut_readData (s : State) (x : List HostWrite) : (s.withHostOut x).readData = s.readData := (rfl)
@[simp] theorem State.withHostOut_inject (s : State) (x : List HostWrite) : (s.withHostOut x).inject = s.inject := (rfl)
@[simp] theorem State.withHostOut_streams (s : State) (x : List HostWrite) : (s.withHostOut x).streams = s.streams := (rfl)
@[simp] theorem State.withHostOut_engine (s : State) (x : List HostWrite) : (s.withHostOut x).engine = s.engine := (rfl)
@[simp] theorem State.withHostOut_grants (s : State) (x : List HostWrite) : (s.withHostOut x).grants = s.grants := (rfl)
@[simp] theorem State.withHostOut_hbm (s : State) (x : List HostWrite) : (s.withHostOut x).hbm = s.hbm := (rfl)
@[simp] theorem State.withHostOut_spray (s : State) (x : List HostWrite) : (s.withHostOut x).spray = s.spray := (rfl)
@[simp] theorem State.withHostOut_nseq (s : State) (x : List HostWrite) : (s.withHostOut x).nseq = s.nseq := (rfl)
@[simp] theorem State.withHostOut_lastNseq (s : State) (x : List HostWrite) : (s.withHostOut x).lastNseq = s.lastNseq := (rfl)
@[simp] theorem State.withHostOut_flipPrev (s : State) (x : List HostWrite) : (s.withHostOut x).flipPrev = s.flipPrev := (rfl)
@[simp] theorem State.withHostOut_skipScrub (s : State) (x : List HostWrite) : (s.withHostOut x).skipScrub = s.skipScrub := (rfl)
@[simp] theorem State.withHostOut_failedQuarters (s : State) (x : List HostWrite) : (s.withHostOut x).failedQuarters = s.failedQuarters := (rfl)
@[simp] theorem State.withHostOut_ethOut (s : State) (x : List HostWrite) : (s.withHostOut x).ethOut = s.ethOut := (rfl)
@[simp] theorem State.withHostOut_setNow (s : State) (x : List HostWrite) : (s.withHostOut x).setNow = s.setNow := (rfl)
@[simp] theorem State.withHostOut_txnNow (s : State) (x : List HostWrite) : (s.withHostOut x).txnNow = s.txnNow := (rfl)
@[simp] theorem State.withHostOut_cycleNow (s : State) (x : List HostWrite) : (s.withHostOut x).cycleNow = s.cycleNow := (rfl)

@[simp] theorem State.withIrqs_pending (s : State) (x : List (Nat × Nat)) : (s.withIrqs x).pending = s.pending := (rfl)
@[simp] theorem State.withIrqs_freeCtr (s : State) (x : List (Nat × Nat)) : (s.withIrqs x).freeCtr = s.freeCtr := (rfl)
@[simp] theorem State.withIrqs_regs (s : State) (x : List (Nat × Nat)) : (s.withIrqs x).regs = s.regs := (rfl)
@[simp] theorem State.withIrqs_mem (s : State) (x : List (Nat × Nat)) : (s.withIrqs x).mem = s.mem := (rfl)
@[simp] theorem State.withIrqs_dies (s : State) (x : List (Nat × Nat)) : (s.withIrqs x).dies = s.dies := (rfl)
@[simp] theorem State.withIrqs_evlog (s : State) (x : List (Nat × Nat)) : (s.withIrqs x).evlog = s.evlog := (rfl)
@[simp] theorem State.withIrqs_acceptAt (s : State) (x : List (Nat × Nat)) : (s.withIrqs x).acceptAt = s.acceptAt := (rfl)
@[simp] theorem State.withIrqs_rates (s : State) (x : List (Nat × Nat)) : (s.withIrqs x).rates = s.rates := (rfl)
@[simp] theorem State.withIrqs_time (s : State) (x : List (Nat × Nat)) : (s.withIrqs x).time = s.time := (rfl)
@[simp] theorem State.withIrqs_ptime (s : State) (x : List (Nat × Nat)) : (s.withIrqs x).ptime = s.ptime := (rfl)
@[simp] theorem State.withIrqs_tiles (s : State) (x : List (Nat × Nat)) : (s.withIrqs x).tiles = s.tiles := (rfl)
@[simp] theorem State.withIrqs_lineCells (s : State) (x : List (Nat × Nat)) : (s.withIrqs x).lineCells = s.lineCells := (rfl)
@[simp] theorem State.withIrqs_tokens (s : State) (x : List (Nat × Nat)) : (s.withIrqs x).tokens = s.tokens := (rfl)
@[simp] theorem State.withIrqs_tokOps (s : State) (x : List (Nat × Nat)) : (s.withIrqs x).tokOps = s.tokOps := (rfl)
@[simp] theorem State.withIrqs_spent (s : State) (x : List (Nat × Nat)) : (s.withIrqs x).spent = s.spent := (rfl)
@[simp] theorem State.withIrqs_recent (s : State) (x : List (Nat × Nat)) : (s.withIrqs x).recent = s.recent := (rfl)
@[simp] theorem State.withIrqs_walkers (s : State) (x : List (Nat × Nat)) : (s.withIrqs x).walkers = s.walkers := (rfl)
@[simp] theorem State.withIrqs_preWalkers (s : State) (x : List (Nat × Nat)) : (s.withIrqs x).preWalkers = s.preWalkers := (rfl)
@[simp] theorem State.withIrqs_transits (s : State) (x : List (Nat × Nat)) : (s.withIrqs x).transits = s.transits := (rfl)
@[simp] theorem State.withIrqs_sramReads (s : State) (x : List (Nat × Nat)) : (s.withIrqs x).sramReads = s.sramReads := (rfl)
@[simp] theorem State.withIrqs_jn (s : State) (x : List (Nat × Nat)) : (s.withIrqs x).jn = s.jn := (rfl)
@[simp] theorem State.withIrqs_ports (s : State) (x : List (Nat × Nat)) : (s.withIrqs x).ports = s.ports := (rfl)
@[simp] theorem State.withIrqs_rings (s : State) (x : List (Nat × Nat)) : (s.withIrqs x).rings = s.rings := (rfl)
@[simp] theorem State.withIrqs_turn (s : State) (x : List (Nat × Nat)) : (s.withIrqs x).turn = s.turn := (rfl)
@[simp] theorem State.withIrqs_notify (s : State) (x : List (Nat × Nat)) : (s.withIrqs x).notify = s.notify := (rfl)
@[simp] theorem State.withIrqs_notes (s : State) (x : List (Nat × Nat)) : (s.withIrqs x).notes = s.notes := (rfl)
@[simp] theorem State.withIrqs_hostOut (s : State) (x : List (Nat × Nat)) : (s.withIrqs x).hostOut = s.hostOut := (rfl)
@[simp] theorem State.withIrqs_irqs (s : State) (x : List (Nat × Nat)) : (s.withIrqs x).irqs = x := (rfl)
@[simp] theorem State.withIrqs_vfs (s : State) (x : List (Nat × Nat)) : (s.withIrqs x).vfs = s.vfs := (rfl)
@[simp] theorem State.withIrqs_pcieUp (s : State) (x : List (Nat × Nat)) : (s.withIrqs x).pcieUp = s.pcieUp := (rfl)
@[simp] theorem State.withIrqs_pcie (s : State) (x : List (Nat × Nat)) : (s.withIrqs x).pcie = s.pcie := (rfl)
@[simp] theorem State.withIrqs_ats (s : State) (x : List (Nat × Nat)) : (s.withIrqs x).ats = s.ats := (rfl)
@[simp] theorem State.withIrqs_atsDone (s : State) (x : List (Nat × Nat)) : (s.withIrqs x).atsDone = s.atsDone := (rfl)
@[simp] theorem State.withIrqs_parts (s : State) (x : List (Nat × Nat)) : (s.withIrqs x).parts = s.parts := (rfl)
@[simp] theorem State.withIrqs_lock (s : State) (x : List (Nat × Nat)) : (s.withIrqs x).lock = s.lock := (rfl)
@[simp] theorem State.withIrqs_power (s : State) (x : List (Nat × Nat)) : (s.withIrqs x).power = s.power := (rfl)
@[simp] theorem State.withIrqs_pins (s : State) (x : List (Nat × Nat)) : (s.withIrqs x).pins = s.pins := (rfl)
@[simp] theorem State.withIrqs_mon (s : State) (x : List (Nat × Nat)) : (s.withIrqs x).mon = s.mon := (rfl)
@[simp] theorem State.withIrqs_txn (s : State) (x : List (Nat × Nat)) : (s.withIrqs x).txn = s.txn := (rfl)
@[simp] theorem State.withIrqs_armedTxns (s : State) (x : List (Nat × Nat)) : (s.withIrqs x).armedTxns = s.armedTxns := (rfl)
@[simp] theorem State.withIrqs_prot (s : State) (x : List (Nat × Nat)) : (s.withIrqs x).prot = s.prot := (rfl)
@[simp] theorem State.withIrqs_snapAt (s : State) (x : List (Nat × Nat)) : (s.withIrqs x).snapAt = s.snapAt := (rfl)
@[simp] theorem State.withIrqs_trace (s : State) (x : List (Nat × Nat)) : (s.withIrqs x).trace = s.trace := (rfl)
@[simp] theorem State.withIrqs_traceQ (s : State) (x : List (Nat × Nat)) : (s.withIrqs x).traceQ = s.traceQ := (rfl)
@[simp] theorem State.withIrqs_dump (s : State) (x : List (Nat × Nat)) : (s.withIrqs x).dump = s.dump := (rfl)
@[simp] theorem State.withIrqs_wfg (s : State) (x : List (Nat × Nat)) : (s.withIrqs x).wfg = s.wfg := (rfl)
@[simp] theorem State.withIrqs_i3c (s : State) (x : List (Nat × Nat)) : (s.withIrqs x).i3c = s.i3c := (rfl)
@[simp] theorem State.withIrqs_readData (s : State) (x : List (Nat × Nat)) : (s.withIrqs x).readData = s.readData := (rfl)
@[simp] theorem State.withIrqs_inject (s : State) (x : List (Nat × Nat)) : (s.withIrqs x).inject = s.inject := (rfl)
@[simp] theorem State.withIrqs_streams (s : State) (x : List (Nat × Nat)) : (s.withIrqs x).streams = s.streams := (rfl)
@[simp] theorem State.withIrqs_engine (s : State) (x : List (Nat × Nat)) : (s.withIrqs x).engine = s.engine := (rfl)
@[simp] theorem State.withIrqs_grants (s : State) (x : List (Nat × Nat)) : (s.withIrqs x).grants = s.grants := (rfl)
@[simp] theorem State.withIrqs_hbm (s : State) (x : List (Nat × Nat)) : (s.withIrqs x).hbm = s.hbm := (rfl)
@[simp] theorem State.withIrqs_spray (s : State) (x : List (Nat × Nat)) : (s.withIrqs x).spray = s.spray := (rfl)
@[simp] theorem State.withIrqs_nseq (s : State) (x : List (Nat × Nat)) : (s.withIrqs x).nseq = s.nseq := (rfl)
@[simp] theorem State.withIrqs_lastNseq (s : State) (x : List (Nat × Nat)) : (s.withIrqs x).lastNseq = s.lastNseq := (rfl)
@[simp] theorem State.withIrqs_flipPrev (s : State) (x : List (Nat × Nat)) : (s.withIrqs x).flipPrev = s.flipPrev := (rfl)
@[simp] theorem State.withIrqs_skipScrub (s : State) (x : List (Nat × Nat)) : (s.withIrqs x).skipScrub = s.skipScrub := (rfl)
@[simp] theorem State.withIrqs_failedQuarters (s : State) (x : List (Nat × Nat)) : (s.withIrqs x).failedQuarters = s.failedQuarters := (rfl)
@[simp] theorem State.withIrqs_ethOut (s : State) (x : List (Nat × Nat)) : (s.withIrqs x).ethOut = s.ethOut := (rfl)
@[simp] theorem State.withIrqs_setNow (s : State) (x : List (Nat × Nat)) : (s.withIrqs x).setNow = s.setNow := (rfl)
@[simp] theorem State.withIrqs_txnNow (s : State) (x : List (Nat × Nat)) : (s.withIrqs x).txnNow = s.txnNow := (rfl)
@[simp] theorem State.withIrqs_cycleNow (s : State) (x : List (Nat × Nat)) : (s.withIrqs x).cycleNow = s.cycleNow := (rfl)

@[simp] theorem State.withVfs_pending (s : State) (x : Nat) : (s.withVfs x).pending = s.pending := (rfl)
@[simp] theorem State.withVfs_freeCtr (s : State) (x : Nat) : (s.withVfs x).freeCtr = s.freeCtr := (rfl)
@[simp] theorem State.withVfs_regs (s : State) (x : Nat) : (s.withVfs x).regs = s.regs := (rfl)
@[simp] theorem State.withVfs_mem (s : State) (x : Nat) : (s.withVfs x).mem = s.mem := (rfl)
@[simp] theorem State.withVfs_dies (s : State) (x : Nat) : (s.withVfs x).dies = s.dies := (rfl)
@[simp] theorem State.withVfs_evlog (s : State) (x : Nat) : (s.withVfs x).evlog = s.evlog := (rfl)
@[simp] theorem State.withVfs_acceptAt (s : State) (x : Nat) : (s.withVfs x).acceptAt = s.acceptAt := (rfl)
@[simp] theorem State.withVfs_rates (s : State) (x : Nat) : (s.withVfs x).rates = s.rates := (rfl)
@[simp] theorem State.withVfs_time (s : State) (x : Nat) : (s.withVfs x).time = s.time := (rfl)
@[simp] theorem State.withVfs_ptime (s : State) (x : Nat) : (s.withVfs x).ptime = s.ptime := (rfl)
@[simp] theorem State.withVfs_tiles (s : State) (x : Nat) : (s.withVfs x).tiles = s.tiles := (rfl)
@[simp] theorem State.withVfs_lineCells (s : State) (x : Nat) : (s.withVfs x).lineCells = s.lineCells := (rfl)
@[simp] theorem State.withVfs_tokens (s : State) (x : Nat) : (s.withVfs x).tokens = s.tokens := (rfl)
@[simp] theorem State.withVfs_tokOps (s : State) (x : Nat) : (s.withVfs x).tokOps = s.tokOps := (rfl)
@[simp] theorem State.withVfs_spent (s : State) (x : Nat) : (s.withVfs x).spent = s.spent := (rfl)
@[simp] theorem State.withVfs_recent (s : State) (x : Nat) : (s.withVfs x).recent = s.recent := (rfl)
@[simp] theorem State.withVfs_walkers (s : State) (x : Nat) : (s.withVfs x).walkers = s.walkers := (rfl)
@[simp] theorem State.withVfs_preWalkers (s : State) (x : Nat) : (s.withVfs x).preWalkers = s.preWalkers := (rfl)
@[simp] theorem State.withVfs_transits (s : State) (x : Nat) : (s.withVfs x).transits = s.transits := (rfl)
@[simp] theorem State.withVfs_sramReads (s : State) (x : Nat) : (s.withVfs x).sramReads = s.sramReads := (rfl)
@[simp] theorem State.withVfs_jn (s : State) (x : Nat) : (s.withVfs x).jn = s.jn := (rfl)
@[simp] theorem State.withVfs_ports (s : State) (x : Nat) : (s.withVfs x).ports = s.ports := (rfl)
@[simp] theorem State.withVfs_rings (s : State) (x : Nat) : (s.withVfs x).rings = s.rings := (rfl)
@[simp] theorem State.withVfs_turn (s : State) (x : Nat) : (s.withVfs x).turn = s.turn := (rfl)
@[simp] theorem State.withVfs_notify (s : State) (x : Nat) : (s.withVfs x).notify = s.notify := (rfl)
@[simp] theorem State.withVfs_notes (s : State) (x : Nat) : (s.withVfs x).notes = s.notes := (rfl)
@[simp] theorem State.withVfs_hostOut (s : State) (x : Nat) : (s.withVfs x).hostOut = s.hostOut := (rfl)
@[simp] theorem State.withVfs_irqs (s : State) (x : Nat) : (s.withVfs x).irqs = s.irqs := (rfl)
@[simp] theorem State.withVfs_vfs (s : State) (x : Nat) : (s.withVfs x).vfs = x := (rfl)
@[simp] theorem State.withVfs_pcieUp (s : State) (x : Nat) : (s.withVfs x).pcieUp = s.pcieUp := (rfl)
@[simp] theorem State.withVfs_pcie (s : State) (x : Nat) : (s.withVfs x).pcie = s.pcie := (rfl)
@[simp] theorem State.withVfs_ats (s : State) (x : Nat) : (s.withVfs x).ats = s.ats := (rfl)
@[simp] theorem State.withVfs_atsDone (s : State) (x : Nat) : (s.withVfs x).atsDone = s.atsDone := (rfl)
@[simp] theorem State.withVfs_parts (s : State) (x : Nat) : (s.withVfs x).parts = s.parts := (rfl)
@[simp] theorem State.withVfs_lock (s : State) (x : Nat) : (s.withVfs x).lock = s.lock := (rfl)
@[simp] theorem State.withVfs_power (s : State) (x : Nat) : (s.withVfs x).power = s.power := (rfl)
@[simp] theorem State.withVfs_pins (s : State) (x : Nat) : (s.withVfs x).pins = s.pins := (rfl)
@[simp] theorem State.withVfs_mon (s : State) (x : Nat) : (s.withVfs x).mon = s.mon := (rfl)
@[simp] theorem State.withVfs_txn (s : State) (x : Nat) : (s.withVfs x).txn = s.txn := (rfl)
@[simp] theorem State.withVfs_armedTxns (s : State) (x : Nat) : (s.withVfs x).armedTxns = s.armedTxns := (rfl)
@[simp] theorem State.withVfs_prot (s : State) (x : Nat) : (s.withVfs x).prot = s.prot := (rfl)
@[simp] theorem State.withVfs_snapAt (s : State) (x : Nat) : (s.withVfs x).snapAt = s.snapAt := (rfl)
@[simp] theorem State.withVfs_trace (s : State) (x : Nat) : (s.withVfs x).trace = s.trace := (rfl)
@[simp] theorem State.withVfs_traceQ (s : State) (x : Nat) : (s.withVfs x).traceQ = s.traceQ := (rfl)
@[simp] theorem State.withVfs_dump (s : State) (x : Nat) : (s.withVfs x).dump = s.dump := (rfl)
@[simp] theorem State.withVfs_wfg (s : State) (x : Nat) : (s.withVfs x).wfg = s.wfg := (rfl)
@[simp] theorem State.withVfs_i3c (s : State) (x : Nat) : (s.withVfs x).i3c = s.i3c := (rfl)
@[simp] theorem State.withVfs_readData (s : State) (x : Nat) : (s.withVfs x).readData = s.readData := (rfl)
@[simp] theorem State.withVfs_inject (s : State) (x : Nat) : (s.withVfs x).inject = s.inject := (rfl)
@[simp] theorem State.withVfs_streams (s : State) (x : Nat) : (s.withVfs x).streams = s.streams := (rfl)
@[simp] theorem State.withVfs_engine (s : State) (x : Nat) : (s.withVfs x).engine = s.engine := (rfl)
@[simp] theorem State.withVfs_grants (s : State) (x : Nat) : (s.withVfs x).grants = s.grants := (rfl)
@[simp] theorem State.withVfs_hbm (s : State) (x : Nat) : (s.withVfs x).hbm = s.hbm := (rfl)
@[simp] theorem State.withVfs_spray (s : State) (x : Nat) : (s.withVfs x).spray = s.spray := (rfl)
@[simp] theorem State.withVfs_nseq (s : State) (x : Nat) : (s.withVfs x).nseq = s.nseq := (rfl)
@[simp] theorem State.withVfs_lastNseq (s : State) (x : Nat) : (s.withVfs x).lastNseq = s.lastNseq := (rfl)
@[simp] theorem State.withVfs_flipPrev (s : State) (x : Nat) : (s.withVfs x).flipPrev = s.flipPrev := (rfl)
@[simp] theorem State.withVfs_skipScrub (s : State) (x : Nat) : (s.withVfs x).skipScrub = s.skipScrub := (rfl)
@[simp] theorem State.withVfs_failedQuarters (s : State) (x : Nat) : (s.withVfs x).failedQuarters = s.failedQuarters := (rfl)
@[simp] theorem State.withVfs_ethOut (s : State) (x : Nat) : (s.withVfs x).ethOut = s.ethOut := (rfl)
@[simp] theorem State.withVfs_setNow (s : State) (x : Nat) : (s.withVfs x).setNow = s.setNow := (rfl)
@[simp] theorem State.withVfs_txnNow (s : State) (x : Nat) : (s.withVfs x).txnNow = s.txnNow := (rfl)
@[simp] theorem State.withVfs_cycleNow (s : State) (x : Nat) : (s.withVfs x).cycleNow = s.cycleNow := (rfl)

@[simp] theorem State.withPcieUp_pending (s : State) (x : Bool) : (s.withPcieUp x).pending = s.pending := (rfl)
@[simp] theorem State.withPcieUp_freeCtr (s : State) (x : Bool) : (s.withPcieUp x).freeCtr = s.freeCtr := (rfl)
@[simp] theorem State.withPcieUp_regs (s : State) (x : Bool) : (s.withPcieUp x).regs = s.regs := (rfl)
@[simp] theorem State.withPcieUp_mem (s : State) (x : Bool) : (s.withPcieUp x).mem = s.mem := (rfl)
@[simp] theorem State.withPcieUp_dies (s : State) (x : Bool) : (s.withPcieUp x).dies = s.dies := (rfl)
@[simp] theorem State.withPcieUp_evlog (s : State) (x : Bool) : (s.withPcieUp x).evlog = s.evlog := (rfl)
@[simp] theorem State.withPcieUp_acceptAt (s : State) (x : Bool) : (s.withPcieUp x).acceptAt = s.acceptAt := (rfl)
@[simp] theorem State.withPcieUp_rates (s : State) (x : Bool) : (s.withPcieUp x).rates = s.rates := (rfl)
@[simp] theorem State.withPcieUp_time (s : State) (x : Bool) : (s.withPcieUp x).time = s.time := (rfl)
@[simp] theorem State.withPcieUp_ptime (s : State) (x : Bool) : (s.withPcieUp x).ptime = s.ptime := (rfl)
@[simp] theorem State.withPcieUp_tiles (s : State) (x : Bool) : (s.withPcieUp x).tiles = s.tiles := (rfl)
@[simp] theorem State.withPcieUp_lineCells (s : State) (x : Bool) : (s.withPcieUp x).lineCells = s.lineCells := (rfl)
@[simp] theorem State.withPcieUp_tokens (s : State) (x : Bool) : (s.withPcieUp x).tokens = s.tokens := (rfl)
@[simp] theorem State.withPcieUp_tokOps (s : State) (x : Bool) : (s.withPcieUp x).tokOps = s.tokOps := (rfl)
@[simp] theorem State.withPcieUp_spent (s : State) (x : Bool) : (s.withPcieUp x).spent = s.spent := (rfl)
@[simp] theorem State.withPcieUp_recent (s : State) (x : Bool) : (s.withPcieUp x).recent = s.recent := (rfl)
@[simp] theorem State.withPcieUp_walkers (s : State) (x : Bool) : (s.withPcieUp x).walkers = s.walkers := (rfl)
@[simp] theorem State.withPcieUp_preWalkers (s : State) (x : Bool) : (s.withPcieUp x).preWalkers = s.preWalkers := (rfl)
@[simp] theorem State.withPcieUp_transits (s : State) (x : Bool) : (s.withPcieUp x).transits = s.transits := (rfl)
@[simp] theorem State.withPcieUp_sramReads (s : State) (x : Bool) : (s.withPcieUp x).sramReads = s.sramReads := (rfl)
@[simp] theorem State.withPcieUp_jn (s : State) (x : Bool) : (s.withPcieUp x).jn = s.jn := (rfl)
@[simp] theorem State.withPcieUp_ports (s : State) (x : Bool) : (s.withPcieUp x).ports = s.ports := (rfl)
@[simp] theorem State.withPcieUp_rings (s : State) (x : Bool) : (s.withPcieUp x).rings = s.rings := (rfl)
@[simp] theorem State.withPcieUp_turn (s : State) (x : Bool) : (s.withPcieUp x).turn = s.turn := (rfl)
@[simp] theorem State.withPcieUp_notify (s : State) (x : Bool) : (s.withPcieUp x).notify = s.notify := (rfl)
@[simp] theorem State.withPcieUp_notes (s : State) (x : Bool) : (s.withPcieUp x).notes = s.notes := (rfl)
@[simp] theorem State.withPcieUp_hostOut (s : State) (x : Bool) : (s.withPcieUp x).hostOut = s.hostOut := (rfl)
@[simp] theorem State.withPcieUp_irqs (s : State) (x : Bool) : (s.withPcieUp x).irqs = s.irqs := (rfl)
@[simp] theorem State.withPcieUp_vfs (s : State) (x : Bool) : (s.withPcieUp x).vfs = s.vfs := (rfl)
@[simp] theorem State.withPcieUp_pcieUp (s : State) (x : Bool) : (s.withPcieUp x).pcieUp = x := (rfl)
@[simp] theorem State.withPcieUp_pcie (s : State) (x : Bool) : (s.withPcieUp x).pcie = s.pcie := (rfl)
@[simp] theorem State.withPcieUp_ats (s : State) (x : Bool) : (s.withPcieUp x).ats = s.ats := (rfl)
@[simp] theorem State.withPcieUp_atsDone (s : State) (x : Bool) : (s.withPcieUp x).atsDone = s.atsDone := (rfl)
@[simp] theorem State.withPcieUp_parts (s : State) (x : Bool) : (s.withPcieUp x).parts = s.parts := (rfl)
@[simp] theorem State.withPcieUp_lock (s : State) (x : Bool) : (s.withPcieUp x).lock = s.lock := (rfl)
@[simp] theorem State.withPcieUp_power (s : State) (x : Bool) : (s.withPcieUp x).power = s.power := (rfl)
@[simp] theorem State.withPcieUp_pins (s : State) (x : Bool) : (s.withPcieUp x).pins = s.pins := (rfl)
@[simp] theorem State.withPcieUp_mon (s : State) (x : Bool) : (s.withPcieUp x).mon = s.mon := (rfl)
@[simp] theorem State.withPcieUp_txn (s : State) (x : Bool) : (s.withPcieUp x).txn = s.txn := (rfl)
@[simp] theorem State.withPcieUp_armedTxns (s : State) (x : Bool) : (s.withPcieUp x).armedTxns = s.armedTxns := (rfl)
@[simp] theorem State.withPcieUp_prot (s : State) (x : Bool) : (s.withPcieUp x).prot = s.prot := (rfl)
@[simp] theorem State.withPcieUp_snapAt (s : State) (x : Bool) : (s.withPcieUp x).snapAt = s.snapAt := (rfl)
@[simp] theorem State.withPcieUp_trace (s : State) (x : Bool) : (s.withPcieUp x).trace = s.trace := (rfl)
@[simp] theorem State.withPcieUp_traceQ (s : State) (x : Bool) : (s.withPcieUp x).traceQ = s.traceQ := (rfl)
@[simp] theorem State.withPcieUp_dump (s : State) (x : Bool) : (s.withPcieUp x).dump = s.dump := (rfl)
@[simp] theorem State.withPcieUp_wfg (s : State) (x : Bool) : (s.withPcieUp x).wfg = s.wfg := (rfl)
@[simp] theorem State.withPcieUp_i3c (s : State) (x : Bool) : (s.withPcieUp x).i3c = s.i3c := (rfl)
@[simp] theorem State.withPcieUp_readData (s : State) (x : Bool) : (s.withPcieUp x).readData = s.readData := (rfl)
@[simp] theorem State.withPcieUp_inject (s : State) (x : Bool) : (s.withPcieUp x).inject = s.inject := (rfl)
@[simp] theorem State.withPcieUp_streams (s : State) (x : Bool) : (s.withPcieUp x).streams = s.streams := (rfl)
@[simp] theorem State.withPcieUp_engine (s : State) (x : Bool) : (s.withPcieUp x).engine = s.engine := (rfl)
@[simp] theorem State.withPcieUp_grants (s : State) (x : Bool) : (s.withPcieUp x).grants = s.grants := (rfl)
@[simp] theorem State.withPcieUp_hbm (s : State) (x : Bool) : (s.withPcieUp x).hbm = s.hbm := (rfl)
@[simp] theorem State.withPcieUp_spray (s : State) (x : Bool) : (s.withPcieUp x).spray = s.spray := (rfl)
@[simp] theorem State.withPcieUp_nseq (s : State) (x : Bool) : (s.withPcieUp x).nseq = s.nseq := (rfl)
@[simp] theorem State.withPcieUp_lastNseq (s : State) (x : Bool) : (s.withPcieUp x).lastNseq = s.lastNseq := (rfl)
@[simp] theorem State.withPcieUp_flipPrev (s : State) (x : Bool) : (s.withPcieUp x).flipPrev = s.flipPrev := (rfl)
@[simp] theorem State.withPcieUp_skipScrub (s : State) (x : Bool) : (s.withPcieUp x).skipScrub = s.skipScrub := (rfl)
@[simp] theorem State.withPcieUp_failedQuarters (s : State) (x : Bool) : (s.withPcieUp x).failedQuarters = s.failedQuarters := (rfl)
@[simp] theorem State.withPcieUp_ethOut (s : State) (x : Bool) : (s.withPcieUp x).ethOut = s.ethOut := (rfl)
@[simp] theorem State.withPcieUp_setNow (s : State) (x : Bool) : (s.withPcieUp x).setNow = s.setNow := (rfl)
@[simp] theorem State.withPcieUp_txnNow (s : State) (x : Bool) : (s.withPcieUp x).txnNow = s.txnNow := (rfl)
@[simp] theorem State.withPcieUp_cycleNow (s : State) (x : Bool) : (s.withPcieUp x).cycleNow = s.cycleNow := (rfl)

@[simp] theorem State.withAts_pending (s : State) (x : SMap (List Nat)) : (s.withAts x).pending = s.pending := (rfl)
@[simp] theorem State.withAts_freeCtr (s : State) (x : SMap (List Nat)) : (s.withAts x).freeCtr = s.freeCtr := (rfl)
@[simp] theorem State.withAts_regs (s : State) (x : SMap (List Nat)) : (s.withAts x).regs = s.regs := (rfl)
@[simp] theorem State.withAts_mem (s : State) (x : SMap (List Nat)) : (s.withAts x).mem = s.mem := (rfl)
@[simp] theorem State.withAts_dies (s : State) (x : SMap (List Nat)) : (s.withAts x).dies = s.dies := (rfl)
@[simp] theorem State.withAts_evlog (s : State) (x : SMap (List Nat)) : (s.withAts x).evlog = s.evlog := (rfl)
@[simp] theorem State.withAts_acceptAt (s : State) (x : SMap (List Nat)) : (s.withAts x).acceptAt = s.acceptAt := (rfl)
@[simp] theorem State.withAts_rates (s : State) (x : SMap (List Nat)) : (s.withAts x).rates = s.rates := (rfl)
@[simp] theorem State.withAts_time (s : State) (x : SMap (List Nat)) : (s.withAts x).time = s.time := (rfl)
@[simp] theorem State.withAts_ptime (s : State) (x : SMap (List Nat)) : (s.withAts x).ptime = s.ptime := (rfl)
@[simp] theorem State.withAts_tiles (s : State) (x : SMap (List Nat)) : (s.withAts x).tiles = s.tiles := (rfl)
@[simp] theorem State.withAts_lineCells (s : State) (x : SMap (List Nat)) : (s.withAts x).lineCells = s.lineCells := (rfl)
@[simp] theorem State.withAts_tokens (s : State) (x : SMap (List Nat)) : (s.withAts x).tokens = s.tokens := (rfl)
@[simp] theorem State.withAts_tokOps (s : State) (x : SMap (List Nat)) : (s.withAts x).tokOps = s.tokOps := (rfl)
@[simp] theorem State.withAts_spent (s : State) (x : SMap (List Nat)) : (s.withAts x).spent = s.spent := (rfl)
@[simp] theorem State.withAts_recent (s : State) (x : SMap (List Nat)) : (s.withAts x).recent = s.recent := (rfl)
@[simp] theorem State.withAts_walkers (s : State) (x : SMap (List Nat)) : (s.withAts x).walkers = s.walkers := (rfl)
@[simp] theorem State.withAts_preWalkers (s : State) (x : SMap (List Nat)) : (s.withAts x).preWalkers = s.preWalkers := (rfl)
@[simp] theorem State.withAts_transits (s : State) (x : SMap (List Nat)) : (s.withAts x).transits = s.transits := (rfl)
@[simp] theorem State.withAts_sramReads (s : State) (x : SMap (List Nat)) : (s.withAts x).sramReads = s.sramReads := (rfl)
@[simp] theorem State.withAts_jn (s : State) (x : SMap (List Nat)) : (s.withAts x).jn = s.jn := (rfl)
@[simp] theorem State.withAts_ports (s : State) (x : SMap (List Nat)) : (s.withAts x).ports = s.ports := (rfl)
@[simp] theorem State.withAts_rings (s : State) (x : SMap (List Nat)) : (s.withAts x).rings = s.rings := (rfl)
@[simp] theorem State.withAts_turn (s : State) (x : SMap (List Nat)) : (s.withAts x).turn = s.turn := (rfl)
@[simp] theorem State.withAts_notify (s : State) (x : SMap (List Nat)) : (s.withAts x).notify = s.notify := (rfl)
@[simp] theorem State.withAts_notes (s : State) (x : SMap (List Nat)) : (s.withAts x).notes = s.notes := (rfl)
@[simp] theorem State.withAts_hostOut (s : State) (x : SMap (List Nat)) : (s.withAts x).hostOut = s.hostOut := (rfl)
@[simp] theorem State.withAts_irqs (s : State) (x : SMap (List Nat)) : (s.withAts x).irqs = s.irqs := (rfl)
@[simp] theorem State.withAts_vfs (s : State) (x : SMap (List Nat)) : (s.withAts x).vfs = s.vfs := (rfl)
@[simp] theorem State.withAts_pcieUp (s : State) (x : SMap (List Nat)) : (s.withAts x).pcieUp = s.pcieUp := (rfl)
@[simp] theorem State.withAts_pcie (s : State) (x : SMap (List Nat)) : (s.withAts x).pcie = s.pcie := (rfl)
@[simp] theorem State.withAts_ats (s : State) (x : SMap (List Nat)) : (s.withAts x).ats = x := (rfl)
@[simp] theorem State.withAts_atsDone (s : State) (x : SMap (List Nat)) : (s.withAts x).atsDone = s.atsDone := (rfl)
@[simp] theorem State.withAts_parts (s : State) (x : SMap (List Nat)) : (s.withAts x).parts = s.parts := (rfl)
@[simp] theorem State.withAts_lock (s : State) (x : SMap (List Nat)) : (s.withAts x).lock = s.lock := (rfl)
@[simp] theorem State.withAts_power (s : State) (x : SMap (List Nat)) : (s.withAts x).power = s.power := (rfl)
@[simp] theorem State.withAts_pins (s : State) (x : SMap (List Nat)) : (s.withAts x).pins = s.pins := (rfl)
@[simp] theorem State.withAts_mon (s : State) (x : SMap (List Nat)) : (s.withAts x).mon = s.mon := (rfl)
@[simp] theorem State.withAts_txn (s : State) (x : SMap (List Nat)) : (s.withAts x).txn = s.txn := (rfl)
@[simp] theorem State.withAts_armedTxns (s : State) (x : SMap (List Nat)) : (s.withAts x).armedTxns = s.armedTxns := (rfl)
@[simp] theorem State.withAts_prot (s : State) (x : SMap (List Nat)) : (s.withAts x).prot = s.prot := (rfl)
@[simp] theorem State.withAts_snapAt (s : State) (x : SMap (List Nat)) : (s.withAts x).snapAt = s.snapAt := (rfl)
@[simp] theorem State.withAts_trace (s : State) (x : SMap (List Nat)) : (s.withAts x).trace = s.trace := (rfl)
@[simp] theorem State.withAts_traceQ (s : State) (x : SMap (List Nat)) : (s.withAts x).traceQ = s.traceQ := (rfl)
@[simp] theorem State.withAts_dump (s : State) (x : SMap (List Nat)) : (s.withAts x).dump = s.dump := (rfl)
@[simp] theorem State.withAts_wfg (s : State) (x : SMap (List Nat)) : (s.withAts x).wfg = s.wfg := (rfl)
@[simp] theorem State.withAts_i3c (s : State) (x : SMap (List Nat)) : (s.withAts x).i3c = s.i3c := (rfl)
@[simp] theorem State.withAts_readData (s : State) (x : SMap (List Nat)) : (s.withAts x).readData = s.readData := (rfl)
@[simp] theorem State.withAts_inject (s : State) (x : SMap (List Nat)) : (s.withAts x).inject = s.inject := (rfl)
@[simp] theorem State.withAts_streams (s : State) (x : SMap (List Nat)) : (s.withAts x).streams = s.streams := (rfl)
@[simp] theorem State.withAts_engine (s : State) (x : SMap (List Nat)) : (s.withAts x).engine = s.engine := (rfl)
@[simp] theorem State.withAts_grants (s : State) (x : SMap (List Nat)) : (s.withAts x).grants = s.grants := (rfl)
@[simp] theorem State.withAts_hbm (s : State) (x : SMap (List Nat)) : (s.withAts x).hbm = s.hbm := (rfl)
@[simp] theorem State.withAts_spray (s : State) (x : SMap (List Nat)) : (s.withAts x).spray = s.spray := (rfl)
@[simp] theorem State.withAts_nseq (s : State) (x : SMap (List Nat)) : (s.withAts x).nseq = s.nseq := (rfl)
@[simp] theorem State.withAts_lastNseq (s : State) (x : SMap (List Nat)) : (s.withAts x).lastNseq = s.lastNseq := (rfl)
@[simp] theorem State.withAts_flipPrev (s : State) (x : SMap (List Nat)) : (s.withAts x).flipPrev = s.flipPrev := (rfl)
@[simp] theorem State.withAts_skipScrub (s : State) (x : SMap (List Nat)) : (s.withAts x).skipScrub = s.skipScrub := (rfl)
@[simp] theorem State.withAts_failedQuarters (s : State) (x : SMap (List Nat)) : (s.withAts x).failedQuarters = s.failedQuarters := (rfl)
@[simp] theorem State.withAts_ethOut (s : State) (x : SMap (List Nat)) : (s.withAts x).ethOut = s.ethOut := (rfl)
@[simp] theorem State.withAts_setNow (s : State) (x : SMap (List Nat)) : (s.withAts x).setNow = s.setNow := (rfl)
@[simp] theorem State.withAts_txnNow (s : State) (x : SMap (List Nat)) : (s.withAts x).txnNow = s.txnNow := (rfl)
@[simp] theorem State.withAts_cycleNow (s : State) (x : SMap (List Nat)) : (s.withAts x).cycleNow = s.cycleNow := (rfl)

@[simp] theorem State.withAtsDone_pending (s : State) (x : List Nat) : (s.withAtsDone x).pending = s.pending := (rfl)
@[simp] theorem State.withAtsDone_freeCtr (s : State) (x : List Nat) : (s.withAtsDone x).freeCtr = s.freeCtr := (rfl)
@[simp] theorem State.withAtsDone_regs (s : State) (x : List Nat) : (s.withAtsDone x).regs = s.regs := (rfl)
@[simp] theorem State.withAtsDone_mem (s : State) (x : List Nat) : (s.withAtsDone x).mem = s.mem := (rfl)
@[simp] theorem State.withAtsDone_dies (s : State) (x : List Nat) : (s.withAtsDone x).dies = s.dies := (rfl)
@[simp] theorem State.withAtsDone_evlog (s : State) (x : List Nat) : (s.withAtsDone x).evlog = s.evlog := (rfl)
@[simp] theorem State.withAtsDone_acceptAt (s : State) (x : List Nat) : (s.withAtsDone x).acceptAt = s.acceptAt := (rfl)
@[simp] theorem State.withAtsDone_rates (s : State) (x : List Nat) : (s.withAtsDone x).rates = s.rates := (rfl)
@[simp] theorem State.withAtsDone_time (s : State) (x : List Nat) : (s.withAtsDone x).time = s.time := (rfl)
@[simp] theorem State.withAtsDone_ptime (s : State) (x : List Nat) : (s.withAtsDone x).ptime = s.ptime := (rfl)
@[simp] theorem State.withAtsDone_tiles (s : State) (x : List Nat) : (s.withAtsDone x).tiles = s.tiles := (rfl)
@[simp] theorem State.withAtsDone_lineCells (s : State) (x : List Nat) : (s.withAtsDone x).lineCells = s.lineCells := (rfl)
@[simp] theorem State.withAtsDone_tokens (s : State) (x : List Nat) : (s.withAtsDone x).tokens = s.tokens := (rfl)
@[simp] theorem State.withAtsDone_tokOps (s : State) (x : List Nat) : (s.withAtsDone x).tokOps = s.tokOps := (rfl)
@[simp] theorem State.withAtsDone_spent (s : State) (x : List Nat) : (s.withAtsDone x).spent = s.spent := (rfl)
@[simp] theorem State.withAtsDone_recent (s : State) (x : List Nat) : (s.withAtsDone x).recent = s.recent := (rfl)
@[simp] theorem State.withAtsDone_walkers (s : State) (x : List Nat) : (s.withAtsDone x).walkers = s.walkers := (rfl)
@[simp] theorem State.withAtsDone_preWalkers (s : State) (x : List Nat) : (s.withAtsDone x).preWalkers = s.preWalkers := (rfl)
@[simp] theorem State.withAtsDone_transits (s : State) (x : List Nat) : (s.withAtsDone x).transits = s.transits := (rfl)
@[simp] theorem State.withAtsDone_sramReads (s : State) (x : List Nat) : (s.withAtsDone x).sramReads = s.sramReads := (rfl)
@[simp] theorem State.withAtsDone_jn (s : State) (x : List Nat) : (s.withAtsDone x).jn = s.jn := (rfl)
@[simp] theorem State.withAtsDone_ports (s : State) (x : List Nat) : (s.withAtsDone x).ports = s.ports := (rfl)
@[simp] theorem State.withAtsDone_rings (s : State) (x : List Nat) : (s.withAtsDone x).rings = s.rings := (rfl)
@[simp] theorem State.withAtsDone_turn (s : State) (x : List Nat) : (s.withAtsDone x).turn = s.turn := (rfl)
@[simp] theorem State.withAtsDone_notify (s : State) (x : List Nat) : (s.withAtsDone x).notify = s.notify := (rfl)
@[simp] theorem State.withAtsDone_notes (s : State) (x : List Nat) : (s.withAtsDone x).notes = s.notes := (rfl)
@[simp] theorem State.withAtsDone_hostOut (s : State) (x : List Nat) : (s.withAtsDone x).hostOut = s.hostOut := (rfl)
@[simp] theorem State.withAtsDone_irqs (s : State) (x : List Nat) : (s.withAtsDone x).irqs = s.irqs := (rfl)
@[simp] theorem State.withAtsDone_vfs (s : State) (x : List Nat) : (s.withAtsDone x).vfs = s.vfs := (rfl)
@[simp] theorem State.withAtsDone_pcieUp (s : State) (x : List Nat) : (s.withAtsDone x).pcieUp = s.pcieUp := (rfl)
@[simp] theorem State.withAtsDone_pcie (s : State) (x : List Nat) : (s.withAtsDone x).pcie = s.pcie := (rfl)
@[simp] theorem State.withAtsDone_ats (s : State) (x : List Nat) : (s.withAtsDone x).ats = s.ats := (rfl)
@[simp] theorem State.withAtsDone_atsDone (s : State) (x : List Nat) : (s.withAtsDone x).atsDone = x := (rfl)
@[simp] theorem State.withAtsDone_parts (s : State) (x : List Nat) : (s.withAtsDone x).parts = s.parts := (rfl)
@[simp] theorem State.withAtsDone_lock (s : State) (x : List Nat) : (s.withAtsDone x).lock = s.lock := (rfl)
@[simp] theorem State.withAtsDone_power (s : State) (x : List Nat) : (s.withAtsDone x).power = s.power := (rfl)
@[simp] theorem State.withAtsDone_pins (s : State) (x : List Nat) : (s.withAtsDone x).pins = s.pins := (rfl)
@[simp] theorem State.withAtsDone_mon (s : State) (x : List Nat) : (s.withAtsDone x).mon = s.mon := (rfl)
@[simp] theorem State.withAtsDone_txn (s : State) (x : List Nat) : (s.withAtsDone x).txn = s.txn := (rfl)
@[simp] theorem State.withAtsDone_armedTxns (s : State) (x : List Nat) : (s.withAtsDone x).armedTxns = s.armedTxns := (rfl)
@[simp] theorem State.withAtsDone_prot (s : State) (x : List Nat) : (s.withAtsDone x).prot = s.prot := (rfl)
@[simp] theorem State.withAtsDone_snapAt (s : State) (x : List Nat) : (s.withAtsDone x).snapAt = s.snapAt := (rfl)
@[simp] theorem State.withAtsDone_trace (s : State) (x : List Nat) : (s.withAtsDone x).trace = s.trace := (rfl)
@[simp] theorem State.withAtsDone_traceQ (s : State) (x : List Nat) : (s.withAtsDone x).traceQ = s.traceQ := (rfl)
@[simp] theorem State.withAtsDone_dump (s : State) (x : List Nat) : (s.withAtsDone x).dump = s.dump := (rfl)
@[simp] theorem State.withAtsDone_wfg (s : State) (x : List Nat) : (s.withAtsDone x).wfg = s.wfg := (rfl)
@[simp] theorem State.withAtsDone_i3c (s : State) (x : List Nat) : (s.withAtsDone x).i3c = s.i3c := (rfl)
@[simp] theorem State.withAtsDone_readData (s : State) (x : List Nat) : (s.withAtsDone x).readData = s.readData := (rfl)
@[simp] theorem State.withAtsDone_inject (s : State) (x : List Nat) : (s.withAtsDone x).inject = s.inject := (rfl)
@[simp] theorem State.withAtsDone_streams (s : State) (x : List Nat) : (s.withAtsDone x).streams = s.streams := (rfl)
@[simp] theorem State.withAtsDone_engine (s : State) (x : List Nat) : (s.withAtsDone x).engine = s.engine := (rfl)
@[simp] theorem State.withAtsDone_grants (s : State) (x : List Nat) : (s.withAtsDone x).grants = s.grants := (rfl)
@[simp] theorem State.withAtsDone_hbm (s : State) (x : List Nat) : (s.withAtsDone x).hbm = s.hbm := (rfl)
@[simp] theorem State.withAtsDone_spray (s : State) (x : List Nat) : (s.withAtsDone x).spray = s.spray := (rfl)
@[simp] theorem State.withAtsDone_nseq (s : State) (x : List Nat) : (s.withAtsDone x).nseq = s.nseq := (rfl)
@[simp] theorem State.withAtsDone_lastNseq (s : State) (x : List Nat) : (s.withAtsDone x).lastNseq = s.lastNseq := (rfl)
@[simp] theorem State.withAtsDone_flipPrev (s : State) (x : List Nat) : (s.withAtsDone x).flipPrev = s.flipPrev := (rfl)
@[simp] theorem State.withAtsDone_skipScrub (s : State) (x : List Nat) : (s.withAtsDone x).skipScrub = s.skipScrub := (rfl)
@[simp] theorem State.withAtsDone_failedQuarters (s : State) (x : List Nat) : (s.withAtsDone x).failedQuarters = s.failedQuarters := (rfl)
@[simp] theorem State.withAtsDone_ethOut (s : State) (x : List Nat) : (s.withAtsDone x).ethOut = s.ethOut := (rfl)
@[simp] theorem State.withAtsDone_setNow (s : State) (x : List Nat) : (s.withAtsDone x).setNow = s.setNow := (rfl)
@[simp] theorem State.withAtsDone_txnNow (s : State) (x : List Nat) : (s.withAtsDone x).txnNow = s.txnNow := (rfl)
@[simp] theorem State.withAtsDone_cycleNow (s : State) (x : List Nat) : (s.withAtsDone x).cycleNow = s.cycleNow := (rfl)

@[simp] theorem State.withPower_pending (s : State) (x : Power) : (s.withPower x).pending = s.pending := (rfl)
@[simp] theorem State.withPower_freeCtr (s : State) (x : Power) : (s.withPower x).freeCtr = s.freeCtr := (rfl)
@[simp] theorem State.withPower_regs (s : State) (x : Power) : (s.withPower x).regs = s.regs := (rfl)
@[simp] theorem State.withPower_mem (s : State) (x : Power) : (s.withPower x).mem = s.mem := (rfl)
@[simp] theorem State.withPower_dies (s : State) (x : Power) : (s.withPower x).dies = s.dies := (rfl)
@[simp] theorem State.withPower_evlog (s : State) (x : Power) : (s.withPower x).evlog = s.evlog := (rfl)
@[simp] theorem State.withPower_acceptAt (s : State) (x : Power) : (s.withPower x).acceptAt = s.acceptAt := (rfl)
@[simp] theorem State.withPower_rates (s : State) (x : Power) : (s.withPower x).rates = s.rates := (rfl)
@[simp] theorem State.withPower_time (s : State) (x : Power) : (s.withPower x).time = s.time := (rfl)
@[simp] theorem State.withPower_ptime (s : State) (x : Power) : (s.withPower x).ptime = s.ptime := (rfl)
@[simp] theorem State.withPower_tiles (s : State) (x : Power) : (s.withPower x).tiles = s.tiles := (rfl)
@[simp] theorem State.withPower_lineCells (s : State) (x : Power) : (s.withPower x).lineCells = s.lineCells := (rfl)
@[simp] theorem State.withPower_tokens (s : State) (x : Power) : (s.withPower x).tokens = s.tokens := (rfl)
@[simp] theorem State.withPower_tokOps (s : State) (x : Power) : (s.withPower x).tokOps = s.tokOps := (rfl)
@[simp] theorem State.withPower_spent (s : State) (x : Power) : (s.withPower x).spent = s.spent := (rfl)
@[simp] theorem State.withPower_recent (s : State) (x : Power) : (s.withPower x).recent = s.recent := (rfl)
@[simp] theorem State.withPower_walkers (s : State) (x : Power) : (s.withPower x).walkers = s.walkers := (rfl)
@[simp] theorem State.withPower_preWalkers (s : State) (x : Power) : (s.withPower x).preWalkers = s.preWalkers := (rfl)
@[simp] theorem State.withPower_transits (s : State) (x : Power) : (s.withPower x).transits = s.transits := (rfl)
@[simp] theorem State.withPower_sramReads (s : State) (x : Power) : (s.withPower x).sramReads = s.sramReads := (rfl)
@[simp] theorem State.withPower_jn (s : State) (x : Power) : (s.withPower x).jn = s.jn := (rfl)
@[simp] theorem State.withPower_ports (s : State) (x : Power) : (s.withPower x).ports = s.ports := (rfl)
@[simp] theorem State.withPower_rings (s : State) (x : Power) : (s.withPower x).rings = s.rings := (rfl)
@[simp] theorem State.withPower_turn (s : State) (x : Power) : (s.withPower x).turn = s.turn := (rfl)
@[simp] theorem State.withPower_notify (s : State) (x : Power) : (s.withPower x).notify = s.notify := (rfl)
@[simp] theorem State.withPower_notes (s : State) (x : Power) : (s.withPower x).notes = s.notes := (rfl)
@[simp] theorem State.withPower_hostOut (s : State) (x : Power) : (s.withPower x).hostOut = s.hostOut := (rfl)
@[simp] theorem State.withPower_irqs (s : State) (x : Power) : (s.withPower x).irqs = s.irqs := (rfl)
@[simp] theorem State.withPower_vfs (s : State) (x : Power) : (s.withPower x).vfs = s.vfs := (rfl)
@[simp] theorem State.withPower_pcieUp (s : State) (x : Power) : (s.withPower x).pcieUp = s.pcieUp := (rfl)
@[simp] theorem State.withPower_pcie (s : State) (x : Power) : (s.withPower x).pcie = s.pcie := (rfl)
@[simp] theorem State.withPower_ats (s : State) (x : Power) : (s.withPower x).ats = s.ats := (rfl)
@[simp] theorem State.withPower_atsDone (s : State) (x : Power) : (s.withPower x).atsDone = s.atsDone := (rfl)
@[simp] theorem State.withPower_parts (s : State) (x : Power) : (s.withPower x).parts = s.parts := (rfl)
@[simp] theorem State.withPower_lock (s : State) (x : Power) : (s.withPower x).lock = s.lock := (rfl)
@[simp] theorem State.withPower_power (s : State) (x : Power) : (s.withPower x).power = x := (rfl)
@[simp] theorem State.withPower_pins (s : State) (x : Power) : (s.withPower x).pins = s.pins := (rfl)
@[simp] theorem State.withPower_mon (s : State) (x : Power) : (s.withPower x).mon = s.mon := (rfl)
@[simp] theorem State.withPower_txn (s : State) (x : Power) : (s.withPower x).txn = s.txn := (rfl)
@[simp] theorem State.withPower_armedTxns (s : State) (x : Power) : (s.withPower x).armedTxns = s.armedTxns := (rfl)
@[simp] theorem State.withPower_prot (s : State) (x : Power) : (s.withPower x).prot = s.prot := (rfl)
@[simp] theorem State.withPower_snapAt (s : State) (x : Power) : (s.withPower x).snapAt = s.snapAt := (rfl)
@[simp] theorem State.withPower_trace (s : State) (x : Power) : (s.withPower x).trace = s.trace := (rfl)
@[simp] theorem State.withPower_traceQ (s : State) (x : Power) : (s.withPower x).traceQ = s.traceQ := (rfl)
@[simp] theorem State.withPower_dump (s : State) (x : Power) : (s.withPower x).dump = s.dump := (rfl)
@[simp] theorem State.withPower_wfg (s : State) (x : Power) : (s.withPower x).wfg = s.wfg := (rfl)
@[simp] theorem State.withPower_i3c (s : State) (x : Power) : (s.withPower x).i3c = s.i3c := (rfl)
@[simp] theorem State.withPower_readData (s : State) (x : Power) : (s.withPower x).readData = s.readData := (rfl)
@[simp] theorem State.withPower_inject (s : State) (x : Power) : (s.withPower x).inject = s.inject := (rfl)
@[simp] theorem State.withPower_streams (s : State) (x : Power) : (s.withPower x).streams = s.streams := (rfl)
@[simp] theorem State.withPower_engine (s : State) (x : Power) : (s.withPower x).engine = s.engine := (rfl)
@[simp] theorem State.withPower_grants (s : State) (x : Power) : (s.withPower x).grants = s.grants := (rfl)
@[simp] theorem State.withPower_hbm (s : State) (x : Power) : (s.withPower x).hbm = s.hbm := (rfl)
@[simp] theorem State.withPower_spray (s : State) (x : Power) : (s.withPower x).spray = s.spray := (rfl)
@[simp] theorem State.withPower_nseq (s : State) (x : Power) : (s.withPower x).nseq = s.nseq := (rfl)
@[simp] theorem State.withPower_lastNseq (s : State) (x : Power) : (s.withPower x).lastNseq = s.lastNseq := (rfl)
@[simp] theorem State.withPower_flipPrev (s : State) (x : Power) : (s.withPower x).flipPrev = s.flipPrev := (rfl)
@[simp] theorem State.withPower_skipScrub (s : State) (x : Power) : (s.withPower x).skipScrub = s.skipScrub := (rfl)
@[simp] theorem State.withPower_failedQuarters (s : State) (x : Power) : (s.withPower x).failedQuarters = s.failedQuarters := (rfl)
@[simp] theorem State.withPower_ethOut (s : State) (x : Power) : (s.withPower x).ethOut = s.ethOut := (rfl)
@[simp] theorem State.withPower_setNow (s : State) (x : Power) : (s.withPower x).setNow = s.setNow := (rfl)
@[simp] theorem State.withPower_txnNow (s : State) (x : Power) : (s.withPower x).txnNow = s.txnNow := (rfl)
@[simp] theorem State.withPower_cycleNow (s : State) (x : Power) : (s.withPower x).cycleNow = s.cycleNow := (rfl)

@[simp] theorem State.withPins_pending (s : State) (x : Pins) : (s.withPins x).pending = s.pending := (rfl)
@[simp] theorem State.withPins_freeCtr (s : State) (x : Pins) : (s.withPins x).freeCtr = s.freeCtr := (rfl)
@[simp] theorem State.withPins_regs (s : State) (x : Pins) : (s.withPins x).regs = s.regs := (rfl)
@[simp] theorem State.withPins_mem (s : State) (x : Pins) : (s.withPins x).mem = s.mem := (rfl)
@[simp] theorem State.withPins_dies (s : State) (x : Pins) : (s.withPins x).dies = s.dies := (rfl)
@[simp] theorem State.withPins_evlog (s : State) (x : Pins) : (s.withPins x).evlog = s.evlog := (rfl)
@[simp] theorem State.withPins_acceptAt (s : State) (x : Pins) : (s.withPins x).acceptAt = s.acceptAt := (rfl)
@[simp] theorem State.withPins_rates (s : State) (x : Pins) : (s.withPins x).rates = s.rates := (rfl)
@[simp] theorem State.withPins_time (s : State) (x : Pins) : (s.withPins x).time = s.time := (rfl)
@[simp] theorem State.withPins_ptime (s : State) (x : Pins) : (s.withPins x).ptime = s.ptime := (rfl)
@[simp] theorem State.withPins_tiles (s : State) (x : Pins) : (s.withPins x).tiles = s.tiles := (rfl)
@[simp] theorem State.withPins_lineCells (s : State) (x : Pins) : (s.withPins x).lineCells = s.lineCells := (rfl)
@[simp] theorem State.withPins_tokens (s : State) (x : Pins) : (s.withPins x).tokens = s.tokens := (rfl)
@[simp] theorem State.withPins_tokOps (s : State) (x : Pins) : (s.withPins x).tokOps = s.tokOps := (rfl)
@[simp] theorem State.withPins_spent (s : State) (x : Pins) : (s.withPins x).spent = s.spent := (rfl)
@[simp] theorem State.withPins_recent (s : State) (x : Pins) : (s.withPins x).recent = s.recent := (rfl)
@[simp] theorem State.withPins_walkers (s : State) (x : Pins) : (s.withPins x).walkers = s.walkers := (rfl)
@[simp] theorem State.withPins_preWalkers (s : State) (x : Pins) : (s.withPins x).preWalkers = s.preWalkers := (rfl)
@[simp] theorem State.withPins_transits (s : State) (x : Pins) : (s.withPins x).transits = s.transits := (rfl)
@[simp] theorem State.withPins_sramReads (s : State) (x : Pins) : (s.withPins x).sramReads = s.sramReads := (rfl)
@[simp] theorem State.withPins_jn (s : State) (x : Pins) : (s.withPins x).jn = s.jn := (rfl)
@[simp] theorem State.withPins_ports (s : State) (x : Pins) : (s.withPins x).ports = s.ports := (rfl)
@[simp] theorem State.withPins_rings (s : State) (x : Pins) : (s.withPins x).rings = s.rings := (rfl)
@[simp] theorem State.withPins_turn (s : State) (x : Pins) : (s.withPins x).turn = s.turn := (rfl)
@[simp] theorem State.withPins_notify (s : State) (x : Pins) : (s.withPins x).notify = s.notify := (rfl)
@[simp] theorem State.withPins_notes (s : State) (x : Pins) : (s.withPins x).notes = s.notes := (rfl)
@[simp] theorem State.withPins_hostOut (s : State) (x : Pins) : (s.withPins x).hostOut = s.hostOut := (rfl)
@[simp] theorem State.withPins_irqs (s : State) (x : Pins) : (s.withPins x).irqs = s.irqs := (rfl)
@[simp] theorem State.withPins_vfs (s : State) (x : Pins) : (s.withPins x).vfs = s.vfs := (rfl)
@[simp] theorem State.withPins_pcieUp (s : State) (x : Pins) : (s.withPins x).pcieUp = s.pcieUp := (rfl)
@[simp] theorem State.withPins_pcie (s : State) (x : Pins) : (s.withPins x).pcie = s.pcie := (rfl)
@[simp] theorem State.withPins_ats (s : State) (x : Pins) : (s.withPins x).ats = s.ats := (rfl)
@[simp] theorem State.withPins_atsDone (s : State) (x : Pins) : (s.withPins x).atsDone = s.atsDone := (rfl)
@[simp] theorem State.withPins_parts (s : State) (x : Pins) : (s.withPins x).parts = s.parts := (rfl)
@[simp] theorem State.withPins_lock (s : State) (x : Pins) : (s.withPins x).lock = s.lock := (rfl)
@[simp] theorem State.withPins_power (s : State) (x : Pins) : (s.withPins x).power = s.power := (rfl)
@[simp] theorem State.withPins_pins (s : State) (x : Pins) : (s.withPins x).pins = x := (rfl)
@[simp] theorem State.withPins_mon (s : State) (x : Pins) : (s.withPins x).mon = s.mon := (rfl)
@[simp] theorem State.withPins_txn (s : State) (x : Pins) : (s.withPins x).txn = s.txn := (rfl)
@[simp] theorem State.withPins_armedTxns (s : State) (x : Pins) : (s.withPins x).armedTxns = s.armedTxns := (rfl)
@[simp] theorem State.withPins_prot (s : State) (x : Pins) : (s.withPins x).prot = s.prot := (rfl)
@[simp] theorem State.withPins_snapAt (s : State) (x : Pins) : (s.withPins x).snapAt = s.snapAt := (rfl)
@[simp] theorem State.withPins_trace (s : State) (x : Pins) : (s.withPins x).trace = s.trace := (rfl)
@[simp] theorem State.withPins_traceQ (s : State) (x : Pins) : (s.withPins x).traceQ = s.traceQ := (rfl)
@[simp] theorem State.withPins_dump (s : State) (x : Pins) : (s.withPins x).dump = s.dump := (rfl)
@[simp] theorem State.withPins_wfg (s : State) (x : Pins) : (s.withPins x).wfg = s.wfg := (rfl)
@[simp] theorem State.withPins_i3c (s : State) (x : Pins) : (s.withPins x).i3c = s.i3c := (rfl)
@[simp] theorem State.withPins_readData (s : State) (x : Pins) : (s.withPins x).readData = s.readData := (rfl)
@[simp] theorem State.withPins_inject (s : State) (x : Pins) : (s.withPins x).inject = s.inject := (rfl)
@[simp] theorem State.withPins_streams (s : State) (x : Pins) : (s.withPins x).streams = s.streams := (rfl)
@[simp] theorem State.withPins_engine (s : State) (x : Pins) : (s.withPins x).engine = s.engine := (rfl)
@[simp] theorem State.withPins_grants (s : State) (x : Pins) : (s.withPins x).grants = s.grants := (rfl)
@[simp] theorem State.withPins_hbm (s : State) (x : Pins) : (s.withPins x).hbm = s.hbm := (rfl)
@[simp] theorem State.withPins_spray (s : State) (x : Pins) : (s.withPins x).spray = s.spray := (rfl)
@[simp] theorem State.withPins_nseq (s : State) (x : Pins) : (s.withPins x).nseq = s.nseq := (rfl)
@[simp] theorem State.withPins_lastNseq (s : State) (x : Pins) : (s.withPins x).lastNseq = s.lastNseq := (rfl)
@[simp] theorem State.withPins_flipPrev (s : State) (x : Pins) : (s.withPins x).flipPrev = s.flipPrev := (rfl)
@[simp] theorem State.withPins_skipScrub (s : State) (x : Pins) : (s.withPins x).skipScrub = s.skipScrub := (rfl)
@[simp] theorem State.withPins_failedQuarters (s : State) (x : Pins) : (s.withPins x).failedQuarters = s.failedQuarters := (rfl)
@[simp] theorem State.withPins_ethOut (s : State) (x : Pins) : (s.withPins x).ethOut = s.ethOut := (rfl)
@[simp] theorem State.withPins_setNow (s : State) (x : Pins) : (s.withPins x).setNow = s.setNow := (rfl)
@[simp] theorem State.withPins_txnNow (s : State) (x : Pins) : (s.withPins x).txnNow = s.txnNow := (rfl)
@[simp] theorem State.withPins_cycleNow (s : State) (x : Pins) : (s.withPins x).cycleNow = s.cycleNow := (rfl)

@[simp] theorem State.withMon_pending (s : State) (x : Mon) : (s.withMon x).pending = s.pending := (rfl)
@[simp] theorem State.withMon_freeCtr (s : State) (x : Mon) : (s.withMon x).freeCtr = s.freeCtr := (rfl)
@[simp] theorem State.withMon_regs (s : State) (x : Mon) : (s.withMon x).regs = s.regs := (rfl)
@[simp] theorem State.withMon_mem (s : State) (x : Mon) : (s.withMon x).mem = s.mem := (rfl)
@[simp] theorem State.withMon_dies (s : State) (x : Mon) : (s.withMon x).dies = s.dies := (rfl)
@[simp] theorem State.withMon_evlog (s : State) (x : Mon) : (s.withMon x).evlog = s.evlog := (rfl)
@[simp] theorem State.withMon_acceptAt (s : State) (x : Mon) : (s.withMon x).acceptAt = s.acceptAt := (rfl)
@[simp] theorem State.withMon_rates (s : State) (x : Mon) : (s.withMon x).rates = s.rates := (rfl)
@[simp] theorem State.withMon_time (s : State) (x : Mon) : (s.withMon x).time = s.time := (rfl)
@[simp] theorem State.withMon_ptime (s : State) (x : Mon) : (s.withMon x).ptime = s.ptime := (rfl)
@[simp] theorem State.withMon_tiles (s : State) (x : Mon) : (s.withMon x).tiles = s.tiles := (rfl)
@[simp] theorem State.withMon_lineCells (s : State) (x : Mon) : (s.withMon x).lineCells = s.lineCells := (rfl)
@[simp] theorem State.withMon_tokens (s : State) (x : Mon) : (s.withMon x).tokens = s.tokens := (rfl)
@[simp] theorem State.withMon_tokOps (s : State) (x : Mon) : (s.withMon x).tokOps = s.tokOps := (rfl)
@[simp] theorem State.withMon_spent (s : State) (x : Mon) : (s.withMon x).spent = s.spent := (rfl)
@[simp] theorem State.withMon_recent (s : State) (x : Mon) : (s.withMon x).recent = s.recent := (rfl)
@[simp] theorem State.withMon_walkers (s : State) (x : Mon) : (s.withMon x).walkers = s.walkers := (rfl)
@[simp] theorem State.withMon_preWalkers (s : State) (x : Mon) : (s.withMon x).preWalkers = s.preWalkers := (rfl)
@[simp] theorem State.withMon_transits (s : State) (x : Mon) : (s.withMon x).transits = s.transits := (rfl)
@[simp] theorem State.withMon_sramReads (s : State) (x : Mon) : (s.withMon x).sramReads = s.sramReads := (rfl)
@[simp] theorem State.withMon_jn (s : State) (x : Mon) : (s.withMon x).jn = s.jn := (rfl)
@[simp] theorem State.withMon_ports (s : State) (x : Mon) : (s.withMon x).ports = s.ports := (rfl)
@[simp] theorem State.withMon_rings (s : State) (x : Mon) : (s.withMon x).rings = s.rings := (rfl)
@[simp] theorem State.withMon_turn (s : State) (x : Mon) : (s.withMon x).turn = s.turn := (rfl)
@[simp] theorem State.withMon_notify (s : State) (x : Mon) : (s.withMon x).notify = s.notify := (rfl)
@[simp] theorem State.withMon_notes (s : State) (x : Mon) : (s.withMon x).notes = s.notes := (rfl)
@[simp] theorem State.withMon_hostOut (s : State) (x : Mon) : (s.withMon x).hostOut = s.hostOut := (rfl)
@[simp] theorem State.withMon_irqs (s : State) (x : Mon) : (s.withMon x).irqs = s.irqs := (rfl)
@[simp] theorem State.withMon_vfs (s : State) (x : Mon) : (s.withMon x).vfs = s.vfs := (rfl)
@[simp] theorem State.withMon_pcieUp (s : State) (x : Mon) : (s.withMon x).pcieUp = s.pcieUp := (rfl)
@[simp] theorem State.withMon_pcie (s : State) (x : Mon) : (s.withMon x).pcie = s.pcie := (rfl)
@[simp] theorem State.withMon_ats (s : State) (x : Mon) : (s.withMon x).ats = s.ats := (rfl)
@[simp] theorem State.withMon_atsDone (s : State) (x : Mon) : (s.withMon x).atsDone = s.atsDone := (rfl)
@[simp] theorem State.withMon_parts (s : State) (x : Mon) : (s.withMon x).parts = s.parts := (rfl)
@[simp] theorem State.withMon_lock (s : State) (x : Mon) : (s.withMon x).lock = s.lock := (rfl)
@[simp] theorem State.withMon_power (s : State) (x : Mon) : (s.withMon x).power = s.power := (rfl)
@[simp] theorem State.withMon_pins (s : State) (x : Mon) : (s.withMon x).pins = s.pins := (rfl)
@[simp] theorem State.withMon_mon (s : State) (x : Mon) : (s.withMon x).mon = x := (rfl)
@[simp] theorem State.withMon_txn (s : State) (x : Mon) : (s.withMon x).txn = s.txn := (rfl)
@[simp] theorem State.withMon_armedTxns (s : State) (x : Mon) : (s.withMon x).armedTxns = s.armedTxns := (rfl)
@[simp] theorem State.withMon_prot (s : State) (x : Mon) : (s.withMon x).prot = s.prot := (rfl)
@[simp] theorem State.withMon_snapAt (s : State) (x : Mon) : (s.withMon x).snapAt = s.snapAt := (rfl)
@[simp] theorem State.withMon_trace (s : State) (x : Mon) : (s.withMon x).trace = s.trace := (rfl)
@[simp] theorem State.withMon_traceQ (s : State) (x : Mon) : (s.withMon x).traceQ = s.traceQ := (rfl)
@[simp] theorem State.withMon_dump (s : State) (x : Mon) : (s.withMon x).dump = s.dump := (rfl)
@[simp] theorem State.withMon_wfg (s : State) (x : Mon) : (s.withMon x).wfg = s.wfg := (rfl)
@[simp] theorem State.withMon_i3c (s : State) (x : Mon) : (s.withMon x).i3c = s.i3c := (rfl)
@[simp] theorem State.withMon_readData (s : State) (x : Mon) : (s.withMon x).readData = s.readData := (rfl)
@[simp] theorem State.withMon_inject (s : State) (x : Mon) : (s.withMon x).inject = s.inject := (rfl)
@[simp] theorem State.withMon_streams (s : State) (x : Mon) : (s.withMon x).streams = s.streams := (rfl)
@[simp] theorem State.withMon_engine (s : State) (x : Mon) : (s.withMon x).engine = s.engine := (rfl)
@[simp] theorem State.withMon_grants (s : State) (x : Mon) : (s.withMon x).grants = s.grants := (rfl)
@[simp] theorem State.withMon_hbm (s : State) (x : Mon) : (s.withMon x).hbm = s.hbm := (rfl)
@[simp] theorem State.withMon_spray (s : State) (x : Mon) : (s.withMon x).spray = s.spray := (rfl)
@[simp] theorem State.withMon_nseq (s : State) (x : Mon) : (s.withMon x).nseq = s.nseq := (rfl)
@[simp] theorem State.withMon_lastNseq (s : State) (x : Mon) : (s.withMon x).lastNseq = s.lastNseq := (rfl)
@[simp] theorem State.withMon_flipPrev (s : State) (x : Mon) : (s.withMon x).flipPrev = s.flipPrev := (rfl)
@[simp] theorem State.withMon_skipScrub (s : State) (x : Mon) : (s.withMon x).skipScrub = s.skipScrub := (rfl)
@[simp] theorem State.withMon_failedQuarters (s : State) (x : Mon) : (s.withMon x).failedQuarters = s.failedQuarters := (rfl)
@[simp] theorem State.withMon_ethOut (s : State) (x : Mon) : (s.withMon x).ethOut = s.ethOut := (rfl)
@[simp] theorem State.withMon_setNow (s : State) (x : Mon) : (s.withMon x).setNow = s.setNow := (rfl)
@[simp] theorem State.withMon_txnNow (s : State) (x : Mon) : (s.withMon x).txnNow = s.txnNow := (rfl)
@[simp] theorem State.withMon_cycleNow (s : State) (x : Mon) : (s.withMon x).cycleNow = s.cycleNow := (rfl)

@[simp] theorem State.withTxn_pending (s : State) (x : Option Txn) : (s.withTxn x).pending = s.pending := (rfl)
@[simp] theorem State.withTxn_freeCtr (s : State) (x : Option Txn) : (s.withTxn x).freeCtr = s.freeCtr := (rfl)
@[simp] theorem State.withTxn_regs (s : State) (x : Option Txn) : (s.withTxn x).regs = s.regs := (rfl)
@[simp] theorem State.withTxn_mem (s : State) (x : Option Txn) : (s.withTxn x).mem = s.mem := (rfl)
@[simp] theorem State.withTxn_dies (s : State) (x : Option Txn) : (s.withTxn x).dies = s.dies := (rfl)
@[simp] theorem State.withTxn_evlog (s : State) (x : Option Txn) : (s.withTxn x).evlog = s.evlog := (rfl)
@[simp] theorem State.withTxn_acceptAt (s : State) (x : Option Txn) : (s.withTxn x).acceptAt = s.acceptAt := (rfl)
@[simp] theorem State.withTxn_rates (s : State) (x : Option Txn) : (s.withTxn x).rates = s.rates := (rfl)
@[simp] theorem State.withTxn_time (s : State) (x : Option Txn) : (s.withTxn x).time = s.time := (rfl)
@[simp] theorem State.withTxn_ptime (s : State) (x : Option Txn) : (s.withTxn x).ptime = s.ptime := (rfl)
@[simp] theorem State.withTxn_tiles (s : State) (x : Option Txn) : (s.withTxn x).tiles = s.tiles := (rfl)
@[simp] theorem State.withTxn_lineCells (s : State) (x : Option Txn) : (s.withTxn x).lineCells = s.lineCells := (rfl)
@[simp] theorem State.withTxn_tokens (s : State) (x : Option Txn) : (s.withTxn x).tokens = s.tokens := (rfl)
@[simp] theorem State.withTxn_tokOps (s : State) (x : Option Txn) : (s.withTxn x).tokOps = s.tokOps := (rfl)
@[simp] theorem State.withTxn_spent (s : State) (x : Option Txn) : (s.withTxn x).spent = s.spent := (rfl)
@[simp] theorem State.withTxn_recent (s : State) (x : Option Txn) : (s.withTxn x).recent = s.recent := (rfl)
@[simp] theorem State.withTxn_walkers (s : State) (x : Option Txn) : (s.withTxn x).walkers = s.walkers := (rfl)
@[simp] theorem State.withTxn_preWalkers (s : State) (x : Option Txn) : (s.withTxn x).preWalkers = s.preWalkers := (rfl)
@[simp] theorem State.withTxn_transits (s : State) (x : Option Txn) : (s.withTxn x).transits = s.transits := (rfl)
@[simp] theorem State.withTxn_sramReads (s : State) (x : Option Txn) : (s.withTxn x).sramReads = s.sramReads := (rfl)
@[simp] theorem State.withTxn_jn (s : State) (x : Option Txn) : (s.withTxn x).jn = s.jn := (rfl)
@[simp] theorem State.withTxn_ports (s : State) (x : Option Txn) : (s.withTxn x).ports = s.ports := (rfl)
@[simp] theorem State.withTxn_rings (s : State) (x : Option Txn) : (s.withTxn x).rings = s.rings := (rfl)
@[simp] theorem State.withTxn_turn (s : State) (x : Option Txn) : (s.withTxn x).turn = s.turn := (rfl)
@[simp] theorem State.withTxn_notify (s : State) (x : Option Txn) : (s.withTxn x).notify = s.notify := (rfl)
@[simp] theorem State.withTxn_notes (s : State) (x : Option Txn) : (s.withTxn x).notes = s.notes := (rfl)
@[simp] theorem State.withTxn_hostOut (s : State) (x : Option Txn) : (s.withTxn x).hostOut = s.hostOut := (rfl)
@[simp] theorem State.withTxn_irqs (s : State) (x : Option Txn) : (s.withTxn x).irqs = s.irqs := (rfl)
@[simp] theorem State.withTxn_vfs (s : State) (x : Option Txn) : (s.withTxn x).vfs = s.vfs := (rfl)
@[simp] theorem State.withTxn_pcieUp (s : State) (x : Option Txn) : (s.withTxn x).pcieUp = s.pcieUp := (rfl)
@[simp] theorem State.withTxn_pcie (s : State) (x : Option Txn) : (s.withTxn x).pcie = s.pcie := (rfl)
@[simp] theorem State.withTxn_ats (s : State) (x : Option Txn) : (s.withTxn x).ats = s.ats := (rfl)
@[simp] theorem State.withTxn_atsDone (s : State) (x : Option Txn) : (s.withTxn x).atsDone = s.atsDone := (rfl)
@[simp] theorem State.withTxn_parts (s : State) (x : Option Txn) : (s.withTxn x).parts = s.parts := (rfl)
@[simp] theorem State.withTxn_lock (s : State) (x : Option Txn) : (s.withTxn x).lock = s.lock := (rfl)
@[simp] theorem State.withTxn_power (s : State) (x : Option Txn) : (s.withTxn x).power = s.power := (rfl)
@[simp] theorem State.withTxn_pins (s : State) (x : Option Txn) : (s.withTxn x).pins = s.pins := (rfl)
@[simp] theorem State.withTxn_mon (s : State) (x : Option Txn) : (s.withTxn x).mon = s.mon := (rfl)
@[simp] theorem State.withTxn_txn (s : State) (x : Option Txn) : (s.withTxn x).txn = x := (rfl)
@[simp] theorem State.withTxn_armedTxns (s : State) (x : Option Txn) : (s.withTxn x).armedTxns = s.armedTxns := (rfl)
@[simp] theorem State.withTxn_prot (s : State) (x : Option Txn) : (s.withTxn x).prot = s.prot := (rfl)
@[simp] theorem State.withTxn_snapAt (s : State) (x : Option Txn) : (s.withTxn x).snapAt = s.snapAt := (rfl)
@[simp] theorem State.withTxn_trace (s : State) (x : Option Txn) : (s.withTxn x).trace = s.trace := (rfl)
@[simp] theorem State.withTxn_traceQ (s : State) (x : Option Txn) : (s.withTxn x).traceQ = s.traceQ := (rfl)
@[simp] theorem State.withTxn_dump (s : State) (x : Option Txn) : (s.withTxn x).dump = s.dump := (rfl)
@[simp] theorem State.withTxn_wfg (s : State) (x : Option Txn) : (s.withTxn x).wfg = s.wfg := (rfl)
@[simp] theorem State.withTxn_i3c (s : State) (x : Option Txn) : (s.withTxn x).i3c = s.i3c := (rfl)
@[simp] theorem State.withTxn_readData (s : State) (x : Option Txn) : (s.withTxn x).readData = s.readData := (rfl)
@[simp] theorem State.withTxn_inject (s : State) (x : Option Txn) : (s.withTxn x).inject = s.inject := (rfl)
@[simp] theorem State.withTxn_streams (s : State) (x : Option Txn) : (s.withTxn x).streams = s.streams := (rfl)
@[simp] theorem State.withTxn_engine (s : State) (x : Option Txn) : (s.withTxn x).engine = s.engine := (rfl)
@[simp] theorem State.withTxn_grants (s : State) (x : Option Txn) : (s.withTxn x).grants = s.grants := (rfl)
@[simp] theorem State.withTxn_hbm (s : State) (x : Option Txn) : (s.withTxn x).hbm = s.hbm := (rfl)
@[simp] theorem State.withTxn_spray (s : State) (x : Option Txn) : (s.withTxn x).spray = s.spray := (rfl)
@[simp] theorem State.withTxn_nseq (s : State) (x : Option Txn) : (s.withTxn x).nseq = s.nseq := (rfl)
@[simp] theorem State.withTxn_lastNseq (s : State) (x : Option Txn) : (s.withTxn x).lastNseq = s.lastNseq := (rfl)
@[simp] theorem State.withTxn_flipPrev (s : State) (x : Option Txn) : (s.withTxn x).flipPrev = s.flipPrev := (rfl)
@[simp] theorem State.withTxn_skipScrub (s : State) (x : Option Txn) : (s.withTxn x).skipScrub = s.skipScrub := (rfl)
@[simp] theorem State.withTxn_failedQuarters (s : State) (x : Option Txn) : (s.withTxn x).failedQuarters = s.failedQuarters := (rfl)
@[simp] theorem State.withTxn_ethOut (s : State) (x : Option Txn) : (s.withTxn x).ethOut = s.ethOut := (rfl)
@[simp] theorem State.withTxn_setNow (s : State) (x : Option Txn) : (s.withTxn x).setNow = s.setNow := (rfl)
@[simp] theorem State.withTxn_txnNow (s : State) (x : Option Txn) : (s.withTxn x).txnNow = s.txnNow := (rfl)
@[simp] theorem State.withTxn_cycleNow (s : State) (x : Option Txn) : (s.withTxn x).cycleNow = s.cycleNow := (rfl)

@[simp] theorem State.withArmedTxns_pending (s : State) (x : List Txn) : (s.withArmedTxns x).pending = s.pending := (rfl)
@[simp] theorem State.withArmedTxns_freeCtr (s : State) (x : List Txn) : (s.withArmedTxns x).freeCtr = s.freeCtr := (rfl)
@[simp] theorem State.withArmedTxns_regs (s : State) (x : List Txn) : (s.withArmedTxns x).regs = s.regs := (rfl)
@[simp] theorem State.withArmedTxns_mem (s : State) (x : List Txn) : (s.withArmedTxns x).mem = s.mem := (rfl)
@[simp] theorem State.withArmedTxns_dies (s : State) (x : List Txn) : (s.withArmedTxns x).dies = s.dies := (rfl)
@[simp] theorem State.withArmedTxns_evlog (s : State) (x : List Txn) : (s.withArmedTxns x).evlog = s.evlog := (rfl)
@[simp] theorem State.withArmedTxns_acceptAt (s : State) (x : List Txn) : (s.withArmedTxns x).acceptAt = s.acceptAt := (rfl)
@[simp] theorem State.withArmedTxns_rates (s : State) (x : List Txn) : (s.withArmedTxns x).rates = s.rates := (rfl)
@[simp] theorem State.withArmedTxns_time (s : State) (x : List Txn) : (s.withArmedTxns x).time = s.time := (rfl)
@[simp] theorem State.withArmedTxns_ptime (s : State) (x : List Txn) : (s.withArmedTxns x).ptime = s.ptime := (rfl)
@[simp] theorem State.withArmedTxns_tiles (s : State) (x : List Txn) : (s.withArmedTxns x).tiles = s.tiles := (rfl)
@[simp] theorem State.withArmedTxns_lineCells (s : State) (x : List Txn) : (s.withArmedTxns x).lineCells = s.lineCells := (rfl)
@[simp] theorem State.withArmedTxns_tokens (s : State) (x : List Txn) : (s.withArmedTxns x).tokens = s.tokens := (rfl)
@[simp] theorem State.withArmedTxns_tokOps (s : State) (x : List Txn) : (s.withArmedTxns x).tokOps = s.tokOps := (rfl)
@[simp] theorem State.withArmedTxns_spent (s : State) (x : List Txn) : (s.withArmedTxns x).spent = s.spent := (rfl)
@[simp] theorem State.withArmedTxns_recent (s : State) (x : List Txn) : (s.withArmedTxns x).recent = s.recent := (rfl)
@[simp] theorem State.withArmedTxns_walkers (s : State) (x : List Txn) : (s.withArmedTxns x).walkers = s.walkers := (rfl)
@[simp] theorem State.withArmedTxns_preWalkers (s : State) (x : List Txn) : (s.withArmedTxns x).preWalkers = s.preWalkers := (rfl)
@[simp] theorem State.withArmedTxns_transits (s : State) (x : List Txn) : (s.withArmedTxns x).transits = s.transits := (rfl)
@[simp] theorem State.withArmedTxns_sramReads (s : State) (x : List Txn) : (s.withArmedTxns x).sramReads = s.sramReads := (rfl)
@[simp] theorem State.withArmedTxns_jn (s : State) (x : List Txn) : (s.withArmedTxns x).jn = s.jn := (rfl)
@[simp] theorem State.withArmedTxns_ports (s : State) (x : List Txn) : (s.withArmedTxns x).ports = s.ports := (rfl)
@[simp] theorem State.withArmedTxns_rings (s : State) (x : List Txn) : (s.withArmedTxns x).rings = s.rings := (rfl)
@[simp] theorem State.withArmedTxns_turn (s : State) (x : List Txn) : (s.withArmedTxns x).turn = s.turn := (rfl)
@[simp] theorem State.withArmedTxns_notify (s : State) (x : List Txn) : (s.withArmedTxns x).notify = s.notify := (rfl)
@[simp] theorem State.withArmedTxns_notes (s : State) (x : List Txn) : (s.withArmedTxns x).notes = s.notes := (rfl)
@[simp] theorem State.withArmedTxns_hostOut (s : State) (x : List Txn) : (s.withArmedTxns x).hostOut = s.hostOut := (rfl)
@[simp] theorem State.withArmedTxns_irqs (s : State) (x : List Txn) : (s.withArmedTxns x).irqs = s.irqs := (rfl)
@[simp] theorem State.withArmedTxns_vfs (s : State) (x : List Txn) : (s.withArmedTxns x).vfs = s.vfs := (rfl)
@[simp] theorem State.withArmedTxns_pcieUp (s : State) (x : List Txn) : (s.withArmedTxns x).pcieUp = s.pcieUp := (rfl)
@[simp] theorem State.withArmedTxns_pcie (s : State) (x : List Txn) : (s.withArmedTxns x).pcie = s.pcie := (rfl)
@[simp] theorem State.withArmedTxns_ats (s : State) (x : List Txn) : (s.withArmedTxns x).ats = s.ats := (rfl)
@[simp] theorem State.withArmedTxns_atsDone (s : State) (x : List Txn) : (s.withArmedTxns x).atsDone = s.atsDone := (rfl)
@[simp] theorem State.withArmedTxns_parts (s : State) (x : List Txn) : (s.withArmedTxns x).parts = s.parts := (rfl)
@[simp] theorem State.withArmedTxns_lock (s : State) (x : List Txn) : (s.withArmedTxns x).lock = s.lock := (rfl)
@[simp] theorem State.withArmedTxns_power (s : State) (x : List Txn) : (s.withArmedTxns x).power = s.power := (rfl)
@[simp] theorem State.withArmedTxns_pins (s : State) (x : List Txn) : (s.withArmedTxns x).pins = s.pins := (rfl)
@[simp] theorem State.withArmedTxns_mon (s : State) (x : List Txn) : (s.withArmedTxns x).mon = s.mon := (rfl)
@[simp] theorem State.withArmedTxns_txn (s : State) (x : List Txn) : (s.withArmedTxns x).txn = s.txn := (rfl)
@[simp] theorem State.withArmedTxns_armedTxns (s : State) (x : List Txn) : (s.withArmedTxns x).armedTxns = x := (rfl)
@[simp] theorem State.withArmedTxns_prot (s : State) (x : List Txn) : (s.withArmedTxns x).prot = s.prot := (rfl)
@[simp] theorem State.withArmedTxns_snapAt (s : State) (x : List Txn) : (s.withArmedTxns x).snapAt = s.snapAt := (rfl)
@[simp] theorem State.withArmedTxns_trace (s : State) (x : List Txn) : (s.withArmedTxns x).trace = s.trace := (rfl)
@[simp] theorem State.withArmedTxns_traceQ (s : State) (x : List Txn) : (s.withArmedTxns x).traceQ = s.traceQ := (rfl)
@[simp] theorem State.withArmedTxns_dump (s : State) (x : List Txn) : (s.withArmedTxns x).dump = s.dump := (rfl)
@[simp] theorem State.withArmedTxns_wfg (s : State) (x : List Txn) : (s.withArmedTxns x).wfg = s.wfg := (rfl)
@[simp] theorem State.withArmedTxns_i3c (s : State) (x : List Txn) : (s.withArmedTxns x).i3c = s.i3c := (rfl)
@[simp] theorem State.withArmedTxns_readData (s : State) (x : List Txn) : (s.withArmedTxns x).readData = s.readData := (rfl)
@[simp] theorem State.withArmedTxns_inject (s : State) (x : List Txn) : (s.withArmedTxns x).inject = s.inject := (rfl)
@[simp] theorem State.withArmedTxns_streams (s : State) (x : List Txn) : (s.withArmedTxns x).streams = s.streams := (rfl)
@[simp] theorem State.withArmedTxns_engine (s : State) (x : List Txn) : (s.withArmedTxns x).engine = s.engine := (rfl)
@[simp] theorem State.withArmedTxns_grants (s : State) (x : List Txn) : (s.withArmedTxns x).grants = s.grants := (rfl)
@[simp] theorem State.withArmedTxns_hbm (s : State) (x : List Txn) : (s.withArmedTxns x).hbm = s.hbm := (rfl)
@[simp] theorem State.withArmedTxns_spray (s : State) (x : List Txn) : (s.withArmedTxns x).spray = s.spray := (rfl)
@[simp] theorem State.withArmedTxns_nseq (s : State) (x : List Txn) : (s.withArmedTxns x).nseq = s.nseq := (rfl)
@[simp] theorem State.withArmedTxns_lastNseq (s : State) (x : List Txn) : (s.withArmedTxns x).lastNseq = s.lastNseq := (rfl)
@[simp] theorem State.withArmedTxns_flipPrev (s : State) (x : List Txn) : (s.withArmedTxns x).flipPrev = s.flipPrev := (rfl)
@[simp] theorem State.withArmedTxns_skipScrub (s : State) (x : List Txn) : (s.withArmedTxns x).skipScrub = s.skipScrub := (rfl)
@[simp] theorem State.withArmedTxns_failedQuarters (s : State) (x : List Txn) : (s.withArmedTxns x).failedQuarters = s.failedQuarters := (rfl)
@[simp] theorem State.withArmedTxns_ethOut (s : State) (x : List Txn) : (s.withArmedTxns x).ethOut = s.ethOut := (rfl)
@[simp] theorem State.withArmedTxns_setNow (s : State) (x : List Txn) : (s.withArmedTxns x).setNow = s.setNow := (rfl)
@[simp] theorem State.withArmedTxns_txnNow (s : State) (x : List Txn) : (s.withArmedTxns x).txnNow = s.txnNow := (rfl)
@[simp] theorem State.withArmedTxns_cycleNow (s : State) (x : List Txn) : (s.withArmedTxns x).cycleNow = s.cycleNow := (rfl)

@[simp] theorem State.withProt_pending (s : State) (x : Prot) : (s.withProt x).pending = s.pending := (rfl)
@[simp] theorem State.withProt_freeCtr (s : State) (x : Prot) : (s.withProt x).freeCtr = s.freeCtr := (rfl)
@[simp] theorem State.withProt_regs (s : State) (x : Prot) : (s.withProt x).regs = s.regs := (rfl)
@[simp] theorem State.withProt_mem (s : State) (x : Prot) : (s.withProt x).mem = s.mem := (rfl)
@[simp] theorem State.withProt_dies (s : State) (x : Prot) : (s.withProt x).dies = s.dies := (rfl)
@[simp] theorem State.withProt_evlog (s : State) (x : Prot) : (s.withProt x).evlog = s.evlog := (rfl)
@[simp] theorem State.withProt_acceptAt (s : State) (x : Prot) : (s.withProt x).acceptAt = s.acceptAt := (rfl)
@[simp] theorem State.withProt_rates (s : State) (x : Prot) : (s.withProt x).rates = s.rates := (rfl)
@[simp] theorem State.withProt_time (s : State) (x : Prot) : (s.withProt x).time = s.time := (rfl)
@[simp] theorem State.withProt_ptime (s : State) (x : Prot) : (s.withProt x).ptime = s.ptime := (rfl)
@[simp] theorem State.withProt_tiles (s : State) (x : Prot) : (s.withProt x).tiles = s.tiles := (rfl)
@[simp] theorem State.withProt_lineCells (s : State) (x : Prot) : (s.withProt x).lineCells = s.lineCells := (rfl)
@[simp] theorem State.withProt_tokens (s : State) (x : Prot) : (s.withProt x).tokens = s.tokens := (rfl)
@[simp] theorem State.withProt_tokOps (s : State) (x : Prot) : (s.withProt x).tokOps = s.tokOps := (rfl)
@[simp] theorem State.withProt_spent (s : State) (x : Prot) : (s.withProt x).spent = s.spent := (rfl)
@[simp] theorem State.withProt_recent (s : State) (x : Prot) : (s.withProt x).recent = s.recent := (rfl)
@[simp] theorem State.withProt_walkers (s : State) (x : Prot) : (s.withProt x).walkers = s.walkers := (rfl)
@[simp] theorem State.withProt_preWalkers (s : State) (x : Prot) : (s.withProt x).preWalkers = s.preWalkers := (rfl)
@[simp] theorem State.withProt_transits (s : State) (x : Prot) : (s.withProt x).transits = s.transits := (rfl)
@[simp] theorem State.withProt_sramReads (s : State) (x : Prot) : (s.withProt x).sramReads = s.sramReads := (rfl)
@[simp] theorem State.withProt_jn (s : State) (x : Prot) : (s.withProt x).jn = s.jn := (rfl)
@[simp] theorem State.withProt_ports (s : State) (x : Prot) : (s.withProt x).ports = s.ports := (rfl)
@[simp] theorem State.withProt_rings (s : State) (x : Prot) : (s.withProt x).rings = s.rings := (rfl)
@[simp] theorem State.withProt_turn (s : State) (x : Prot) : (s.withProt x).turn = s.turn := (rfl)
@[simp] theorem State.withProt_notify (s : State) (x : Prot) : (s.withProt x).notify = s.notify := (rfl)
@[simp] theorem State.withProt_notes (s : State) (x : Prot) : (s.withProt x).notes = s.notes := (rfl)
@[simp] theorem State.withProt_hostOut (s : State) (x : Prot) : (s.withProt x).hostOut = s.hostOut := (rfl)
@[simp] theorem State.withProt_irqs (s : State) (x : Prot) : (s.withProt x).irqs = s.irqs := (rfl)
@[simp] theorem State.withProt_vfs (s : State) (x : Prot) : (s.withProt x).vfs = s.vfs := (rfl)
@[simp] theorem State.withProt_pcieUp (s : State) (x : Prot) : (s.withProt x).pcieUp = s.pcieUp := (rfl)
@[simp] theorem State.withProt_pcie (s : State) (x : Prot) : (s.withProt x).pcie = s.pcie := (rfl)
@[simp] theorem State.withProt_ats (s : State) (x : Prot) : (s.withProt x).ats = s.ats := (rfl)
@[simp] theorem State.withProt_atsDone (s : State) (x : Prot) : (s.withProt x).atsDone = s.atsDone := (rfl)
@[simp] theorem State.withProt_parts (s : State) (x : Prot) : (s.withProt x).parts = s.parts := (rfl)
@[simp] theorem State.withProt_lock (s : State) (x : Prot) : (s.withProt x).lock = s.lock := (rfl)
@[simp] theorem State.withProt_power (s : State) (x : Prot) : (s.withProt x).power = s.power := (rfl)
@[simp] theorem State.withProt_pins (s : State) (x : Prot) : (s.withProt x).pins = s.pins := (rfl)
@[simp] theorem State.withProt_mon (s : State) (x : Prot) : (s.withProt x).mon = s.mon := (rfl)
@[simp] theorem State.withProt_txn (s : State) (x : Prot) : (s.withProt x).txn = s.txn := (rfl)
@[simp] theorem State.withProt_armedTxns (s : State) (x : Prot) : (s.withProt x).armedTxns = s.armedTxns := (rfl)
@[simp] theorem State.withProt_prot (s : State) (x : Prot) : (s.withProt x).prot = x := (rfl)
@[simp] theorem State.withProt_snapAt (s : State) (x : Prot) : (s.withProt x).snapAt = s.snapAt := (rfl)
@[simp] theorem State.withProt_trace (s : State) (x : Prot) : (s.withProt x).trace = s.trace := (rfl)
@[simp] theorem State.withProt_traceQ (s : State) (x : Prot) : (s.withProt x).traceQ = s.traceQ := (rfl)
@[simp] theorem State.withProt_dump (s : State) (x : Prot) : (s.withProt x).dump = s.dump := (rfl)
@[simp] theorem State.withProt_wfg (s : State) (x : Prot) : (s.withProt x).wfg = s.wfg := (rfl)
@[simp] theorem State.withProt_i3c (s : State) (x : Prot) : (s.withProt x).i3c = s.i3c := (rfl)
@[simp] theorem State.withProt_readData (s : State) (x : Prot) : (s.withProt x).readData = s.readData := (rfl)
@[simp] theorem State.withProt_inject (s : State) (x : Prot) : (s.withProt x).inject = s.inject := (rfl)
@[simp] theorem State.withProt_streams (s : State) (x : Prot) : (s.withProt x).streams = s.streams := (rfl)
@[simp] theorem State.withProt_engine (s : State) (x : Prot) : (s.withProt x).engine = s.engine := (rfl)
@[simp] theorem State.withProt_grants (s : State) (x : Prot) : (s.withProt x).grants = s.grants := (rfl)
@[simp] theorem State.withProt_hbm (s : State) (x : Prot) : (s.withProt x).hbm = s.hbm := (rfl)
@[simp] theorem State.withProt_spray (s : State) (x : Prot) : (s.withProt x).spray = s.spray := (rfl)
@[simp] theorem State.withProt_nseq (s : State) (x : Prot) : (s.withProt x).nseq = s.nseq := (rfl)
@[simp] theorem State.withProt_lastNseq (s : State) (x : Prot) : (s.withProt x).lastNseq = s.lastNseq := (rfl)
@[simp] theorem State.withProt_flipPrev (s : State) (x : Prot) : (s.withProt x).flipPrev = s.flipPrev := (rfl)
@[simp] theorem State.withProt_skipScrub (s : State) (x : Prot) : (s.withProt x).skipScrub = s.skipScrub := (rfl)
@[simp] theorem State.withProt_failedQuarters (s : State) (x : Prot) : (s.withProt x).failedQuarters = s.failedQuarters := (rfl)
@[simp] theorem State.withProt_ethOut (s : State) (x : Prot) : (s.withProt x).ethOut = s.ethOut := (rfl)
@[simp] theorem State.withProt_setNow (s : State) (x : Prot) : (s.withProt x).setNow = s.setNow := (rfl)
@[simp] theorem State.withProt_txnNow (s : State) (x : Prot) : (s.withProt x).txnNow = s.txnNow := (rfl)
@[simp] theorem State.withProt_cycleNow (s : State) (x : Prot) : (s.withProt x).cycleNow = s.cycleNow := (rfl)

@[simp] theorem State.withSnapAt_pending (s : State) (x : Option Nat) : (s.withSnapAt x).pending = s.pending := (rfl)
@[simp] theorem State.withSnapAt_freeCtr (s : State) (x : Option Nat) : (s.withSnapAt x).freeCtr = s.freeCtr := (rfl)
@[simp] theorem State.withSnapAt_regs (s : State) (x : Option Nat) : (s.withSnapAt x).regs = s.regs := (rfl)
@[simp] theorem State.withSnapAt_mem (s : State) (x : Option Nat) : (s.withSnapAt x).mem = s.mem := (rfl)
@[simp] theorem State.withSnapAt_dies (s : State) (x : Option Nat) : (s.withSnapAt x).dies = s.dies := (rfl)
@[simp] theorem State.withSnapAt_evlog (s : State) (x : Option Nat) : (s.withSnapAt x).evlog = s.evlog := (rfl)
@[simp] theorem State.withSnapAt_acceptAt (s : State) (x : Option Nat) : (s.withSnapAt x).acceptAt = s.acceptAt := (rfl)
@[simp] theorem State.withSnapAt_rates (s : State) (x : Option Nat) : (s.withSnapAt x).rates = s.rates := (rfl)
@[simp] theorem State.withSnapAt_time (s : State) (x : Option Nat) : (s.withSnapAt x).time = s.time := (rfl)
@[simp] theorem State.withSnapAt_ptime (s : State) (x : Option Nat) : (s.withSnapAt x).ptime = s.ptime := (rfl)
@[simp] theorem State.withSnapAt_tiles (s : State) (x : Option Nat) : (s.withSnapAt x).tiles = s.tiles := (rfl)
@[simp] theorem State.withSnapAt_lineCells (s : State) (x : Option Nat) : (s.withSnapAt x).lineCells = s.lineCells := (rfl)
@[simp] theorem State.withSnapAt_tokens (s : State) (x : Option Nat) : (s.withSnapAt x).tokens = s.tokens := (rfl)
@[simp] theorem State.withSnapAt_tokOps (s : State) (x : Option Nat) : (s.withSnapAt x).tokOps = s.tokOps := (rfl)
@[simp] theorem State.withSnapAt_spent (s : State) (x : Option Nat) : (s.withSnapAt x).spent = s.spent := (rfl)
@[simp] theorem State.withSnapAt_recent (s : State) (x : Option Nat) : (s.withSnapAt x).recent = s.recent := (rfl)
@[simp] theorem State.withSnapAt_walkers (s : State) (x : Option Nat) : (s.withSnapAt x).walkers = s.walkers := (rfl)
@[simp] theorem State.withSnapAt_preWalkers (s : State) (x : Option Nat) : (s.withSnapAt x).preWalkers = s.preWalkers := (rfl)
@[simp] theorem State.withSnapAt_transits (s : State) (x : Option Nat) : (s.withSnapAt x).transits = s.transits := (rfl)
@[simp] theorem State.withSnapAt_sramReads (s : State) (x : Option Nat) : (s.withSnapAt x).sramReads = s.sramReads := (rfl)
@[simp] theorem State.withSnapAt_jn (s : State) (x : Option Nat) : (s.withSnapAt x).jn = s.jn := (rfl)
@[simp] theorem State.withSnapAt_ports (s : State) (x : Option Nat) : (s.withSnapAt x).ports = s.ports := (rfl)
@[simp] theorem State.withSnapAt_rings (s : State) (x : Option Nat) : (s.withSnapAt x).rings = s.rings := (rfl)
@[simp] theorem State.withSnapAt_turn (s : State) (x : Option Nat) : (s.withSnapAt x).turn = s.turn := (rfl)
@[simp] theorem State.withSnapAt_notify (s : State) (x : Option Nat) : (s.withSnapAt x).notify = s.notify := (rfl)
@[simp] theorem State.withSnapAt_notes (s : State) (x : Option Nat) : (s.withSnapAt x).notes = s.notes := (rfl)
@[simp] theorem State.withSnapAt_hostOut (s : State) (x : Option Nat) : (s.withSnapAt x).hostOut = s.hostOut := (rfl)
@[simp] theorem State.withSnapAt_irqs (s : State) (x : Option Nat) : (s.withSnapAt x).irqs = s.irqs := (rfl)
@[simp] theorem State.withSnapAt_vfs (s : State) (x : Option Nat) : (s.withSnapAt x).vfs = s.vfs := (rfl)
@[simp] theorem State.withSnapAt_pcieUp (s : State) (x : Option Nat) : (s.withSnapAt x).pcieUp = s.pcieUp := (rfl)
@[simp] theorem State.withSnapAt_pcie (s : State) (x : Option Nat) : (s.withSnapAt x).pcie = s.pcie := (rfl)
@[simp] theorem State.withSnapAt_ats (s : State) (x : Option Nat) : (s.withSnapAt x).ats = s.ats := (rfl)
@[simp] theorem State.withSnapAt_atsDone (s : State) (x : Option Nat) : (s.withSnapAt x).atsDone = s.atsDone := (rfl)
@[simp] theorem State.withSnapAt_parts (s : State) (x : Option Nat) : (s.withSnapAt x).parts = s.parts := (rfl)
@[simp] theorem State.withSnapAt_lock (s : State) (x : Option Nat) : (s.withSnapAt x).lock = s.lock := (rfl)
@[simp] theorem State.withSnapAt_power (s : State) (x : Option Nat) : (s.withSnapAt x).power = s.power := (rfl)
@[simp] theorem State.withSnapAt_pins (s : State) (x : Option Nat) : (s.withSnapAt x).pins = s.pins := (rfl)
@[simp] theorem State.withSnapAt_mon (s : State) (x : Option Nat) : (s.withSnapAt x).mon = s.mon := (rfl)
@[simp] theorem State.withSnapAt_txn (s : State) (x : Option Nat) : (s.withSnapAt x).txn = s.txn := (rfl)
@[simp] theorem State.withSnapAt_armedTxns (s : State) (x : Option Nat) : (s.withSnapAt x).armedTxns = s.armedTxns := (rfl)
@[simp] theorem State.withSnapAt_prot (s : State) (x : Option Nat) : (s.withSnapAt x).prot = s.prot := (rfl)
@[simp] theorem State.withSnapAt_snapAt (s : State) (x : Option Nat) : (s.withSnapAt x).snapAt = x := (rfl)
@[simp] theorem State.withSnapAt_trace (s : State) (x : Option Nat) : (s.withSnapAt x).trace = s.trace := (rfl)
@[simp] theorem State.withSnapAt_traceQ (s : State) (x : Option Nat) : (s.withSnapAt x).traceQ = s.traceQ := (rfl)
@[simp] theorem State.withSnapAt_dump (s : State) (x : Option Nat) : (s.withSnapAt x).dump = s.dump := (rfl)
@[simp] theorem State.withSnapAt_wfg (s : State) (x : Option Nat) : (s.withSnapAt x).wfg = s.wfg := (rfl)
@[simp] theorem State.withSnapAt_i3c (s : State) (x : Option Nat) : (s.withSnapAt x).i3c = s.i3c := (rfl)
@[simp] theorem State.withSnapAt_readData (s : State) (x : Option Nat) : (s.withSnapAt x).readData = s.readData := (rfl)
@[simp] theorem State.withSnapAt_inject (s : State) (x : Option Nat) : (s.withSnapAt x).inject = s.inject := (rfl)
@[simp] theorem State.withSnapAt_streams (s : State) (x : Option Nat) : (s.withSnapAt x).streams = s.streams := (rfl)
@[simp] theorem State.withSnapAt_engine (s : State) (x : Option Nat) : (s.withSnapAt x).engine = s.engine := (rfl)
@[simp] theorem State.withSnapAt_grants (s : State) (x : Option Nat) : (s.withSnapAt x).grants = s.grants := (rfl)
@[simp] theorem State.withSnapAt_hbm (s : State) (x : Option Nat) : (s.withSnapAt x).hbm = s.hbm := (rfl)
@[simp] theorem State.withSnapAt_spray (s : State) (x : Option Nat) : (s.withSnapAt x).spray = s.spray := (rfl)
@[simp] theorem State.withSnapAt_nseq (s : State) (x : Option Nat) : (s.withSnapAt x).nseq = s.nseq := (rfl)
@[simp] theorem State.withSnapAt_lastNseq (s : State) (x : Option Nat) : (s.withSnapAt x).lastNseq = s.lastNseq := (rfl)
@[simp] theorem State.withSnapAt_flipPrev (s : State) (x : Option Nat) : (s.withSnapAt x).flipPrev = s.flipPrev := (rfl)
@[simp] theorem State.withSnapAt_skipScrub (s : State) (x : Option Nat) : (s.withSnapAt x).skipScrub = s.skipScrub := (rfl)
@[simp] theorem State.withSnapAt_failedQuarters (s : State) (x : Option Nat) : (s.withSnapAt x).failedQuarters = s.failedQuarters := (rfl)
@[simp] theorem State.withSnapAt_ethOut (s : State) (x : Option Nat) : (s.withSnapAt x).ethOut = s.ethOut := (rfl)
@[simp] theorem State.withSnapAt_setNow (s : State) (x : Option Nat) : (s.withSnapAt x).setNow = s.setNow := (rfl)
@[simp] theorem State.withSnapAt_txnNow (s : State) (x : Option Nat) : (s.withSnapAt x).txnNow = s.txnNow := (rfl)
@[simp] theorem State.withSnapAt_cycleNow (s : State) (x : Option Nat) : (s.withSnapAt x).cycleNow = s.cycleNow := (rfl)

@[simp] theorem State.withDump_pending (s : State) (x : Option Dump) : (s.withDump x).pending = s.pending := (rfl)
@[simp] theorem State.withDump_freeCtr (s : State) (x : Option Dump) : (s.withDump x).freeCtr = s.freeCtr := (rfl)
@[simp] theorem State.withDump_regs (s : State) (x : Option Dump) : (s.withDump x).regs = s.regs := (rfl)
@[simp] theorem State.withDump_mem (s : State) (x : Option Dump) : (s.withDump x).mem = s.mem := (rfl)
@[simp] theorem State.withDump_dies (s : State) (x : Option Dump) : (s.withDump x).dies = s.dies := (rfl)
@[simp] theorem State.withDump_evlog (s : State) (x : Option Dump) : (s.withDump x).evlog = s.evlog := (rfl)
@[simp] theorem State.withDump_acceptAt (s : State) (x : Option Dump) : (s.withDump x).acceptAt = s.acceptAt := (rfl)
@[simp] theorem State.withDump_rates (s : State) (x : Option Dump) : (s.withDump x).rates = s.rates := (rfl)
@[simp] theorem State.withDump_time (s : State) (x : Option Dump) : (s.withDump x).time = s.time := (rfl)
@[simp] theorem State.withDump_ptime (s : State) (x : Option Dump) : (s.withDump x).ptime = s.ptime := (rfl)
@[simp] theorem State.withDump_tiles (s : State) (x : Option Dump) : (s.withDump x).tiles = s.tiles := (rfl)
@[simp] theorem State.withDump_lineCells (s : State) (x : Option Dump) : (s.withDump x).lineCells = s.lineCells := (rfl)
@[simp] theorem State.withDump_tokens (s : State) (x : Option Dump) : (s.withDump x).tokens = s.tokens := (rfl)
@[simp] theorem State.withDump_tokOps (s : State) (x : Option Dump) : (s.withDump x).tokOps = s.tokOps := (rfl)
@[simp] theorem State.withDump_spent (s : State) (x : Option Dump) : (s.withDump x).spent = s.spent := (rfl)
@[simp] theorem State.withDump_recent (s : State) (x : Option Dump) : (s.withDump x).recent = s.recent := (rfl)
@[simp] theorem State.withDump_walkers (s : State) (x : Option Dump) : (s.withDump x).walkers = s.walkers := (rfl)
@[simp] theorem State.withDump_preWalkers (s : State) (x : Option Dump) : (s.withDump x).preWalkers = s.preWalkers := (rfl)
@[simp] theorem State.withDump_transits (s : State) (x : Option Dump) : (s.withDump x).transits = s.transits := (rfl)
@[simp] theorem State.withDump_sramReads (s : State) (x : Option Dump) : (s.withDump x).sramReads = s.sramReads := (rfl)
@[simp] theorem State.withDump_jn (s : State) (x : Option Dump) : (s.withDump x).jn = s.jn := (rfl)
@[simp] theorem State.withDump_ports (s : State) (x : Option Dump) : (s.withDump x).ports = s.ports := (rfl)
@[simp] theorem State.withDump_rings (s : State) (x : Option Dump) : (s.withDump x).rings = s.rings := (rfl)
@[simp] theorem State.withDump_turn (s : State) (x : Option Dump) : (s.withDump x).turn = s.turn := (rfl)
@[simp] theorem State.withDump_notify (s : State) (x : Option Dump) : (s.withDump x).notify = s.notify := (rfl)
@[simp] theorem State.withDump_notes (s : State) (x : Option Dump) : (s.withDump x).notes = s.notes := (rfl)
@[simp] theorem State.withDump_hostOut (s : State) (x : Option Dump) : (s.withDump x).hostOut = s.hostOut := (rfl)
@[simp] theorem State.withDump_irqs (s : State) (x : Option Dump) : (s.withDump x).irqs = s.irqs := (rfl)
@[simp] theorem State.withDump_vfs (s : State) (x : Option Dump) : (s.withDump x).vfs = s.vfs := (rfl)
@[simp] theorem State.withDump_pcieUp (s : State) (x : Option Dump) : (s.withDump x).pcieUp = s.pcieUp := (rfl)
@[simp] theorem State.withDump_pcie (s : State) (x : Option Dump) : (s.withDump x).pcie = s.pcie := (rfl)
@[simp] theorem State.withDump_ats (s : State) (x : Option Dump) : (s.withDump x).ats = s.ats := (rfl)
@[simp] theorem State.withDump_atsDone (s : State) (x : Option Dump) : (s.withDump x).atsDone = s.atsDone := (rfl)
@[simp] theorem State.withDump_parts (s : State) (x : Option Dump) : (s.withDump x).parts = s.parts := (rfl)
@[simp] theorem State.withDump_lock (s : State) (x : Option Dump) : (s.withDump x).lock = s.lock := (rfl)
@[simp] theorem State.withDump_power (s : State) (x : Option Dump) : (s.withDump x).power = s.power := (rfl)
@[simp] theorem State.withDump_pins (s : State) (x : Option Dump) : (s.withDump x).pins = s.pins := (rfl)
@[simp] theorem State.withDump_mon (s : State) (x : Option Dump) : (s.withDump x).mon = s.mon := (rfl)
@[simp] theorem State.withDump_txn (s : State) (x : Option Dump) : (s.withDump x).txn = s.txn := (rfl)
@[simp] theorem State.withDump_armedTxns (s : State) (x : Option Dump) : (s.withDump x).armedTxns = s.armedTxns := (rfl)
@[simp] theorem State.withDump_prot (s : State) (x : Option Dump) : (s.withDump x).prot = s.prot := (rfl)
@[simp] theorem State.withDump_snapAt (s : State) (x : Option Dump) : (s.withDump x).snapAt = s.snapAt := (rfl)
@[simp] theorem State.withDump_trace (s : State) (x : Option Dump) : (s.withDump x).trace = s.trace := (rfl)
@[simp] theorem State.withDump_traceQ (s : State) (x : Option Dump) : (s.withDump x).traceQ = s.traceQ := (rfl)
@[simp] theorem State.withDump_dump (s : State) (x : Option Dump) : (s.withDump x).dump = x := (rfl)
@[simp] theorem State.withDump_wfg (s : State) (x : Option Dump) : (s.withDump x).wfg = s.wfg := (rfl)
@[simp] theorem State.withDump_i3c (s : State) (x : Option Dump) : (s.withDump x).i3c = s.i3c := (rfl)
@[simp] theorem State.withDump_readData (s : State) (x : Option Dump) : (s.withDump x).readData = s.readData := (rfl)
@[simp] theorem State.withDump_inject (s : State) (x : Option Dump) : (s.withDump x).inject = s.inject := (rfl)
@[simp] theorem State.withDump_streams (s : State) (x : Option Dump) : (s.withDump x).streams = s.streams := (rfl)
@[simp] theorem State.withDump_engine (s : State) (x : Option Dump) : (s.withDump x).engine = s.engine := (rfl)
@[simp] theorem State.withDump_grants (s : State) (x : Option Dump) : (s.withDump x).grants = s.grants := (rfl)
@[simp] theorem State.withDump_hbm (s : State) (x : Option Dump) : (s.withDump x).hbm = s.hbm := (rfl)
@[simp] theorem State.withDump_spray (s : State) (x : Option Dump) : (s.withDump x).spray = s.spray := (rfl)
@[simp] theorem State.withDump_nseq (s : State) (x : Option Dump) : (s.withDump x).nseq = s.nseq := (rfl)
@[simp] theorem State.withDump_lastNseq (s : State) (x : Option Dump) : (s.withDump x).lastNseq = s.lastNseq := (rfl)
@[simp] theorem State.withDump_flipPrev (s : State) (x : Option Dump) : (s.withDump x).flipPrev = s.flipPrev := (rfl)
@[simp] theorem State.withDump_skipScrub (s : State) (x : Option Dump) : (s.withDump x).skipScrub = s.skipScrub := (rfl)
@[simp] theorem State.withDump_failedQuarters (s : State) (x : Option Dump) : (s.withDump x).failedQuarters = s.failedQuarters := (rfl)
@[simp] theorem State.withDump_ethOut (s : State) (x : Option Dump) : (s.withDump x).ethOut = s.ethOut := (rfl)
@[simp] theorem State.withDump_setNow (s : State) (x : Option Dump) : (s.withDump x).setNow = s.setNow := (rfl)
@[simp] theorem State.withDump_txnNow (s : State) (x : Option Dump) : (s.withDump x).txnNow = s.txnNow := (rfl)
@[simp] theorem State.withDump_cycleNow (s : State) (x : Option Dump) : (s.withDump x).cycleNow = s.cycleNow := (rfl)

@[simp] theorem State.withWfg_pending (s : State) (x : Wfg) : (s.withWfg x).pending = s.pending := (rfl)
@[simp] theorem State.withWfg_freeCtr (s : State) (x : Wfg) : (s.withWfg x).freeCtr = s.freeCtr := (rfl)
@[simp] theorem State.withWfg_regs (s : State) (x : Wfg) : (s.withWfg x).regs = s.regs := (rfl)
@[simp] theorem State.withWfg_mem (s : State) (x : Wfg) : (s.withWfg x).mem = s.mem := (rfl)
@[simp] theorem State.withWfg_dies (s : State) (x : Wfg) : (s.withWfg x).dies = s.dies := (rfl)
@[simp] theorem State.withWfg_evlog (s : State) (x : Wfg) : (s.withWfg x).evlog = s.evlog := (rfl)
@[simp] theorem State.withWfg_acceptAt (s : State) (x : Wfg) : (s.withWfg x).acceptAt = s.acceptAt := (rfl)
@[simp] theorem State.withWfg_rates (s : State) (x : Wfg) : (s.withWfg x).rates = s.rates := (rfl)
@[simp] theorem State.withWfg_time (s : State) (x : Wfg) : (s.withWfg x).time = s.time := (rfl)
@[simp] theorem State.withWfg_ptime (s : State) (x : Wfg) : (s.withWfg x).ptime = s.ptime := (rfl)
@[simp] theorem State.withWfg_tiles (s : State) (x : Wfg) : (s.withWfg x).tiles = s.tiles := (rfl)
@[simp] theorem State.withWfg_lineCells (s : State) (x : Wfg) : (s.withWfg x).lineCells = s.lineCells := (rfl)
@[simp] theorem State.withWfg_tokens (s : State) (x : Wfg) : (s.withWfg x).tokens = s.tokens := (rfl)
@[simp] theorem State.withWfg_tokOps (s : State) (x : Wfg) : (s.withWfg x).tokOps = s.tokOps := (rfl)
@[simp] theorem State.withWfg_spent (s : State) (x : Wfg) : (s.withWfg x).spent = s.spent := (rfl)
@[simp] theorem State.withWfg_recent (s : State) (x : Wfg) : (s.withWfg x).recent = s.recent := (rfl)
@[simp] theorem State.withWfg_walkers (s : State) (x : Wfg) : (s.withWfg x).walkers = s.walkers := (rfl)
@[simp] theorem State.withWfg_preWalkers (s : State) (x : Wfg) : (s.withWfg x).preWalkers = s.preWalkers := (rfl)
@[simp] theorem State.withWfg_transits (s : State) (x : Wfg) : (s.withWfg x).transits = s.transits := (rfl)
@[simp] theorem State.withWfg_sramReads (s : State) (x : Wfg) : (s.withWfg x).sramReads = s.sramReads := (rfl)
@[simp] theorem State.withWfg_jn (s : State) (x : Wfg) : (s.withWfg x).jn = s.jn := (rfl)
@[simp] theorem State.withWfg_ports (s : State) (x : Wfg) : (s.withWfg x).ports = s.ports := (rfl)
@[simp] theorem State.withWfg_rings (s : State) (x : Wfg) : (s.withWfg x).rings = s.rings := (rfl)
@[simp] theorem State.withWfg_turn (s : State) (x : Wfg) : (s.withWfg x).turn = s.turn := (rfl)
@[simp] theorem State.withWfg_notify (s : State) (x : Wfg) : (s.withWfg x).notify = s.notify := (rfl)
@[simp] theorem State.withWfg_notes (s : State) (x : Wfg) : (s.withWfg x).notes = s.notes := (rfl)
@[simp] theorem State.withWfg_hostOut (s : State) (x : Wfg) : (s.withWfg x).hostOut = s.hostOut := (rfl)
@[simp] theorem State.withWfg_irqs (s : State) (x : Wfg) : (s.withWfg x).irqs = s.irqs := (rfl)
@[simp] theorem State.withWfg_vfs (s : State) (x : Wfg) : (s.withWfg x).vfs = s.vfs := (rfl)
@[simp] theorem State.withWfg_pcieUp (s : State) (x : Wfg) : (s.withWfg x).pcieUp = s.pcieUp := (rfl)
@[simp] theorem State.withWfg_pcie (s : State) (x : Wfg) : (s.withWfg x).pcie = s.pcie := (rfl)
@[simp] theorem State.withWfg_ats (s : State) (x : Wfg) : (s.withWfg x).ats = s.ats := (rfl)
@[simp] theorem State.withWfg_atsDone (s : State) (x : Wfg) : (s.withWfg x).atsDone = s.atsDone := (rfl)
@[simp] theorem State.withWfg_parts (s : State) (x : Wfg) : (s.withWfg x).parts = s.parts := (rfl)
@[simp] theorem State.withWfg_lock (s : State) (x : Wfg) : (s.withWfg x).lock = s.lock := (rfl)
@[simp] theorem State.withWfg_power (s : State) (x : Wfg) : (s.withWfg x).power = s.power := (rfl)
@[simp] theorem State.withWfg_pins (s : State) (x : Wfg) : (s.withWfg x).pins = s.pins := (rfl)
@[simp] theorem State.withWfg_mon (s : State) (x : Wfg) : (s.withWfg x).mon = s.mon := (rfl)
@[simp] theorem State.withWfg_txn (s : State) (x : Wfg) : (s.withWfg x).txn = s.txn := (rfl)
@[simp] theorem State.withWfg_armedTxns (s : State) (x : Wfg) : (s.withWfg x).armedTxns = s.armedTxns := (rfl)
@[simp] theorem State.withWfg_prot (s : State) (x : Wfg) : (s.withWfg x).prot = s.prot := (rfl)
@[simp] theorem State.withWfg_snapAt (s : State) (x : Wfg) : (s.withWfg x).snapAt = s.snapAt := (rfl)
@[simp] theorem State.withWfg_trace (s : State) (x : Wfg) : (s.withWfg x).trace = s.trace := (rfl)
@[simp] theorem State.withWfg_traceQ (s : State) (x : Wfg) : (s.withWfg x).traceQ = s.traceQ := (rfl)
@[simp] theorem State.withWfg_dump (s : State) (x : Wfg) : (s.withWfg x).dump = s.dump := (rfl)
@[simp] theorem State.withWfg_wfg (s : State) (x : Wfg) : (s.withWfg x).wfg = x := (rfl)
@[simp] theorem State.withWfg_i3c (s : State) (x : Wfg) : (s.withWfg x).i3c = s.i3c := (rfl)
@[simp] theorem State.withWfg_readData (s : State) (x : Wfg) : (s.withWfg x).readData = s.readData := (rfl)
@[simp] theorem State.withWfg_inject (s : State) (x : Wfg) : (s.withWfg x).inject = s.inject := (rfl)
@[simp] theorem State.withWfg_streams (s : State) (x : Wfg) : (s.withWfg x).streams = s.streams := (rfl)
@[simp] theorem State.withWfg_engine (s : State) (x : Wfg) : (s.withWfg x).engine = s.engine := (rfl)
@[simp] theorem State.withWfg_grants (s : State) (x : Wfg) : (s.withWfg x).grants = s.grants := (rfl)
@[simp] theorem State.withWfg_hbm (s : State) (x : Wfg) : (s.withWfg x).hbm = s.hbm := (rfl)
@[simp] theorem State.withWfg_spray (s : State) (x : Wfg) : (s.withWfg x).spray = s.spray := (rfl)
@[simp] theorem State.withWfg_nseq (s : State) (x : Wfg) : (s.withWfg x).nseq = s.nseq := (rfl)
@[simp] theorem State.withWfg_lastNseq (s : State) (x : Wfg) : (s.withWfg x).lastNseq = s.lastNseq := (rfl)
@[simp] theorem State.withWfg_flipPrev (s : State) (x : Wfg) : (s.withWfg x).flipPrev = s.flipPrev := (rfl)
@[simp] theorem State.withWfg_skipScrub (s : State) (x : Wfg) : (s.withWfg x).skipScrub = s.skipScrub := (rfl)
@[simp] theorem State.withWfg_failedQuarters (s : State) (x : Wfg) : (s.withWfg x).failedQuarters = s.failedQuarters := (rfl)
@[simp] theorem State.withWfg_ethOut (s : State) (x : Wfg) : (s.withWfg x).ethOut = s.ethOut := (rfl)
@[simp] theorem State.withWfg_setNow (s : State) (x : Wfg) : (s.withWfg x).setNow = s.setNow := (rfl)
@[simp] theorem State.withWfg_txnNow (s : State) (x : Wfg) : (s.withWfg x).txnNow = s.txnNow := (rfl)
@[simp] theorem State.withWfg_cycleNow (s : State) (x : Wfg) : (s.withWfg x).cycleNow = s.cycleNow := (rfl)

@[simp] theorem State.withStreams_pending (s : State) (x : SMap (List Stream)) : (s.withStreams x).pending = s.pending := (rfl)
@[simp] theorem State.withStreams_freeCtr (s : State) (x : SMap (List Stream)) : (s.withStreams x).freeCtr = s.freeCtr := (rfl)
@[simp] theorem State.withStreams_regs (s : State) (x : SMap (List Stream)) : (s.withStreams x).regs = s.regs := (rfl)
@[simp] theorem State.withStreams_mem (s : State) (x : SMap (List Stream)) : (s.withStreams x).mem = s.mem := (rfl)
@[simp] theorem State.withStreams_dies (s : State) (x : SMap (List Stream)) : (s.withStreams x).dies = s.dies := (rfl)
@[simp] theorem State.withStreams_evlog (s : State) (x : SMap (List Stream)) : (s.withStreams x).evlog = s.evlog := (rfl)
@[simp] theorem State.withStreams_acceptAt (s : State) (x : SMap (List Stream)) : (s.withStreams x).acceptAt = s.acceptAt := (rfl)
@[simp] theorem State.withStreams_rates (s : State) (x : SMap (List Stream)) : (s.withStreams x).rates = s.rates := (rfl)
@[simp] theorem State.withStreams_time (s : State) (x : SMap (List Stream)) : (s.withStreams x).time = s.time := (rfl)
@[simp] theorem State.withStreams_ptime (s : State) (x : SMap (List Stream)) : (s.withStreams x).ptime = s.ptime := (rfl)
@[simp] theorem State.withStreams_tiles (s : State) (x : SMap (List Stream)) : (s.withStreams x).tiles = s.tiles := (rfl)
@[simp] theorem State.withStreams_lineCells (s : State) (x : SMap (List Stream)) : (s.withStreams x).lineCells = s.lineCells := (rfl)
@[simp] theorem State.withStreams_tokens (s : State) (x : SMap (List Stream)) : (s.withStreams x).tokens = s.tokens := (rfl)
@[simp] theorem State.withStreams_tokOps (s : State) (x : SMap (List Stream)) : (s.withStreams x).tokOps = s.tokOps := (rfl)
@[simp] theorem State.withStreams_spent (s : State) (x : SMap (List Stream)) : (s.withStreams x).spent = s.spent := (rfl)
@[simp] theorem State.withStreams_recent (s : State) (x : SMap (List Stream)) : (s.withStreams x).recent = s.recent := (rfl)
@[simp] theorem State.withStreams_walkers (s : State) (x : SMap (List Stream)) : (s.withStreams x).walkers = s.walkers := (rfl)
@[simp] theorem State.withStreams_preWalkers (s : State) (x : SMap (List Stream)) : (s.withStreams x).preWalkers = s.preWalkers := (rfl)
@[simp] theorem State.withStreams_transits (s : State) (x : SMap (List Stream)) : (s.withStreams x).transits = s.transits := (rfl)
@[simp] theorem State.withStreams_sramReads (s : State) (x : SMap (List Stream)) : (s.withStreams x).sramReads = s.sramReads := (rfl)
@[simp] theorem State.withStreams_jn (s : State) (x : SMap (List Stream)) : (s.withStreams x).jn = s.jn := (rfl)
@[simp] theorem State.withStreams_ports (s : State) (x : SMap (List Stream)) : (s.withStreams x).ports = s.ports := (rfl)
@[simp] theorem State.withStreams_rings (s : State) (x : SMap (List Stream)) : (s.withStreams x).rings = s.rings := (rfl)
@[simp] theorem State.withStreams_turn (s : State) (x : SMap (List Stream)) : (s.withStreams x).turn = s.turn := (rfl)
@[simp] theorem State.withStreams_notify (s : State) (x : SMap (List Stream)) : (s.withStreams x).notify = s.notify := (rfl)
@[simp] theorem State.withStreams_notes (s : State) (x : SMap (List Stream)) : (s.withStreams x).notes = s.notes := (rfl)
@[simp] theorem State.withStreams_hostOut (s : State) (x : SMap (List Stream)) : (s.withStreams x).hostOut = s.hostOut := (rfl)
@[simp] theorem State.withStreams_irqs (s : State) (x : SMap (List Stream)) : (s.withStreams x).irqs = s.irqs := (rfl)
@[simp] theorem State.withStreams_vfs (s : State) (x : SMap (List Stream)) : (s.withStreams x).vfs = s.vfs := (rfl)
@[simp] theorem State.withStreams_pcieUp (s : State) (x : SMap (List Stream)) : (s.withStreams x).pcieUp = s.pcieUp := (rfl)
@[simp] theorem State.withStreams_pcie (s : State) (x : SMap (List Stream)) : (s.withStreams x).pcie = s.pcie := (rfl)
@[simp] theorem State.withStreams_ats (s : State) (x : SMap (List Stream)) : (s.withStreams x).ats = s.ats := (rfl)
@[simp] theorem State.withStreams_atsDone (s : State) (x : SMap (List Stream)) : (s.withStreams x).atsDone = s.atsDone := (rfl)
@[simp] theorem State.withStreams_parts (s : State) (x : SMap (List Stream)) : (s.withStreams x).parts = s.parts := (rfl)
@[simp] theorem State.withStreams_lock (s : State) (x : SMap (List Stream)) : (s.withStreams x).lock = s.lock := (rfl)
@[simp] theorem State.withStreams_power (s : State) (x : SMap (List Stream)) : (s.withStreams x).power = s.power := (rfl)
@[simp] theorem State.withStreams_pins (s : State) (x : SMap (List Stream)) : (s.withStreams x).pins = s.pins := (rfl)
@[simp] theorem State.withStreams_mon (s : State) (x : SMap (List Stream)) : (s.withStreams x).mon = s.mon := (rfl)
@[simp] theorem State.withStreams_txn (s : State) (x : SMap (List Stream)) : (s.withStreams x).txn = s.txn := (rfl)
@[simp] theorem State.withStreams_armedTxns (s : State) (x : SMap (List Stream)) : (s.withStreams x).armedTxns = s.armedTxns := (rfl)
@[simp] theorem State.withStreams_prot (s : State) (x : SMap (List Stream)) : (s.withStreams x).prot = s.prot := (rfl)
@[simp] theorem State.withStreams_snapAt (s : State) (x : SMap (List Stream)) : (s.withStreams x).snapAt = s.snapAt := (rfl)
@[simp] theorem State.withStreams_trace (s : State) (x : SMap (List Stream)) : (s.withStreams x).trace = s.trace := (rfl)
@[simp] theorem State.withStreams_traceQ (s : State) (x : SMap (List Stream)) : (s.withStreams x).traceQ = s.traceQ := (rfl)
@[simp] theorem State.withStreams_dump (s : State) (x : SMap (List Stream)) : (s.withStreams x).dump = s.dump := (rfl)
@[simp] theorem State.withStreams_wfg (s : State) (x : SMap (List Stream)) : (s.withStreams x).wfg = s.wfg := (rfl)
@[simp] theorem State.withStreams_i3c (s : State) (x : SMap (List Stream)) : (s.withStreams x).i3c = s.i3c := (rfl)
@[simp] theorem State.withStreams_readData (s : State) (x : SMap (List Stream)) : (s.withStreams x).readData = s.readData := (rfl)
@[simp] theorem State.withStreams_inject (s : State) (x : SMap (List Stream)) : (s.withStreams x).inject = s.inject := (rfl)
@[simp] theorem State.withStreams_streams (s : State) (x : SMap (List Stream)) : (s.withStreams x).streams = x := (rfl)
@[simp] theorem State.withStreams_engine (s : State) (x : SMap (List Stream)) : (s.withStreams x).engine = s.engine := (rfl)
@[simp] theorem State.withStreams_grants (s : State) (x : SMap (List Stream)) : (s.withStreams x).grants = s.grants := (rfl)
@[simp] theorem State.withStreams_hbm (s : State) (x : SMap (List Stream)) : (s.withStreams x).hbm = s.hbm := (rfl)
@[simp] theorem State.withStreams_spray (s : State) (x : SMap (List Stream)) : (s.withStreams x).spray = s.spray := (rfl)
@[simp] theorem State.withStreams_nseq (s : State) (x : SMap (List Stream)) : (s.withStreams x).nseq = s.nseq := (rfl)
@[simp] theorem State.withStreams_lastNseq (s : State) (x : SMap (List Stream)) : (s.withStreams x).lastNseq = s.lastNseq := (rfl)
@[simp] theorem State.withStreams_flipPrev (s : State) (x : SMap (List Stream)) : (s.withStreams x).flipPrev = s.flipPrev := (rfl)
@[simp] theorem State.withStreams_skipScrub (s : State) (x : SMap (List Stream)) : (s.withStreams x).skipScrub = s.skipScrub := (rfl)
@[simp] theorem State.withStreams_failedQuarters (s : State) (x : SMap (List Stream)) : (s.withStreams x).failedQuarters = s.failedQuarters := (rfl)
@[simp] theorem State.withStreams_ethOut (s : State) (x : SMap (List Stream)) : (s.withStreams x).ethOut = s.ethOut := (rfl)
@[simp] theorem State.withStreams_setNow (s : State) (x : SMap (List Stream)) : (s.withStreams x).setNow = s.setNow := (rfl)
@[simp] theorem State.withStreams_txnNow (s : State) (x : SMap (List Stream)) : (s.withStreams x).txnNow = s.txnNow := (rfl)
@[simp] theorem State.withStreams_cycleNow (s : State) (x : SMap (List Stream)) : (s.withStreams x).cycleNow = s.cycleNow := (rfl)

@[simp] theorem State.withGrants_pending (s : State) (x : SMap (Nat × Nat)) : (s.withGrants x).pending = s.pending := (rfl)
@[simp] theorem State.withGrants_freeCtr (s : State) (x : SMap (Nat × Nat)) : (s.withGrants x).freeCtr = s.freeCtr := (rfl)
@[simp] theorem State.withGrants_regs (s : State) (x : SMap (Nat × Nat)) : (s.withGrants x).regs = s.regs := (rfl)
@[simp] theorem State.withGrants_mem (s : State) (x : SMap (Nat × Nat)) : (s.withGrants x).mem = s.mem := (rfl)
@[simp] theorem State.withGrants_dies (s : State) (x : SMap (Nat × Nat)) : (s.withGrants x).dies = s.dies := (rfl)
@[simp] theorem State.withGrants_evlog (s : State) (x : SMap (Nat × Nat)) : (s.withGrants x).evlog = s.evlog := (rfl)
@[simp] theorem State.withGrants_acceptAt (s : State) (x : SMap (Nat × Nat)) : (s.withGrants x).acceptAt = s.acceptAt := (rfl)
@[simp] theorem State.withGrants_rates (s : State) (x : SMap (Nat × Nat)) : (s.withGrants x).rates = s.rates := (rfl)
@[simp] theorem State.withGrants_time (s : State) (x : SMap (Nat × Nat)) : (s.withGrants x).time = s.time := (rfl)
@[simp] theorem State.withGrants_ptime (s : State) (x : SMap (Nat × Nat)) : (s.withGrants x).ptime = s.ptime := (rfl)
@[simp] theorem State.withGrants_tiles (s : State) (x : SMap (Nat × Nat)) : (s.withGrants x).tiles = s.tiles := (rfl)
@[simp] theorem State.withGrants_lineCells (s : State) (x : SMap (Nat × Nat)) : (s.withGrants x).lineCells = s.lineCells := (rfl)
@[simp] theorem State.withGrants_tokens (s : State) (x : SMap (Nat × Nat)) : (s.withGrants x).tokens = s.tokens := (rfl)
@[simp] theorem State.withGrants_tokOps (s : State) (x : SMap (Nat × Nat)) : (s.withGrants x).tokOps = s.tokOps := (rfl)
@[simp] theorem State.withGrants_spent (s : State) (x : SMap (Nat × Nat)) : (s.withGrants x).spent = s.spent := (rfl)
@[simp] theorem State.withGrants_recent (s : State) (x : SMap (Nat × Nat)) : (s.withGrants x).recent = s.recent := (rfl)
@[simp] theorem State.withGrants_walkers (s : State) (x : SMap (Nat × Nat)) : (s.withGrants x).walkers = s.walkers := (rfl)
@[simp] theorem State.withGrants_preWalkers (s : State) (x : SMap (Nat × Nat)) : (s.withGrants x).preWalkers = s.preWalkers := (rfl)
@[simp] theorem State.withGrants_transits (s : State) (x : SMap (Nat × Nat)) : (s.withGrants x).transits = s.transits := (rfl)
@[simp] theorem State.withGrants_sramReads (s : State) (x : SMap (Nat × Nat)) : (s.withGrants x).sramReads = s.sramReads := (rfl)
@[simp] theorem State.withGrants_jn (s : State) (x : SMap (Nat × Nat)) : (s.withGrants x).jn = s.jn := (rfl)
@[simp] theorem State.withGrants_ports (s : State) (x : SMap (Nat × Nat)) : (s.withGrants x).ports = s.ports := (rfl)
@[simp] theorem State.withGrants_rings (s : State) (x : SMap (Nat × Nat)) : (s.withGrants x).rings = s.rings := (rfl)
@[simp] theorem State.withGrants_turn (s : State) (x : SMap (Nat × Nat)) : (s.withGrants x).turn = s.turn := (rfl)
@[simp] theorem State.withGrants_notify (s : State) (x : SMap (Nat × Nat)) : (s.withGrants x).notify = s.notify := (rfl)
@[simp] theorem State.withGrants_notes (s : State) (x : SMap (Nat × Nat)) : (s.withGrants x).notes = s.notes := (rfl)
@[simp] theorem State.withGrants_hostOut (s : State) (x : SMap (Nat × Nat)) : (s.withGrants x).hostOut = s.hostOut := (rfl)
@[simp] theorem State.withGrants_irqs (s : State) (x : SMap (Nat × Nat)) : (s.withGrants x).irqs = s.irqs := (rfl)
@[simp] theorem State.withGrants_vfs (s : State) (x : SMap (Nat × Nat)) : (s.withGrants x).vfs = s.vfs := (rfl)
@[simp] theorem State.withGrants_pcieUp (s : State) (x : SMap (Nat × Nat)) : (s.withGrants x).pcieUp = s.pcieUp := (rfl)
@[simp] theorem State.withGrants_pcie (s : State) (x : SMap (Nat × Nat)) : (s.withGrants x).pcie = s.pcie := (rfl)
@[simp] theorem State.withGrants_ats (s : State) (x : SMap (Nat × Nat)) : (s.withGrants x).ats = s.ats := (rfl)
@[simp] theorem State.withGrants_atsDone (s : State) (x : SMap (Nat × Nat)) : (s.withGrants x).atsDone = s.atsDone := (rfl)
@[simp] theorem State.withGrants_parts (s : State) (x : SMap (Nat × Nat)) : (s.withGrants x).parts = s.parts := (rfl)
@[simp] theorem State.withGrants_lock (s : State) (x : SMap (Nat × Nat)) : (s.withGrants x).lock = s.lock := (rfl)
@[simp] theorem State.withGrants_power (s : State) (x : SMap (Nat × Nat)) : (s.withGrants x).power = s.power := (rfl)
@[simp] theorem State.withGrants_pins (s : State) (x : SMap (Nat × Nat)) : (s.withGrants x).pins = s.pins := (rfl)
@[simp] theorem State.withGrants_mon (s : State) (x : SMap (Nat × Nat)) : (s.withGrants x).mon = s.mon := (rfl)
@[simp] theorem State.withGrants_txn (s : State) (x : SMap (Nat × Nat)) : (s.withGrants x).txn = s.txn := (rfl)
@[simp] theorem State.withGrants_armedTxns (s : State) (x : SMap (Nat × Nat)) : (s.withGrants x).armedTxns = s.armedTxns := (rfl)
@[simp] theorem State.withGrants_prot (s : State) (x : SMap (Nat × Nat)) : (s.withGrants x).prot = s.prot := (rfl)
@[simp] theorem State.withGrants_snapAt (s : State) (x : SMap (Nat × Nat)) : (s.withGrants x).snapAt = s.snapAt := (rfl)
@[simp] theorem State.withGrants_trace (s : State) (x : SMap (Nat × Nat)) : (s.withGrants x).trace = s.trace := (rfl)
@[simp] theorem State.withGrants_traceQ (s : State) (x : SMap (Nat × Nat)) : (s.withGrants x).traceQ = s.traceQ := (rfl)
@[simp] theorem State.withGrants_dump (s : State) (x : SMap (Nat × Nat)) : (s.withGrants x).dump = s.dump := (rfl)
@[simp] theorem State.withGrants_wfg (s : State) (x : SMap (Nat × Nat)) : (s.withGrants x).wfg = s.wfg := (rfl)
@[simp] theorem State.withGrants_i3c (s : State) (x : SMap (Nat × Nat)) : (s.withGrants x).i3c = s.i3c := (rfl)
@[simp] theorem State.withGrants_readData (s : State) (x : SMap (Nat × Nat)) : (s.withGrants x).readData = s.readData := (rfl)
@[simp] theorem State.withGrants_inject (s : State) (x : SMap (Nat × Nat)) : (s.withGrants x).inject = s.inject := (rfl)
@[simp] theorem State.withGrants_streams (s : State) (x : SMap (Nat × Nat)) : (s.withGrants x).streams = s.streams := (rfl)
@[simp] theorem State.withGrants_engine (s : State) (x : SMap (Nat × Nat)) : (s.withGrants x).engine = s.engine := (rfl)
@[simp] theorem State.withGrants_grants (s : State) (x : SMap (Nat × Nat)) : (s.withGrants x).grants = x := (rfl)
@[simp] theorem State.withGrants_hbm (s : State) (x : SMap (Nat × Nat)) : (s.withGrants x).hbm = s.hbm := (rfl)
@[simp] theorem State.withGrants_spray (s : State) (x : SMap (Nat × Nat)) : (s.withGrants x).spray = s.spray := (rfl)
@[simp] theorem State.withGrants_nseq (s : State) (x : SMap (Nat × Nat)) : (s.withGrants x).nseq = s.nseq := (rfl)
@[simp] theorem State.withGrants_lastNseq (s : State) (x : SMap (Nat × Nat)) : (s.withGrants x).lastNseq = s.lastNseq := (rfl)
@[simp] theorem State.withGrants_flipPrev (s : State) (x : SMap (Nat × Nat)) : (s.withGrants x).flipPrev = s.flipPrev := (rfl)
@[simp] theorem State.withGrants_skipScrub (s : State) (x : SMap (Nat × Nat)) : (s.withGrants x).skipScrub = s.skipScrub := (rfl)
@[simp] theorem State.withGrants_failedQuarters (s : State) (x : SMap (Nat × Nat)) : (s.withGrants x).failedQuarters = s.failedQuarters := (rfl)
@[simp] theorem State.withGrants_ethOut (s : State) (x : SMap (Nat × Nat)) : (s.withGrants x).ethOut = s.ethOut := (rfl)
@[simp] theorem State.withGrants_setNow (s : State) (x : SMap (Nat × Nat)) : (s.withGrants x).setNow = s.setNow := (rfl)
@[simp] theorem State.withGrants_txnNow (s : State) (x : SMap (Nat × Nat)) : (s.withGrants x).txnNow = s.txnNow := (rfl)
@[simp] theorem State.withGrants_cycleNow (s : State) (x : SMap (Nat × Nat)) : (s.withGrants x).cycleNow = s.cycleNow := (rfl)

@[simp] theorem State.withEngine_pending (s : State) (x : SMap (Nat × Nat)) : (s.withEngine x).pending = s.pending := (rfl)
@[simp] theorem State.withEngine_freeCtr (s : State) (x : SMap (Nat × Nat)) : (s.withEngine x).freeCtr = s.freeCtr := (rfl)
@[simp] theorem State.withEngine_regs (s : State) (x : SMap (Nat × Nat)) : (s.withEngine x).regs = s.regs := (rfl)
@[simp] theorem State.withEngine_mem (s : State) (x : SMap (Nat × Nat)) : (s.withEngine x).mem = s.mem := (rfl)
@[simp] theorem State.withEngine_dies (s : State) (x : SMap (Nat × Nat)) : (s.withEngine x).dies = s.dies := (rfl)
@[simp] theorem State.withEngine_evlog (s : State) (x : SMap (Nat × Nat)) : (s.withEngine x).evlog = s.evlog := (rfl)
@[simp] theorem State.withEngine_acceptAt (s : State) (x : SMap (Nat × Nat)) : (s.withEngine x).acceptAt = s.acceptAt := (rfl)
@[simp] theorem State.withEngine_rates (s : State) (x : SMap (Nat × Nat)) : (s.withEngine x).rates = s.rates := (rfl)
@[simp] theorem State.withEngine_time (s : State) (x : SMap (Nat × Nat)) : (s.withEngine x).time = s.time := (rfl)
@[simp] theorem State.withEngine_ptime (s : State) (x : SMap (Nat × Nat)) : (s.withEngine x).ptime = s.ptime := (rfl)
@[simp] theorem State.withEngine_tiles (s : State) (x : SMap (Nat × Nat)) : (s.withEngine x).tiles = s.tiles := (rfl)
@[simp] theorem State.withEngine_lineCells (s : State) (x : SMap (Nat × Nat)) : (s.withEngine x).lineCells = s.lineCells := (rfl)
@[simp] theorem State.withEngine_tokens (s : State) (x : SMap (Nat × Nat)) : (s.withEngine x).tokens = s.tokens := (rfl)
@[simp] theorem State.withEngine_tokOps (s : State) (x : SMap (Nat × Nat)) : (s.withEngine x).tokOps = s.tokOps := (rfl)
@[simp] theorem State.withEngine_spent (s : State) (x : SMap (Nat × Nat)) : (s.withEngine x).spent = s.spent := (rfl)
@[simp] theorem State.withEngine_recent (s : State) (x : SMap (Nat × Nat)) : (s.withEngine x).recent = s.recent := (rfl)
@[simp] theorem State.withEngine_walkers (s : State) (x : SMap (Nat × Nat)) : (s.withEngine x).walkers = s.walkers := (rfl)
@[simp] theorem State.withEngine_preWalkers (s : State) (x : SMap (Nat × Nat)) : (s.withEngine x).preWalkers = s.preWalkers := (rfl)
@[simp] theorem State.withEngine_transits (s : State) (x : SMap (Nat × Nat)) : (s.withEngine x).transits = s.transits := (rfl)
@[simp] theorem State.withEngine_sramReads (s : State) (x : SMap (Nat × Nat)) : (s.withEngine x).sramReads = s.sramReads := (rfl)
@[simp] theorem State.withEngine_jn (s : State) (x : SMap (Nat × Nat)) : (s.withEngine x).jn = s.jn := (rfl)
@[simp] theorem State.withEngine_ports (s : State) (x : SMap (Nat × Nat)) : (s.withEngine x).ports = s.ports := (rfl)
@[simp] theorem State.withEngine_rings (s : State) (x : SMap (Nat × Nat)) : (s.withEngine x).rings = s.rings := (rfl)
@[simp] theorem State.withEngine_turn (s : State) (x : SMap (Nat × Nat)) : (s.withEngine x).turn = s.turn := (rfl)
@[simp] theorem State.withEngine_notify (s : State) (x : SMap (Nat × Nat)) : (s.withEngine x).notify = s.notify := (rfl)
@[simp] theorem State.withEngine_notes (s : State) (x : SMap (Nat × Nat)) : (s.withEngine x).notes = s.notes := (rfl)
@[simp] theorem State.withEngine_hostOut (s : State) (x : SMap (Nat × Nat)) : (s.withEngine x).hostOut = s.hostOut := (rfl)
@[simp] theorem State.withEngine_irqs (s : State) (x : SMap (Nat × Nat)) : (s.withEngine x).irqs = s.irqs := (rfl)
@[simp] theorem State.withEngine_vfs (s : State) (x : SMap (Nat × Nat)) : (s.withEngine x).vfs = s.vfs := (rfl)
@[simp] theorem State.withEngine_pcieUp (s : State) (x : SMap (Nat × Nat)) : (s.withEngine x).pcieUp = s.pcieUp := (rfl)
@[simp] theorem State.withEngine_pcie (s : State) (x : SMap (Nat × Nat)) : (s.withEngine x).pcie = s.pcie := (rfl)
@[simp] theorem State.withEngine_ats (s : State) (x : SMap (Nat × Nat)) : (s.withEngine x).ats = s.ats := (rfl)
@[simp] theorem State.withEngine_atsDone (s : State) (x : SMap (Nat × Nat)) : (s.withEngine x).atsDone = s.atsDone := (rfl)
@[simp] theorem State.withEngine_parts (s : State) (x : SMap (Nat × Nat)) : (s.withEngine x).parts = s.parts := (rfl)
@[simp] theorem State.withEngine_lock (s : State) (x : SMap (Nat × Nat)) : (s.withEngine x).lock = s.lock := (rfl)
@[simp] theorem State.withEngine_power (s : State) (x : SMap (Nat × Nat)) : (s.withEngine x).power = s.power := (rfl)
@[simp] theorem State.withEngine_pins (s : State) (x : SMap (Nat × Nat)) : (s.withEngine x).pins = s.pins := (rfl)
@[simp] theorem State.withEngine_mon (s : State) (x : SMap (Nat × Nat)) : (s.withEngine x).mon = s.mon := (rfl)
@[simp] theorem State.withEngine_txn (s : State) (x : SMap (Nat × Nat)) : (s.withEngine x).txn = s.txn := (rfl)
@[simp] theorem State.withEngine_armedTxns (s : State) (x : SMap (Nat × Nat)) : (s.withEngine x).armedTxns = s.armedTxns := (rfl)
@[simp] theorem State.withEngine_prot (s : State) (x : SMap (Nat × Nat)) : (s.withEngine x).prot = s.prot := (rfl)
@[simp] theorem State.withEngine_snapAt (s : State) (x : SMap (Nat × Nat)) : (s.withEngine x).snapAt = s.snapAt := (rfl)
@[simp] theorem State.withEngine_trace (s : State) (x : SMap (Nat × Nat)) : (s.withEngine x).trace = s.trace := (rfl)
@[simp] theorem State.withEngine_traceQ (s : State) (x : SMap (Nat × Nat)) : (s.withEngine x).traceQ = s.traceQ := (rfl)
@[simp] theorem State.withEngine_dump (s : State) (x : SMap (Nat × Nat)) : (s.withEngine x).dump = s.dump := (rfl)
@[simp] theorem State.withEngine_wfg (s : State) (x : SMap (Nat × Nat)) : (s.withEngine x).wfg = s.wfg := (rfl)
@[simp] theorem State.withEngine_i3c (s : State) (x : SMap (Nat × Nat)) : (s.withEngine x).i3c = s.i3c := (rfl)
@[simp] theorem State.withEngine_readData (s : State) (x : SMap (Nat × Nat)) : (s.withEngine x).readData = s.readData := (rfl)
@[simp] theorem State.withEngine_inject (s : State) (x : SMap (Nat × Nat)) : (s.withEngine x).inject = s.inject := (rfl)
@[simp] theorem State.withEngine_streams (s : State) (x : SMap (Nat × Nat)) : (s.withEngine x).streams = s.streams := (rfl)
@[simp] theorem State.withEngine_engine (s : State) (x : SMap (Nat × Nat)) : (s.withEngine x).engine = x := (rfl)
@[simp] theorem State.withEngine_grants (s : State) (x : SMap (Nat × Nat)) : (s.withEngine x).grants = s.grants := (rfl)
@[simp] theorem State.withEngine_hbm (s : State) (x : SMap (Nat × Nat)) : (s.withEngine x).hbm = s.hbm := (rfl)
@[simp] theorem State.withEngine_spray (s : State) (x : SMap (Nat × Nat)) : (s.withEngine x).spray = s.spray := (rfl)
@[simp] theorem State.withEngine_nseq (s : State) (x : SMap (Nat × Nat)) : (s.withEngine x).nseq = s.nseq := (rfl)
@[simp] theorem State.withEngine_lastNseq (s : State) (x : SMap (Nat × Nat)) : (s.withEngine x).lastNseq = s.lastNseq := (rfl)
@[simp] theorem State.withEngine_flipPrev (s : State) (x : SMap (Nat × Nat)) : (s.withEngine x).flipPrev = s.flipPrev := (rfl)
@[simp] theorem State.withEngine_skipScrub (s : State) (x : SMap (Nat × Nat)) : (s.withEngine x).skipScrub = s.skipScrub := (rfl)
@[simp] theorem State.withEngine_failedQuarters (s : State) (x : SMap (Nat × Nat)) : (s.withEngine x).failedQuarters = s.failedQuarters := (rfl)
@[simp] theorem State.withEngine_ethOut (s : State) (x : SMap (Nat × Nat)) : (s.withEngine x).ethOut = s.ethOut := (rfl)
@[simp] theorem State.withEngine_setNow (s : State) (x : SMap (Nat × Nat)) : (s.withEngine x).setNow = s.setNow := (rfl)
@[simp] theorem State.withEngine_txnNow (s : State) (x : SMap (Nat × Nat)) : (s.withEngine x).txnNow = s.txnNow := (rfl)
@[simp] theorem State.withEngine_cycleNow (s : State) (x : SMap (Nat × Nat)) : (s.withEngine x).cycleNow = s.cycleNow := (rfl)

@[simp] theorem State.withHbm_pending (s : State) (x : SMap Stack) : (s.withHbm x).pending = s.pending := (rfl)
@[simp] theorem State.withHbm_freeCtr (s : State) (x : SMap Stack) : (s.withHbm x).freeCtr = s.freeCtr := (rfl)
@[simp] theorem State.withHbm_regs (s : State) (x : SMap Stack) : (s.withHbm x).regs = s.regs := (rfl)
@[simp] theorem State.withHbm_mem (s : State) (x : SMap Stack) : (s.withHbm x).mem = s.mem := (rfl)
@[simp] theorem State.withHbm_dies (s : State) (x : SMap Stack) : (s.withHbm x).dies = s.dies := (rfl)
@[simp] theorem State.withHbm_evlog (s : State) (x : SMap Stack) : (s.withHbm x).evlog = s.evlog := (rfl)
@[simp] theorem State.withHbm_acceptAt (s : State) (x : SMap Stack) : (s.withHbm x).acceptAt = s.acceptAt := (rfl)
@[simp] theorem State.withHbm_rates (s : State) (x : SMap Stack) : (s.withHbm x).rates = s.rates := (rfl)
@[simp] theorem State.withHbm_time (s : State) (x : SMap Stack) : (s.withHbm x).time = s.time := (rfl)
@[simp] theorem State.withHbm_ptime (s : State) (x : SMap Stack) : (s.withHbm x).ptime = s.ptime := (rfl)
@[simp] theorem State.withHbm_tiles (s : State) (x : SMap Stack) : (s.withHbm x).tiles = s.tiles := (rfl)
@[simp] theorem State.withHbm_lineCells (s : State) (x : SMap Stack) : (s.withHbm x).lineCells = s.lineCells := (rfl)
@[simp] theorem State.withHbm_tokens (s : State) (x : SMap Stack) : (s.withHbm x).tokens = s.tokens := (rfl)
@[simp] theorem State.withHbm_tokOps (s : State) (x : SMap Stack) : (s.withHbm x).tokOps = s.tokOps := (rfl)
@[simp] theorem State.withHbm_spent (s : State) (x : SMap Stack) : (s.withHbm x).spent = s.spent := (rfl)
@[simp] theorem State.withHbm_recent (s : State) (x : SMap Stack) : (s.withHbm x).recent = s.recent := (rfl)
@[simp] theorem State.withHbm_walkers (s : State) (x : SMap Stack) : (s.withHbm x).walkers = s.walkers := (rfl)
@[simp] theorem State.withHbm_preWalkers (s : State) (x : SMap Stack) : (s.withHbm x).preWalkers = s.preWalkers := (rfl)
@[simp] theorem State.withHbm_transits (s : State) (x : SMap Stack) : (s.withHbm x).transits = s.transits := (rfl)
@[simp] theorem State.withHbm_sramReads (s : State) (x : SMap Stack) : (s.withHbm x).sramReads = s.sramReads := (rfl)
@[simp] theorem State.withHbm_jn (s : State) (x : SMap Stack) : (s.withHbm x).jn = s.jn := (rfl)
@[simp] theorem State.withHbm_ports (s : State) (x : SMap Stack) : (s.withHbm x).ports = s.ports := (rfl)
@[simp] theorem State.withHbm_rings (s : State) (x : SMap Stack) : (s.withHbm x).rings = s.rings := (rfl)
@[simp] theorem State.withHbm_turn (s : State) (x : SMap Stack) : (s.withHbm x).turn = s.turn := (rfl)
@[simp] theorem State.withHbm_notify (s : State) (x : SMap Stack) : (s.withHbm x).notify = s.notify := (rfl)
@[simp] theorem State.withHbm_notes (s : State) (x : SMap Stack) : (s.withHbm x).notes = s.notes := (rfl)
@[simp] theorem State.withHbm_hostOut (s : State) (x : SMap Stack) : (s.withHbm x).hostOut = s.hostOut := (rfl)
@[simp] theorem State.withHbm_irqs (s : State) (x : SMap Stack) : (s.withHbm x).irqs = s.irqs := (rfl)
@[simp] theorem State.withHbm_vfs (s : State) (x : SMap Stack) : (s.withHbm x).vfs = s.vfs := (rfl)
@[simp] theorem State.withHbm_pcieUp (s : State) (x : SMap Stack) : (s.withHbm x).pcieUp = s.pcieUp := (rfl)
@[simp] theorem State.withHbm_pcie (s : State) (x : SMap Stack) : (s.withHbm x).pcie = s.pcie := (rfl)
@[simp] theorem State.withHbm_ats (s : State) (x : SMap Stack) : (s.withHbm x).ats = s.ats := (rfl)
@[simp] theorem State.withHbm_atsDone (s : State) (x : SMap Stack) : (s.withHbm x).atsDone = s.atsDone := (rfl)
@[simp] theorem State.withHbm_parts (s : State) (x : SMap Stack) : (s.withHbm x).parts = s.parts := (rfl)
@[simp] theorem State.withHbm_lock (s : State) (x : SMap Stack) : (s.withHbm x).lock = s.lock := (rfl)
@[simp] theorem State.withHbm_power (s : State) (x : SMap Stack) : (s.withHbm x).power = s.power := (rfl)
@[simp] theorem State.withHbm_pins (s : State) (x : SMap Stack) : (s.withHbm x).pins = s.pins := (rfl)
@[simp] theorem State.withHbm_mon (s : State) (x : SMap Stack) : (s.withHbm x).mon = s.mon := (rfl)
@[simp] theorem State.withHbm_txn (s : State) (x : SMap Stack) : (s.withHbm x).txn = s.txn := (rfl)
@[simp] theorem State.withHbm_armedTxns (s : State) (x : SMap Stack) : (s.withHbm x).armedTxns = s.armedTxns := (rfl)
@[simp] theorem State.withHbm_prot (s : State) (x : SMap Stack) : (s.withHbm x).prot = s.prot := (rfl)
@[simp] theorem State.withHbm_snapAt (s : State) (x : SMap Stack) : (s.withHbm x).snapAt = s.snapAt := (rfl)
@[simp] theorem State.withHbm_trace (s : State) (x : SMap Stack) : (s.withHbm x).trace = s.trace := (rfl)
@[simp] theorem State.withHbm_traceQ (s : State) (x : SMap Stack) : (s.withHbm x).traceQ = s.traceQ := (rfl)
@[simp] theorem State.withHbm_dump (s : State) (x : SMap Stack) : (s.withHbm x).dump = s.dump := (rfl)
@[simp] theorem State.withHbm_wfg (s : State) (x : SMap Stack) : (s.withHbm x).wfg = s.wfg := (rfl)
@[simp] theorem State.withHbm_i3c (s : State) (x : SMap Stack) : (s.withHbm x).i3c = s.i3c := (rfl)
@[simp] theorem State.withHbm_readData (s : State) (x : SMap Stack) : (s.withHbm x).readData = s.readData := (rfl)
@[simp] theorem State.withHbm_inject (s : State) (x : SMap Stack) : (s.withHbm x).inject = s.inject := (rfl)
@[simp] theorem State.withHbm_streams (s : State) (x : SMap Stack) : (s.withHbm x).streams = s.streams := (rfl)
@[simp] theorem State.withHbm_engine (s : State) (x : SMap Stack) : (s.withHbm x).engine = s.engine := (rfl)
@[simp] theorem State.withHbm_grants (s : State) (x : SMap Stack) : (s.withHbm x).grants = s.grants := (rfl)
@[simp] theorem State.withHbm_hbm (s : State) (x : SMap Stack) : (s.withHbm x).hbm = x := (rfl)
@[simp] theorem State.withHbm_spray (s : State) (x : SMap Stack) : (s.withHbm x).spray = s.spray := (rfl)
@[simp] theorem State.withHbm_nseq (s : State) (x : SMap Stack) : (s.withHbm x).nseq = s.nseq := (rfl)
@[simp] theorem State.withHbm_lastNseq (s : State) (x : SMap Stack) : (s.withHbm x).lastNseq = s.lastNseq := (rfl)
@[simp] theorem State.withHbm_flipPrev (s : State) (x : SMap Stack) : (s.withHbm x).flipPrev = s.flipPrev := (rfl)
@[simp] theorem State.withHbm_skipScrub (s : State) (x : SMap Stack) : (s.withHbm x).skipScrub = s.skipScrub := (rfl)
@[simp] theorem State.withHbm_failedQuarters (s : State) (x : SMap Stack) : (s.withHbm x).failedQuarters = s.failedQuarters := (rfl)
@[simp] theorem State.withHbm_ethOut (s : State) (x : SMap Stack) : (s.withHbm x).ethOut = s.ethOut := (rfl)
@[simp] theorem State.withHbm_setNow (s : State) (x : SMap Stack) : (s.withHbm x).setNow = s.setNow := (rfl)
@[simp] theorem State.withHbm_txnNow (s : State) (x : SMap Stack) : (s.withHbm x).txnNow = s.txnNow := (rfl)
@[simp] theorem State.withHbm_cycleNow (s : State) (x : SMap Stack) : (s.withHbm x).cycleNow = s.cycleNow := (rfl)

@[simp] theorem State.withSpray_pending (s : State) (x : SMap Nat) : (s.withSpray x).pending = s.pending := (rfl)
@[simp] theorem State.withSpray_freeCtr (s : State) (x : SMap Nat) : (s.withSpray x).freeCtr = s.freeCtr := (rfl)
@[simp] theorem State.withSpray_regs (s : State) (x : SMap Nat) : (s.withSpray x).regs = s.regs := (rfl)
@[simp] theorem State.withSpray_mem (s : State) (x : SMap Nat) : (s.withSpray x).mem = s.mem := (rfl)
@[simp] theorem State.withSpray_dies (s : State) (x : SMap Nat) : (s.withSpray x).dies = s.dies := (rfl)
@[simp] theorem State.withSpray_evlog (s : State) (x : SMap Nat) : (s.withSpray x).evlog = s.evlog := (rfl)
@[simp] theorem State.withSpray_acceptAt (s : State) (x : SMap Nat) : (s.withSpray x).acceptAt = s.acceptAt := (rfl)
@[simp] theorem State.withSpray_rates (s : State) (x : SMap Nat) : (s.withSpray x).rates = s.rates := (rfl)
@[simp] theorem State.withSpray_time (s : State) (x : SMap Nat) : (s.withSpray x).time = s.time := (rfl)
@[simp] theorem State.withSpray_ptime (s : State) (x : SMap Nat) : (s.withSpray x).ptime = s.ptime := (rfl)
@[simp] theorem State.withSpray_tiles (s : State) (x : SMap Nat) : (s.withSpray x).tiles = s.tiles := (rfl)
@[simp] theorem State.withSpray_lineCells (s : State) (x : SMap Nat) : (s.withSpray x).lineCells = s.lineCells := (rfl)
@[simp] theorem State.withSpray_tokens (s : State) (x : SMap Nat) : (s.withSpray x).tokens = s.tokens := (rfl)
@[simp] theorem State.withSpray_tokOps (s : State) (x : SMap Nat) : (s.withSpray x).tokOps = s.tokOps := (rfl)
@[simp] theorem State.withSpray_spent (s : State) (x : SMap Nat) : (s.withSpray x).spent = s.spent := (rfl)
@[simp] theorem State.withSpray_recent (s : State) (x : SMap Nat) : (s.withSpray x).recent = s.recent := (rfl)
@[simp] theorem State.withSpray_walkers (s : State) (x : SMap Nat) : (s.withSpray x).walkers = s.walkers := (rfl)
@[simp] theorem State.withSpray_preWalkers (s : State) (x : SMap Nat) : (s.withSpray x).preWalkers = s.preWalkers := (rfl)
@[simp] theorem State.withSpray_transits (s : State) (x : SMap Nat) : (s.withSpray x).transits = s.transits := (rfl)
@[simp] theorem State.withSpray_sramReads (s : State) (x : SMap Nat) : (s.withSpray x).sramReads = s.sramReads := (rfl)
@[simp] theorem State.withSpray_jn (s : State) (x : SMap Nat) : (s.withSpray x).jn = s.jn := (rfl)
@[simp] theorem State.withSpray_ports (s : State) (x : SMap Nat) : (s.withSpray x).ports = s.ports := (rfl)
@[simp] theorem State.withSpray_rings (s : State) (x : SMap Nat) : (s.withSpray x).rings = s.rings := (rfl)
@[simp] theorem State.withSpray_turn (s : State) (x : SMap Nat) : (s.withSpray x).turn = s.turn := (rfl)
@[simp] theorem State.withSpray_notify (s : State) (x : SMap Nat) : (s.withSpray x).notify = s.notify := (rfl)
@[simp] theorem State.withSpray_notes (s : State) (x : SMap Nat) : (s.withSpray x).notes = s.notes := (rfl)
@[simp] theorem State.withSpray_hostOut (s : State) (x : SMap Nat) : (s.withSpray x).hostOut = s.hostOut := (rfl)
@[simp] theorem State.withSpray_irqs (s : State) (x : SMap Nat) : (s.withSpray x).irqs = s.irqs := (rfl)
@[simp] theorem State.withSpray_vfs (s : State) (x : SMap Nat) : (s.withSpray x).vfs = s.vfs := (rfl)
@[simp] theorem State.withSpray_pcieUp (s : State) (x : SMap Nat) : (s.withSpray x).pcieUp = s.pcieUp := (rfl)
@[simp] theorem State.withSpray_pcie (s : State) (x : SMap Nat) : (s.withSpray x).pcie = s.pcie := (rfl)
@[simp] theorem State.withSpray_ats (s : State) (x : SMap Nat) : (s.withSpray x).ats = s.ats := (rfl)
@[simp] theorem State.withSpray_atsDone (s : State) (x : SMap Nat) : (s.withSpray x).atsDone = s.atsDone := (rfl)
@[simp] theorem State.withSpray_parts (s : State) (x : SMap Nat) : (s.withSpray x).parts = s.parts := (rfl)
@[simp] theorem State.withSpray_lock (s : State) (x : SMap Nat) : (s.withSpray x).lock = s.lock := (rfl)
@[simp] theorem State.withSpray_power (s : State) (x : SMap Nat) : (s.withSpray x).power = s.power := (rfl)
@[simp] theorem State.withSpray_pins (s : State) (x : SMap Nat) : (s.withSpray x).pins = s.pins := (rfl)
@[simp] theorem State.withSpray_mon (s : State) (x : SMap Nat) : (s.withSpray x).mon = s.mon := (rfl)
@[simp] theorem State.withSpray_txn (s : State) (x : SMap Nat) : (s.withSpray x).txn = s.txn := (rfl)
@[simp] theorem State.withSpray_armedTxns (s : State) (x : SMap Nat) : (s.withSpray x).armedTxns = s.armedTxns := (rfl)
@[simp] theorem State.withSpray_prot (s : State) (x : SMap Nat) : (s.withSpray x).prot = s.prot := (rfl)
@[simp] theorem State.withSpray_snapAt (s : State) (x : SMap Nat) : (s.withSpray x).snapAt = s.snapAt := (rfl)
@[simp] theorem State.withSpray_trace (s : State) (x : SMap Nat) : (s.withSpray x).trace = s.trace := (rfl)
@[simp] theorem State.withSpray_traceQ (s : State) (x : SMap Nat) : (s.withSpray x).traceQ = s.traceQ := (rfl)
@[simp] theorem State.withSpray_dump (s : State) (x : SMap Nat) : (s.withSpray x).dump = s.dump := (rfl)
@[simp] theorem State.withSpray_wfg (s : State) (x : SMap Nat) : (s.withSpray x).wfg = s.wfg := (rfl)
@[simp] theorem State.withSpray_i3c (s : State) (x : SMap Nat) : (s.withSpray x).i3c = s.i3c := (rfl)
@[simp] theorem State.withSpray_readData (s : State) (x : SMap Nat) : (s.withSpray x).readData = s.readData := (rfl)
@[simp] theorem State.withSpray_inject (s : State) (x : SMap Nat) : (s.withSpray x).inject = s.inject := (rfl)
@[simp] theorem State.withSpray_streams (s : State) (x : SMap Nat) : (s.withSpray x).streams = s.streams := (rfl)
@[simp] theorem State.withSpray_engine (s : State) (x : SMap Nat) : (s.withSpray x).engine = s.engine := (rfl)
@[simp] theorem State.withSpray_grants (s : State) (x : SMap Nat) : (s.withSpray x).grants = s.grants := (rfl)
@[simp] theorem State.withSpray_hbm (s : State) (x : SMap Nat) : (s.withSpray x).hbm = s.hbm := (rfl)
@[simp] theorem State.withSpray_spray (s : State) (x : SMap Nat) : (s.withSpray x).spray = x := (rfl)
@[simp] theorem State.withSpray_nseq (s : State) (x : SMap Nat) : (s.withSpray x).nseq = s.nseq := (rfl)
@[simp] theorem State.withSpray_lastNseq (s : State) (x : SMap Nat) : (s.withSpray x).lastNseq = s.lastNseq := (rfl)
@[simp] theorem State.withSpray_flipPrev (s : State) (x : SMap Nat) : (s.withSpray x).flipPrev = s.flipPrev := (rfl)
@[simp] theorem State.withSpray_skipScrub (s : State) (x : SMap Nat) : (s.withSpray x).skipScrub = s.skipScrub := (rfl)
@[simp] theorem State.withSpray_failedQuarters (s : State) (x : SMap Nat) : (s.withSpray x).failedQuarters = s.failedQuarters := (rfl)
@[simp] theorem State.withSpray_ethOut (s : State) (x : SMap Nat) : (s.withSpray x).ethOut = s.ethOut := (rfl)
@[simp] theorem State.withSpray_setNow (s : State) (x : SMap Nat) : (s.withSpray x).setNow = s.setNow := (rfl)
@[simp] theorem State.withSpray_txnNow (s : State) (x : SMap Nat) : (s.withSpray x).txnNow = s.txnNow := (rfl)
@[simp] theorem State.withSpray_cycleNow (s : State) (x : SMap Nat) : (s.withSpray x).cycleNow = s.cycleNow := (rfl)

@[simp] theorem State.withNseq_pending (s : State) (x : BitVec 16) : (s.withNseq x).pending = s.pending := (rfl)
@[simp] theorem State.withNseq_freeCtr (s : State) (x : BitVec 16) : (s.withNseq x).freeCtr = s.freeCtr := (rfl)
@[simp] theorem State.withNseq_regs (s : State) (x : BitVec 16) : (s.withNseq x).regs = s.regs := (rfl)
@[simp] theorem State.withNseq_mem (s : State) (x : BitVec 16) : (s.withNseq x).mem = s.mem := (rfl)
@[simp] theorem State.withNseq_dies (s : State) (x : BitVec 16) : (s.withNseq x).dies = s.dies := (rfl)
@[simp] theorem State.withNseq_evlog (s : State) (x : BitVec 16) : (s.withNseq x).evlog = s.evlog := (rfl)
@[simp] theorem State.withNseq_acceptAt (s : State) (x : BitVec 16) : (s.withNseq x).acceptAt = s.acceptAt := (rfl)
@[simp] theorem State.withNseq_rates (s : State) (x : BitVec 16) : (s.withNseq x).rates = s.rates := (rfl)
@[simp] theorem State.withNseq_time (s : State) (x : BitVec 16) : (s.withNseq x).time = s.time := (rfl)
@[simp] theorem State.withNseq_ptime (s : State) (x : BitVec 16) : (s.withNseq x).ptime = s.ptime := (rfl)
@[simp] theorem State.withNseq_tiles (s : State) (x : BitVec 16) : (s.withNseq x).tiles = s.tiles := (rfl)
@[simp] theorem State.withNseq_lineCells (s : State) (x : BitVec 16) : (s.withNseq x).lineCells = s.lineCells := (rfl)
@[simp] theorem State.withNseq_tokens (s : State) (x : BitVec 16) : (s.withNseq x).tokens = s.tokens := (rfl)
@[simp] theorem State.withNseq_tokOps (s : State) (x : BitVec 16) : (s.withNseq x).tokOps = s.tokOps := (rfl)
@[simp] theorem State.withNseq_spent (s : State) (x : BitVec 16) : (s.withNseq x).spent = s.spent := (rfl)
@[simp] theorem State.withNseq_recent (s : State) (x : BitVec 16) : (s.withNseq x).recent = s.recent := (rfl)
@[simp] theorem State.withNseq_walkers (s : State) (x : BitVec 16) : (s.withNseq x).walkers = s.walkers := (rfl)
@[simp] theorem State.withNseq_preWalkers (s : State) (x : BitVec 16) : (s.withNseq x).preWalkers = s.preWalkers := (rfl)
@[simp] theorem State.withNseq_transits (s : State) (x : BitVec 16) : (s.withNseq x).transits = s.transits := (rfl)
@[simp] theorem State.withNseq_sramReads (s : State) (x : BitVec 16) : (s.withNseq x).sramReads = s.sramReads := (rfl)
@[simp] theorem State.withNseq_jn (s : State) (x : BitVec 16) : (s.withNseq x).jn = s.jn := (rfl)
@[simp] theorem State.withNseq_ports (s : State) (x : BitVec 16) : (s.withNseq x).ports = s.ports := (rfl)
@[simp] theorem State.withNseq_rings (s : State) (x : BitVec 16) : (s.withNseq x).rings = s.rings := (rfl)
@[simp] theorem State.withNseq_turn (s : State) (x : BitVec 16) : (s.withNseq x).turn = s.turn := (rfl)
@[simp] theorem State.withNseq_notify (s : State) (x : BitVec 16) : (s.withNseq x).notify = s.notify := (rfl)
@[simp] theorem State.withNseq_notes (s : State) (x : BitVec 16) : (s.withNseq x).notes = s.notes := (rfl)
@[simp] theorem State.withNseq_hostOut (s : State) (x : BitVec 16) : (s.withNseq x).hostOut = s.hostOut := (rfl)
@[simp] theorem State.withNseq_irqs (s : State) (x : BitVec 16) : (s.withNseq x).irqs = s.irqs := (rfl)
@[simp] theorem State.withNseq_vfs (s : State) (x : BitVec 16) : (s.withNseq x).vfs = s.vfs := (rfl)
@[simp] theorem State.withNseq_pcieUp (s : State) (x : BitVec 16) : (s.withNseq x).pcieUp = s.pcieUp := (rfl)
@[simp] theorem State.withNseq_pcie (s : State) (x : BitVec 16) : (s.withNseq x).pcie = s.pcie := (rfl)
@[simp] theorem State.withNseq_ats (s : State) (x : BitVec 16) : (s.withNseq x).ats = s.ats := (rfl)
@[simp] theorem State.withNseq_atsDone (s : State) (x : BitVec 16) : (s.withNseq x).atsDone = s.atsDone := (rfl)
@[simp] theorem State.withNseq_parts (s : State) (x : BitVec 16) : (s.withNseq x).parts = s.parts := (rfl)
@[simp] theorem State.withNseq_lock (s : State) (x : BitVec 16) : (s.withNseq x).lock = s.lock := (rfl)
@[simp] theorem State.withNseq_power (s : State) (x : BitVec 16) : (s.withNseq x).power = s.power := (rfl)
@[simp] theorem State.withNseq_pins (s : State) (x : BitVec 16) : (s.withNseq x).pins = s.pins := (rfl)
@[simp] theorem State.withNseq_mon (s : State) (x : BitVec 16) : (s.withNseq x).mon = s.mon := (rfl)
@[simp] theorem State.withNseq_txn (s : State) (x : BitVec 16) : (s.withNseq x).txn = s.txn := (rfl)
@[simp] theorem State.withNseq_armedTxns (s : State) (x : BitVec 16) : (s.withNseq x).armedTxns = s.armedTxns := (rfl)
@[simp] theorem State.withNseq_prot (s : State) (x : BitVec 16) : (s.withNseq x).prot = s.prot := (rfl)
@[simp] theorem State.withNseq_snapAt (s : State) (x : BitVec 16) : (s.withNseq x).snapAt = s.snapAt := (rfl)
@[simp] theorem State.withNseq_trace (s : State) (x : BitVec 16) : (s.withNseq x).trace = s.trace := (rfl)
@[simp] theorem State.withNseq_traceQ (s : State) (x : BitVec 16) : (s.withNseq x).traceQ = s.traceQ := (rfl)
@[simp] theorem State.withNseq_dump (s : State) (x : BitVec 16) : (s.withNseq x).dump = s.dump := (rfl)
@[simp] theorem State.withNseq_wfg (s : State) (x : BitVec 16) : (s.withNseq x).wfg = s.wfg := (rfl)
@[simp] theorem State.withNseq_i3c (s : State) (x : BitVec 16) : (s.withNseq x).i3c = s.i3c := (rfl)
@[simp] theorem State.withNseq_readData (s : State) (x : BitVec 16) : (s.withNseq x).readData = s.readData := (rfl)
@[simp] theorem State.withNseq_inject (s : State) (x : BitVec 16) : (s.withNseq x).inject = s.inject := (rfl)
@[simp] theorem State.withNseq_streams (s : State) (x : BitVec 16) : (s.withNseq x).streams = s.streams := (rfl)
@[simp] theorem State.withNseq_engine (s : State) (x : BitVec 16) : (s.withNseq x).engine = s.engine := (rfl)
@[simp] theorem State.withNseq_grants (s : State) (x : BitVec 16) : (s.withNseq x).grants = s.grants := (rfl)
@[simp] theorem State.withNseq_hbm (s : State) (x : BitVec 16) : (s.withNseq x).hbm = s.hbm := (rfl)
@[simp] theorem State.withNseq_spray (s : State) (x : BitVec 16) : (s.withNseq x).spray = s.spray := (rfl)
@[simp] theorem State.withNseq_nseq (s : State) (x : BitVec 16) : (s.withNseq x).nseq = x := (rfl)
@[simp] theorem State.withNseq_lastNseq (s : State) (x : BitVec 16) : (s.withNseq x).lastNseq = s.lastNseq := (rfl)
@[simp] theorem State.withNseq_flipPrev (s : State) (x : BitVec 16) : (s.withNseq x).flipPrev = s.flipPrev := (rfl)
@[simp] theorem State.withNseq_skipScrub (s : State) (x : BitVec 16) : (s.withNseq x).skipScrub = s.skipScrub := (rfl)
@[simp] theorem State.withNseq_failedQuarters (s : State) (x : BitVec 16) : (s.withNseq x).failedQuarters = s.failedQuarters := (rfl)
@[simp] theorem State.withNseq_ethOut (s : State) (x : BitVec 16) : (s.withNseq x).ethOut = s.ethOut := (rfl)
@[simp] theorem State.withNseq_setNow (s : State) (x : BitVec 16) : (s.withNseq x).setNow = s.setNow := (rfl)
@[simp] theorem State.withNseq_txnNow (s : State) (x : BitVec 16) : (s.withNseq x).txnNow = s.txnNow := (rfl)
@[simp] theorem State.withNseq_cycleNow (s : State) (x : BitVec 16) : (s.withNseq x).cycleNow = s.cycleNow := (rfl)

@[simp] theorem State.withLastNseq_pending (s : State) (x : SMap Nat) : (s.withLastNseq x).pending = s.pending := (rfl)
@[simp] theorem State.withLastNseq_freeCtr (s : State) (x : SMap Nat) : (s.withLastNseq x).freeCtr = s.freeCtr := (rfl)
@[simp] theorem State.withLastNseq_regs (s : State) (x : SMap Nat) : (s.withLastNseq x).regs = s.regs := (rfl)
@[simp] theorem State.withLastNseq_mem (s : State) (x : SMap Nat) : (s.withLastNseq x).mem = s.mem := (rfl)
@[simp] theorem State.withLastNseq_dies (s : State) (x : SMap Nat) : (s.withLastNseq x).dies = s.dies := (rfl)
@[simp] theorem State.withLastNseq_evlog (s : State) (x : SMap Nat) : (s.withLastNseq x).evlog = s.evlog := (rfl)
@[simp] theorem State.withLastNseq_acceptAt (s : State) (x : SMap Nat) : (s.withLastNseq x).acceptAt = s.acceptAt := (rfl)
@[simp] theorem State.withLastNseq_rates (s : State) (x : SMap Nat) : (s.withLastNseq x).rates = s.rates := (rfl)
@[simp] theorem State.withLastNseq_time (s : State) (x : SMap Nat) : (s.withLastNseq x).time = s.time := (rfl)
@[simp] theorem State.withLastNseq_ptime (s : State) (x : SMap Nat) : (s.withLastNseq x).ptime = s.ptime := (rfl)
@[simp] theorem State.withLastNseq_tiles (s : State) (x : SMap Nat) : (s.withLastNseq x).tiles = s.tiles := (rfl)
@[simp] theorem State.withLastNseq_lineCells (s : State) (x : SMap Nat) : (s.withLastNseq x).lineCells = s.lineCells := (rfl)
@[simp] theorem State.withLastNseq_tokens (s : State) (x : SMap Nat) : (s.withLastNseq x).tokens = s.tokens := (rfl)
@[simp] theorem State.withLastNseq_tokOps (s : State) (x : SMap Nat) : (s.withLastNseq x).tokOps = s.tokOps := (rfl)
@[simp] theorem State.withLastNseq_spent (s : State) (x : SMap Nat) : (s.withLastNseq x).spent = s.spent := (rfl)
@[simp] theorem State.withLastNseq_recent (s : State) (x : SMap Nat) : (s.withLastNseq x).recent = s.recent := (rfl)
@[simp] theorem State.withLastNseq_walkers (s : State) (x : SMap Nat) : (s.withLastNseq x).walkers = s.walkers := (rfl)
@[simp] theorem State.withLastNseq_preWalkers (s : State) (x : SMap Nat) : (s.withLastNseq x).preWalkers = s.preWalkers := (rfl)
@[simp] theorem State.withLastNseq_transits (s : State) (x : SMap Nat) : (s.withLastNseq x).transits = s.transits := (rfl)
@[simp] theorem State.withLastNseq_sramReads (s : State) (x : SMap Nat) : (s.withLastNseq x).sramReads = s.sramReads := (rfl)
@[simp] theorem State.withLastNseq_jn (s : State) (x : SMap Nat) : (s.withLastNseq x).jn = s.jn := (rfl)
@[simp] theorem State.withLastNseq_ports (s : State) (x : SMap Nat) : (s.withLastNseq x).ports = s.ports := (rfl)
@[simp] theorem State.withLastNseq_rings (s : State) (x : SMap Nat) : (s.withLastNseq x).rings = s.rings := (rfl)
@[simp] theorem State.withLastNseq_turn (s : State) (x : SMap Nat) : (s.withLastNseq x).turn = s.turn := (rfl)
@[simp] theorem State.withLastNseq_notify (s : State) (x : SMap Nat) : (s.withLastNseq x).notify = s.notify := (rfl)
@[simp] theorem State.withLastNseq_notes (s : State) (x : SMap Nat) : (s.withLastNseq x).notes = s.notes := (rfl)
@[simp] theorem State.withLastNseq_hostOut (s : State) (x : SMap Nat) : (s.withLastNseq x).hostOut = s.hostOut := (rfl)
@[simp] theorem State.withLastNseq_irqs (s : State) (x : SMap Nat) : (s.withLastNseq x).irqs = s.irqs := (rfl)
@[simp] theorem State.withLastNseq_vfs (s : State) (x : SMap Nat) : (s.withLastNseq x).vfs = s.vfs := (rfl)
@[simp] theorem State.withLastNseq_pcieUp (s : State) (x : SMap Nat) : (s.withLastNseq x).pcieUp = s.pcieUp := (rfl)
@[simp] theorem State.withLastNseq_pcie (s : State) (x : SMap Nat) : (s.withLastNseq x).pcie = s.pcie := (rfl)
@[simp] theorem State.withLastNseq_ats (s : State) (x : SMap Nat) : (s.withLastNseq x).ats = s.ats := (rfl)
@[simp] theorem State.withLastNseq_atsDone (s : State) (x : SMap Nat) : (s.withLastNseq x).atsDone = s.atsDone := (rfl)
@[simp] theorem State.withLastNseq_parts (s : State) (x : SMap Nat) : (s.withLastNseq x).parts = s.parts := (rfl)
@[simp] theorem State.withLastNseq_lock (s : State) (x : SMap Nat) : (s.withLastNseq x).lock = s.lock := (rfl)
@[simp] theorem State.withLastNseq_power (s : State) (x : SMap Nat) : (s.withLastNseq x).power = s.power := (rfl)
@[simp] theorem State.withLastNseq_pins (s : State) (x : SMap Nat) : (s.withLastNseq x).pins = s.pins := (rfl)
@[simp] theorem State.withLastNseq_mon (s : State) (x : SMap Nat) : (s.withLastNseq x).mon = s.mon := (rfl)
@[simp] theorem State.withLastNseq_txn (s : State) (x : SMap Nat) : (s.withLastNseq x).txn = s.txn := (rfl)
@[simp] theorem State.withLastNseq_armedTxns (s : State) (x : SMap Nat) : (s.withLastNseq x).armedTxns = s.armedTxns := (rfl)
@[simp] theorem State.withLastNseq_prot (s : State) (x : SMap Nat) : (s.withLastNseq x).prot = s.prot := (rfl)
@[simp] theorem State.withLastNseq_snapAt (s : State) (x : SMap Nat) : (s.withLastNseq x).snapAt = s.snapAt := (rfl)
@[simp] theorem State.withLastNseq_trace (s : State) (x : SMap Nat) : (s.withLastNseq x).trace = s.trace := (rfl)
@[simp] theorem State.withLastNseq_traceQ (s : State) (x : SMap Nat) : (s.withLastNseq x).traceQ = s.traceQ := (rfl)
@[simp] theorem State.withLastNseq_dump (s : State) (x : SMap Nat) : (s.withLastNseq x).dump = s.dump := (rfl)
@[simp] theorem State.withLastNseq_wfg (s : State) (x : SMap Nat) : (s.withLastNseq x).wfg = s.wfg := (rfl)
@[simp] theorem State.withLastNseq_i3c (s : State) (x : SMap Nat) : (s.withLastNseq x).i3c = s.i3c := (rfl)
@[simp] theorem State.withLastNseq_readData (s : State) (x : SMap Nat) : (s.withLastNseq x).readData = s.readData := (rfl)
@[simp] theorem State.withLastNseq_inject (s : State) (x : SMap Nat) : (s.withLastNseq x).inject = s.inject := (rfl)
@[simp] theorem State.withLastNseq_streams (s : State) (x : SMap Nat) : (s.withLastNseq x).streams = s.streams := (rfl)
@[simp] theorem State.withLastNseq_engine (s : State) (x : SMap Nat) : (s.withLastNseq x).engine = s.engine := (rfl)
@[simp] theorem State.withLastNseq_grants (s : State) (x : SMap Nat) : (s.withLastNseq x).grants = s.grants := (rfl)
@[simp] theorem State.withLastNseq_hbm (s : State) (x : SMap Nat) : (s.withLastNseq x).hbm = s.hbm := (rfl)
@[simp] theorem State.withLastNseq_spray (s : State) (x : SMap Nat) : (s.withLastNseq x).spray = s.spray := (rfl)
@[simp] theorem State.withLastNseq_nseq (s : State) (x : SMap Nat) : (s.withLastNseq x).nseq = s.nseq := (rfl)
@[simp] theorem State.withLastNseq_lastNseq (s : State) (x : SMap Nat) : (s.withLastNseq x).lastNseq = x := (rfl)
@[simp] theorem State.withLastNseq_flipPrev (s : State) (x : SMap Nat) : (s.withLastNseq x).flipPrev = s.flipPrev := (rfl)
@[simp] theorem State.withLastNseq_skipScrub (s : State) (x : SMap Nat) : (s.withLastNseq x).skipScrub = s.skipScrub := (rfl)
@[simp] theorem State.withLastNseq_failedQuarters (s : State) (x : SMap Nat) : (s.withLastNseq x).failedQuarters = s.failedQuarters := (rfl)
@[simp] theorem State.withLastNseq_ethOut (s : State) (x : SMap Nat) : (s.withLastNseq x).ethOut = s.ethOut := (rfl)
@[simp] theorem State.withLastNseq_setNow (s : State) (x : SMap Nat) : (s.withLastNseq x).setNow = s.setNow := (rfl)
@[simp] theorem State.withLastNseq_txnNow (s : State) (x : SMap Nat) : (s.withLastNseq x).txnNow = s.txnNow := (rfl)
@[simp] theorem State.withLastNseq_cycleNow (s : State) (x : SMap Nat) : (s.withLastNseq x).cycleNow = s.cycleNow := (rfl)

@[simp] theorem State.withFlipPrev_pending (s : State) (x : Option Nat) : (s.withFlipPrev x).pending = s.pending := (rfl)
@[simp] theorem State.withFlipPrev_freeCtr (s : State) (x : Option Nat) : (s.withFlipPrev x).freeCtr = s.freeCtr := (rfl)
@[simp] theorem State.withFlipPrev_regs (s : State) (x : Option Nat) : (s.withFlipPrev x).regs = s.regs := (rfl)
@[simp] theorem State.withFlipPrev_mem (s : State) (x : Option Nat) : (s.withFlipPrev x).mem = s.mem := (rfl)
@[simp] theorem State.withFlipPrev_dies (s : State) (x : Option Nat) : (s.withFlipPrev x).dies = s.dies := (rfl)
@[simp] theorem State.withFlipPrev_evlog (s : State) (x : Option Nat) : (s.withFlipPrev x).evlog = s.evlog := (rfl)
@[simp] theorem State.withFlipPrev_acceptAt (s : State) (x : Option Nat) : (s.withFlipPrev x).acceptAt = s.acceptAt := (rfl)
@[simp] theorem State.withFlipPrev_rates (s : State) (x : Option Nat) : (s.withFlipPrev x).rates = s.rates := (rfl)
@[simp] theorem State.withFlipPrev_time (s : State) (x : Option Nat) : (s.withFlipPrev x).time = s.time := (rfl)
@[simp] theorem State.withFlipPrev_ptime (s : State) (x : Option Nat) : (s.withFlipPrev x).ptime = s.ptime := (rfl)
@[simp] theorem State.withFlipPrev_tiles (s : State) (x : Option Nat) : (s.withFlipPrev x).tiles = s.tiles := (rfl)
@[simp] theorem State.withFlipPrev_lineCells (s : State) (x : Option Nat) : (s.withFlipPrev x).lineCells = s.lineCells := (rfl)
@[simp] theorem State.withFlipPrev_tokens (s : State) (x : Option Nat) : (s.withFlipPrev x).tokens = s.tokens := (rfl)
@[simp] theorem State.withFlipPrev_tokOps (s : State) (x : Option Nat) : (s.withFlipPrev x).tokOps = s.tokOps := (rfl)
@[simp] theorem State.withFlipPrev_spent (s : State) (x : Option Nat) : (s.withFlipPrev x).spent = s.spent := (rfl)
@[simp] theorem State.withFlipPrev_recent (s : State) (x : Option Nat) : (s.withFlipPrev x).recent = s.recent := (rfl)
@[simp] theorem State.withFlipPrev_walkers (s : State) (x : Option Nat) : (s.withFlipPrev x).walkers = s.walkers := (rfl)
@[simp] theorem State.withFlipPrev_preWalkers (s : State) (x : Option Nat) : (s.withFlipPrev x).preWalkers = s.preWalkers := (rfl)
@[simp] theorem State.withFlipPrev_transits (s : State) (x : Option Nat) : (s.withFlipPrev x).transits = s.transits := (rfl)
@[simp] theorem State.withFlipPrev_sramReads (s : State) (x : Option Nat) : (s.withFlipPrev x).sramReads = s.sramReads := (rfl)
@[simp] theorem State.withFlipPrev_jn (s : State) (x : Option Nat) : (s.withFlipPrev x).jn = s.jn := (rfl)
@[simp] theorem State.withFlipPrev_ports (s : State) (x : Option Nat) : (s.withFlipPrev x).ports = s.ports := (rfl)
@[simp] theorem State.withFlipPrev_rings (s : State) (x : Option Nat) : (s.withFlipPrev x).rings = s.rings := (rfl)
@[simp] theorem State.withFlipPrev_turn (s : State) (x : Option Nat) : (s.withFlipPrev x).turn = s.turn := (rfl)
@[simp] theorem State.withFlipPrev_notify (s : State) (x : Option Nat) : (s.withFlipPrev x).notify = s.notify := (rfl)
@[simp] theorem State.withFlipPrev_notes (s : State) (x : Option Nat) : (s.withFlipPrev x).notes = s.notes := (rfl)
@[simp] theorem State.withFlipPrev_hostOut (s : State) (x : Option Nat) : (s.withFlipPrev x).hostOut = s.hostOut := (rfl)
@[simp] theorem State.withFlipPrev_irqs (s : State) (x : Option Nat) : (s.withFlipPrev x).irqs = s.irqs := (rfl)
@[simp] theorem State.withFlipPrev_vfs (s : State) (x : Option Nat) : (s.withFlipPrev x).vfs = s.vfs := (rfl)
@[simp] theorem State.withFlipPrev_pcieUp (s : State) (x : Option Nat) : (s.withFlipPrev x).pcieUp = s.pcieUp := (rfl)
@[simp] theorem State.withFlipPrev_pcie (s : State) (x : Option Nat) : (s.withFlipPrev x).pcie = s.pcie := (rfl)
@[simp] theorem State.withFlipPrev_ats (s : State) (x : Option Nat) : (s.withFlipPrev x).ats = s.ats := (rfl)
@[simp] theorem State.withFlipPrev_atsDone (s : State) (x : Option Nat) : (s.withFlipPrev x).atsDone = s.atsDone := (rfl)
@[simp] theorem State.withFlipPrev_parts (s : State) (x : Option Nat) : (s.withFlipPrev x).parts = s.parts := (rfl)
@[simp] theorem State.withFlipPrev_lock (s : State) (x : Option Nat) : (s.withFlipPrev x).lock = s.lock := (rfl)
@[simp] theorem State.withFlipPrev_power (s : State) (x : Option Nat) : (s.withFlipPrev x).power = s.power := (rfl)
@[simp] theorem State.withFlipPrev_pins (s : State) (x : Option Nat) : (s.withFlipPrev x).pins = s.pins := (rfl)
@[simp] theorem State.withFlipPrev_mon (s : State) (x : Option Nat) : (s.withFlipPrev x).mon = s.mon := (rfl)
@[simp] theorem State.withFlipPrev_txn (s : State) (x : Option Nat) : (s.withFlipPrev x).txn = s.txn := (rfl)
@[simp] theorem State.withFlipPrev_armedTxns (s : State) (x : Option Nat) : (s.withFlipPrev x).armedTxns = s.armedTxns := (rfl)
@[simp] theorem State.withFlipPrev_prot (s : State) (x : Option Nat) : (s.withFlipPrev x).prot = s.prot := (rfl)
@[simp] theorem State.withFlipPrev_snapAt (s : State) (x : Option Nat) : (s.withFlipPrev x).snapAt = s.snapAt := (rfl)
@[simp] theorem State.withFlipPrev_trace (s : State) (x : Option Nat) : (s.withFlipPrev x).trace = s.trace := (rfl)
@[simp] theorem State.withFlipPrev_traceQ (s : State) (x : Option Nat) : (s.withFlipPrev x).traceQ = s.traceQ := (rfl)
@[simp] theorem State.withFlipPrev_dump (s : State) (x : Option Nat) : (s.withFlipPrev x).dump = s.dump := (rfl)
@[simp] theorem State.withFlipPrev_wfg (s : State) (x : Option Nat) : (s.withFlipPrev x).wfg = s.wfg := (rfl)
@[simp] theorem State.withFlipPrev_i3c (s : State) (x : Option Nat) : (s.withFlipPrev x).i3c = s.i3c := (rfl)
@[simp] theorem State.withFlipPrev_readData (s : State) (x : Option Nat) : (s.withFlipPrev x).readData = s.readData := (rfl)
@[simp] theorem State.withFlipPrev_inject (s : State) (x : Option Nat) : (s.withFlipPrev x).inject = s.inject := (rfl)
@[simp] theorem State.withFlipPrev_streams (s : State) (x : Option Nat) : (s.withFlipPrev x).streams = s.streams := (rfl)
@[simp] theorem State.withFlipPrev_engine (s : State) (x : Option Nat) : (s.withFlipPrev x).engine = s.engine := (rfl)
@[simp] theorem State.withFlipPrev_grants (s : State) (x : Option Nat) : (s.withFlipPrev x).grants = s.grants := (rfl)
@[simp] theorem State.withFlipPrev_hbm (s : State) (x : Option Nat) : (s.withFlipPrev x).hbm = s.hbm := (rfl)
@[simp] theorem State.withFlipPrev_spray (s : State) (x : Option Nat) : (s.withFlipPrev x).spray = s.spray := (rfl)
@[simp] theorem State.withFlipPrev_nseq (s : State) (x : Option Nat) : (s.withFlipPrev x).nseq = s.nseq := (rfl)
@[simp] theorem State.withFlipPrev_lastNseq (s : State) (x : Option Nat) : (s.withFlipPrev x).lastNseq = s.lastNseq := (rfl)
@[simp] theorem State.withFlipPrev_flipPrev (s : State) (x : Option Nat) : (s.withFlipPrev x).flipPrev = x := (rfl)
@[simp] theorem State.withFlipPrev_skipScrub (s : State) (x : Option Nat) : (s.withFlipPrev x).skipScrub = s.skipScrub := (rfl)
@[simp] theorem State.withFlipPrev_failedQuarters (s : State) (x : Option Nat) : (s.withFlipPrev x).failedQuarters = s.failedQuarters := (rfl)
@[simp] theorem State.withFlipPrev_ethOut (s : State) (x : Option Nat) : (s.withFlipPrev x).ethOut = s.ethOut := (rfl)
@[simp] theorem State.withFlipPrev_setNow (s : State) (x : Option Nat) : (s.withFlipPrev x).setNow = s.setNow := (rfl)
@[simp] theorem State.withFlipPrev_txnNow (s : State) (x : Option Nat) : (s.withFlipPrev x).txnNow = s.txnNow := (rfl)
@[simp] theorem State.withFlipPrev_cycleNow (s : State) (x : Option Nat) : (s.withFlipPrev x).cycleNow = s.cycleNow := (rfl)

@[simp] theorem State.withSkipScrub_pending (s : State) (x : List Nat) : (s.withSkipScrub x).pending = s.pending := (rfl)
@[simp] theorem State.withSkipScrub_freeCtr (s : State) (x : List Nat) : (s.withSkipScrub x).freeCtr = s.freeCtr := (rfl)
@[simp] theorem State.withSkipScrub_regs (s : State) (x : List Nat) : (s.withSkipScrub x).regs = s.regs := (rfl)
@[simp] theorem State.withSkipScrub_mem (s : State) (x : List Nat) : (s.withSkipScrub x).mem = s.mem := (rfl)
@[simp] theorem State.withSkipScrub_dies (s : State) (x : List Nat) : (s.withSkipScrub x).dies = s.dies := (rfl)
@[simp] theorem State.withSkipScrub_evlog (s : State) (x : List Nat) : (s.withSkipScrub x).evlog = s.evlog := (rfl)
@[simp] theorem State.withSkipScrub_acceptAt (s : State) (x : List Nat) : (s.withSkipScrub x).acceptAt = s.acceptAt := (rfl)
@[simp] theorem State.withSkipScrub_rates (s : State) (x : List Nat) : (s.withSkipScrub x).rates = s.rates := (rfl)
@[simp] theorem State.withSkipScrub_time (s : State) (x : List Nat) : (s.withSkipScrub x).time = s.time := (rfl)
@[simp] theorem State.withSkipScrub_ptime (s : State) (x : List Nat) : (s.withSkipScrub x).ptime = s.ptime := (rfl)
@[simp] theorem State.withSkipScrub_tiles (s : State) (x : List Nat) : (s.withSkipScrub x).tiles = s.tiles := (rfl)
@[simp] theorem State.withSkipScrub_lineCells (s : State) (x : List Nat) : (s.withSkipScrub x).lineCells = s.lineCells := (rfl)
@[simp] theorem State.withSkipScrub_tokens (s : State) (x : List Nat) : (s.withSkipScrub x).tokens = s.tokens := (rfl)
@[simp] theorem State.withSkipScrub_tokOps (s : State) (x : List Nat) : (s.withSkipScrub x).tokOps = s.tokOps := (rfl)
@[simp] theorem State.withSkipScrub_spent (s : State) (x : List Nat) : (s.withSkipScrub x).spent = s.spent := (rfl)
@[simp] theorem State.withSkipScrub_recent (s : State) (x : List Nat) : (s.withSkipScrub x).recent = s.recent := (rfl)
@[simp] theorem State.withSkipScrub_walkers (s : State) (x : List Nat) : (s.withSkipScrub x).walkers = s.walkers := (rfl)
@[simp] theorem State.withSkipScrub_preWalkers (s : State) (x : List Nat) : (s.withSkipScrub x).preWalkers = s.preWalkers := (rfl)
@[simp] theorem State.withSkipScrub_transits (s : State) (x : List Nat) : (s.withSkipScrub x).transits = s.transits := (rfl)
@[simp] theorem State.withSkipScrub_sramReads (s : State) (x : List Nat) : (s.withSkipScrub x).sramReads = s.sramReads := (rfl)
@[simp] theorem State.withSkipScrub_jn (s : State) (x : List Nat) : (s.withSkipScrub x).jn = s.jn := (rfl)
@[simp] theorem State.withSkipScrub_ports (s : State) (x : List Nat) : (s.withSkipScrub x).ports = s.ports := (rfl)
@[simp] theorem State.withSkipScrub_rings (s : State) (x : List Nat) : (s.withSkipScrub x).rings = s.rings := (rfl)
@[simp] theorem State.withSkipScrub_turn (s : State) (x : List Nat) : (s.withSkipScrub x).turn = s.turn := (rfl)
@[simp] theorem State.withSkipScrub_notify (s : State) (x : List Nat) : (s.withSkipScrub x).notify = s.notify := (rfl)
@[simp] theorem State.withSkipScrub_notes (s : State) (x : List Nat) : (s.withSkipScrub x).notes = s.notes := (rfl)
@[simp] theorem State.withSkipScrub_hostOut (s : State) (x : List Nat) : (s.withSkipScrub x).hostOut = s.hostOut := (rfl)
@[simp] theorem State.withSkipScrub_irqs (s : State) (x : List Nat) : (s.withSkipScrub x).irqs = s.irqs := (rfl)
@[simp] theorem State.withSkipScrub_vfs (s : State) (x : List Nat) : (s.withSkipScrub x).vfs = s.vfs := (rfl)
@[simp] theorem State.withSkipScrub_pcieUp (s : State) (x : List Nat) : (s.withSkipScrub x).pcieUp = s.pcieUp := (rfl)
@[simp] theorem State.withSkipScrub_pcie (s : State) (x : List Nat) : (s.withSkipScrub x).pcie = s.pcie := (rfl)
@[simp] theorem State.withSkipScrub_ats (s : State) (x : List Nat) : (s.withSkipScrub x).ats = s.ats := (rfl)
@[simp] theorem State.withSkipScrub_atsDone (s : State) (x : List Nat) : (s.withSkipScrub x).atsDone = s.atsDone := (rfl)
@[simp] theorem State.withSkipScrub_parts (s : State) (x : List Nat) : (s.withSkipScrub x).parts = s.parts := (rfl)
@[simp] theorem State.withSkipScrub_lock (s : State) (x : List Nat) : (s.withSkipScrub x).lock = s.lock := (rfl)
@[simp] theorem State.withSkipScrub_power (s : State) (x : List Nat) : (s.withSkipScrub x).power = s.power := (rfl)
@[simp] theorem State.withSkipScrub_pins (s : State) (x : List Nat) : (s.withSkipScrub x).pins = s.pins := (rfl)
@[simp] theorem State.withSkipScrub_mon (s : State) (x : List Nat) : (s.withSkipScrub x).mon = s.mon := (rfl)
@[simp] theorem State.withSkipScrub_txn (s : State) (x : List Nat) : (s.withSkipScrub x).txn = s.txn := (rfl)
@[simp] theorem State.withSkipScrub_armedTxns (s : State) (x : List Nat) : (s.withSkipScrub x).armedTxns = s.armedTxns := (rfl)
@[simp] theorem State.withSkipScrub_prot (s : State) (x : List Nat) : (s.withSkipScrub x).prot = s.prot := (rfl)
@[simp] theorem State.withSkipScrub_snapAt (s : State) (x : List Nat) : (s.withSkipScrub x).snapAt = s.snapAt := (rfl)
@[simp] theorem State.withSkipScrub_trace (s : State) (x : List Nat) : (s.withSkipScrub x).trace = s.trace := (rfl)
@[simp] theorem State.withSkipScrub_traceQ (s : State) (x : List Nat) : (s.withSkipScrub x).traceQ = s.traceQ := (rfl)
@[simp] theorem State.withSkipScrub_dump (s : State) (x : List Nat) : (s.withSkipScrub x).dump = s.dump := (rfl)
@[simp] theorem State.withSkipScrub_wfg (s : State) (x : List Nat) : (s.withSkipScrub x).wfg = s.wfg := (rfl)
@[simp] theorem State.withSkipScrub_i3c (s : State) (x : List Nat) : (s.withSkipScrub x).i3c = s.i3c := (rfl)
@[simp] theorem State.withSkipScrub_readData (s : State) (x : List Nat) : (s.withSkipScrub x).readData = s.readData := (rfl)
@[simp] theorem State.withSkipScrub_inject (s : State) (x : List Nat) : (s.withSkipScrub x).inject = s.inject := (rfl)
@[simp] theorem State.withSkipScrub_streams (s : State) (x : List Nat) : (s.withSkipScrub x).streams = s.streams := (rfl)
@[simp] theorem State.withSkipScrub_engine (s : State) (x : List Nat) : (s.withSkipScrub x).engine = s.engine := (rfl)
@[simp] theorem State.withSkipScrub_grants (s : State) (x : List Nat) : (s.withSkipScrub x).grants = s.grants := (rfl)
@[simp] theorem State.withSkipScrub_hbm (s : State) (x : List Nat) : (s.withSkipScrub x).hbm = s.hbm := (rfl)
@[simp] theorem State.withSkipScrub_spray (s : State) (x : List Nat) : (s.withSkipScrub x).spray = s.spray := (rfl)
@[simp] theorem State.withSkipScrub_nseq (s : State) (x : List Nat) : (s.withSkipScrub x).nseq = s.nseq := (rfl)
@[simp] theorem State.withSkipScrub_lastNseq (s : State) (x : List Nat) : (s.withSkipScrub x).lastNseq = s.lastNseq := (rfl)
@[simp] theorem State.withSkipScrub_flipPrev (s : State) (x : List Nat) : (s.withSkipScrub x).flipPrev = s.flipPrev := (rfl)
@[simp] theorem State.withSkipScrub_skipScrub (s : State) (x : List Nat) : (s.withSkipScrub x).skipScrub = x := (rfl)
@[simp] theorem State.withSkipScrub_failedQuarters (s : State) (x : List Nat) : (s.withSkipScrub x).failedQuarters = s.failedQuarters := (rfl)
@[simp] theorem State.withSkipScrub_ethOut (s : State) (x : List Nat) : (s.withSkipScrub x).ethOut = s.ethOut := (rfl)
@[simp] theorem State.withSkipScrub_setNow (s : State) (x : List Nat) : (s.withSkipScrub x).setNow = s.setNow := (rfl)
@[simp] theorem State.withSkipScrub_txnNow (s : State) (x : List Nat) : (s.withSkipScrub x).txnNow = s.txnNow := (rfl)
@[simp] theorem State.withSkipScrub_cycleNow (s : State) (x : List Nat) : (s.withSkipScrub x).cycleNow = s.cycleNow := (rfl)

@[simp] theorem State.withFailedQuarters_pending (s : State) (x : BitVec 16) : (s.withFailedQuarters x).pending = s.pending := (rfl)
@[simp] theorem State.withFailedQuarters_freeCtr (s : State) (x : BitVec 16) : (s.withFailedQuarters x).freeCtr = s.freeCtr := (rfl)
@[simp] theorem State.withFailedQuarters_regs (s : State) (x : BitVec 16) : (s.withFailedQuarters x).regs = s.regs := (rfl)
@[simp] theorem State.withFailedQuarters_mem (s : State) (x : BitVec 16) : (s.withFailedQuarters x).mem = s.mem := (rfl)
@[simp] theorem State.withFailedQuarters_dies (s : State) (x : BitVec 16) : (s.withFailedQuarters x).dies = s.dies := (rfl)
@[simp] theorem State.withFailedQuarters_evlog (s : State) (x : BitVec 16) : (s.withFailedQuarters x).evlog = s.evlog := (rfl)
@[simp] theorem State.withFailedQuarters_acceptAt (s : State) (x : BitVec 16) : (s.withFailedQuarters x).acceptAt = s.acceptAt := (rfl)
@[simp] theorem State.withFailedQuarters_rates (s : State) (x : BitVec 16) : (s.withFailedQuarters x).rates = s.rates := (rfl)
@[simp] theorem State.withFailedQuarters_time (s : State) (x : BitVec 16) : (s.withFailedQuarters x).time = s.time := (rfl)
@[simp] theorem State.withFailedQuarters_ptime (s : State) (x : BitVec 16) : (s.withFailedQuarters x).ptime = s.ptime := (rfl)
@[simp] theorem State.withFailedQuarters_tiles (s : State) (x : BitVec 16) : (s.withFailedQuarters x).tiles = s.tiles := (rfl)
@[simp] theorem State.withFailedQuarters_lineCells (s : State) (x : BitVec 16) : (s.withFailedQuarters x).lineCells = s.lineCells := (rfl)
@[simp] theorem State.withFailedQuarters_tokens (s : State) (x : BitVec 16) : (s.withFailedQuarters x).tokens = s.tokens := (rfl)
@[simp] theorem State.withFailedQuarters_tokOps (s : State) (x : BitVec 16) : (s.withFailedQuarters x).tokOps = s.tokOps := (rfl)
@[simp] theorem State.withFailedQuarters_spent (s : State) (x : BitVec 16) : (s.withFailedQuarters x).spent = s.spent := (rfl)
@[simp] theorem State.withFailedQuarters_recent (s : State) (x : BitVec 16) : (s.withFailedQuarters x).recent = s.recent := (rfl)
@[simp] theorem State.withFailedQuarters_walkers (s : State) (x : BitVec 16) : (s.withFailedQuarters x).walkers = s.walkers := (rfl)
@[simp] theorem State.withFailedQuarters_preWalkers (s : State) (x : BitVec 16) : (s.withFailedQuarters x).preWalkers = s.preWalkers := (rfl)
@[simp] theorem State.withFailedQuarters_transits (s : State) (x : BitVec 16) : (s.withFailedQuarters x).transits = s.transits := (rfl)
@[simp] theorem State.withFailedQuarters_sramReads (s : State) (x : BitVec 16) : (s.withFailedQuarters x).sramReads = s.sramReads := (rfl)
@[simp] theorem State.withFailedQuarters_jn (s : State) (x : BitVec 16) : (s.withFailedQuarters x).jn = s.jn := (rfl)
@[simp] theorem State.withFailedQuarters_ports (s : State) (x : BitVec 16) : (s.withFailedQuarters x).ports = s.ports := (rfl)
@[simp] theorem State.withFailedQuarters_rings (s : State) (x : BitVec 16) : (s.withFailedQuarters x).rings = s.rings := (rfl)
@[simp] theorem State.withFailedQuarters_turn (s : State) (x : BitVec 16) : (s.withFailedQuarters x).turn = s.turn := (rfl)
@[simp] theorem State.withFailedQuarters_notify (s : State) (x : BitVec 16) : (s.withFailedQuarters x).notify = s.notify := (rfl)
@[simp] theorem State.withFailedQuarters_notes (s : State) (x : BitVec 16) : (s.withFailedQuarters x).notes = s.notes := (rfl)
@[simp] theorem State.withFailedQuarters_hostOut (s : State) (x : BitVec 16) : (s.withFailedQuarters x).hostOut = s.hostOut := (rfl)
@[simp] theorem State.withFailedQuarters_irqs (s : State) (x : BitVec 16) : (s.withFailedQuarters x).irqs = s.irqs := (rfl)
@[simp] theorem State.withFailedQuarters_vfs (s : State) (x : BitVec 16) : (s.withFailedQuarters x).vfs = s.vfs := (rfl)
@[simp] theorem State.withFailedQuarters_pcieUp (s : State) (x : BitVec 16) : (s.withFailedQuarters x).pcieUp = s.pcieUp := (rfl)
@[simp] theorem State.withFailedQuarters_pcie (s : State) (x : BitVec 16) : (s.withFailedQuarters x).pcie = s.pcie := (rfl)
@[simp] theorem State.withFailedQuarters_ats (s : State) (x : BitVec 16) : (s.withFailedQuarters x).ats = s.ats := (rfl)
@[simp] theorem State.withFailedQuarters_atsDone (s : State) (x : BitVec 16) : (s.withFailedQuarters x).atsDone = s.atsDone := (rfl)
@[simp] theorem State.withFailedQuarters_parts (s : State) (x : BitVec 16) : (s.withFailedQuarters x).parts = s.parts := (rfl)
@[simp] theorem State.withFailedQuarters_lock (s : State) (x : BitVec 16) : (s.withFailedQuarters x).lock = s.lock := (rfl)
@[simp] theorem State.withFailedQuarters_power (s : State) (x : BitVec 16) : (s.withFailedQuarters x).power = s.power := (rfl)
@[simp] theorem State.withFailedQuarters_pins (s : State) (x : BitVec 16) : (s.withFailedQuarters x).pins = s.pins := (rfl)
@[simp] theorem State.withFailedQuarters_mon (s : State) (x : BitVec 16) : (s.withFailedQuarters x).mon = s.mon := (rfl)
@[simp] theorem State.withFailedQuarters_txn (s : State) (x : BitVec 16) : (s.withFailedQuarters x).txn = s.txn := (rfl)
@[simp] theorem State.withFailedQuarters_armedTxns (s : State) (x : BitVec 16) : (s.withFailedQuarters x).armedTxns = s.armedTxns := (rfl)
@[simp] theorem State.withFailedQuarters_prot (s : State) (x : BitVec 16) : (s.withFailedQuarters x).prot = s.prot := (rfl)
@[simp] theorem State.withFailedQuarters_snapAt (s : State) (x : BitVec 16) : (s.withFailedQuarters x).snapAt = s.snapAt := (rfl)
@[simp] theorem State.withFailedQuarters_trace (s : State) (x : BitVec 16) : (s.withFailedQuarters x).trace = s.trace := (rfl)
@[simp] theorem State.withFailedQuarters_traceQ (s : State) (x : BitVec 16) : (s.withFailedQuarters x).traceQ = s.traceQ := (rfl)
@[simp] theorem State.withFailedQuarters_dump (s : State) (x : BitVec 16) : (s.withFailedQuarters x).dump = s.dump := (rfl)
@[simp] theorem State.withFailedQuarters_wfg (s : State) (x : BitVec 16) : (s.withFailedQuarters x).wfg = s.wfg := (rfl)
@[simp] theorem State.withFailedQuarters_i3c (s : State) (x : BitVec 16) : (s.withFailedQuarters x).i3c = s.i3c := (rfl)
@[simp] theorem State.withFailedQuarters_readData (s : State) (x : BitVec 16) : (s.withFailedQuarters x).readData = s.readData := (rfl)
@[simp] theorem State.withFailedQuarters_inject (s : State) (x : BitVec 16) : (s.withFailedQuarters x).inject = s.inject := (rfl)
@[simp] theorem State.withFailedQuarters_streams (s : State) (x : BitVec 16) : (s.withFailedQuarters x).streams = s.streams := (rfl)
@[simp] theorem State.withFailedQuarters_engine (s : State) (x : BitVec 16) : (s.withFailedQuarters x).engine = s.engine := (rfl)
@[simp] theorem State.withFailedQuarters_grants (s : State) (x : BitVec 16) : (s.withFailedQuarters x).grants = s.grants := (rfl)
@[simp] theorem State.withFailedQuarters_hbm (s : State) (x : BitVec 16) : (s.withFailedQuarters x).hbm = s.hbm := (rfl)
@[simp] theorem State.withFailedQuarters_spray (s : State) (x : BitVec 16) : (s.withFailedQuarters x).spray = s.spray := (rfl)
@[simp] theorem State.withFailedQuarters_nseq (s : State) (x : BitVec 16) : (s.withFailedQuarters x).nseq = s.nseq := (rfl)
@[simp] theorem State.withFailedQuarters_lastNseq (s : State) (x : BitVec 16) : (s.withFailedQuarters x).lastNseq = s.lastNseq := (rfl)
@[simp] theorem State.withFailedQuarters_flipPrev (s : State) (x : BitVec 16) : (s.withFailedQuarters x).flipPrev = s.flipPrev := (rfl)
@[simp] theorem State.withFailedQuarters_skipScrub (s : State) (x : BitVec 16) : (s.withFailedQuarters x).skipScrub = s.skipScrub := (rfl)
@[simp] theorem State.withFailedQuarters_failedQuarters (s : State) (x : BitVec 16) : (s.withFailedQuarters x).failedQuarters = x := (rfl)
@[simp] theorem State.withFailedQuarters_ethOut (s : State) (x : BitVec 16) : (s.withFailedQuarters x).ethOut = s.ethOut := (rfl)
@[simp] theorem State.withFailedQuarters_setNow (s : State) (x : BitVec 16) : (s.withFailedQuarters x).setNow = s.setNow := (rfl)
@[simp] theorem State.withFailedQuarters_txnNow (s : State) (x : BitVec 16) : (s.withFailedQuarters x).txnNow = s.txnNow := (rfl)
@[simp] theorem State.withFailedQuarters_cycleNow (s : State) (x : BitVec 16) : (s.withFailedQuarters x).cycleNow = s.cycleNow := (rfl)

@[simp] theorem State.withEthOut_pending (s : State) (x : List PtpFrame) : (s.withEthOut x).pending = s.pending := (rfl)
@[simp] theorem State.withEthOut_freeCtr (s : State) (x : List PtpFrame) : (s.withEthOut x).freeCtr = s.freeCtr := (rfl)
@[simp] theorem State.withEthOut_regs (s : State) (x : List PtpFrame) : (s.withEthOut x).regs = s.regs := (rfl)
@[simp] theorem State.withEthOut_mem (s : State) (x : List PtpFrame) : (s.withEthOut x).mem = s.mem := (rfl)
@[simp] theorem State.withEthOut_dies (s : State) (x : List PtpFrame) : (s.withEthOut x).dies = s.dies := (rfl)
@[simp] theorem State.withEthOut_evlog (s : State) (x : List PtpFrame) : (s.withEthOut x).evlog = s.evlog := (rfl)
@[simp] theorem State.withEthOut_acceptAt (s : State) (x : List PtpFrame) : (s.withEthOut x).acceptAt = s.acceptAt := (rfl)
@[simp] theorem State.withEthOut_rates (s : State) (x : List PtpFrame) : (s.withEthOut x).rates = s.rates := (rfl)
@[simp] theorem State.withEthOut_time (s : State) (x : List PtpFrame) : (s.withEthOut x).time = s.time := (rfl)
@[simp] theorem State.withEthOut_ptime (s : State) (x : List PtpFrame) : (s.withEthOut x).ptime = s.ptime := (rfl)
@[simp] theorem State.withEthOut_tiles (s : State) (x : List PtpFrame) : (s.withEthOut x).tiles = s.tiles := (rfl)
@[simp] theorem State.withEthOut_lineCells (s : State) (x : List PtpFrame) : (s.withEthOut x).lineCells = s.lineCells := (rfl)
@[simp] theorem State.withEthOut_tokens (s : State) (x : List PtpFrame) : (s.withEthOut x).tokens = s.tokens := (rfl)
@[simp] theorem State.withEthOut_tokOps (s : State) (x : List PtpFrame) : (s.withEthOut x).tokOps = s.tokOps := (rfl)
@[simp] theorem State.withEthOut_spent (s : State) (x : List PtpFrame) : (s.withEthOut x).spent = s.spent := (rfl)
@[simp] theorem State.withEthOut_recent (s : State) (x : List PtpFrame) : (s.withEthOut x).recent = s.recent := (rfl)
@[simp] theorem State.withEthOut_walkers (s : State) (x : List PtpFrame) : (s.withEthOut x).walkers = s.walkers := (rfl)
@[simp] theorem State.withEthOut_preWalkers (s : State) (x : List PtpFrame) : (s.withEthOut x).preWalkers = s.preWalkers := (rfl)
@[simp] theorem State.withEthOut_transits (s : State) (x : List PtpFrame) : (s.withEthOut x).transits = s.transits := (rfl)
@[simp] theorem State.withEthOut_sramReads (s : State) (x : List PtpFrame) : (s.withEthOut x).sramReads = s.sramReads := (rfl)
@[simp] theorem State.withEthOut_jn (s : State) (x : List PtpFrame) : (s.withEthOut x).jn = s.jn := (rfl)
@[simp] theorem State.withEthOut_ports (s : State) (x : List PtpFrame) : (s.withEthOut x).ports = s.ports := (rfl)
@[simp] theorem State.withEthOut_rings (s : State) (x : List PtpFrame) : (s.withEthOut x).rings = s.rings := (rfl)
@[simp] theorem State.withEthOut_turn (s : State) (x : List PtpFrame) : (s.withEthOut x).turn = s.turn := (rfl)
@[simp] theorem State.withEthOut_notify (s : State) (x : List PtpFrame) : (s.withEthOut x).notify = s.notify := (rfl)
@[simp] theorem State.withEthOut_notes (s : State) (x : List PtpFrame) : (s.withEthOut x).notes = s.notes := (rfl)
@[simp] theorem State.withEthOut_hostOut (s : State) (x : List PtpFrame) : (s.withEthOut x).hostOut = s.hostOut := (rfl)
@[simp] theorem State.withEthOut_irqs (s : State) (x : List PtpFrame) : (s.withEthOut x).irqs = s.irqs := (rfl)
@[simp] theorem State.withEthOut_vfs (s : State) (x : List PtpFrame) : (s.withEthOut x).vfs = s.vfs := (rfl)
@[simp] theorem State.withEthOut_pcieUp (s : State) (x : List PtpFrame) : (s.withEthOut x).pcieUp = s.pcieUp := (rfl)
@[simp] theorem State.withEthOut_pcie (s : State) (x : List PtpFrame) : (s.withEthOut x).pcie = s.pcie := (rfl)
@[simp] theorem State.withEthOut_ats (s : State) (x : List PtpFrame) : (s.withEthOut x).ats = s.ats := (rfl)
@[simp] theorem State.withEthOut_atsDone (s : State) (x : List PtpFrame) : (s.withEthOut x).atsDone = s.atsDone := (rfl)
@[simp] theorem State.withEthOut_parts (s : State) (x : List PtpFrame) : (s.withEthOut x).parts = s.parts := (rfl)
@[simp] theorem State.withEthOut_lock (s : State) (x : List PtpFrame) : (s.withEthOut x).lock = s.lock := (rfl)
@[simp] theorem State.withEthOut_power (s : State) (x : List PtpFrame) : (s.withEthOut x).power = s.power := (rfl)
@[simp] theorem State.withEthOut_pins (s : State) (x : List PtpFrame) : (s.withEthOut x).pins = s.pins := (rfl)
@[simp] theorem State.withEthOut_mon (s : State) (x : List PtpFrame) : (s.withEthOut x).mon = s.mon := (rfl)
@[simp] theorem State.withEthOut_txn (s : State) (x : List PtpFrame) : (s.withEthOut x).txn = s.txn := (rfl)
@[simp] theorem State.withEthOut_armedTxns (s : State) (x : List PtpFrame) : (s.withEthOut x).armedTxns = s.armedTxns := (rfl)
@[simp] theorem State.withEthOut_prot (s : State) (x : List PtpFrame) : (s.withEthOut x).prot = s.prot := (rfl)
@[simp] theorem State.withEthOut_snapAt (s : State) (x : List PtpFrame) : (s.withEthOut x).snapAt = s.snapAt := (rfl)
@[simp] theorem State.withEthOut_trace (s : State) (x : List PtpFrame) : (s.withEthOut x).trace = s.trace := (rfl)
@[simp] theorem State.withEthOut_traceQ (s : State) (x : List PtpFrame) : (s.withEthOut x).traceQ = s.traceQ := (rfl)
@[simp] theorem State.withEthOut_dump (s : State) (x : List PtpFrame) : (s.withEthOut x).dump = s.dump := (rfl)
@[simp] theorem State.withEthOut_wfg (s : State) (x : List PtpFrame) : (s.withEthOut x).wfg = s.wfg := (rfl)
@[simp] theorem State.withEthOut_i3c (s : State) (x : List PtpFrame) : (s.withEthOut x).i3c = s.i3c := (rfl)
@[simp] theorem State.withEthOut_readData (s : State) (x : List PtpFrame) : (s.withEthOut x).readData = s.readData := (rfl)
@[simp] theorem State.withEthOut_inject (s : State) (x : List PtpFrame) : (s.withEthOut x).inject = s.inject := (rfl)
@[simp] theorem State.withEthOut_streams (s : State) (x : List PtpFrame) : (s.withEthOut x).streams = s.streams := (rfl)
@[simp] theorem State.withEthOut_engine (s : State) (x : List PtpFrame) : (s.withEthOut x).engine = s.engine := (rfl)
@[simp] theorem State.withEthOut_grants (s : State) (x : List PtpFrame) : (s.withEthOut x).grants = s.grants := (rfl)
@[simp] theorem State.withEthOut_hbm (s : State) (x : List PtpFrame) : (s.withEthOut x).hbm = s.hbm := (rfl)
@[simp] theorem State.withEthOut_spray (s : State) (x : List PtpFrame) : (s.withEthOut x).spray = s.spray := (rfl)
@[simp] theorem State.withEthOut_nseq (s : State) (x : List PtpFrame) : (s.withEthOut x).nseq = s.nseq := (rfl)
@[simp] theorem State.withEthOut_lastNseq (s : State) (x : List PtpFrame) : (s.withEthOut x).lastNseq = s.lastNseq := (rfl)
@[simp] theorem State.withEthOut_flipPrev (s : State) (x : List PtpFrame) : (s.withEthOut x).flipPrev = s.flipPrev := (rfl)
@[simp] theorem State.withEthOut_skipScrub (s : State) (x : List PtpFrame) : (s.withEthOut x).skipScrub = s.skipScrub := (rfl)
@[simp] theorem State.withEthOut_failedQuarters (s : State) (x : List PtpFrame) : (s.withEthOut x).failedQuarters = s.failedQuarters := (rfl)
@[simp] theorem State.withEthOut_ethOut (s : State) (x : List PtpFrame) : (s.withEthOut x).ethOut = x := (rfl)
@[simp] theorem State.withEthOut_setNow (s : State) (x : List PtpFrame) : (s.withEthOut x).setNow = s.setNow := (rfl)
@[simp] theorem State.withEthOut_txnNow (s : State) (x : List PtpFrame) : (s.withEthOut x).txnNow = s.txnNow := (rfl)
@[simp] theorem State.withEthOut_cycleNow (s : State) (x : List PtpFrame) : (s.withEthOut x).cycleNow = s.cycleNow := (rfl)

@[simp] theorem State.withSetNow_pending (s : State) (x : SMap W64) : (s.withSetNow x).pending = s.pending := (rfl)
@[simp] theorem State.withSetNow_freeCtr (s : State) (x : SMap W64) : (s.withSetNow x).freeCtr = s.freeCtr := (rfl)
@[simp] theorem State.withSetNow_regs (s : State) (x : SMap W64) : (s.withSetNow x).regs = s.regs := (rfl)
@[simp] theorem State.withSetNow_mem (s : State) (x : SMap W64) : (s.withSetNow x).mem = s.mem := (rfl)
@[simp] theorem State.withSetNow_dies (s : State) (x : SMap W64) : (s.withSetNow x).dies = s.dies := (rfl)
@[simp] theorem State.withSetNow_evlog (s : State) (x : SMap W64) : (s.withSetNow x).evlog = s.evlog := (rfl)
@[simp] theorem State.withSetNow_acceptAt (s : State) (x : SMap W64) : (s.withSetNow x).acceptAt = s.acceptAt := (rfl)
@[simp] theorem State.withSetNow_rates (s : State) (x : SMap W64) : (s.withSetNow x).rates = s.rates := (rfl)
@[simp] theorem State.withSetNow_time (s : State) (x : SMap W64) : (s.withSetNow x).time = s.time := (rfl)
@[simp] theorem State.withSetNow_ptime (s : State) (x : SMap W64) : (s.withSetNow x).ptime = s.ptime := (rfl)
@[simp] theorem State.withSetNow_tiles (s : State) (x : SMap W64) : (s.withSetNow x).tiles = s.tiles := (rfl)
@[simp] theorem State.withSetNow_lineCells (s : State) (x : SMap W64) : (s.withSetNow x).lineCells = s.lineCells := (rfl)
@[simp] theorem State.withSetNow_tokens (s : State) (x : SMap W64) : (s.withSetNow x).tokens = s.tokens := (rfl)
@[simp] theorem State.withSetNow_tokOps (s : State) (x : SMap W64) : (s.withSetNow x).tokOps = s.tokOps := (rfl)
@[simp] theorem State.withSetNow_spent (s : State) (x : SMap W64) : (s.withSetNow x).spent = s.spent := (rfl)
@[simp] theorem State.withSetNow_recent (s : State) (x : SMap W64) : (s.withSetNow x).recent = s.recent := (rfl)
@[simp] theorem State.withSetNow_walkers (s : State) (x : SMap W64) : (s.withSetNow x).walkers = s.walkers := (rfl)
@[simp] theorem State.withSetNow_preWalkers (s : State) (x : SMap W64) : (s.withSetNow x).preWalkers = s.preWalkers := (rfl)
@[simp] theorem State.withSetNow_transits (s : State) (x : SMap W64) : (s.withSetNow x).transits = s.transits := (rfl)
@[simp] theorem State.withSetNow_sramReads (s : State) (x : SMap W64) : (s.withSetNow x).sramReads = s.sramReads := (rfl)
@[simp] theorem State.withSetNow_jn (s : State) (x : SMap W64) : (s.withSetNow x).jn = s.jn := (rfl)
@[simp] theorem State.withSetNow_ports (s : State) (x : SMap W64) : (s.withSetNow x).ports = s.ports := (rfl)
@[simp] theorem State.withSetNow_rings (s : State) (x : SMap W64) : (s.withSetNow x).rings = s.rings := (rfl)
@[simp] theorem State.withSetNow_turn (s : State) (x : SMap W64) : (s.withSetNow x).turn = s.turn := (rfl)
@[simp] theorem State.withSetNow_notify (s : State) (x : SMap W64) : (s.withSetNow x).notify = s.notify := (rfl)
@[simp] theorem State.withSetNow_notes (s : State) (x : SMap W64) : (s.withSetNow x).notes = s.notes := (rfl)
@[simp] theorem State.withSetNow_hostOut (s : State) (x : SMap W64) : (s.withSetNow x).hostOut = s.hostOut := (rfl)
@[simp] theorem State.withSetNow_irqs (s : State) (x : SMap W64) : (s.withSetNow x).irqs = s.irqs := (rfl)
@[simp] theorem State.withSetNow_vfs (s : State) (x : SMap W64) : (s.withSetNow x).vfs = s.vfs := (rfl)
@[simp] theorem State.withSetNow_pcieUp (s : State) (x : SMap W64) : (s.withSetNow x).pcieUp = s.pcieUp := (rfl)
@[simp] theorem State.withSetNow_pcie (s : State) (x : SMap W64) : (s.withSetNow x).pcie = s.pcie := (rfl)
@[simp] theorem State.withSetNow_ats (s : State) (x : SMap W64) : (s.withSetNow x).ats = s.ats := (rfl)
@[simp] theorem State.withSetNow_atsDone (s : State) (x : SMap W64) : (s.withSetNow x).atsDone = s.atsDone := (rfl)
@[simp] theorem State.withSetNow_parts (s : State) (x : SMap W64) : (s.withSetNow x).parts = s.parts := (rfl)
@[simp] theorem State.withSetNow_lock (s : State) (x : SMap W64) : (s.withSetNow x).lock = s.lock := (rfl)
@[simp] theorem State.withSetNow_power (s : State) (x : SMap W64) : (s.withSetNow x).power = s.power := (rfl)
@[simp] theorem State.withSetNow_pins (s : State) (x : SMap W64) : (s.withSetNow x).pins = s.pins := (rfl)
@[simp] theorem State.withSetNow_mon (s : State) (x : SMap W64) : (s.withSetNow x).mon = s.mon := (rfl)
@[simp] theorem State.withSetNow_txn (s : State) (x : SMap W64) : (s.withSetNow x).txn = s.txn := (rfl)
@[simp] theorem State.withSetNow_armedTxns (s : State) (x : SMap W64) : (s.withSetNow x).armedTxns = s.armedTxns := (rfl)
@[simp] theorem State.withSetNow_prot (s : State) (x : SMap W64) : (s.withSetNow x).prot = s.prot := (rfl)
@[simp] theorem State.withSetNow_snapAt (s : State) (x : SMap W64) : (s.withSetNow x).snapAt = s.snapAt := (rfl)
@[simp] theorem State.withSetNow_trace (s : State) (x : SMap W64) : (s.withSetNow x).trace = s.trace := (rfl)
@[simp] theorem State.withSetNow_traceQ (s : State) (x : SMap W64) : (s.withSetNow x).traceQ = s.traceQ := (rfl)
@[simp] theorem State.withSetNow_dump (s : State) (x : SMap W64) : (s.withSetNow x).dump = s.dump := (rfl)
@[simp] theorem State.withSetNow_wfg (s : State) (x : SMap W64) : (s.withSetNow x).wfg = s.wfg := (rfl)
@[simp] theorem State.withSetNow_i3c (s : State) (x : SMap W64) : (s.withSetNow x).i3c = s.i3c := (rfl)
@[simp] theorem State.withSetNow_readData (s : State) (x : SMap W64) : (s.withSetNow x).readData = s.readData := (rfl)
@[simp] theorem State.withSetNow_inject (s : State) (x : SMap W64) : (s.withSetNow x).inject = s.inject := (rfl)
@[simp] theorem State.withSetNow_streams (s : State) (x : SMap W64) : (s.withSetNow x).streams = s.streams := (rfl)
@[simp] theorem State.withSetNow_engine (s : State) (x : SMap W64) : (s.withSetNow x).engine = s.engine := (rfl)
@[simp] theorem State.withSetNow_grants (s : State) (x : SMap W64) : (s.withSetNow x).grants = s.grants := (rfl)
@[simp] theorem State.withSetNow_hbm (s : State) (x : SMap W64) : (s.withSetNow x).hbm = s.hbm := (rfl)
@[simp] theorem State.withSetNow_spray (s : State) (x : SMap W64) : (s.withSetNow x).spray = s.spray := (rfl)
@[simp] theorem State.withSetNow_nseq (s : State) (x : SMap W64) : (s.withSetNow x).nseq = s.nseq := (rfl)
@[simp] theorem State.withSetNow_lastNseq (s : State) (x : SMap W64) : (s.withSetNow x).lastNseq = s.lastNseq := (rfl)
@[simp] theorem State.withSetNow_flipPrev (s : State) (x : SMap W64) : (s.withSetNow x).flipPrev = s.flipPrev := (rfl)
@[simp] theorem State.withSetNow_skipScrub (s : State) (x : SMap W64) : (s.withSetNow x).skipScrub = s.skipScrub := (rfl)
@[simp] theorem State.withSetNow_failedQuarters (s : State) (x : SMap W64) : (s.withSetNow x).failedQuarters = s.failedQuarters := (rfl)
@[simp] theorem State.withSetNow_ethOut (s : State) (x : SMap W64) : (s.withSetNow x).ethOut = s.ethOut := (rfl)
@[simp] theorem State.withSetNow_setNow (s : State) (x : SMap W64) : (s.withSetNow x).setNow = x := (rfl)
@[simp] theorem State.withSetNow_txnNow (s : State) (x : SMap W64) : (s.withSetNow x).txnNow = s.txnNow := (rfl)
@[simp] theorem State.withSetNow_cycleNow (s : State) (x : SMap W64) : (s.withSetNow x).cycleNow = s.cycleNow := (rfl)

@[simp] theorem State.withTxnNow_pending (s : State) (x : SMap W64) : (s.withTxnNow x).pending = s.pending := (rfl)
@[simp] theorem State.withTxnNow_freeCtr (s : State) (x : SMap W64) : (s.withTxnNow x).freeCtr = s.freeCtr := (rfl)
@[simp] theorem State.withTxnNow_regs (s : State) (x : SMap W64) : (s.withTxnNow x).regs = s.regs := (rfl)
@[simp] theorem State.withTxnNow_mem (s : State) (x : SMap W64) : (s.withTxnNow x).mem = s.mem := (rfl)
@[simp] theorem State.withTxnNow_dies (s : State) (x : SMap W64) : (s.withTxnNow x).dies = s.dies := (rfl)
@[simp] theorem State.withTxnNow_evlog (s : State) (x : SMap W64) : (s.withTxnNow x).evlog = s.evlog := (rfl)
@[simp] theorem State.withTxnNow_acceptAt (s : State) (x : SMap W64) : (s.withTxnNow x).acceptAt = s.acceptAt := (rfl)
@[simp] theorem State.withTxnNow_rates (s : State) (x : SMap W64) : (s.withTxnNow x).rates = s.rates := (rfl)
@[simp] theorem State.withTxnNow_time (s : State) (x : SMap W64) : (s.withTxnNow x).time = s.time := (rfl)
@[simp] theorem State.withTxnNow_ptime (s : State) (x : SMap W64) : (s.withTxnNow x).ptime = s.ptime := (rfl)
@[simp] theorem State.withTxnNow_tiles (s : State) (x : SMap W64) : (s.withTxnNow x).tiles = s.tiles := (rfl)
@[simp] theorem State.withTxnNow_lineCells (s : State) (x : SMap W64) : (s.withTxnNow x).lineCells = s.lineCells := (rfl)
@[simp] theorem State.withTxnNow_tokens (s : State) (x : SMap W64) : (s.withTxnNow x).tokens = s.tokens := (rfl)
@[simp] theorem State.withTxnNow_tokOps (s : State) (x : SMap W64) : (s.withTxnNow x).tokOps = s.tokOps := (rfl)
@[simp] theorem State.withTxnNow_spent (s : State) (x : SMap W64) : (s.withTxnNow x).spent = s.spent := (rfl)
@[simp] theorem State.withTxnNow_recent (s : State) (x : SMap W64) : (s.withTxnNow x).recent = s.recent := (rfl)
@[simp] theorem State.withTxnNow_walkers (s : State) (x : SMap W64) : (s.withTxnNow x).walkers = s.walkers := (rfl)
@[simp] theorem State.withTxnNow_preWalkers (s : State) (x : SMap W64) : (s.withTxnNow x).preWalkers = s.preWalkers := (rfl)
@[simp] theorem State.withTxnNow_transits (s : State) (x : SMap W64) : (s.withTxnNow x).transits = s.transits := (rfl)
@[simp] theorem State.withTxnNow_sramReads (s : State) (x : SMap W64) : (s.withTxnNow x).sramReads = s.sramReads := (rfl)
@[simp] theorem State.withTxnNow_jn (s : State) (x : SMap W64) : (s.withTxnNow x).jn = s.jn := (rfl)
@[simp] theorem State.withTxnNow_ports (s : State) (x : SMap W64) : (s.withTxnNow x).ports = s.ports := (rfl)
@[simp] theorem State.withTxnNow_rings (s : State) (x : SMap W64) : (s.withTxnNow x).rings = s.rings := (rfl)
@[simp] theorem State.withTxnNow_turn (s : State) (x : SMap W64) : (s.withTxnNow x).turn = s.turn := (rfl)
@[simp] theorem State.withTxnNow_notify (s : State) (x : SMap W64) : (s.withTxnNow x).notify = s.notify := (rfl)
@[simp] theorem State.withTxnNow_notes (s : State) (x : SMap W64) : (s.withTxnNow x).notes = s.notes := (rfl)
@[simp] theorem State.withTxnNow_hostOut (s : State) (x : SMap W64) : (s.withTxnNow x).hostOut = s.hostOut := (rfl)
@[simp] theorem State.withTxnNow_irqs (s : State) (x : SMap W64) : (s.withTxnNow x).irqs = s.irqs := (rfl)
@[simp] theorem State.withTxnNow_vfs (s : State) (x : SMap W64) : (s.withTxnNow x).vfs = s.vfs := (rfl)
@[simp] theorem State.withTxnNow_pcieUp (s : State) (x : SMap W64) : (s.withTxnNow x).pcieUp = s.pcieUp := (rfl)
@[simp] theorem State.withTxnNow_pcie (s : State) (x : SMap W64) : (s.withTxnNow x).pcie = s.pcie := (rfl)
@[simp] theorem State.withTxnNow_ats (s : State) (x : SMap W64) : (s.withTxnNow x).ats = s.ats := (rfl)
@[simp] theorem State.withTxnNow_atsDone (s : State) (x : SMap W64) : (s.withTxnNow x).atsDone = s.atsDone := (rfl)
@[simp] theorem State.withTxnNow_parts (s : State) (x : SMap W64) : (s.withTxnNow x).parts = s.parts := (rfl)
@[simp] theorem State.withTxnNow_lock (s : State) (x : SMap W64) : (s.withTxnNow x).lock = s.lock := (rfl)
@[simp] theorem State.withTxnNow_power (s : State) (x : SMap W64) : (s.withTxnNow x).power = s.power := (rfl)
@[simp] theorem State.withTxnNow_pins (s : State) (x : SMap W64) : (s.withTxnNow x).pins = s.pins := (rfl)
@[simp] theorem State.withTxnNow_mon (s : State) (x : SMap W64) : (s.withTxnNow x).mon = s.mon := (rfl)
@[simp] theorem State.withTxnNow_txn (s : State) (x : SMap W64) : (s.withTxnNow x).txn = s.txn := (rfl)
@[simp] theorem State.withTxnNow_armedTxns (s : State) (x : SMap W64) : (s.withTxnNow x).armedTxns = s.armedTxns := (rfl)
@[simp] theorem State.withTxnNow_prot (s : State) (x : SMap W64) : (s.withTxnNow x).prot = s.prot := (rfl)
@[simp] theorem State.withTxnNow_snapAt (s : State) (x : SMap W64) : (s.withTxnNow x).snapAt = s.snapAt := (rfl)
@[simp] theorem State.withTxnNow_trace (s : State) (x : SMap W64) : (s.withTxnNow x).trace = s.trace := (rfl)
@[simp] theorem State.withTxnNow_traceQ (s : State) (x : SMap W64) : (s.withTxnNow x).traceQ = s.traceQ := (rfl)
@[simp] theorem State.withTxnNow_dump (s : State) (x : SMap W64) : (s.withTxnNow x).dump = s.dump := (rfl)
@[simp] theorem State.withTxnNow_wfg (s : State) (x : SMap W64) : (s.withTxnNow x).wfg = s.wfg := (rfl)
@[simp] theorem State.withTxnNow_i3c (s : State) (x : SMap W64) : (s.withTxnNow x).i3c = s.i3c := (rfl)
@[simp] theorem State.withTxnNow_readData (s : State) (x : SMap W64) : (s.withTxnNow x).readData = s.readData := (rfl)
@[simp] theorem State.withTxnNow_inject (s : State) (x : SMap W64) : (s.withTxnNow x).inject = s.inject := (rfl)
@[simp] theorem State.withTxnNow_streams (s : State) (x : SMap W64) : (s.withTxnNow x).streams = s.streams := (rfl)
@[simp] theorem State.withTxnNow_engine (s : State) (x : SMap W64) : (s.withTxnNow x).engine = s.engine := (rfl)
@[simp] theorem State.withTxnNow_grants (s : State) (x : SMap W64) : (s.withTxnNow x).grants = s.grants := (rfl)
@[simp] theorem State.withTxnNow_hbm (s : State) (x : SMap W64) : (s.withTxnNow x).hbm = s.hbm := (rfl)
@[simp] theorem State.withTxnNow_spray (s : State) (x : SMap W64) : (s.withTxnNow x).spray = s.spray := (rfl)
@[simp] theorem State.withTxnNow_nseq (s : State) (x : SMap W64) : (s.withTxnNow x).nseq = s.nseq := (rfl)
@[simp] theorem State.withTxnNow_lastNseq (s : State) (x : SMap W64) : (s.withTxnNow x).lastNseq = s.lastNseq := (rfl)
@[simp] theorem State.withTxnNow_flipPrev (s : State) (x : SMap W64) : (s.withTxnNow x).flipPrev = s.flipPrev := (rfl)
@[simp] theorem State.withTxnNow_skipScrub (s : State) (x : SMap W64) : (s.withTxnNow x).skipScrub = s.skipScrub := (rfl)
@[simp] theorem State.withTxnNow_failedQuarters (s : State) (x : SMap W64) : (s.withTxnNow x).failedQuarters = s.failedQuarters := (rfl)
@[simp] theorem State.withTxnNow_ethOut (s : State) (x : SMap W64) : (s.withTxnNow x).ethOut = s.ethOut := (rfl)
@[simp] theorem State.withTxnNow_setNow (s : State) (x : SMap W64) : (s.withTxnNow x).setNow = s.setNow := (rfl)
@[simp] theorem State.withTxnNow_txnNow (s : State) (x : SMap W64) : (s.withTxnNow x).txnNow = x := (rfl)
@[simp] theorem State.withTxnNow_cycleNow (s : State) (x : SMap W64) : (s.withTxnNow x).cycleNow = s.cycleNow := (rfl)

@[simp] theorem State.withCycleNow_pending (s : State) (x : BitVec 4) : (s.withCycleNow x).pending = s.pending := (rfl)
@[simp] theorem State.withCycleNow_freeCtr (s : State) (x : BitVec 4) : (s.withCycleNow x).freeCtr = s.freeCtr := (rfl)
@[simp] theorem State.withCycleNow_regs (s : State) (x : BitVec 4) : (s.withCycleNow x).regs = s.regs := (rfl)
@[simp] theorem State.withCycleNow_mem (s : State) (x : BitVec 4) : (s.withCycleNow x).mem = s.mem := (rfl)
@[simp] theorem State.withCycleNow_dies (s : State) (x : BitVec 4) : (s.withCycleNow x).dies = s.dies := (rfl)
@[simp] theorem State.withCycleNow_evlog (s : State) (x : BitVec 4) : (s.withCycleNow x).evlog = s.evlog := (rfl)
@[simp] theorem State.withCycleNow_acceptAt (s : State) (x : BitVec 4) : (s.withCycleNow x).acceptAt = s.acceptAt := (rfl)
@[simp] theorem State.withCycleNow_rates (s : State) (x : BitVec 4) : (s.withCycleNow x).rates = s.rates := (rfl)
@[simp] theorem State.withCycleNow_time (s : State) (x : BitVec 4) : (s.withCycleNow x).time = s.time := (rfl)
@[simp] theorem State.withCycleNow_ptime (s : State) (x : BitVec 4) : (s.withCycleNow x).ptime = s.ptime := (rfl)
@[simp] theorem State.withCycleNow_tiles (s : State) (x : BitVec 4) : (s.withCycleNow x).tiles = s.tiles := (rfl)
@[simp] theorem State.withCycleNow_lineCells (s : State) (x : BitVec 4) : (s.withCycleNow x).lineCells = s.lineCells := (rfl)
@[simp] theorem State.withCycleNow_tokens (s : State) (x : BitVec 4) : (s.withCycleNow x).tokens = s.tokens := (rfl)
@[simp] theorem State.withCycleNow_tokOps (s : State) (x : BitVec 4) : (s.withCycleNow x).tokOps = s.tokOps := (rfl)
@[simp] theorem State.withCycleNow_spent (s : State) (x : BitVec 4) : (s.withCycleNow x).spent = s.spent := (rfl)
@[simp] theorem State.withCycleNow_recent (s : State) (x : BitVec 4) : (s.withCycleNow x).recent = s.recent := (rfl)
@[simp] theorem State.withCycleNow_walkers (s : State) (x : BitVec 4) : (s.withCycleNow x).walkers = s.walkers := (rfl)
@[simp] theorem State.withCycleNow_preWalkers (s : State) (x : BitVec 4) : (s.withCycleNow x).preWalkers = s.preWalkers := (rfl)
@[simp] theorem State.withCycleNow_transits (s : State) (x : BitVec 4) : (s.withCycleNow x).transits = s.transits := (rfl)
@[simp] theorem State.withCycleNow_sramReads (s : State) (x : BitVec 4) : (s.withCycleNow x).sramReads = s.sramReads := (rfl)
@[simp] theorem State.withCycleNow_jn (s : State) (x : BitVec 4) : (s.withCycleNow x).jn = s.jn := (rfl)
@[simp] theorem State.withCycleNow_ports (s : State) (x : BitVec 4) : (s.withCycleNow x).ports = s.ports := (rfl)
@[simp] theorem State.withCycleNow_rings (s : State) (x : BitVec 4) : (s.withCycleNow x).rings = s.rings := (rfl)
@[simp] theorem State.withCycleNow_turn (s : State) (x : BitVec 4) : (s.withCycleNow x).turn = s.turn := (rfl)
@[simp] theorem State.withCycleNow_notify (s : State) (x : BitVec 4) : (s.withCycleNow x).notify = s.notify := (rfl)
@[simp] theorem State.withCycleNow_notes (s : State) (x : BitVec 4) : (s.withCycleNow x).notes = s.notes := (rfl)
@[simp] theorem State.withCycleNow_hostOut (s : State) (x : BitVec 4) : (s.withCycleNow x).hostOut = s.hostOut := (rfl)
@[simp] theorem State.withCycleNow_irqs (s : State) (x : BitVec 4) : (s.withCycleNow x).irqs = s.irqs := (rfl)
@[simp] theorem State.withCycleNow_vfs (s : State) (x : BitVec 4) : (s.withCycleNow x).vfs = s.vfs := (rfl)
@[simp] theorem State.withCycleNow_pcieUp (s : State) (x : BitVec 4) : (s.withCycleNow x).pcieUp = s.pcieUp := (rfl)
@[simp] theorem State.withCycleNow_pcie (s : State) (x : BitVec 4) : (s.withCycleNow x).pcie = s.pcie := (rfl)
@[simp] theorem State.withCycleNow_ats (s : State) (x : BitVec 4) : (s.withCycleNow x).ats = s.ats := (rfl)
@[simp] theorem State.withCycleNow_atsDone (s : State) (x : BitVec 4) : (s.withCycleNow x).atsDone = s.atsDone := (rfl)
@[simp] theorem State.withCycleNow_parts (s : State) (x : BitVec 4) : (s.withCycleNow x).parts = s.parts := (rfl)
@[simp] theorem State.withCycleNow_lock (s : State) (x : BitVec 4) : (s.withCycleNow x).lock = s.lock := (rfl)
@[simp] theorem State.withCycleNow_power (s : State) (x : BitVec 4) : (s.withCycleNow x).power = s.power := (rfl)
@[simp] theorem State.withCycleNow_pins (s : State) (x : BitVec 4) : (s.withCycleNow x).pins = s.pins := (rfl)
@[simp] theorem State.withCycleNow_mon (s : State) (x : BitVec 4) : (s.withCycleNow x).mon = s.mon := (rfl)
@[simp] theorem State.withCycleNow_txn (s : State) (x : BitVec 4) : (s.withCycleNow x).txn = s.txn := (rfl)
@[simp] theorem State.withCycleNow_armedTxns (s : State) (x : BitVec 4) : (s.withCycleNow x).armedTxns = s.armedTxns := (rfl)
@[simp] theorem State.withCycleNow_prot (s : State) (x : BitVec 4) : (s.withCycleNow x).prot = s.prot := (rfl)
@[simp] theorem State.withCycleNow_snapAt (s : State) (x : BitVec 4) : (s.withCycleNow x).snapAt = s.snapAt := (rfl)
@[simp] theorem State.withCycleNow_trace (s : State) (x : BitVec 4) : (s.withCycleNow x).trace = s.trace := (rfl)
@[simp] theorem State.withCycleNow_traceQ (s : State) (x : BitVec 4) : (s.withCycleNow x).traceQ = s.traceQ := (rfl)
@[simp] theorem State.withCycleNow_dump (s : State) (x : BitVec 4) : (s.withCycleNow x).dump = s.dump := (rfl)
@[simp] theorem State.withCycleNow_wfg (s : State) (x : BitVec 4) : (s.withCycleNow x).wfg = s.wfg := (rfl)
@[simp] theorem State.withCycleNow_i3c (s : State) (x : BitVec 4) : (s.withCycleNow x).i3c = s.i3c := (rfl)
@[simp] theorem State.withCycleNow_readData (s : State) (x : BitVec 4) : (s.withCycleNow x).readData = s.readData := (rfl)
@[simp] theorem State.withCycleNow_inject (s : State) (x : BitVec 4) : (s.withCycleNow x).inject = s.inject := (rfl)
@[simp] theorem State.withCycleNow_streams (s : State) (x : BitVec 4) : (s.withCycleNow x).streams = s.streams := (rfl)
@[simp] theorem State.withCycleNow_engine (s : State) (x : BitVec 4) : (s.withCycleNow x).engine = s.engine := (rfl)
@[simp] theorem State.withCycleNow_grants (s : State) (x : BitVec 4) : (s.withCycleNow x).grants = s.grants := (rfl)
@[simp] theorem State.withCycleNow_hbm (s : State) (x : BitVec 4) : (s.withCycleNow x).hbm = s.hbm := (rfl)
@[simp] theorem State.withCycleNow_spray (s : State) (x : BitVec 4) : (s.withCycleNow x).spray = s.spray := (rfl)
@[simp] theorem State.withCycleNow_nseq (s : State) (x : BitVec 4) : (s.withCycleNow x).nseq = s.nseq := (rfl)
@[simp] theorem State.withCycleNow_lastNseq (s : State) (x : BitVec 4) : (s.withCycleNow x).lastNseq = s.lastNseq := (rfl)
@[simp] theorem State.withCycleNow_flipPrev (s : State) (x : BitVec 4) : (s.withCycleNow x).flipPrev = s.flipPrev := (rfl)
@[simp] theorem State.withCycleNow_skipScrub (s : State) (x : BitVec 4) : (s.withCycleNow x).skipScrub = s.skipScrub := (rfl)
@[simp] theorem State.withCycleNow_failedQuarters (s : State) (x : BitVec 4) : (s.withCycleNow x).failedQuarters = s.failedQuarters := (rfl)
@[simp] theorem State.withCycleNow_ethOut (s : State) (x : BitVec 4) : (s.withCycleNow x).ethOut = s.ethOut := (rfl)
@[simp] theorem State.withCycleNow_setNow (s : State) (x : BitVec 4) : (s.withCycleNow x).setNow = s.setNow := (rfl)
@[simp] theorem State.withCycleNow_txnNow (s : State) (x : BitVec 4) : (s.withCycleNow x).txnNow = s.txnNow := (rfl)
@[simp] theorem State.withCycleNow_cycleNow (s : State) (x : BitVec 4) : (s.withCycleNow x).cycleNow = x := (rfl)

end Sys2Proof.Machine
end

