-- ==== Sys2Proof/Laws/Ops.lean ====
section
/-!
SUPPORT. Read after write for registers, units and memory; what each elementary update leaves alone, through the
accessors; and that every operation on memory keeps its canonical form.
-/
namespace Sys2Proof.Machine
open Sys2Proof

/-- A step's next state, where the queue is as it was. -/
theorem State.act_eq (s t : State) (h : t.pending = s.pending) : s.act t = .next t := by
  simp only [State.act, State.withPending, ← h]

/-! ## The same unit -/

@[simp] theorem State.r_w_same (s : State) (k : Nat) (v : W64) : (s.w k v).r k = v := SMap.get_set_same _ _ _ _
@[simp] theorem State.r_w_ne (s : State) (k : Nat) (v : W64) (j : Nat) (h : j ≠ k) : (s.w k v).r j = s.r j := SMap.get_set_ne _ _ _ h
@[simp] theorem State.die_setDie_same (s : State) (k : Nat) (x : Die) : (s.setDie k x).die k = x := SMap.get_set_same _ _ _ _
@[simp] theorem State.die_setDie_ne (s : State) (k : Nat) (x : Die) (j : Nat) (h : j ≠ k) : (s.setDie k x).die j = s.die j := SMap.get_set_ne _ _ _ h
@[simp] theorem State.pt_setPt_same (s : State) (k : Nat) (x : PortTime) : (s.setPt k x).pt k = x := SMap.get_set_same _ _ _ _
@[simp] theorem State.pt_setPt_ne (s : State) (k : Nat) (x : PortTime) (j : Nat) (h : j ≠ k) : (s.setPt k x).pt j = s.pt j := SMap.get_set_ne _ _ _ h
@[simp] theorem State.tile_setTile_same (s : State) (k : Nat) (x : Tile) : (s.setTile k x).tile k = x := SMap.get_set_same _ _ _ _
@[simp] theorem State.tile_setTile_ne (s : State) (k : Nat) (x : Tile) (j : Nat) (h : j ≠ k) : (s.setTile k x).tile j = s.tile j := SMap.get_set_ne _ _ _ h
@[simp] theorem State.token_setToken_same (s : State) (k : Nat) (x : Token) : (s.setToken k x).token k = x := SMap.get_set_same _ _ _ _
@[simp] theorem State.token_setToken_ne (s : State) (k : Nat) (x : Token) (j : Nat) (h : j ≠ k) : (s.setToken k x).token j = s.token j := SMap.get_set_ne _ _ _ h
@[simp] theorem State.walker_setWalker_same (s : State) (k : Nat) (x : Walker) : (s.setWalker k x).walker k = x := SMap.get_set_same _ _ _ _
@[simp] theorem State.walker_setWalker_ne (s : State) (k : Nat) (x : Walker) (j : Nat) (h : j ≠ k) : (s.setWalker k x).walker j = s.walker j := SMap.get_set_ne _ _ _ h
@[simp] theorem State.preWalker_setPreWalker_same (s : State) (k : Nat) (x : Walker) : (s.setPreWalker k x).preWalker k = x := SMap.get_set_same _ _ _ _
@[simp] theorem State.preWalker_setPreWalker_ne (s : State) (k : Nat) (x : Walker) (j : Nat) (h : j ≠ k) : (s.setPreWalker k x).preWalker j = s.preWalker j := SMap.get_set_ne _ _ _ h
@[simp] theorem State.port_setPort_same (s : State) (k : Nat) (x : Port) : (s.setPort k x).port k = x := SMap.get_set_same _ _ _ _
@[simp] theorem State.port_setPort_ne (s : State) (k : Nat) (x : Port) (j : Nat) (h : j ≠ k) : (s.setPort k x).port j = s.port j := SMap.get_set_ne _ _ _ h
@[simp] theorem State.ring_setRing_same (s : State) (k : Nat) (x : Ring) : (s.setRing k x).ring k = x := SMap.get_set_same _ _ _ _
@[simp] theorem State.ring_setRing_ne (s : State) (k : Nat) (x : Ring) (j : Nat) (h : j ≠ k) : (s.setRing k x).ring j = s.ring j := SMap.get_set_ne _ _ _ h
@[simp] theorem State.pcieFn_setPcieFn_same (s : State) (k : Nat) (x : PcieFn) : (s.setPcieFn k x).pcieFn k = x := SMap.get_set_same _ _ _ _
@[simp] theorem State.pcieFn_setPcieFn_ne (s : State) (k : Nat) (x : PcieFn) (j : Nat) (h : j ≠ k) : (s.setPcieFn k x).pcieFn j = s.pcieFn j := SMap.get_set_ne _ _ _ h
@[simp] theorem State.notif_setNotif_same (s : State) (k : Nat) (x : Notify) : (s.setNotif k x).notif k = x := SMap.get_set_same _ _ _ _
@[simp] theorem State.notif_setNotif_ne (s : State) (k : Nat) (x : Notify) (j : Nat) (h : j ≠ k) : (s.setNotif k x).notif j = s.notif j := SMap.get_set_ne _ _ _ h
@[simp] theorem State.part_setPart_same (s : State) (k : Nat) (x : Part) : (s.setPart k x).part k = x := SMap.get_set_same _ _ _ _
@[simp] theorem State.part_setPart_ne (s : State) (k : Nat) (x : Part) (j : Nat) (h : j ≠ k) : (s.setPart k x).part j = s.part j := SMap.get_set_ne _ _ _ h
@[simp] theorem State.ls_setLs_same (s : State) (k : Nat) (x : LockStep) : (s.setLs k x).ls k = x := SMap.get_set_same _ _ _ _
@[simp] theorem State.ls_setLs_ne (s : State) (k : Nat) (x : LockStep) (j : Nat) (h : j ≠ k) : (s.setLs k x).ls j = s.ls j := SMap.get_set_ne _ _ _ h
@[simp] theorem State.tr_setTr_same (s : State) (k : Nat) (x : Trace) : (s.setTr k x).tr k = x := SMap.get_set_same _ _ _ _
@[simp] theorem State.tr_setTr_ne (s : State) (k : Nat) (x : Trace) (j : Nat) (h : j ≠ k) : (s.setTr k x).tr j = s.tr j := SMap.get_set_ne _ _ _ h
@[simp] theorem State.trq_setTrq_same (s : State) (k : Nat) (x : List (BitVec 256)) : (s.setTrq k x).trq k = x := SMap.get_set_same _ _ _ _
@[simp] theorem State.trq_setTrq_ne (s : State) (k : Nat) (x : List (BitVec 256)) (j : Nat) (h : j ≠ k) : (s.setTrq k x).trq j = s.trq j := SMap.get_set_ne _ _ _ h
@[simp] theorem State.i3cT_setI3cT_same (s : State) (k : Nat) (x : I3c) : (s.setI3cT k x).i3cT k = x := SMap.get_set_same _ _ _ _
@[simp] theorem State.i3cT_setI3cT_ne (s : State) (k : Nat) (x : I3c) (j : Nat) (h : j ≠ k) : (s.setI3cT k x).i3cT j = s.i3cT j := SMap.get_set_ne _ _ _ h
@[simp] theorem State.inj_setInj_same (s : State) (k : Nat) (x : Inject) : (s.setInj k x).inj k = x := SMap.get_set_same _ _ _ _
@[simp] theorem State.inj_setInj_ne (s : State) (k : Nat) (x : Inject) (j : Nat) (h : j ≠ k) : (s.setInj k x).inj j = s.inj j := SMap.get_set_ne _ _ _ h
@[simp] theorem State.strm_setStrm_same (s : State) (k : Nat) (x : List Stream) : (s.setStrm k x).strm k = x := SMap.get_set_same _ _ _ _
@[simp] theorem State.strm_setStrm_ne (s : State) (k : Nat) (x : List Stream) (j : Nat) (h : j ≠ k) : (s.setStrm k x).strm j = s.strm j := SMap.get_set_ne _ _ _ h
@[simp] theorem State.stack_setStack_same (s : State) (k : Nat) (x : Stack) : (s.setStack k x).stack k = x := SMap.get_set_same _ _ _ _
@[simp] theorem State.stack_setStack_ne (s : State) (k : Nat) (x : Stack) (j : Nat) (h : j ≠ k) : (s.setStack k x).stack j = s.stack j := SMap.get_set_ne _ _ _ h

/-! ## Updates are writes of what was read -/

@[simp] theorem State.updDie_eq (s : State) (k : Nat) (f : Die → Die) : s.updDie k f = s.setDie k (f (s.die k)) := (rfl)
@[simp] theorem State.updPt_eq (s : State) (k : Nat) (f : PortTime → PortTime) : s.updPt k f = s.setPt k (f (s.pt k)) := (rfl)
@[simp] theorem State.updTile_eq (s : State) (k : Nat) (f : Tile → Tile) : s.updTile k f = s.setTile k (f (s.tile k)) := (rfl)
@[simp] theorem State.updToken_eq (s : State) (k : Nat) (f : Token → Token) : s.updToken k f = s.setToken k (f (s.token k)) := (rfl)
@[simp] theorem State.updWalker_eq (s : State) (k : Nat) (f : Walker → Walker) : s.updWalker k f = s.setWalker k (f (s.walker k)) := (rfl)
@[simp] theorem State.updPort_eq (s : State) (k : Nat) (f : Port → Port) : s.updPort k f = s.setPort k (f (s.port k)) := (rfl)
@[simp] theorem State.updRing_eq (s : State) (k : Nat) (f : Ring → Ring) : s.updRing k f = s.setRing k (f (s.ring k)) := (rfl)
@[simp] theorem State.updPcieFn_eq (s : State) (k : Nat) (f : PcieFn → PcieFn) : s.updPcieFn k f = s.setPcieFn k (f (s.pcieFn k)) := (rfl)
@[simp] theorem State.updNotif_eq (s : State) (k : Nat) (f : Notify → Notify) : s.updNotif k f = s.setNotif k (f (s.notif k)) := (rfl)
@[simp] theorem State.updPart_eq (s : State) (k : Nat) (f : Part → Part) : s.updPart k f = s.setPart k (f (s.part k)) := (rfl)
@[simp] theorem State.updLs_eq (s : State) (k : Nat) (f : LockStep → LockStep) : s.updLs k f = s.setLs k (f (s.ls k)) := (rfl)
@[simp] theorem State.updTr_eq (s : State) (k : Nat) (f : Trace → Trace) : s.updTr k f = s.setTr k (f (s.tr k)) := (rfl)
@[simp] theorem State.updTrq_eq (s : State) (k : Nat) (f : List (BitVec 256) → List (BitVec 256)) : s.updTrq k f = s.setTrq k (f (s.trq k)) := (rfl)
@[simp] theorem State.updI3cT_eq (s : State) (k : Nat) (f : I3c → I3c) : s.updI3cT k f = s.setI3cT k (f (s.i3cT k)) := (rfl)
@[simp] theorem State.updInj_eq (s : State) (k : Nat) (f : Inject → Inject) : s.updInj k f = s.setInj k (f (s.inj k)) := (rfl)
@[simp] theorem State.updStrm_eq (s : State) (k : Nat) (f : List Stream → List Stream) : s.updStrm k f = s.setStrm k (f (s.strm k)) := (rfl)
@[simp] theorem State.updStack_eq (s : State) (k : Nat) (f : Stack → Stack) : s.updStack k f = s.setStack k (f (s.stack k)) := (rfl)
@[simp] theorem State.wf_eq (s : State) (k lo w x : Nat) : s.wf k lo w x = s.w k (setFld (s.r k) lo w x) := (rfl)

/-! ## Other units -/

@[simp] theorem State.die_w (s : State) (k : Nat) (v : W64) (j : Nat) : (s.w k v).die j = s.die j := (rfl)
@[simp] theorem State.pt_w (s : State) (k : Nat) (v : W64) (j : Nat) : (s.w k v).pt j = s.pt j := (rfl)
@[simp] theorem State.tile_w (s : State) (k : Nat) (v : W64) (j : Nat) : (s.w k v).tile j = s.tile j := (rfl)
@[simp] theorem State.token_w (s : State) (k : Nat) (v : W64) (j : Nat) : (s.w k v).token j = s.token j := (rfl)
@[simp] theorem State.walker_w (s : State) (k : Nat) (v : W64) (j : Nat) : (s.w k v).walker j = s.walker j := (rfl)
@[simp] theorem State.preWalker_w (s : State) (k : Nat) (v : W64) (j : Nat) : (s.w k v).preWalker j = s.preWalker j := (rfl)
@[simp] theorem State.port_w (s : State) (k : Nat) (v : W64) (j : Nat) : (s.w k v).port j = s.port j := (rfl)
@[simp] theorem State.ring_w (s : State) (k : Nat) (v : W64) (j : Nat) : (s.w k v).ring j = s.ring j := (rfl)
@[simp] theorem State.pcieFn_w (s : State) (k : Nat) (v : W64) (j : Nat) : (s.w k v).pcieFn j = s.pcieFn j := (rfl)
@[simp] theorem State.notif_w (s : State) (k : Nat) (v : W64) (j : Nat) : (s.w k v).notif j = s.notif j := (rfl)
@[simp] theorem State.part_w (s : State) (k : Nat) (v : W64) (j : Nat) : (s.w k v).part j = s.part j := (rfl)
@[simp] theorem State.ls_w (s : State) (k : Nat) (v : W64) (j : Nat) : (s.w k v).ls j = s.ls j := (rfl)
@[simp] theorem State.tr_w (s : State) (k : Nat) (v : W64) (j : Nat) : (s.w k v).tr j = s.tr j := (rfl)
@[simp] theorem State.trq_w (s : State) (k : Nat) (v : W64) (j : Nat) : (s.w k v).trq j = s.trq j := (rfl)
@[simp] theorem State.i3cT_w (s : State) (k : Nat) (v : W64) (j : Nat) : (s.w k v).i3cT j = s.i3cT j := (rfl)
@[simp] theorem State.inj_w (s : State) (k : Nat) (v : W64) (j : Nat) : (s.w k v).inj j = s.inj j := (rfl)
@[simp] theorem State.strm_w (s : State) (k : Nat) (v : W64) (j : Nat) : (s.w k v).strm j = s.strm j := (rfl)
@[simp] theorem State.stack_w (s : State) (k : Nat) (v : W64) (j : Nat) : (s.w k v).stack j = s.stack j := (rfl)
@[simp] theorem State.byte_w (s : State) (k : Nat) (v : W64) (j : Nat) : (s.w k v).byte j = s.byte j := (rfl)

@[simp] theorem State.r_setDie (s : State) (k : Nat) (x : Die) (j : Nat) : (s.setDie k x).r j = s.r j := (rfl)
@[simp] theorem State.pt_setDie (s : State) (k : Nat) (x : Die) (j : Nat) : (s.setDie k x).pt j = s.pt j := (rfl)
@[simp] theorem State.tile_setDie (s : State) (k : Nat) (x : Die) (j : Nat) : (s.setDie k x).tile j = s.tile j := (rfl)
@[simp] theorem State.token_setDie (s : State) (k : Nat) (x : Die) (j : Nat) : (s.setDie k x).token j = s.token j := (rfl)
@[simp] theorem State.walker_setDie (s : State) (k : Nat) (x : Die) (j : Nat) : (s.setDie k x).walker j = s.walker j := (rfl)
@[simp] theorem State.preWalker_setDie (s : State) (k : Nat) (x : Die) (j : Nat) : (s.setDie k x).preWalker j = s.preWalker j := (rfl)
@[simp] theorem State.port_setDie (s : State) (k : Nat) (x : Die) (j : Nat) : (s.setDie k x).port j = s.port j := (rfl)
@[simp] theorem State.ring_setDie (s : State) (k : Nat) (x : Die) (j : Nat) : (s.setDie k x).ring j = s.ring j := (rfl)
@[simp] theorem State.pcieFn_setDie (s : State) (k : Nat) (x : Die) (j : Nat) : (s.setDie k x).pcieFn j = s.pcieFn j := (rfl)
@[simp] theorem State.notif_setDie (s : State) (k : Nat) (x : Die) (j : Nat) : (s.setDie k x).notif j = s.notif j := (rfl)
@[simp] theorem State.part_setDie (s : State) (k : Nat) (x : Die) (j : Nat) : (s.setDie k x).part j = s.part j := (rfl)
@[simp] theorem State.ls_setDie (s : State) (k : Nat) (x : Die) (j : Nat) : (s.setDie k x).ls j = s.ls j := (rfl)
@[simp] theorem State.tr_setDie (s : State) (k : Nat) (x : Die) (j : Nat) : (s.setDie k x).tr j = s.tr j := (rfl)
@[simp] theorem State.trq_setDie (s : State) (k : Nat) (x : Die) (j : Nat) : (s.setDie k x).trq j = s.trq j := (rfl)
@[simp] theorem State.i3cT_setDie (s : State) (k : Nat) (x : Die) (j : Nat) : (s.setDie k x).i3cT j = s.i3cT j := (rfl)
@[simp] theorem State.inj_setDie (s : State) (k : Nat) (x : Die) (j : Nat) : (s.setDie k x).inj j = s.inj j := (rfl)
@[simp] theorem State.strm_setDie (s : State) (k : Nat) (x : Die) (j : Nat) : (s.setDie k x).strm j = s.strm j := (rfl)
@[simp] theorem State.stack_setDie (s : State) (k : Nat) (x : Die) (j : Nat) : (s.setDie k x).stack j = s.stack j := (rfl)
@[simp] theorem State.byte_setDie (s : State) (k : Nat) (x : Die) (j : Nat) : (s.setDie k x).byte j = s.byte j := (rfl)
@[simp] theorem State.rf_setDie (s : State) (k : Nat) (x : Die) (j lo w : Nat) : (s.setDie k x).rf j lo w = s.rf j lo w := (rfl)

@[simp] theorem State.r_setPt (s : State) (k : Nat) (x : PortTime) (j : Nat) : (s.setPt k x).r j = s.r j := (rfl)
@[simp] theorem State.die_setPt (s : State) (k : Nat) (x : PortTime) (j : Nat) : (s.setPt k x).die j = s.die j := (rfl)
@[simp] theorem State.tile_setPt (s : State) (k : Nat) (x : PortTime) (j : Nat) : (s.setPt k x).tile j = s.tile j := (rfl)
@[simp] theorem State.token_setPt (s : State) (k : Nat) (x : PortTime) (j : Nat) : (s.setPt k x).token j = s.token j := (rfl)
@[simp] theorem State.walker_setPt (s : State) (k : Nat) (x : PortTime) (j : Nat) : (s.setPt k x).walker j = s.walker j := (rfl)
@[simp] theorem State.preWalker_setPt (s : State) (k : Nat) (x : PortTime) (j : Nat) : (s.setPt k x).preWalker j = s.preWalker j := (rfl)
@[simp] theorem State.port_setPt (s : State) (k : Nat) (x : PortTime) (j : Nat) : (s.setPt k x).port j = s.port j := (rfl)
@[simp] theorem State.ring_setPt (s : State) (k : Nat) (x : PortTime) (j : Nat) : (s.setPt k x).ring j = s.ring j := (rfl)
@[simp] theorem State.pcieFn_setPt (s : State) (k : Nat) (x : PortTime) (j : Nat) : (s.setPt k x).pcieFn j = s.pcieFn j := (rfl)
@[simp] theorem State.notif_setPt (s : State) (k : Nat) (x : PortTime) (j : Nat) : (s.setPt k x).notif j = s.notif j := (rfl)
@[simp] theorem State.part_setPt (s : State) (k : Nat) (x : PortTime) (j : Nat) : (s.setPt k x).part j = s.part j := (rfl)
@[simp] theorem State.ls_setPt (s : State) (k : Nat) (x : PortTime) (j : Nat) : (s.setPt k x).ls j = s.ls j := (rfl)
@[simp] theorem State.tr_setPt (s : State) (k : Nat) (x : PortTime) (j : Nat) : (s.setPt k x).tr j = s.tr j := (rfl)
@[simp] theorem State.trq_setPt (s : State) (k : Nat) (x : PortTime) (j : Nat) : (s.setPt k x).trq j = s.trq j := (rfl)
@[simp] theorem State.i3cT_setPt (s : State) (k : Nat) (x : PortTime) (j : Nat) : (s.setPt k x).i3cT j = s.i3cT j := (rfl)
@[simp] theorem State.inj_setPt (s : State) (k : Nat) (x : PortTime) (j : Nat) : (s.setPt k x).inj j = s.inj j := (rfl)
@[simp] theorem State.strm_setPt (s : State) (k : Nat) (x : PortTime) (j : Nat) : (s.setPt k x).strm j = s.strm j := (rfl)
@[simp] theorem State.stack_setPt (s : State) (k : Nat) (x : PortTime) (j : Nat) : (s.setPt k x).stack j = s.stack j := (rfl)
@[simp] theorem State.byte_setPt (s : State) (k : Nat) (x : PortTime) (j : Nat) : (s.setPt k x).byte j = s.byte j := (rfl)
@[simp] theorem State.rf_setPt (s : State) (k : Nat) (x : PortTime) (j lo w : Nat) : (s.setPt k x).rf j lo w = s.rf j lo w := (rfl)

@[simp] theorem State.r_setTile (s : State) (k : Nat) (x : Tile) (j : Nat) : (s.setTile k x).r j = s.r j := (rfl)
@[simp] theorem State.die_setTile (s : State) (k : Nat) (x : Tile) (j : Nat) : (s.setTile k x).die j = s.die j := (rfl)
@[simp] theorem State.pt_setTile (s : State) (k : Nat) (x : Tile) (j : Nat) : (s.setTile k x).pt j = s.pt j := (rfl)
@[simp] theorem State.token_setTile (s : State) (k : Nat) (x : Tile) (j : Nat) : (s.setTile k x).token j = s.token j := (rfl)
@[simp] theorem State.walker_setTile (s : State) (k : Nat) (x : Tile) (j : Nat) : (s.setTile k x).walker j = s.walker j := (rfl)
@[simp] theorem State.preWalker_setTile (s : State) (k : Nat) (x : Tile) (j : Nat) : (s.setTile k x).preWalker j = s.preWalker j := (rfl)
@[simp] theorem State.port_setTile (s : State) (k : Nat) (x : Tile) (j : Nat) : (s.setTile k x).port j = s.port j := (rfl)
@[simp] theorem State.ring_setTile (s : State) (k : Nat) (x : Tile) (j : Nat) : (s.setTile k x).ring j = s.ring j := (rfl)
@[simp] theorem State.pcieFn_setTile (s : State) (k : Nat) (x : Tile) (j : Nat) : (s.setTile k x).pcieFn j = s.pcieFn j := (rfl)
@[simp] theorem State.notif_setTile (s : State) (k : Nat) (x : Tile) (j : Nat) : (s.setTile k x).notif j = s.notif j := (rfl)
@[simp] theorem State.part_setTile (s : State) (k : Nat) (x : Tile) (j : Nat) : (s.setTile k x).part j = s.part j := (rfl)
@[simp] theorem State.ls_setTile (s : State) (k : Nat) (x : Tile) (j : Nat) : (s.setTile k x).ls j = s.ls j := (rfl)
@[simp] theorem State.tr_setTile (s : State) (k : Nat) (x : Tile) (j : Nat) : (s.setTile k x).tr j = s.tr j := (rfl)
@[simp] theorem State.trq_setTile (s : State) (k : Nat) (x : Tile) (j : Nat) : (s.setTile k x).trq j = s.trq j := (rfl)
@[simp] theorem State.i3cT_setTile (s : State) (k : Nat) (x : Tile) (j : Nat) : (s.setTile k x).i3cT j = s.i3cT j := (rfl)
@[simp] theorem State.inj_setTile (s : State) (k : Nat) (x : Tile) (j : Nat) : (s.setTile k x).inj j = s.inj j := (rfl)
@[simp] theorem State.strm_setTile (s : State) (k : Nat) (x : Tile) (j : Nat) : (s.setTile k x).strm j = s.strm j := (rfl)
@[simp] theorem State.stack_setTile (s : State) (k : Nat) (x : Tile) (j : Nat) : (s.setTile k x).stack j = s.stack j := (rfl)
@[simp] theorem State.byte_setTile (s : State) (k : Nat) (x : Tile) (j : Nat) : (s.setTile k x).byte j = s.byte j := (rfl)
@[simp] theorem State.rf_setTile (s : State) (k : Nat) (x : Tile) (j lo w : Nat) : (s.setTile k x).rf j lo w = s.rf j lo w := (rfl)

@[simp] theorem State.r_setToken (s : State) (k : Nat) (x : Token) (j : Nat) : (s.setToken k x).r j = s.r j := (rfl)
@[simp] theorem State.die_setToken (s : State) (k : Nat) (x : Token) (j : Nat) : (s.setToken k x).die j = s.die j := (rfl)
@[simp] theorem State.pt_setToken (s : State) (k : Nat) (x : Token) (j : Nat) : (s.setToken k x).pt j = s.pt j := (rfl)
@[simp] theorem State.tile_setToken (s : State) (k : Nat) (x : Token) (j : Nat) : (s.setToken k x).tile j = s.tile j := (rfl)
@[simp] theorem State.walker_setToken (s : State) (k : Nat) (x : Token) (j : Nat) : (s.setToken k x).walker j = s.walker j := (rfl)
@[simp] theorem State.preWalker_setToken (s : State) (k : Nat) (x : Token) (j : Nat) : (s.setToken k x).preWalker j = s.preWalker j := (rfl)
@[simp] theorem State.port_setToken (s : State) (k : Nat) (x : Token) (j : Nat) : (s.setToken k x).port j = s.port j := (rfl)
@[simp] theorem State.ring_setToken (s : State) (k : Nat) (x : Token) (j : Nat) : (s.setToken k x).ring j = s.ring j := (rfl)
@[simp] theorem State.pcieFn_setToken (s : State) (k : Nat) (x : Token) (j : Nat) : (s.setToken k x).pcieFn j = s.pcieFn j := (rfl)
@[simp] theorem State.notif_setToken (s : State) (k : Nat) (x : Token) (j : Nat) : (s.setToken k x).notif j = s.notif j := (rfl)
@[simp] theorem State.part_setToken (s : State) (k : Nat) (x : Token) (j : Nat) : (s.setToken k x).part j = s.part j := (rfl)
@[simp] theorem State.ls_setToken (s : State) (k : Nat) (x : Token) (j : Nat) : (s.setToken k x).ls j = s.ls j := (rfl)
@[simp] theorem State.tr_setToken (s : State) (k : Nat) (x : Token) (j : Nat) : (s.setToken k x).tr j = s.tr j := (rfl)
@[simp] theorem State.trq_setToken (s : State) (k : Nat) (x : Token) (j : Nat) : (s.setToken k x).trq j = s.trq j := (rfl)
@[simp] theorem State.i3cT_setToken (s : State) (k : Nat) (x : Token) (j : Nat) : (s.setToken k x).i3cT j = s.i3cT j := (rfl)
@[simp] theorem State.inj_setToken (s : State) (k : Nat) (x : Token) (j : Nat) : (s.setToken k x).inj j = s.inj j := (rfl)
@[simp] theorem State.strm_setToken (s : State) (k : Nat) (x : Token) (j : Nat) : (s.setToken k x).strm j = s.strm j := (rfl)
@[simp] theorem State.stack_setToken (s : State) (k : Nat) (x : Token) (j : Nat) : (s.setToken k x).stack j = s.stack j := (rfl)
@[simp] theorem State.byte_setToken (s : State) (k : Nat) (x : Token) (j : Nat) : (s.setToken k x).byte j = s.byte j := (rfl)
@[simp] theorem State.rf_setToken (s : State) (k : Nat) (x : Token) (j lo w : Nat) : (s.setToken k x).rf j lo w = s.rf j lo w := (rfl)

@[simp] theorem State.r_setWalker (s : State) (k : Nat) (x : Walker) (j : Nat) : (s.setWalker k x).r j = s.r j := (rfl)
@[simp] theorem State.die_setWalker (s : State) (k : Nat) (x : Walker) (j : Nat) : (s.setWalker k x).die j = s.die j := (rfl)
@[simp] theorem State.pt_setWalker (s : State) (k : Nat) (x : Walker) (j : Nat) : (s.setWalker k x).pt j = s.pt j := (rfl)
@[simp] theorem State.tile_setWalker (s : State) (k : Nat) (x : Walker) (j : Nat) : (s.setWalker k x).tile j = s.tile j := (rfl)
@[simp] theorem State.token_setWalker (s : State) (k : Nat) (x : Walker) (j : Nat) : (s.setWalker k x).token j = s.token j := (rfl)
@[simp] theorem State.preWalker_setWalker (s : State) (k : Nat) (x : Walker) (j : Nat) : (s.setWalker k x).preWalker j = s.preWalker j := (rfl)
@[simp] theorem State.port_setWalker (s : State) (k : Nat) (x : Walker) (j : Nat) : (s.setWalker k x).port j = s.port j := (rfl)
@[simp] theorem State.ring_setWalker (s : State) (k : Nat) (x : Walker) (j : Nat) : (s.setWalker k x).ring j = s.ring j := (rfl)
@[simp] theorem State.pcieFn_setWalker (s : State) (k : Nat) (x : Walker) (j : Nat) : (s.setWalker k x).pcieFn j = s.pcieFn j := (rfl)
@[simp] theorem State.notif_setWalker (s : State) (k : Nat) (x : Walker) (j : Nat) : (s.setWalker k x).notif j = s.notif j := (rfl)
@[simp] theorem State.part_setWalker (s : State) (k : Nat) (x : Walker) (j : Nat) : (s.setWalker k x).part j = s.part j := (rfl)
@[simp] theorem State.ls_setWalker (s : State) (k : Nat) (x : Walker) (j : Nat) : (s.setWalker k x).ls j = s.ls j := (rfl)
@[simp] theorem State.tr_setWalker (s : State) (k : Nat) (x : Walker) (j : Nat) : (s.setWalker k x).tr j = s.tr j := (rfl)
@[simp] theorem State.trq_setWalker (s : State) (k : Nat) (x : Walker) (j : Nat) : (s.setWalker k x).trq j = s.trq j := (rfl)
@[simp] theorem State.i3cT_setWalker (s : State) (k : Nat) (x : Walker) (j : Nat) : (s.setWalker k x).i3cT j = s.i3cT j := (rfl)
@[simp] theorem State.inj_setWalker (s : State) (k : Nat) (x : Walker) (j : Nat) : (s.setWalker k x).inj j = s.inj j := (rfl)
@[simp] theorem State.strm_setWalker (s : State) (k : Nat) (x : Walker) (j : Nat) : (s.setWalker k x).strm j = s.strm j := (rfl)
@[simp] theorem State.stack_setWalker (s : State) (k : Nat) (x : Walker) (j : Nat) : (s.setWalker k x).stack j = s.stack j := (rfl)
@[simp] theorem State.byte_setWalker (s : State) (k : Nat) (x : Walker) (j : Nat) : (s.setWalker k x).byte j = s.byte j := (rfl)
@[simp] theorem State.rf_setWalker (s : State) (k : Nat) (x : Walker) (j lo w : Nat) : (s.setWalker k x).rf j lo w = s.rf j lo w := (rfl)

@[simp] theorem State.r_setPreWalker (s : State) (k : Nat) (x : Walker) (j : Nat) : (s.setPreWalker k x).r j = s.r j := (rfl)
@[simp] theorem State.die_setPreWalker (s : State) (k : Nat) (x : Walker) (j : Nat) : (s.setPreWalker k x).die j = s.die j := (rfl)
@[simp] theorem State.pt_setPreWalker (s : State) (k : Nat) (x : Walker) (j : Nat) : (s.setPreWalker k x).pt j = s.pt j := (rfl)
@[simp] theorem State.tile_setPreWalker (s : State) (k : Nat) (x : Walker) (j : Nat) : (s.setPreWalker k x).tile j = s.tile j := (rfl)
@[simp] theorem State.token_setPreWalker (s : State) (k : Nat) (x : Walker) (j : Nat) : (s.setPreWalker k x).token j = s.token j := (rfl)
@[simp] theorem State.walker_setPreWalker (s : State) (k : Nat) (x : Walker) (j : Nat) : (s.setPreWalker k x).walker j = s.walker j := (rfl)
@[simp] theorem State.port_setPreWalker (s : State) (k : Nat) (x : Walker) (j : Nat) : (s.setPreWalker k x).port j = s.port j := (rfl)
@[simp] theorem State.ring_setPreWalker (s : State) (k : Nat) (x : Walker) (j : Nat) : (s.setPreWalker k x).ring j = s.ring j := (rfl)
@[simp] theorem State.pcieFn_setPreWalker (s : State) (k : Nat) (x : Walker) (j : Nat) : (s.setPreWalker k x).pcieFn j = s.pcieFn j := (rfl)
@[simp] theorem State.notif_setPreWalker (s : State) (k : Nat) (x : Walker) (j : Nat) : (s.setPreWalker k x).notif j = s.notif j := (rfl)
@[simp] theorem State.part_setPreWalker (s : State) (k : Nat) (x : Walker) (j : Nat) : (s.setPreWalker k x).part j = s.part j := (rfl)
@[simp] theorem State.ls_setPreWalker (s : State) (k : Nat) (x : Walker) (j : Nat) : (s.setPreWalker k x).ls j = s.ls j := (rfl)
@[simp] theorem State.tr_setPreWalker (s : State) (k : Nat) (x : Walker) (j : Nat) : (s.setPreWalker k x).tr j = s.tr j := (rfl)
@[simp] theorem State.trq_setPreWalker (s : State) (k : Nat) (x : Walker) (j : Nat) : (s.setPreWalker k x).trq j = s.trq j := (rfl)
@[simp] theorem State.i3cT_setPreWalker (s : State) (k : Nat) (x : Walker) (j : Nat) : (s.setPreWalker k x).i3cT j = s.i3cT j := (rfl)
@[simp] theorem State.inj_setPreWalker (s : State) (k : Nat) (x : Walker) (j : Nat) : (s.setPreWalker k x).inj j = s.inj j := (rfl)
@[simp] theorem State.strm_setPreWalker (s : State) (k : Nat) (x : Walker) (j : Nat) : (s.setPreWalker k x).strm j = s.strm j := (rfl)
@[simp] theorem State.stack_setPreWalker (s : State) (k : Nat) (x : Walker) (j : Nat) : (s.setPreWalker k x).stack j = s.stack j := (rfl)
@[simp] theorem State.byte_setPreWalker (s : State) (k : Nat) (x : Walker) (j : Nat) : (s.setPreWalker k x).byte j = s.byte j := (rfl)
@[simp] theorem State.rf_setPreWalker (s : State) (k : Nat) (x : Walker) (j lo w : Nat) : (s.setPreWalker k x).rf j lo w = s.rf j lo w := (rfl)

@[simp] theorem State.r_setPort (s : State) (k : Nat) (x : Port) (j : Nat) : (s.setPort k x).r j = s.r j := (rfl)
@[simp] theorem State.die_setPort (s : State) (k : Nat) (x : Port) (j : Nat) : (s.setPort k x).die j = s.die j := (rfl)
@[simp] theorem State.pt_setPort (s : State) (k : Nat) (x : Port) (j : Nat) : (s.setPort k x).pt j = s.pt j := (rfl)
@[simp] theorem State.tile_setPort (s : State) (k : Nat) (x : Port) (j : Nat) : (s.setPort k x).tile j = s.tile j := (rfl)
@[simp] theorem State.token_setPort (s : State) (k : Nat) (x : Port) (j : Nat) : (s.setPort k x).token j = s.token j := (rfl)
@[simp] theorem State.walker_setPort (s : State) (k : Nat) (x : Port) (j : Nat) : (s.setPort k x).walker j = s.walker j := (rfl)
@[simp] theorem State.preWalker_setPort (s : State) (k : Nat) (x : Port) (j : Nat) : (s.setPort k x).preWalker j = s.preWalker j := (rfl)
@[simp] theorem State.ring_setPort (s : State) (k : Nat) (x : Port) (j : Nat) : (s.setPort k x).ring j = s.ring j := (rfl)
@[simp] theorem State.pcieFn_setPort (s : State) (k : Nat) (x : Port) (j : Nat) : (s.setPort k x).pcieFn j = s.pcieFn j := (rfl)
@[simp] theorem State.notif_setPort (s : State) (k : Nat) (x : Port) (j : Nat) : (s.setPort k x).notif j = s.notif j := (rfl)
@[simp] theorem State.part_setPort (s : State) (k : Nat) (x : Port) (j : Nat) : (s.setPort k x).part j = s.part j := (rfl)
@[simp] theorem State.ls_setPort (s : State) (k : Nat) (x : Port) (j : Nat) : (s.setPort k x).ls j = s.ls j := (rfl)
@[simp] theorem State.tr_setPort (s : State) (k : Nat) (x : Port) (j : Nat) : (s.setPort k x).tr j = s.tr j := (rfl)
@[simp] theorem State.trq_setPort (s : State) (k : Nat) (x : Port) (j : Nat) : (s.setPort k x).trq j = s.trq j := (rfl)
@[simp] theorem State.i3cT_setPort (s : State) (k : Nat) (x : Port) (j : Nat) : (s.setPort k x).i3cT j = s.i3cT j := (rfl)
@[simp] theorem State.inj_setPort (s : State) (k : Nat) (x : Port) (j : Nat) : (s.setPort k x).inj j = s.inj j := (rfl)
@[simp] theorem State.strm_setPort (s : State) (k : Nat) (x : Port) (j : Nat) : (s.setPort k x).strm j = s.strm j := (rfl)
@[simp] theorem State.stack_setPort (s : State) (k : Nat) (x : Port) (j : Nat) : (s.setPort k x).stack j = s.stack j := (rfl)
@[simp] theorem State.byte_setPort (s : State) (k : Nat) (x : Port) (j : Nat) : (s.setPort k x).byte j = s.byte j := (rfl)
@[simp] theorem State.rf_setPort (s : State) (k : Nat) (x : Port) (j lo w : Nat) : (s.setPort k x).rf j lo w = s.rf j lo w := (rfl)

@[simp] theorem State.r_setRing (s : State) (k : Nat) (x : Ring) (j : Nat) : (s.setRing k x).r j = s.r j := (rfl)
@[simp] theorem State.die_setRing (s : State) (k : Nat) (x : Ring) (j : Nat) : (s.setRing k x).die j = s.die j := (rfl)
@[simp] theorem State.pt_setRing (s : State) (k : Nat) (x : Ring) (j : Nat) : (s.setRing k x).pt j = s.pt j := (rfl)
@[simp] theorem State.tile_setRing (s : State) (k : Nat) (x : Ring) (j : Nat) : (s.setRing k x).tile j = s.tile j := (rfl)
@[simp] theorem State.token_setRing (s : State) (k : Nat) (x : Ring) (j : Nat) : (s.setRing k x).token j = s.token j := (rfl)
@[simp] theorem State.walker_setRing (s : State) (k : Nat) (x : Ring) (j : Nat) : (s.setRing k x).walker j = s.walker j := (rfl)
@[simp] theorem State.preWalker_setRing (s : State) (k : Nat) (x : Ring) (j : Nat) : (s.setRing k x).preWalker j = s.preWalker j := (rfl)
@[simp] theorem State.port_setRing (s : State) (k : Nat) (x : Ring) (j : Nat) : (s.setRing k x).port j = s.port j := (rfl)
@[simp] theorem State.pcieFn_setRing (s : State) (k : Nat) (x : Ring) (j : Nat) : (s.setRing k x).pcieFn j = s.pcieFn j := (rfl)
@[simp] theorem State.notif_setRing (s : State) (k : Nat) (x : Ring) (j : Nat) : (s.setRing k x).notif j = s.notif j := (rfl)
@[simp] theorem State.part_setRing (s : State) (k : Nat) (x : Ring) (j : Nat) : (s.setRing k x).part j = s.part j := (rfl)
@[simp] theorem State.ls_setRing (s : State) (k : Nat) (x : Ring) (j : Nat) : (s.setRing k x).ls j = s.ls j := (rfl)
@[simp] theorem State.tr_setRing (s : State) (k : Nat) (x : Ring) (j : Nat) : (s.setRing k x).tr j = s.tr j := (rfl)
@[simp] theorem State.trq_setRing (s : State) (k : Nat) (x : Ring) (j : Nat) : (s.setRing k x).trq j = s.trq j := (rfl)
@[simp] theorem State.i3cT_setRing (s : State) (k : Nat) (x : Ring) (j : Nat) : (s.setRing k x).i3cT j = s.i3cT j := (rfl)
@[simp] theorem State.inj_setRing (s : State) (k : Nat) (x : Ring) (j : Nat) : (s.setRing k x).inj j = s.inj j := (rfl)
@[simp] theorem State.strm_setRing (s : State) (k : Nat) (x : Ring) (j : Nat) : (s.setRing k x).strm j = s.strm j := (rfl)
@[simp] theorem State.stack_setRing (s : State) (k : Nat) (x : Ring) (j : Nat) : (s.setRing k x).stack j = s.stack j := (rfl)
@[simp] theorem State.byte_setRing (s : State) (k : Nat) (x : Ring) (j : Nat) : (s.setRing k x).byte j = s.byte j := (rfl)
@[simp] theorem State.rf_setRing (s : State) (k : Nat) (x : Ring) (j lo w : Nat) : (s.setRing k x).rf j lo w = s.rf j lo w := (rfl)

@[simp] theorem State.r_setPcieFn (s : State) (k : Nat) (x : PcieFn) (j : Nat) : (s.setPcieFn k x).r j = s.r j := (rfl)
@[simp] theorem State.die_setPcieFn (s : State) (k : Nat) (x : PcieFn) (j : Nat) : (s.setPcieFn k x).die j = s.die j := (rfl)
@[simp] theorem State.pt_setPcieFn (s : State) (k : Nat) (x : PcieFn) (j : Nat) : (s.setPcieFn k x).pt j = s.pt j := (rfl)
@[simp] theorem State.tile_setPcieFn (s : State) (k : Nat) (x : PcieFn) (j : Nat) : (s.setPcieFn k x).tile j = s.tile j := (rfl)
@[simp] theorem State.token_setPcieFn (s : State) (k : Nat) (x : PcieFn) (j : Nat) : (s.setPcieFn k x).token j = s.token j := (rfl)
@[simp] theorem State.walker_setPcieFn (s : State) (k : Nat) (x : PcieFn) (j : Nat) : (s.setPcieFn k x).walker j = s.walker j := (rfl)
@[simp] theorem State.preWalker_setPcieFn (s : State) (k : Nat) (x : PcieFn) (j : Nat) : (s.setPcieFn k x).preWalker j = s.preWalker j := (rfl)
@[simp] theorem State.port_setPcieFn (s : State) (k : Nat) (x : PcieFn) (j : Nat) : (s.setPcieFn k x).port j = s.port j := (rfl)
@[simp] theorem State.ring_setPcieFn (s : State) (k : Nat) (x : PcieFn) (j : Nat) : (s.setPcieFn k x).ring j = s.ring j := (rfl)
@[simp] theorem State.notif_setPcieFn (s : State) (k : Nat) (x : PcieFn) (j : Nat) : (s.setPcieFn k x).notif j = s.notif j := (rfl)
@[simp] theorem State.part_setPcieFn (s : State) (k : Nat) (x : PcieFn) (j : Nat) : (s.setPcieFn k x).part j = s.part j := (rfl)
@[simp] theorem State.ls_setPcieFn (s : State) (k : Nat) (x : PcieFn) (j : Nat) : (s.setPcieFn k x).ls j = s.ls j := (rfl)
@[simp] theorem State.tr_setPcieFn (s : State) (k : Nat) (x : PcieFn) (j : Nat) : (s.setPcieFn k x).tr j = s.tr j := (rfl)
@[simp] theorem State.trq_setPcieFn (s : State) (k : Nat) (x : PcieFn) (j : Nat) : (s.setPcieFn k x).trq j = s.trq j := (rfl)
@[simp] theorem State.i3cT_setPcieFn (s : State) (k : Nat) (x : PcieFn) (j : Nat) : (s.setPcieFn k x).i3cT j = s.i3cT j := (rfl)
@[simp] theorem State.inj_setPcieFn (s : State) (k : Nat) (x : PcieFn) (j : Nat) : (s.setPcieFn k x).inj j = s.inj j := (rfl)
@[simp] theorem State.strm_setPcieFn (s : State) (k : Nat) (x : PcieFn) (j : Nat) : (s.setPcieFn k x).strm j = s.strm j := (rfl)
@[simp] theorem State.stack_setPcieFn (s : State) (k : Nat) (x : PcieFn) (j : Nat) : (s.setPcieFn k x).stack j = s.stack j := (rfl)
@[simp] theorem State.byte_setPcieFn (s : State) (k : Nat) (x : PcieFn) (j : Nat) : (s.setPcieFn k x).byte j = s.byte j := (rfl)
@[simp] theorem State.rf_setPcieFn (s : State) (k : Nat) (x : PcieFn) (j lo w : Nat) : (s.setPcieFn k x).rf j lo w = s.rf j lo w := (rfl)

@[simp] theorem State.r_setNotif (s : State) (k : Nat) (x : Notify) (j : Nat) : (s.setNotif k x).r j = s.r j := (rfl)
@[simp] theorem State.die_setNotif (s : State) (k : Nat) (x : Notify) (j : Nat) : (s.setNotif k x).die j = s.die j := (rfl)
@[simp] theorem State.pt_setNotif (s : State) (k : Nat) (x : Notify) (j : Nat) : (s.setNotif k x).pt j = s.pt j := (rfl)
@[simp] theorem State.tile_setNotif (s : State) (k : Nat) (x : Notify) (j : Nat) : (s.setNotif k x).tile j = s.tile j := (rfl)
@[simp] theorem State.token_setNotif (s : State) (k : Nat) (x : Notify) (j : Nat) : (s.setNotif k x).token j = s.token j := (rfl)
@[simp] theorem State.walker_setNotif (s : State) (k : Nat) (x : Notify) (j : Nat) : (s.setNotif k x).walker j = s.walker j := (rfl)
@[simp] theorem State.preWalker_setNotif (s : State) (k : Nat) (x : Notify) (j : Nat) : (s.setNotif k x).preWalker j = s.preWalker j := (rfl)
@[simp] theorem State.port_setNotif (s : State) (k : Nat) (x : Notify) (j : Nat) : (s.setNotif k x).port j = s.port j := (rfl)
@[simp] theorem State.ring_setNotif (s : State) (k : Nat) (x : Notify) (j : Nat) : (s.setNotif k x).ring j = s.ring j := (rfl)
@[simp] theorem State.pcieFn_setNotif (s : State) (k : Nat) (x : Notify) (j : Nat) : (s.setNotif k x).pcieFn j = s.pcieFn j := (rfl)
@[simp] theorem State.part_setNotif (s : State) (k : Nat) (x : Notify) (j : Nat) : (s.setNotif k x).part j = s.part j := (rfl)
@[simp] theorem State.ls_setNotif (s : State) (k : Nat) (x : Notify) (j : Nat) : (s.setNotif k x).ls j = s.ls j := (rfl)
@[simp] theorem State.tr_setNotif (s : State) (k : Nat) (x : Notify) (j : Nat) : (s.setNotif k x).tr j = s.tr j := (rfl)
@[simp] theorem State.trq_setNotif (s : State) (k : Nat) (x : Notify) (j : Nat) : (s.setNotif k x).trq j = s.trq j := (rfl)
@[simp] theorem State.i3cT_setNotif (s : State) (k : Nat) (x : Notify) (j : Nat) : (s.setNotif k x).i3cT j = s.i3cT j := (rfl)
@[simp] theorem State.inj_setNotif (s : State) (k : Nat) (x : Notify) (j : Nat) : (s.setNotif k x).inj j = s.inj j := (rfl)
@[simp] theorem State.strm_setNotif (s : State) (k : Nat) (x : Notify) (j : Nat) : (s.setNotif k x).strm j = s.strm j := (rfl)
@[simp] theorem State.stack_setNotif (s : State) (k : Nat) (x : Notify) (j : Nat) : (s.setNotif k x).stack j = s.stack j := (rfl)
@[simp] theorem State.byte_setNotif (s : State) (k : Nat) (x : Notify) (j : Nat) : (s.setNotif k x).byte j = s.byte j := (rfl)
@[simp] theorem State.rf_setNotif (s : State) (k : Nat) (x : Notify) (j lo w : Nat) : (s.setNotif k x).rf j lo w = s.rf j lo w := (rfl)

@[simp] theorem State.r_setPart (s : State) (k : Nat) (x : Part) (j : Nat) : (s.setPart k x).r j = s.r j := (rfl)
@[simp] theorem State.die_setPart (s : State) (k : Nat) (x : Part) (j : Nat) : (s.setPart k x).die j = s.die j := (rfl)
@[simp] theorem State.pt_setPart (s : State) (k : Nat) (x : Part) (j : Nat) : (s.setPart k x).pt j = s.pt j := (rfl)
@[simp] theorem State.tile_setPart (s : State) (k : Nat) (x : Part) (j : Nat) : (s.setPart k x).tile j = s.tile j := (rfl)
@[simp] theorem State.token_setPart (s : State) (k : Nat) (x : Part) (j : Nat) : (s.setPart k x).token j = s.token j := (rfl)
@[simp] theorem State.walker_setPart (s : State) (k : Nat) (x : Part) (j : Nat) : (s.setPart k x).walker j = s.walker j := (rfl)
@[simp] theorem State.preWalker_setPart (s : State) (k : Nat) (x : Part) (j : Nat) : (s.setPart k x).preWalker j = s.preWalker j := (rfl)
@[simp] theorem State.port_setPart (s : State) (k : Nat) (x : Part) (j : Nat) : (s.setPart k x).port j = s.port j := (rfl)
@[simp] theorem State.ring_setPart (s : State) (k : Nat) (x : Part) (j : Nat) : (s.setPart k x).ring j = s.ring j := (rfl)
@[simp] theorem State.pcieFn_setPart (s : State) (k : Nat) (x : Part) (j : Nat) : (s.setPart k x).pcieFn j = s.pcieFn j := (rfl)
@[simp] theorem State.notif_setPart (s : State) (k : Nat) (x : Part) (j : Nat) : (s.setPart k x).notif j = s.notif j := (rfl)
@[simp] theorem State.ls_setPart (s : State) (k : Nat) (x : Part) (j : Nat) : (s.setPart k x).ls j = s.ls j := (rfl)
@[simp] theorem State.tr_setPart (s : State) (k : Nat) (x : Part) (j : Nat) : (s.setPart k x).tr j = s.tr j := (rfl)
@[simp] theorem State.trq_setPart (s : State) (k : Nat) (x : Part) (j : Nat) : (s.setPart k x).trq j = s.trq j := (rfl)
@[simp] theorem State.i3cT_setPart (s : State) (k : Nat) (x : Part) (j : Nat) : (s.setPart k x).i3cT j = s.i3cT j := (rfl)
@[simp] theorem State.inj_setPart (s : State) (k : Nat) (x : Part) (j : Nat) : (s.setPart k x).inj j = s.inj j := (rfl)
@[simp] theorem State.strm_setPart (s : State) (k : Nat) (x : Part) (j : Nat) : (s.setPart k x).strm j = s.strm j := (rfl)
@[simp] theorem State.stack_setPart (s : State) (k : Nat) (x : Part) (j : Nat) : (s.setPart k x).stack j = s.stack j := (rfl)
@[simp] theorem State.byte_setPart (s : State) (k : Nat) (x : Part) (j : Nat) : (s.setPart k x).byte j = s.byte j := (rfl)
@[simp] theorem State.rf_setPart (s : State) (k : Nat) (x : Part) (j lo w : Nat) : (s.setPart k x).rf j lo w = s.rf j lo w := (rfl)

@[simp] theorem State.r_setLs (s : State) (k : Nat) (x : LockStep) (j : Nat) : (s.setLs k x).r j = s.r j := (rfl)
@[simp] theorem State.die_setLs (s : State) (k : Nat) (x : LockStep) (j : Nat) : (s.setLs k x).die j = s.die j := (rfl)
@[simp] theorem State.pt_setLs (s : State) (k : Nat) (x : LockStep) (j : Nat) : (s.setLs k x).pt j = s.pt j := (rfl)
@[simp] theorem State.tile_setLs (s : State) (k : Nat) (x : LockStep) (j : Nat) : (s.setLs k x).tile j = s.tile j := (rfl)
@[simp] theorem State.token_setLs (s : State) (k : Nat) (x : LockStep) (j : Nat) : (s.setLs k x).token j = s.token j := (rfl)
@[simp] theorem State.walker_setLs (s : State) (k : Nat) (x : LockStep) (j : Nat) : (s.setLs k x).walker j = s.walker j := (rfl)
@[simp] theorem State.preWalker_setLs (s : State) (k : Nat) (x : LockStep) (j : Nat) : (s.setLs k x).preWalker j = s.preWalker j := (rfl)
@[simp] theorem State.port_setLs (s : State) (k : Nat) (x : LockStep) (j : Nat) : (s.setLs k x).port j = s.port j := (rfl)
@[simp] theorem State.ring_setLs (s : State) (k : Nat) (x : LockStep) (j : Nat) : (s.setLs k x).ring j = s.ring j := (rfl)
@[simp] theorem State.pcieFn_setLs (s : State) (k : Nat) (x : LockStep) (j : Nat) : (s.setLs k x).pcieFn j = s.pcieFn j := (rfl)
@[simp] theorem State.notif_setLs (s : State) (k : Nat) (x : LockStep) (j : Nat) : (s.setLs k x).notif j = s.notif j := (rfl)
@[simp] theorem State.part_setLs (s : State) (k : Nat) (x : LockStep) (j : Nat) : (s.setLs k x).part j = s.part j := (rfl)
@[simp] theorem State.tr_setLs (s : State) (k : Nat) (x : LockStep) (j : Nat) : (s.setLs k x).tr j = s.tr j := (rfl)
@[simp] theorem State.trq_setLs (s : State) (k : Nat) (x : LockStep) (j : Nat) : (s.setLs k x).trq j = s.trq j := (rfl)
@[simp] theorem State.i3cT_setLs (s : State) (k : Nat) (x : LockStep) (j : Nat) : (s.setLs k x).i3cT j = s.i3cT j := (rfl)
@[simp] theorem State.inj_setLs (s : State) (k : Nat) (x : LockStep) (j : Nat) : (s.setLs k x).inj j = s.inj j := (rfl)
@[simp] theorem State.strm_setLs (s : State) (k : Nat) (x : LockStep) (j : Nat) : (s.setLs k x).strm j = s.strm j := (rfl)
@[simp] theorem State.stack_setLs (s : State) (k : Nat) (x : LockStep) (j : Nat) : (s.setLs k x).stack j = s.stack j := (rfl)
@[simp] theorem State.byte_setLs (s : State) (k : Nat) (x : LockStep) (j : Nat) : (s.setLs k x).byte j = s.byte j := (rfl)
@[simp] theorem State.rf_setLs (s : State) (k : Nat) (x : LockStep) (j lo w : Nat) : (s.setLs k x).rf j lo w = s.rf j lo w := (rfl)

@[simp] theorem State.r_setTr (s : State) (k : Nat) (x : Trace) (j : Nat) : (s.setTr k x).r j = s.r j := (rfl)
@[simp] theorem State.die_setTr (s : State) (k : Nat) (x : Trace) (j : Nat) : (s.setTr k x).die j = s.die j := (rfl)
@[simp] theorem State.pt_setTr (s : State) (k : Nat) (x : Trace) (j : Nat) : (s.setTr k x).pt j = s.pt j := (rfl)
@[simp] theorem State.tile_setTr (s : State) (k : Nat) (x : Trace) (j : Nat) : (s.setTr k x).tile j = s.tile j := (rfl)
@[simp] theorem State.token_setTr (s : State) (k : Nat) (x : Trace) (j : Nat) : (s.setTr k x).token j = s.token j := (rfl)
@[simp] theorem State.walker_setTr (s : State) (k : Nat) (x : Trace) (j : Nat) : (s.setTr k x).walker j = s.walker j := (rfl)
@[simp] theorem State.preWalker_setTr (s : State) (k : Nat) (x : Trace) (j : Nat) : (s.setTr k x).preWalker j = s.preWalker j := (rfl)
@[simp] theorem State.port_setTr (s : State) (k : Nat) (x : Trace) (j : Nat) : (s.setTr k x).port j = s.port j := (rfl)
@[simp] theorem State.ring_setTr (s : State) (k : Nat) (x : Trace) (j : Nat) : (s.setTr k x).ring j = s.ring j := (rfl)
@[simp] theorem State.pcieFn_setTr (s : State) (k : Nat) (x : Trace) (j : Nat) : (s.setTr k x).pcieFn j = s.pcieFn j := (rfl)
@[simp] theorem State.notif_setTr (s : State) (k : Nat) (x : Trace) (j : Nat) : (s.setTr k x).notif j = s.notif j := (rfl)
@[simp] theorem State.part_setTr (s : State) (k : Nat) (x : Trace) (j : Nat) : (s.setTr k x).part j = s.part j := (rfl)
@[simp] theorem State.ls_setTr (s : State) (k : Nat) (x : Trace) (j : Nat) : (s.setTr k x).ls j = s.ls j := (rfl)
@[simp] theorem State.trq_setTr (s : State) (k : Nat) (x : Trace) (j : Nat) : (s.setTr k x).trq j = s.trq j := (rfl)
@[simp] theorem State.i3cT_setTr (s : State) (k : Nat) (x : Trace) (j : Nat) : (s.setTr k x).i3cT j = s.i3cT j := (rfl)
@[simp] theorem State.inj_setTr (s : State) (k : Nat) (x : Trace) (j : Nat) : (s.setTr k x).inj j = s.inj j := (rfl)
@[simp] theorem State.strm_setTr (s : State) (k : Nat) (x : Trace) (j : Nat) : (s.setTr k x).strm j = s.strm j := (rfl)
@[simp] theorem State.stack_setTr (s : State) (k : Nat) (x : Trace) (j : Nat) : (s.setTr k x).stack j = s.stack j := (rfl)
@[simp] theorem State.byte_setTr (s : State) (k : Nat) (x : Trace) (j : Nat) : (s.setTr k x).byte j = s.byte j := (rfl)
@[simp] theorem State.rf_setTr (s : State) (k : Nat) (x : Trace) (j lo w : Nat) : (s.setTr k x).rf j lo w = s.rf j lo w := (rfl)

@[simp] theorem State.r_setTrq (s : State) (k : Nat) (x : List (BitVec 256)) (j : Nat) : (s.setTrq k x).r j = s.r j := (rfl)
@[simp] theorem State.die_setTrq (s : State) (k : Nat) (x : List (BitVec 256)) (j : Nat) : (s.setTrq k x).die j = s.die j := (rfl)
@[simp] theorem State.pt_setTrq (s : State) (k : Nat) (x : List (BitVec 256)) (j : Nat) : (s.setTrq k x).pt j = s.pt j := (rfl)
@[simp] theorem State.tile_setTrq (s : State) (k : Nat) (x : List (BitVec 256)) (j : Nat) : (s.setTrq k x).tile j = s.tile j := (rfl)
@[simp] theorem State.token_setTrq (s : State) (k : Nat) (x : List (BitVec 256)) (j : Nat) : (s.setTrq k x).token j = s.token j := (rfl)
@[simp] theorem State.walker_setTrq (s : State) (k : Nat) (x : List (BitVec 256)) (j : Nat) : (s.setTrq k x).walker j = s.walker j := (rfl)
@[simp] theorem State.preWalker_setTrq (s : State) (k : Nat) (x : List (BitVec 256)) (j : Nat) : (s.setTrq k x).preWalker j = s.preWalker j := (rfl)
@[simp] theorem State.port_setTrq (s : State) (k : Nat) (x : List (BitVec 256)) (j : Nat) : (s.setTrq k x).port j = s.port j := (rfl)
@[simp] theorem State.ring_setTrq (s : State) (k : Nat) (x : List (BitVec 256)) (j : Nat) : (s.setTrq k x).ring j = s.ring j := (rfl)
@[simp] theorem State.pcieFn_setTrq (s : State) (k : Nat) (x : List (BitVec 256)) (j : Nat) : (s.setTrq k x).pcieFn j = s.pcieFn j := (rfl)
@[simp] theorem State.notif_setTrq (s : State) (k : Nat) (x : List (BitVec 256)) (j : Nat) : (s.setTrq k x).notif j = s.notif j := (rfl)
@[simp] theorem State.part_setTrq (s : State) (k : Nat) (x : List (BitVec 256)) (j : Nat) : (s.setTrq k x).part j = s.part j := (rfl)
@[simp] theorem State.ls_setTrq (s : State) (k : Nat) (x : List (BitVec 256)) (j : Nat) : (s.setTrq k x).ls j = s.ls j := (rfl)
@[simp] theorem State.tr_setTrq (s : State) (k : Nat) (x : List (BitVec 256)) (j : Nat) : (s.setTrq k x).tr j = s.tr j := (rfl)
@[simp] theorem State.i3cT_setTrq (s : State) (k : Nat) (x : List (BitVec 256)) (j : Nat) : (s.setTrq k x).i3cT j = s.i3cT j := (rfl)
@[simp] theorem State.inj_setTrq (s : State) (k : Nat) (x : List (BitVec 256)) (j : Nat) : (s.setTrq k x).inj j = s.inj j := (rfl)
@[simp] theorem State.strm_setTrq (s : State) (k : Nat) (x : List (BitVec 256)) (j : Nat) : (s.setTrq k x).strm j = s.strm j := (rfl)
@[simp] theorem State.stack_setTrq (s : State) (k : Nat) (x : List (BitVec 256)) (j : Nat) : (s.setTrq k x).stack j = s.stack j := (rfl)
@[simp] theorem State.byte_setTrq (s : State) (k : Nat) (x : List (BitVec 256)) (j : Nat) : (s.setTrq k x).byte j = s.byte j := (rfl)
@[simp] theorem State.rf_setTrq (s : State) (k : Nat) (x : List (BitVec 256)) (j lo w : Nat) : (s.setTrq k x).rf j lo w = s.rf j lo w := (rfl)

@[simp] theorem State.r_setI3cT (s : State) (k : Nat) (x : I3c) (j : Nat) : (s.setI3cT k x).r j = s.r j := (rfl)
@[simp] theorem State.die_setI3cT (s : State) (k : Nat) (x : I3c) (j : Nat) : (s.setI3cT k x).die j = s.die j := (rfl)
@[simp] theorem State.pt_setI3cT (s : State) (k : Nat) (x : I3c) (j : Nat) : (s.setI3cT k x).pt j = s.pt j := (rfl)
@[simp] theorem State.tile_setI3cT (s : State) (k : Nat) (x : I3c) (j : Nat) : (s.setI3cT k x).tile j = s.tile j := (rfl)
@[simp] theorem State.token_setI3cT (s : State) (k : Nat) (x : I3c) (j : Nat) : (s.setI3cT k x).token j = s.token j := (rfl)
@[simp] theorem State.walker_setI3cT (s : State) (k : Nat) (x : I3c) (j : Nat) : (s.setI3cT k x).walker j = s.walker j := (rfl)
@[simp] theorem State.preWalker_setI3cT (s : State) (k : Nat) (x : I3c) (j : Nat) : (s.setI3cT k x).preWalker j = s.preWalker j := (rfl)
@[simp] theorem State.port_setI3cT (s : State) (k : Nat) (x : I3c) (j : Nat) : (s.setI3cT k x).port j = s.port j := (rfl)
@[simp] theorem State.ring_setI3cT (s : State) (k : Nat) (x : I3c) (j : Nat) : (s.setI3cT k x).ring j = s.ring j := (rfl)
@[simp] theorem State.pcieFn_setI3cT (s : State) (k : Nat) (x : I3c) (j : Nat) : (s.setI3cT k x).pcieFn j = s.pcieFn j := (rfl)
@[simp] theorem State.notif_setI3cT (s : State) (k : Nat) (x : I3c) (j : Nat) : (s.setI3cT k x).notif j = s.notif j := (rfl)
@[simp] theorem State.part_setI3cT (s : State) (k : Nat) (x : I3c) (j : Nat) : (s.setI3cT k x).part j = s.part j := (rfl)
@[simp] theorem State.ls_setI3cT (s : State) (k : Nat) (x : I3c) (j : Nat) : (s.setI3cT k x).ls j = s.ls j := (rfl)
@[simp] theorem State.tr_setI3cT (s : State) (k : Nat) (x : I3c) (j : Nat) : (s.setI3cT k x).tr j = s.tr j := (rfl)
@[simp] theorem State.trq_setI3cT (s : State) (k : Nat) (x : I3c) (j : Nat) : (s.setI3cT k x).trq j = s.trq j := (rfl)
@[simp] theorem State.inj_setI3cT (s : State) (k : Nat) (x : I3c) (j : Nat) : (s.setI3cT k x).inj j = s.inj j := (rfl)
@[simp] theorem State.strm_setI3cT (s : State) (k : Nat) (x : I3c) (j : Nat) : (s.setI3cT k x).strm j = s.strm j := (rfl)
@[simp] theorem State.stack_setI3cT (s : State) (k : Nat) (x : I3c) (j : Nat) : (s.setI3cT k x).stack j = s.stack j := (rfl)
@[simp] theorem State.byte_setI3cT (s : State) (k : Nat) (x : I3c) (j : Nat) : (s.setI3cT k x).byte j = s.byte j := (rfl)
@[simp] theorem State.rf_setI3cT (s : State) (k : Nat) (x : I3c) (j lo w : Nat) : (s.setI3cT k x).rf j lo w = s.rf j lo w := (rfl)

@[simp] theorem State.r_setInj (s : State) (k : Nat) (x : Inject) (j : Nat) : (s.setInj k x).r j = s.r j := (rfl)
@[simp] theorem State.die_setInj (s : State) (k : Nat) (x : Inject) (j : Nat) : (s.setInj k x).die j = s.die j := (rfl)
@[simp] theorem State.pt_setInj (s : State) (k : Nat) (x : Inject) (j : Nat) : (s.setInj k x).pt j = s.pt j := (rfl)
@[simp] theorem State.tile_setInj (s : State) (k : Nat) (x : Inject) (j : Nat) : (s.setInj k x).tile j = s.tile j := (rfl)
@[simp] theorem State.token_setInj (s : State) (k : Nat) (x : Inject) (j : Nat) : (s.setInj k x).token j = s.token j := (rfl)
@[simp] theorem State.walker_setInj (s : State) (k : Nat) (x : Inject) (j : Nat) : (s.setInj k x).walker j = s.walker j := (rfl)
@[simp] theorem State.preWalker_setInj (s : State) (k : Nat) (x : Inject) (j : Nat) : (s.setInj k x).preWalker j = s.preWalker j := (rfl)
@[simp] theorem State.port_setInj (s : State) (k : Nat) (x : Inject) (j : Nat) : (s.setInj k x).port j = s.port j := (rfl)
@[simp] theorem State.ring_setInj (s : State) (k : Nat) (x : Inject) (j : Nat) : (s.setInj k x).ring j = s.ring j := (rfl)
@[simp] theorem State.pcieFn_setInj (s : State) (k : Nat) (x : Inject) (j : Nat) : (s.setInj k x).pcieFn j = s.pcieFn j := (rfl)
@[simp] theorem State.notif_setInj (s : State) (k : Nat) (x : Inject) (j : Nat) : (s.setInj k x).notif j = s.notif j := (rfl)
@[simp] theorem State.part_setInj (s : State) (k : Nat) (x : Inject) (j : Nat) : (s.setInj k x).part j = s.part j := (rfl)
@[simp] theorem State.ls_setInj (s : State) (k : Nat) (x : Inject) (j : Nat) : (s.setInj k x).ls j = s.ls j := (rfl)
@[simp] theorem State.tr_setInj (s : State) (k : Nat) (x : Inject) (j : Nat) : (s.setInj k x).tr j = s.tr j := (rfl)
@[simp] theorem State.trq_setInj (s : State) (k : Nat) (x : Inject) (j : Nat) : (s.setInj k x).trq j = s.trq j := (rfl)
@[simp] theorem State.i3cT_setInj (s : State) (k : Nat) (x : Inject) (j : Nat) : (s.setInj k x).i3cT j = s.i3cT j := (rfl)
@[simp] theorem State.strm_setInj (s : State) (k : Nat) (x : Inject) (j : Nat) : (s.setInj k x).strm j = s.strm j := (rfl)
@[simp] theorem State.stack_setInj (s : State) (k : Nat) (x : Inject) (j : Nat) : (s.setInj k x).stack j = s.stack j := (rfl)
@[simp] theorem State.byte_setInj (s : State) (k : Nat) (x : Inject) (j : Nat) : (s.setInj k x).byte j = s.byte j := (rfl)
@[simp] theorem State.rf_setInj (s : State) (k : Nat) (x : Inject) (j lo w : Nat) : (s.setInj k x).rf j lo w = s.rf j lo w := (rfl)

@[simp] theorem State.r_setStrm (s : State) (k : Nat) (x : List Stream) (j : Nat) : (s.setStrm k x).r j = s.r j := (rfl)
@[simp] theorem State.die_setStrm (s : State) (k : Nat) (x : List Stream) (j : Nat) : (s.setStrm k x).die j = s.die j := (rfl)
@[simp] theorem State.pt_setStrm (s : State) (k : Nat) (x : List Stream) (j : Nat) : (s.setStrm k x).pt j = s.pt j := (rfl)
@[simp] theorem State.tile_setStrm (s : State) (k : Nat) (x : List Stream) (j : Nat) : (s.setStrm k x).tile j = s.tile j := (rfl)
@[simp] theorem State.token_setStrm (s : State) (k : Nat) (x : List Stream) (j : Nat) : (s.setStrm k x).token j = s.token j := (rfl)
@[simp] theorem State.walker_setStrm (s : State) (k : Nat) (x : List Stream) (j : Nat) : (s.setStrm k x).walker j = s.walker j := (rfl)
@[simp] theorem State.preWalker_setStrm (s : State) (k : Nat) (x : List Stream) (j : Nat) : (s.setStrm k x).preWalker j = s.preWalker j := (rfl)
@[simp] theorem State.port_setStrm (s : State) (k : Nat) (x : List Stream) (j : Nat) : (s.setStrm k x).port j = s.port j := (rfl)
@[simp] theorem State.ring_setStrm (s : State) (k : Nat) (x : List Stream) (j : Nat) : (s.setStrm k x).ring j = s.ring j := (rfl)
@[simp] theorem State.pcieFn_setStrm (s : State) (k : Nat) (x : List Stream) (j : Nat) : (s.setStrm k x).pcieFn j = s.pcieFn j := (rfl)
@[simp] theorem State.notif_setStrm (s : State) (k : Nat) (x : List Stream) (j : Nat) : (s.setStrm k x).notif j = s.notif j := (rfl)
@[simp] theorem State.part_setStrm (s : State) (k : Nat) (x : List Stream) (j : Nat) : (s.setStrm k x).part j = s.part j := (rfl)
@[simp] theorem State.ls_setStrm (s : State) (k : Nat) (x : List Stream) (j : Nat) : (s.setStrm k x).ls j = s.ls j := (rfl)
@[simp] theorem State.tr_setStrm (s : State) (k : Nat) (x : List Stream) (j : Nat) : (s.setStrm k x).tr j = s.tr j := (rfl)
@[simp] theorem State.trq_setStrm (s : State) (k : Nat) (x : List Stream) (j : Nat) : (s.setStrm k x).trq j = s.trq j := (rfl)
@[simp] theorem State.i3cT_setStrm (s : State) (k : Nat) (x : List Stream) (j : Nat) : (s.setStrm k x).i3cT j = s.i3cT j := (rfl)
@[simp] theorem State.inj_setStrm (s : State) (k : Nat) (x : List Stream) (j : Nat) : (s.setStrm k x).inj j = s.inj j := (rfl)
@[simp] theorem State.stack_setStrm (s : State) (k : Nat) (x : List Stream) (j : Nat) : (s.setStrm k x).stack j = s.stack j := (rfl)
@[simp] theorem State.byte_setStrm (s : State) (k : Nat) (x : List Stream) (j : Nat) : (s.setStrm k x).byte j = s.byte j := (rfl)
@[simp] theorem State.rf_setStrm (s : State) (k : Nat) (x : List Stream) (j lo w : Nat) : (s.setStrm k x).rf j lo w = s.rf j lo w := (rfl)

@[simp] theorem State.r_setStack (s : State) (k : Nat) (x : Stack) (j : Nat) : (s.setStack k x).r j = s.r j := (rfl)
@[simp] theorem State.die_setStack (s : State) (k : Nat) (x : Stack) (j : Nat) : (s.setStack k x).die j = s.die j := (rfl)
@[simp] theorem State.pt_setStack (s : State) (k : Nat) (x : Stack) (j : Nat) : (s.setStack k x).pt j = s.pt j := (rfl)
@[simp] theorem State.tile_setStack (s : State) (k : Nat) (x : Stack) (j : Nat) : (s.setStack k x).tile j = s.tile j := (rfl)
@[simp] theorem State.token_setStack (s : State) (k : Nat) (x : Stack) (j : Nat) : (s.setStack k x).token j = s.token j := (rfl)
@[simp] theorem State.walker_setStack (s : State) (k : Nat) (x : Stack) (j : Nat) : (s.setStack k x).walker j = s.walker j := (rfl)
@[simp] theorem State.preWalker_setStack (s : State) (k : Nat) (x : Stack) (j : Nat) : (s.setStack k x).preWalker j = s.preWalker j := (rfl)
@[simp] theorem State.port_setStack (s : State) (k : Nat) (x : Stack) (j : Nat) : (s.setStack k x).port j = s.port j := (rfl)
@[simp] theorem State.ring_setStack (s : State) (k : Nat) (x : Stack) (j : Nat) : (s.setStack k x).ring j = s.ring j := (rfl)
@[simp] theorem State.pcieFn_setStack (s : State) (k : Nat) (x : Stack) (j : Nat) : (s.setStack k x).pcieFn j = s.pcieFn j := (rfl)
@[simp] theorem State.notif_setStack (s : State) (k : Nat) (x : Stack) (j : Nat) : (s.setStack k x).notif j = s.notif j := (rfl)
@[simp] theorem State.part_setStack (s : State) (k : Nat) (x : Stack) (j : Nat) : (s.setStack k x).part j = s.part j := (rfl)
@[simp] theorem State.ls_setStack (s : State) (k : Nat) (x : Stack) (j : Nat) : (s.setStack k x).ls j = s.ls j := (rfl)
@[simp] theorem State.tr_setStack (s : State) (k : Nat) (x : Stack) (j : Nat) : (s.setStack k x).tr j = s.tr j := (rfl)
@[simp] theorem State.trq_setStack (s : State) (k : Nat) (x : Stack) (j : Nat) : (s.setStack k x).trq j = s.trq j := (rfl)
@[simp] theorem State.i3cT_setStack (s : State) (k : Nat) (x : Stack) (j : Nat) : (s.setStack k x).i3cT j = s.i3cT j := (rfl)
@[simp] theorem State.inj_setStack (s : State) (k : Nat) (x : Stack) (j : Nat) : (s.setStack k x).inj j = s.inj j := (rfl)
@[simp] theorem State.strm_setStack (s : State) (k : Nat) (x : Stack) (j : Nat) : (s.setStack k x).strm j = s.strm j := (rfl)
@[simp] theorem State.byte_setStack (s : State) (k : Nat) (x : Stack) (j : Nat) : (s.setStack k x).byte j = s.byte j := (rfl)
@[simp] theorem State.rf_setStack (s : State) (k : Nat) (x : Stack) (j lo w : Nat) : (s.setStack k x).rf j lo w = s.rf j lo w := (rfl)

@[simp] theorem State.r_setByte (s : State) (a : Nat) (b : Byte) (j : Nat) : (s.setByte a b).r j = s.r j := (rfl)
@[simp] theorem State.die_setByte (s : State) (a : Nat) (b : Byte) (j : Nat) : (s.setByte a b).die j = s.die j := (rfl)
@[simp] theorem State.pt_setByte (s : State) (a : Nat) (b : Byte) (j : Nat) : (s.setByte a b).pt j = s.pt j := (rfl)
@[simp] theorem State.tile_setByte (s : State) (a : Nat) (b : Byte) (j : Nat) : (s.setByte a b).tile j = s.tile j := (rfl)
@[simp] theorem State.token_setByte (s : State) (a : Nat) (b : Byte) (j : Nat) : (s.setByte a b).token j = s.token j := (rfl)
@[simp] theorem State.walker_setByte (s : State) (a : Nat) (b : Byte) (j : Nat) : (s.setByte a b).walker j = s.walker j := (rfl)
@[simp] theorem State.preWalker_setByte (s : State) (a : Nat) (b : Byte) (j : Nat) : (s.setByte a b).preWalker j = s.preWalker j := (rfl)
@[simp] theorem State.port_setByte (s : State) (a : Nat) (b : Byte) (j : Nat) : (s.setByte a b).port j = s.port j := (rfl)
@[simp] theorem State.ring_setByte (s : State) (a : Nat) (b : Byte) (j : Nat) : (s.setByte a b).ring j = s.ring j := (rfl)
@[simp] theorem State.pcieFn_setByte (s : State) (a : Nat) (b : Byte) (j : Nat) : (s.setByte a b).pcieFn j = s.pcieFn j := (rfl)
@[simp] theorem State.notif_setByte (s : State) (a : Nat) (b : Byte) (j : Nat) : (s.setByte a b).notif j = s.notif j := (rfl)
@[simp] theorem State.part_setByte (s : State) (a : Nat) (b : Byte) (j : Nat) : (s.setByte a b).part j = s.part j := (rfl)
@[simp] theorem State.ls_setByte (s : State) (a : Nat) (b : Byte) (j : Nat) : (s.setByte a b).ls j = s.ls j := (rfl)
@[simp] theorem State.tr_setByte (s : State) (a : Nat) (b : Byte) (j : Nat) : (s.setByte a b).tr j = s.tr j := (rfl)
@[simp] theorem State.trq_setByte (s : State) (a : Nat) (b : Byte) (j : Nat) : (s.setByte a b).trq j = s.trq j := (rfl)
@[simp] theorem State.i3cT_setByte (s : State) (a : Nat) (b : Byte) (j : Nat) : (s.setByte a b).i3cT j = s.i3cT j := (rfl)
@[simp] theorem State.inj_setByte (s : State) (a : Nat) (b : Byte) (j : Nat) : (s.setByte a b).inj j = s.inj j := (rfl)
@[simp] theorem State.strm_setByte (s : State) (a : Nat) (b : Byte) (j : Nat) : (s.setByte a b).strm j = s.strm j := (rfl)
@[simp] theorem State.stack_setByte (s : State) (a : Nat) (b : Byte) (j : Nat) : (s.setByte a b).stack j = s.stack j := (rfl)
@[simp] theorem State.rf_setByte (s : State) (a : Nat) (b : Byte) (j lo w : Nat) : (s.setByte a b).rf j lo w = s.rf j lo w := (rfl)

@[simp] theorem State.r_zeroMem (s : State) (a n : Nat) (j : Nat) : (s.zeroMem a n).r j = s.r j := (rfl)
@[simp] theorem State.die_zeroMem (s : State) (a n : Nat) (j : Nat) : (s.zeroMem a n).die j = s.die j := (rfl)
@[simp] theorem State.pt_zeroMem (s : State) (a n : Nat) (j : Nat) : (s.zeroMem a n).pt j = s.pt j := (rfl)
@[simp] theorem State.tile_zeroMem (s : State) (a n : Nat) (j : Nat) : (s.zeroMem a n).tile j = s.tile j := (rfl)
@[simp] theorem State.token_zeroMem (s : State) (a n : Nat) (j : Nat) : (s.zeroMem a n).token j = s.token j := (rfl)
@[simp] theorem State.walker_zeroMem (s : State) (a n : Nat) (j : Nat) : (s.zeroMem a n).walker j = s.walker j := (rfl)
@[simp] theorem State.preWalker_zeroMem (s : State) (a n : Nat) (j : Nat) : (s.zeroMem a n).preWalker j = s.preWalker j := (rfl)
@[simp] theorem State.port_zeroMem (s : State) (a n : Nat) (j : Nat) : (s.zeroMem a n).port j = s.port j := (rfl)
@[simp] theorem State.ring_zeroMem (s : State) (a n : Nat) (j : Nat) : (s.zeroMem a n).ring j = s.ring j := (rfl)
@[simp] theorem State.pcieFn_zeroMem (s : State) (a n : Nat) (j : Nat) : (s.zeroMem a n).pcieFn j = s.pcieFn j := (rfl)
@[simp] theorem State.notif_zeroMem (s : State) (a n : Nat) (j : Nat) : (s.zeroMem a n).notif j = s.notif j := (rfl)
@[simp] theorem State.part_zeroMem (s : State) (a n : Nat) (j : Nat) : (s.zeroMem a n).part j = s.part j := (rfl)
@[simp] theorem State.ls_zeroMem (s : State) (a n : Nat) (j : Nat) : (s.zeroMem a n).ls j = s.ls j := (rfl)
@[simp] theorem State.tr_zeroMem (s : State) (a n : Nat) (j : Nat) : (s.zeroMem a n).tr j = s.tr j := (rfl)
@[simp] theorem State.trq_zeroMem (s : State) (a n : Nat) (j : Nat) : (s.zeroMem a n).trq j = s.trq j := (rfl)
@[simp] theorem State.i3cT_zeroMem (s : State) (a n : Nat) (j : Nat) : (s.zeroMem a n).i3cT j = s.i3cT j := (rfl)
@[simp] theorem State.inj_zeroMem (s : State) (a n : Nat) (j : Nat) : (s.zeroMem a n).inj j = s.inj j := (rfl)
@[simp] theorem State.strm_zeroMem (s : State) (a n : Nat) (j : Nat) : (s.zeroMem a n).strm j = s.strm j := (rfl)
@[simp] theorem State.stack_zeroMem (s : State) (a n : Nat) (j : Nat) : (s.zeroMem a n).stack j = s.stack j := (rfl)
@[simp] theorem State.rf_zeroMem (s : State) (a n : Nat) (j lo w : Nat) : (s.zeroMem a n).rf j lo w = s.rf j lo w := (rfl)

@[simp] theorem State.r_answer (s : State) (i : Iface) (v : W64) (j : Nat) : (s.answer i v).r j = s.r j := (rfl)
@[simp] theorem State.die_answer (s : State) (i : Iface) (v : W64) (j : Nat) : (s.answer i v).die j = s.die j := (rfl)
@[simp] theorem State.pt_answer (s : State) (i : Iface) (v : W64) (j : Nat) : (s.answer i v).pt j = s.pt j := (rfl)
@[simp] theorem State.tile_answer (s : State) (i : Iface) (v : W64) (j : Nat) : (s.answer i v).tile j = s.tile j := (rfl)
@[simp] theorem State.token_answer (s : State) (i : Iface) (v : W64) (j : Nat) : (s.answer i v).token j = s.token j := (rfl)
@[simp] theorem State.walker_answer (s : State) (i : Iface) (v : W64) (j : Nat) : (s.answer i v).walker j = s.walker j := (rfl)
@[simp] theorem State.preWalker_answer (s : State) (i : Iface) (v : W64) (j : Nat) : (s.answer i v).preWalker j = s.preWalker j := (rfl)
@[simp] theorem State.port_answer (s : State) (i : Iface) (v : W64) (j : Nat) : (s.answer i v).port j = s.port j := (rfl)
@[simp] theorem State.ring_answer (s : State) (i : Iface) (v : W64) (j : Nat) : (s.answer i v).ring j = s.ring j := (rfl)
@[simp] theorem State.pcieFn_answer (s : State) (i : Iface) (v : W64) (j : Nat) : (s.answer i v).pcieFn j = s.pcieFn j := (rfl)
@[simp] theorem State.notif_answer (s : State) (i : Iface) (v : W64) (j : Nat) : (s.answer i v).notif j = s.notif j := (rfl)
@[simp] theorem State.part_answer (s : State) (i : Iface) (v : W64) (j : Nat) : (s.answer i v).part j = s.part j := (rfl)
@[simp] theorem State.ls_answer (s : State) (i : Iface) (v : W64) (j : Nat) : (s.answer i v).ls j = s.ls j := (rfl)
@[simp] theorem State.tr_answer (s : State) (i : Iface) (v : W64) (j : Nat) : (s.answer i v).tr j = s.tr j := (rfl)
@[simp] theorem State.trq_answer (s : State) (i : Iface) (v : W64) (j : Nat) : (s.answer i v).trq j = s.trq j := (rfl)
@[simp] theorem State.i3cT_answer (s : State) (i : Iface) (v : W64) (j : Nat) : (s.answer i v).i3cT j = s.i3cT j := (rfl)
@[simp] theorem State.inj_answer (s : State) (i : Iface) (v : W64) (j : Nat) : (s.answer i v).inj j = s.inj j := (rfl)
@[simp] theorem State.strm_answer (s : State) (i : Iface) (v : W64) (j : Nat) : (s.answer i v).strm j = s.strm j := (rfl)
@[simp] theorem State.stack_answer (s : State) (i : Iface) (v : W64) (j : Nat) : (s.answer i v).stack j = s.stack j := (rfl)
@[simp] theorem State.byte_answer (s : State) (i : Iface) (v : W64) (j : Nat) : (s.answer i v).byte j = s.byte j := (rfl)
@[simp] theorem State.rf_answer (s : State) (i : Iface) (v : W64) (j lo w : Nat) : (s.answer i v).rf j lo w = s.rf j lo w := (rfl)

@[simp] theorem State.r_addNote (s : State) (type origin part payload : Nat) (j : Nat) : (s.addNote type origin part payload).r j = s.r j := (rfl)
@[simp] theorem State.die_addNote (s : State) (type origin part payload : Nat) (j : Nat) : (s.addNote type origin part payload).die j = s.die j := (rfl)
@[simp] theorem State.pt_addNote (s : State) (type origin part payload : Nat) (j : Nat) : (s.addNote type origin part payload).pt j = s.pt j := (rfl)
@[simp] theorem State.tile_addNote (s : State) (type origin part payload : Nat) (j : Nat) : (s.addNote type origin part payload).tile j = s.tile j := (rfl)
@[simp] theorem State.token_addNote (s : State) (type origin part payload : Nat) (j : Nat) : (s.addNote type origin part payload).token j = s.token j := (rfl)
@[simp] theorem State.walker_addNote (s : State) (type origin part payload : Nat) (j : Nat) : (s.addNote type origin part payload).walker j = s.walker j := (rfl)
@[simp] theorem State.preWalker_addNote (s : State) (type origin part payload : Nat) (j : Nat) : (s.addNote type origin part payload).preWalker j = s.preWalker j := (rfl)
@[simp] theorem State.port_addNote (s : State) (type origin part payload : Nat) (j : Nat) : (s.addNote type origin part payload).port j = s.port j := (rfl)
@[simp] theorem State.ring_addNote (s : State) (type origin part payload : Nat) (j : Nat) : (s.addNote type origin part payload).ring j = s.ring j := (rfl)
@[simp] theorem State.pcieFn_addNote (s : State) (type origin part payload : Nat) (j : Nat) : (s.addNote type origin part payload).pcieFn j = s.pcieFn j := (rfl)
@[simp] theorem State.notif_addNote (s : State) (type origin part payload : Nat) (j : Nat) : (s.addNote type origin part payload).notif j = s.notif j := (rfl)
@[simp] theorem State.part_addNote (s : State) (type origin part payload : Nat) (j : Nat) : (s.addNote type origin part payload).part j = s.part j := (rfl)
@[simp] theorem State.ls_addNote (s : State) (type origin part payload : Nat) (j : Nat) : (s.addNote type origin part payload).ls j = s.ls j := (rfl)
@[simp] theorem State.tr_addNote (s : State) (type origin part payload : Nat) (j : Nat) : (s.addNote type origin part payload).tr j = s.tr j := (rfl)
@[simp] theorem State.trq_addNote (s : State) (type origin part payload : Nat) (j : Nat) : (s.addNote type origin part payload).trq j = s.trq j := (rfl)
@[simp] theorem State.i3cT_addNote (s : State) (type origin part payload : Nat) (j : Nat) : (s.addNote type origin part payload).i3cT j = s.i3cT j := (rfl)
@[simp] theorem State.inj_addNote (s : State) (type origin part payload : Nat) (j : Nat) : (s.addNote type origin part payload).inj j = s.inj j := (rfl)
@[simp] theorem State.strm_addNote (s : State) (type origin part payload : Nat) (j : Nat) : (s.addNote type origin part payload).strm j = s.strm j := (rfl)
@[simp] theorem State.stack_addNote (s : State) (type origin part payload : Nat) (j : Nat) : (s.addNote type origin part payload).stack j = s.stack j := (rfl)
@[simp] theorem State.byte_addNote (s : State) (type origin part payload : Nat) (j : Nat) : (s.addNote type origin part payload).byte j = s.byte j := (rfl)
@[simp] theorem State.rf_addNote (s : State) (type origin part payload : Nat) (j lo w : Nat) : (s.addNote type origin part payload).rf j lo w = s.rf j lo w := (rfl)

@[simp] theorem State.r_withPending (s : State) (x : List Instr) (j : Nat) : (s.withPending x).r j = s.r j := (rfl)
@[simp] theorem State.die_withPending (s : State) (x : List Instr) (j : Nat) : (s.withPending x).die j = s.die j := (rfl)
@[simp] theorem State.pt_withPending (s : State) (x : List Instr) (j : Nat) : (s.withPending x).pt j = s.pt j := (rfl)
@[simp] theorem State.tile_withPending (s : State) (x : List Instr) (j : Nat) : (s.withPending x).tile j = s.tile j := (rfl)
@[simp] theorem State.token_withPending (s : State) (x : List Instr) (j : Nat) : (s.withPending x).token j = s.token j := (rfl)
@[simp] theorem State.walker_withPending (s : State) (x : List Instr) (j : Nat) : (s.withPending x).walker j = s.walker j := (rfl)
@[simp] theorem State.preWalker_withPending (s : State) (x : List Instr) (j : Nat) : (s.withPending x).preWalker j = s.preWalker j := (rfl)
@[simp] theorem State.port_withPending (s : State) (x : List Instr) (j : Nat) : (s.withPending x).port j = s.port j := (rfl)
@[simp] theorem State.ring_withPending (s : State) (x : List Instr) (j : Nat) : (s.withPending x).ring j = s.ring j := (rfl)
@[simp] theorem State.pcieFn_withPending (s : State) (x : List Instr) (j : Nat) : (s.withPending x).pcieFn j = s.pcieFn j := (rfl)
@[simp] theorem State.notif_withPending (s : State) (x : List Instr) (j : Nat) : (s.withPending x).notif j = s.notif j := (rfl)
@[simp] theorem State.part_withPending (s : State) (x : List Instr) (j : Nat) : (s.withPending x).part j = s.part j := (rfl)
@[simp] theorem State.ls_withPending (s : State) (x : List Instr) (j : Nat) : (s.withPending x).ls j = s.ls j := (rfl)
@[simp] theorem State.tr_withPending (s : State) (x : List Instr) (j : Nat) : (s.withPending x).tr j = s.tr j := (rfl)
@[simp] theorem State.trq_withPending (s : State) (x : List Instr) (j : Nat) : (s.withPending x).trq j = s.trq j := (rfl)
@[simp] theorem State.i3cT_withPending (s : State) (x : List Instr) (j : Nat) : (s.withPending x).i3cT j = s.i3cT j := (rfl)
@[simp] theorem State.inj_withPending (s : State) (x : List Instr) (j : Nat) : (s.withPending x).inj j = s.inj j := (rfl)
@[simp] theorem State.strm_withPending (s : State) (x : List Instr) (j : Nat) : (s.withPending x).strm j = s.strm j := (rfl)
@[simp] theorem State.stack_withPending (s : State) (x : List Instr) (j : Nat) : (s.withPending x).stack j = s.stack j := (rfl)
@[simp] theorem State.byte_withPending (s : State) (x : List Instr) (j : Nat) : (s.withPending x).byte j = s.byte j := (rfl)
@[simp] theorem State.rf_withPending (s : State) (x : List Instr) (j lo w : Nat) : (s.withPending x).rf j lo w = s.rf j lo w := (rfl)

@[simp] theorem State.r_withFreeCtr (s : State) (x : Nat) (j : Nat) : (s.withFreeCtr x).r j = s.r j := (rfl)
@[simp] theorem State.die_withFreeCtr (s : State) (x : Nat) (j : Nat) : (s.withFreeCtr x).die j = s.die j := (rfl)
@[simp] theorem State.pt_withFreeCtr (s : State) (x : Nat) (j : Nat) : (s.withFreeCtr x).pt j = s.pt j := (rfl)
@[simp] theorem State.tile_withFreeCtr (s : State) (x : Nat) (j : Nat) : (s.withFreeCtr x).tile j = s.tile j := (rfl)
@[simp] theorem State.token_withFreeCtr (s : State) (x : Nat) (j : Nat) : (s.withFreeCtr x).token j = s.token j := (rfl)
@[simp] theorem State.walker_withFreeCtr (s : State) (x : Nat) (j : Nat) : (s.withFreeCtr x).walker j = s.walker j := (rfl)
@[simp] theorem State.preWalker_withFreeCtr (s : State) (x : Nat) (j : Nat) : (s.withFreeCtr x).preWalker j = s.preWalker j := (rfl)
@[simp] theorem State.port_withFreeCtr (s : State) (x : Nat) (j : Nat) : (s.withFreeCtr x).port j = s.port j := (rfl)
@[simp] theorem State.ring_withFreeCtr (s : State) (x : Nat) (j : Nat) : (s.withFreeCtr x).ring j = s.ring j := (rfl)
@[simp] theorem State.pcieFn_withFreeCtr (s : State) (x : Nat) (j : Nat) : (s.withFreeCtr x).pcieFn j = s.pcieFn j := (rfl)
@[simp] theorem State.notif_withFreeCtr (s : State) (x : Nat) (j : Nat) : (s.withFreeCtr x).notif j = s.notif j := (rfl)
@[simp] theorem State.part_withFreeCtr (s : State) (x : Nat) (j : Nat) : (s.withFreeCtr x).part j = s.part j := (rfl)
@[simp] theorem State.ls_withFreeCtr (s : State) (x : Nat) (j : Nat) : (s.withFreeCtr x).ls j = s.ls j := (rfl)
@[simp] theorem State.tr_withFreeCtr (s : State) (x : Nat) (j : Nat) : (s.withFreeCtr x).tr j = s.tr j := (rfl)
@[simp] theorem State.trq_withFreeCtr (s : State) (x : Nat) (j : Nat) : (s.withFreeCtr x).trq j = s.trq j := (rfl)
@[simp] theorem State.i3cT_withFreeCtr (s : State) (x : Nat) (j : Nat) : (s.withFreeCtr x).i3cT j = s.i3cT j := (rfl)
@[simp] theorem State.inj_withFreeCtr (s : State) (x : Nat) (j : Nat) : (s.withFreeCtr x).inj j = s.inj j := (rfl)
@[simp] theorem State.strm_withFreeCtr (s : State) (x : Nat) (j : Nat) : (s.withFreeCtr x).strm j = s.strm j := (rfl)
@[simp] theorem State.stack_withFreeCtr (s : State) (x : Nat) (j : Nat) : (s.withFreeCtr x).stack j = s.stack j := (rfl)
@[simp] theorem State.byte_withFreeCtr (s : State) (x : Nat) (j : Nat) : (s.withFreeCtr x).byte j = s.byte j := (rfl)
@[simp] theorem State.rf_withFreeCtr (s : State) (x : Nat) (j lo w : Nat) : (s.withFreeCtr x).rf j lo w = s.rf j lo w := (rfl)

@[simp] theorem State.r_withEvlog (s : State) (x : SMap (BitVec 512)) (j : Nat) : (s.withEvlog x).r j = s.r j := (rfl)
@[simp] theorem State.die_withEvlog (s : State) (x : SMap (BitVec 512)) (j : Nat) : (s.withEvlog x).die j = s.die j := (rfl)
@[simp] theorem State.pt_withEvlog (s : State) (x : SMap (BitVec 512)) (j : Nat) : (s.withEvlog x).pt j = s.pt j := (rfl)
@[simp] theorem State.tile_withEvlog (s : State) (x : SMap (BitVec 512)) (j : Nat) : (s.withEvlog x).tile j = s.tile j := (rfl)
@[simp] theorem State.token_withEvlog (s : State) (x : SMap (BitVec 512)) (j : Nat) : (s.withEvlog x).token j = s.token j := (rfl)
@[simp] theorem State.walker_withEvlog (s : State) (x : SMap (BitVec 512)) (j : Nat) : (s.withEvlog x).walker j = s.walker j := (rfl)
@[simp] theorem State.preWalker_withEvlog (s : State) (x : SMap (BitVec 512)) (j : Nat) : (s.withEvlog x).preWalker j = s.preWalker j := (rfl)
@[simp] theorem State.port_withEvlog (s : State) (x : SMap (BitVec 512)) (j : Nat) : (s.withEvlog x).port j = s.port j := (rfl)
@[simp] theorem State.ring_withEvlog (s : State) (x : SMap (BitVec 512)) (j : Nat) : (s.withEvlog x).ring j = s.ring j := (rfl)
@[simp] theorem State.pcieFn_withEvlog (s : State) (x : SMap (BitVec 512)) (j : Nat) : (s.withEvlog x).pcieFn j = s.pcieFn j := (rfl)
@[simp] theorem State.notif_withEvlog (s : State) (x : SMap (BitVec 512)) (j : Nat) : (s.withEvlog x).notif j = s.notif j := (rfl)
@[simp] theorem State.part_withEvlog (s : State) (x : SMap (BitVec 512)) (j : Nat) : (s.withEvlog x).part j = s.part j := (rfl)
@[simp] theorem State.ls_withEvlog (s : State) (x : SMap (BitVec 512)) (j : Nat) : (s.withEvlog x).ls j = s.ls j := (rfl)
@[simp] theorem State.tr_withEvlog (s : State) (x : SMap (BitVec 512)) (j : Nat) : (s.withEvlog x).tr j = s.tr j := (rfl)
@[simp] theorem State.trq_withEvlog (s : State) (x : SMap (BitVec 512)) (j : Nat) : (s.withEvlog x).trq j = s.trq j := (rfl)
@[simp] theorem State.i3cT_withEvlog (s : State) (x : SMap (BitVec 512)) (j : Nat) : (s.withEvlog x).i3cT j = s.i3cT j := (rfl)
@[simp] theorem State.inj_withEvlog (s : State) (x : SMap (BitVec 512)) (j : Nat) : (s.withEvlog x).inj j = s.inj j := (rfl)
@[simp] theorem State.strm_withEvlog (s : State) (x : SMap (BitVec 512)) (j : Nat) : (s.withEvlog x).strm j = s.strm j := (rfl)
@[simp] theorem State.stack_withEvlog (s : State) (x : SMap (BitVec 512)) (j : Nat) : (s.withEvlog x).stack j = s.stack j := (rfl)
@[simp] theorem State.byte_withEvlog (s : State) (x : SMap (BitVec 512)) (j : Nat) : (s.withEvlog x).byte j = s.byte j := (rfl)
@[simp] theorem State.rf_withEvlog (s : State) (x : SMap (BitVec 512)) (j lo w : Nat) : (s.withEvlog x).rf j lo w = s.rf j lo w := (rfl)

@[simp] theorem State.r_withAcceptAt (s : State) (x : Option Nat) (j : Nat) : (s.withAcceptAt x).r j = s.r j := (rfl)
@[simp] theorem State.die_withAcceptAt (s : State) (x : Option Nat) (j : Nat) : (s.withAcceptAt x).die j = s.die j := (rfl)
@[simp] theorem State.pt_withAcceptAt (s : State) (x : Option Nat) (j : Nat) : (s.withAcceptAt x).pt j = s.pt j := (rfl)
@[simp] theorem State.tile_withAcceptAt (s : State) (x : Option Nat) (j : Nat) : (s.withAcceptAt x).tile j = s.tile j := (rfl)
@[simp] theorem State.token_withAcceptAt (s : State) (x : Option Nat) (j : Nat) : (s.withAcceptAt x).token j = s.token j := (rfl)
@[simp] theorem State.walker_withAcceptAt (s : State) (x : Option Nat) (j : Nat) : (s.withAcceptAt x).walker j = s.walker j := (rfl)
@[simp] theorem State.preWalker_withAcceptAt (s : State) (x : Option Nat) (j : Nat) : (s.withAcceptAt x).preWalker j = s.preWalker j := (rfl)
@[simp] theorem State.port_withAcceptAt (s : State) (x : Option Nat) (j : Nat) : (s.withAcceptAt x).port j = s.port j := (rfl)
@[simp] theorem State.ring_withAcceptAt (s : State) (x : Option Nat) (j : Nat) : (s.withAcceptAt x).ring j = s.ring j := (rfl)
@[simp] theorem State.pcieFn_withAcceptAt (s : State) (x : Option Nat) (j : Nat) : (s.withAcceptAt x).pcieFn j = s.pcieFn j := (rfl)
@[simp] theorem State.notif_withAcceptAt (s : State) (x : Option Nat) (j : Nat) : (s.withAcceptAt x).notif j = s.notif j := (rfl)
@[simp] theorem State.part_withAcceptAt (s : State) (x : Option Nat) (j : Nat) : (s.withAcceptAt x).part j = s.part j := (rfl)
@[simp] theorem State.ls_withAcceptAt (s : State) (x : Option Nat) (j : Nat) : (s.withAcceptAt x).ls j = s.ls j := (rfl)
@[simp] theorem State.tr_withAcceptAt (s : State) (x : Option Nat) (j : Nat) : (s.withAcceptAt x).tr j = s.tr j := (rfl)
@[simp] theorem State.trq_withAcceptAt (s : State) (x : Option Nat) (j : Nat) : (s.withAcceptAt x).trq j = s.trq j := (rfl)
@[simp] theorem State.i3cT_withAcceptAt (s : State) (x : Option Nat) (j : Nat) : (s.withAcceptAt x).i3cT j = s.i3cT j := (rfl)
@[simp] theorem State.inj_withAcceptAt (s : State) (x : Option Nat) (j : Nat) : (s.withAcceptAt x).inj j = s.inj j := (rfl)
@[simp] theorem State.strm_withAcceptAt (s : State) (x : Option Nat) (j : Nat) : (s.withAcceptAt x).strm j = s.strm j := (rfl)
@[simp] theorem State.stack_withAcceptAt (s : State) (x : Option Nat) (j : Nat) : (s.withAcceptAt x).stack j = s.stack j := (rfl)
@[simp] theorem State.byte_withAcceptAt (s : State) (x : Option Nat) (j : Nat) : (s.withAcceptAt x).byte j = s.byte j := (rfl)
@[simp] theorem State.rf_withAcceptAt (s : State) (x : Option Nat) (j lo w : Nat) : (s.withAcceptAt x).rf j lo w = s.rf j lo w := (rfl)

@[simp] theorem State.r_withRates (s : State) (x : List Rate) (j : Nat) : (s.withRates x).r j = s.r j := (rfl)
@[simp] theorem State.die_withRates (s : State) (x : List Rate) (j : Nat) : (s.withRates x).die j = s.die j := (rfl)
@[simp] theorem State.pt_withRates (s : State) (x : List Rate) (j : Nat) : (s.withRates x).pt j = s.pt j := (rfl)
@[simp] theorem State.tile_withRates (s : State) (x : List Rate) (j : Nat) : (s.withRates x).tile j = s.tile j := (rfl)
@[simp] theorem State.token_withRates (s : State) (x : List Rate) (j : Nat) : (s.withRates x).token j = s.token j := (rfl)
@[simp] theorem State.walker_withRates (s : State) (x : List Rate) (j : Nat) : (s.withRates x).walker j = s.walker j := (rfl)
@[simp] theorem State.preWalker_withRates (s : State) (x : List Rate) (j : Nat) : (s.withRates x).preWalker j = s.preWalker j := (rfl)
@[simp] theorem State.port_withRates (s : State) (x : List Rate) (j : Nat) : (s.withRates x).port j = s.port j := (rfl)
@[simp] theorem State.ring_withRates (s : State) (x : List Rate) (j : Nat) : (s.withRates x).ring j = s.ring j := (rfl)
@[simp] theorem State.pcieFn_withRates (s : State) (x : List Rate) (j : Nat) : (s.withRates x).pcieFn j = s.pcieFn j := (rfl)
@[simp] theorem State.notif_withRates (s : State) (x : List Rate) (j : Nat) : (s.withRates x).notif j = s.notif j := (rfl)
@[simp] theorem State.part_withRates (s : State) (x : List Rate) (j : Nat) : (s.withRates x).part j = s.part j := (rfl)
@[simp] theorem State.ls_withRates (s : State) (x : List Rate) (j : Nat) : (s.withRates x).ls j = s.ls j := (rfl)
@[simp] theorem State.tr_withRates (s : State) (x : List Rate) (j : Nat) : (s.withRates x).tr j = s.tr j := (rfl)
@[simp] theorem State.trq_withRates (s : State) (x : List Rate) (j : Nat) : (s.withRates x).trq j = s.trq j := (rfl)
@[simp] theorem State.i3cT_withRates (s : State) (x : List Rate) (j : Nat) : (s.withRates x).i3cT j = s.i3cT j := (rfl)
@[simp] theorem State.inj_withRates (s : State) (x : List Rate) (j : Nat) : (s.withRates x).inj j = s.inj j := (rfl)
@[simp] theorem State.strm_withRates (s : State) (x : List Rate) (j : Nat) : (s.withRates x).strm j = s.strm j := (rfl)
@[simp] theorem State.stack_withRates (s : State) (x : List Rate) (j : Nat) : (s.withRates x).stack j = s.stack j := (rfl)
@[simp] theorem State.byte_withRates (s : State) (x : List Rate) (j : Nat) : (s.withRates x).byte j = s.byte j := (rfl)
@[simp] theorem State.rf_withRates (s : State) (x : List Rate) (j lo w : Nat) : (s.withRates x).rf j lo w = s.rf j lo w := (rfl)

@[simp] theorem State.r_withTime (s : State) (x : Time) (j : Nat) : (s.withTime x).r j = s.r j := (rfl)
@[simp] theorem State.die_withTime (s : State) (x : Time) (j : Nat) : (s.withTime x).die j = s.die j := (rfl)
@[simp] theorem State.pt_withTime (s : State) (x : Time) (j : Nat) : (s.withTime x).pt j = s.pt j := (rfl)
@[simp] theorem State.tile_withTime (s : State) (x : Time) (j : Nat) : (s.withTime x).tile j = s.tile j := (rfl)
@[simp] theorem State.token_withTime (s : State) (x : Time) (j : Nat) : (s.withTime x).token j = s.token j := (rfl)
@[simp] theorem State.walker_withTime (s : State) (x : Time) (j : Nat) : (s.withTime x).walker j = s.walker j := (rfl)
@[simp] theorem State.preWalker_withTime (s : State) (x : Time) (j : Nat) : (s.withTime x).preWalker j = s.preWalker j := (rfl)
@[simp] theorem State.port_withTime (s : State) (x : Time) (j : Nat) : (s.withTime x).port j = s.port j := (rfl)
@[simp] theorem State.ring_withTime (s : State) (x : Time) (j : Nat) : (s.withTime x).ring j = s.ring j := (rfl)
@[simp] theorem State.pcieFn_withTime (s : State) (x : Time) (j : Nat) : (s.withTime x).pcieFn j = s.pcieFn j := (rfl)
@[simp] theorem State.notif_withTime (s : State) (x : Time) (j : Nat) : (s.withTime x).notif j = s.notif j := (rfl)
@[simp] theorem State.part_withTime (s : State) (x : Time) (j : Nat) : (s.withTime x).part j = s.part j := (rfl)
@[simp] theorem State.ls_withTime (s : State) (x : Time) (j : Nat) : (s.withTime x).ls j = s.ls j := (rfl)
@[simp] theorem State.tr_withTime (s : State) (x : Time) (j : Nat) : (s.withTime x).tr j = s.tr j := (rfl)
@[simp] theorem State.trq_withTime (s : State) (x : Time) (j : Nat) : (s.withTime x).trq j = s.trq j := (rfl)
@[simp] theorem State.i3cT_withTime (s : State) (x : Time) (j : Nat) : (s.withTime x).i3cT j = s.i3cT j := (rfl)
@[simp] theorem State.inj_withTime (s : State) (x : Time) (j : Nat) : (s.withTime x).inj j = s.inj j := (rfl)
@[simp] theorem State.strm_withTime (s : State) (x : Time) (j : Nat) : (s.withTime x).strm j = s.strm j := (rfl)
@[simp] theorem State.stack_withTime (s : State) (x : Time) (j : Nat) : (s.withTime x).stack j = s.stack j := (rfl)
@[simp] theorem State.byte_withTime (s : State) (x : Time) (j : Nat) : (s.withTime x).byte j = s.byte j := (rfl)
@[simp] theorem State.rf_withTime (s : State) (x : Time) (j lo w : Nat) : (s.withTime x).rf j lo w = s.rf j lo w := (rfl)

@[simp] theorem State.r_withPtime (s : State) (x : SMap PortTime) (j : Nat) : (s.withPtime x).r j = s.r j := (rfl)
@[simp] theorem State.die_withPtime (s : State) (x : SMap PortTime) (j : Nat) : (s.withPtime x).die j = s.die j := (rfl)
@[simp] theorem State.tile_withPtime (s : State) (x : SMap PortTime) (j : Nat) : (s.withPtime x).tile j = s.tile j := (rfl)
@[simp] theorem State.token_withPtime (s : State) (x : SMap PortTime) (j : Nat) : (s.withPtime x).token j = s.token j := (rfl)
@[simp] theorem State.walker_withPtime (s : State) (x : SMap PortTime) (j : Nat) : (s.withPtime x).walker j = s.walker j := (rfl)
@[simp] theorem State.preWalker_withPtime (s : State) (x : SMap PortTime) (j : Nat) : (s.withPtime x).preWalker j = s.preWalker j := (rfl)
@[simp] theorem State.port_withPtime (s : State) (x : SMap PortTime) (j : Nat) : (s.withPtime x).port j = s.port j := (rfl)
@[simp] theorem State.ring_withPtime (s : State) (x : SMap PortTime) (j : Nat) : (s.withPtime x).ring j = s.ring j := (rfl)
@[simp] theorem State.pcieFn_withPtime (s : State) (x : SMap PortTime) (j : Nat) : (s.withPtime x).pcieFn j = s.pcieFn j := (rfl)
@[simp] theorem State.notif_withPtime (s : State) (x : SMap PortTime) (j : Nat) : (s.withPtime x).notif j = s.notif j := (rfl)
@[simp] theorem State.part_withPtime (s : State) (x : SMap PortTime) (j : Nat) : (s.withPtime x).part j = s.part j := (rfl)
@[simp] theorem State.ls_withPtime (s : State) (x : SMap PortTime) (j : Nat) : (s.withPtime x).ls j = s.ls j := (rfl)
@[simp] theorem State.tr_withPtime (s : State) (x : SMap PortTime) (j : Nat) : (s.withPtime x).tr j = s.tr j := (rfl)
@[simp] theorem State.trq_withPtime (s : State) (x : SMap PortTime) (j : Nat) : (s.withPtime x).trq j = s.trq j := (rfl)
@[simp] theorem State.i3cT_withPtime (s : State) (x : SMap PortTime) (j : Nat) : (s.withPtime x).i3cT j = s.i3cT j := (rfl)
@[simp] theorem State.inj_withPtime (s : State) (x : SMap PortTime) (j : Nat) : (s.withPtime x).inj j = s.inj j := (rfl)
@[simp] theorem State.strm_withPtime (s : State) (x : SMap PortTime) (j : Nat) : (s.withPtime x).strm j = s.strm j := (rfl)
@[simp] theorem State.stack_withPtime (s : State) (x : SMap PortTime) (j : Nat) : (s.withPtime x).stack j = s.stack j := (rfl)
@[simp] theorem State.byte_withPtime (s : State) (x : SMap PortTime) (j : Nat) : (s.withPtime x).byte j = s.byte j := (rfl)
@[simp] theorem State.rf_withPtime (s : State) (x : SMap PortTime) (j lo w : Nat) : (s.withPtime x).rf j lo w = s.rf j lo w := (rfl)

@[simp] theorem State.r_withTiles (s : State) (x : SMap Tile) (j : Nat) : (s.withTiles x).r j = s.r j := (rfl)
@[simp] theorem State.die_withTiles (s : State) (x : SMap Tile) (j : Nat) : (s.withTiles x).die j = s.die j := (rfl)
@[simp] theorem State.pt_withTiles (s : State) (x : SMap Tile) (j : Nat) : (s.withTiles x).pt j = s.pt j := (rfl)
@[simp] theorem State.token_withTiles (s : State) (x : SMap Tile) (j : Nat) : (s.withTiles x).token j = s.token j := (rfl)
@[simp] theorem State.walker_withTiles (s : State) (x : SMap Tile) (j : Nat) : (s.withTiles x).walker j = s.walker j := (rfl)
@[simp] theorem State.preWalker_withTiles (s : State) (x : SMap Tile) (j : Nat) : (s.withTiles x).preWalker j = s.preWalker j := (rfl)
@[simp] theorem State.port_withTiles (s : State) (x : SMap Tile) (j : Nat) : (s.withTiles x).port j = s.port j := (rfl)
@[simp] theorem State.ring_withTiles (s : State) (x : SMap Tile) (j : Nat) : (s.withTiles x).ring j = s.ring j := (rfl)
@[simp] theorem State.pcieFn_withTiles (s : State) (x : SMap Tile) (j : Nat) : (s.withTiles x).pcieFn j = s.pcieFn j := (rfl)
@[simp] theorem State.notif_withTiles (s : State) (x : SMap Tile) (j : Nat) : (s.withTiles x).notif j = s.notif j := (rfl)
@[simp] theorem State.part_withTiles (s : State) (x : SMap Tile) (j : Nat) : (s.withTiles x).part j = s.part j := (rfl)
@[simp] theorem State.ls_withTiles (s : State) (x : SMap Tile) (j : Nat) : (s.withTiles x).ls j = s.ls j := (rfl)
@[simp] theorem State.tr_withTiles (s : State) (x : SMap Tile) (j : Nat) : (s.withTiles x).tr j = s.tr j := (rfl)
@[simp] theorem State.trq_withTiles (s : State) (x : SMap Tile) (j : Nat) : (s.withTiles x).trq j = s.trq j := (rfl)
@[simp] theorem State.i3cT_withTiles (s : State) (x : SMap Tile) (j : Nat) : (s.withTiles x).i3cT j = s.i3cT j := (rfl)
@[simp] theorem State.inj_withTiles (s : State) (x : SMap Tile) (j : Nat) : (s.withTiles x).inj j = s.inj j := (rfl)
@[simp] theorem State.strm_withTiles (s : State) (x : SMap Tile) (j : Nat) : (s.withTiles x).strm j = s.strm j := (rfl)
@[simp] theorem State.stack_withTiles (s : State) (x : SMap Tile) (j : Nat) : (s.withTiles x).stack j = s.stack j := (rfl)
@[simp] theorem State.byte_withTiles (s : State) (x : SMap Tile) (j : Nat) : (s.withTiles x).byte j = s.byte j := (rfl)
@[simp] theorem State.rf_withTiles (s : State) (x : SMap Tile) (j lo w : Nat) : (s.withTiles x).rf j lo w = s.rf j lo w := (rfl)

@[simp] theorem State.r_withLineCells (s : State) (x : List LineCell) (j : Nat) : (s.withLineCells x).r j = s.r j := (rfl)
@[simp] theorem State.die_withLineCells (s : State) (x : List LineCell) (j : Nat) : (s.withLineCells x).die j = s.die j := (rfl)
@[simp] theorem State.pt_withLineCells (s : State) (x : List LineCell) (j : Nat) : (s.withLineCells x).pt j = s.pt j := (rfl)
@[simp] theorem State.tile_withLineCells (s : State) (x : List LineCell) (j : Nat) : (s.withLineCells x).tile j = s.tile j := (rfl)
@[simp] theorem State.token_withLineCells (s : State) (x : List LineCell) (j : Nat) : (s.withLineCells x).token j = s.token j := (rfl)
@[simp] theorem State.walker_withLineCells (s : State) (x : List LineCell) (j : Nat) : (s.withLineCells x).walker j = s.walker j := (rfl)
@[simp] theorem State.preWalker_withLineCells (s : State) (x : List LineCell) (j : Nat) : (s.withLineCells x).preWalker j = s.preWalker j := (rfl)
@[simp] theorem State.port_withLineCells (s : State) (x : List LineCell) (j : Nat) : (s.withLineCells x).port j = s.port j := (rfl)
@[simp] theorem State.ring_withLineCells (s : State) (x : List LineCell) (j : Nat) : (s.withLineCells x).ring j = s.ring j := (rfl)
@[simp] theorem State.pcieFn_withLineCells (s : State) (x : List LineCell) (j : Nat) : (s.withLineCells x).pcieFn j = s.pcieFn j := (rfl)
@[simp] theorem State.notif_withLineCells (s : State) (x : List LineCell) (j : Nat) : (s.withLineCells x).notif j = s.notif j := (rfl)
@[simp] theorem State.part_withLineCells (s : State) (x : List LineCell) (j : Nat) : (s.withLineCells x).part j = s.part j := (rfl)
@[simp] theorem State.ls_withLineCells (s : State) (x : List LineCell) (j : Nat) : (s.withLineCells x).ls j = s.ls j := (rfl)
@[simp] theorem State.tr_withLineCells (s : State) (x : List LineCell) (j : Nat) : (s.withLineCells x).tr j = s.tr j := (rfl)
@[simp] theorem State.trq_withLineCells (s : State) (x : List LineCell) (j : Nat) : (s.withLineCells x).trq j = s.trq j := (rfl)
@[simp] theorem State.i3cT_withLineCells (s : State) (x : List LineCell) (j : Nat) : (s.withLineCells x).i3cT j = s.i3cT j := (rfl)
@[simp] theorem State.inj_withLineCells (s : State) (x : List LineCell) (j : Nat) : (s.withLineCells x).inj j = s.inj j := (rfl)
@[simp] theorem State.strm_withLineCells (s : State) (x : List LineCell) (j : Nat) : (s.withLineCells x).strm j = s.strm j := (rfl)
@[simp] theorem State.stack_withLineCells (s : State) (x : List LineCell) (j : Nat) : (s.withLineCells x).stack j = s.stack j := (rfl)
@[simp] theorem State.byte_withLineCells (s : State) (x : List LineCell) (j : Nat) : (s.withLineCells x).byte j = s.byte j := (rfl)
@[simp] theorem State.rf_withLineCells (s : State) (x : List LineCell) (j lo w : Nat) : (s.withLineCells x).rf j lo w = s.rf j lo w := (rfl)

@[simp] theorem State.r_withTokens (s : State) (x : SMap Token) (j : Nat) : (s.withTokens x).r j = s.r j := (rfl)
@[simp] theorem State.die_withTokens (s : State) (x : SMap Token) (j : Nat) : (s.withTokens x).die j = s.die j := (rfl)
@[simp] theorem State.pt_withTokens (s : State) (x : SMap Token) (j : Nat) : (s.withTokens x).pt j = s.pt j := (rfl)
@[simp] theorem State.tile_withTokens (s : State) (x : SMap Token) (j : Nat) : (s.withTokens x).tile j = s.tile j := (rfl)
@[simp] theorem State.walker_withTokens (s : State) (x : SMap Token) (j : Nat) : (s.withTokens x).walker j = s.walker j := (rfl)
@[simp] theorem State.preWalker_withTokens (s : State) (x : SMap Token) (j : Nat) : (s.withTokens x).preWalker j = s.preWalker j := (rfl)
@[simp] theorem State.port_withTokens (s : State) (x : SMap Token) (j : Nat) : (s.withTokens x).port j = s.port j := (rfl)
@[simp] theorem State.ring_withTokens (s : State) (x : SMap Token) (j : Nat) : (s.withTokens x).ring j = s.ring j := (rfl)
@[simp] theorem State.pcieFn_withTokens (s : State) (x : SMap Token) (j : Nat) : (s.withTokens x).pcieFn j = s.pcieFn j := (rfl)
@[simp] theorem State.notif_withTokens (s : State) (x : SMap Token) (j : Nat) : (s.withTokens x).notif j = s.notif j := (rfl)
@[simp] theorem State.part_withTokens (s : State) (x : SMap Token) (j : Nat) : (s.withTokens x).part j = s.part j := (rfl)
@[simp] theorem State.ls_withTokens (s : State) (x : SMap Token) (j : Nat) : (s.withTokens x).ls j = s.ls j := (rfl)
@[simp] theorem State.tr_withTokens (s : State) (x : SMap Token) (j : Nat) : (s.withTokens x).tr j = s.tr j := (rfl)
@[simp] theorem State.trq_withTokens (s : State) (x : SMap Token) (j : Nat) : (s.withTokens x).trq j = s.trq j := (rfl)
@[simp] theorem State.i3cT_withTokens (s : State) (x : SMap Token) (j : Nat) : (s.withTokens x).i3cT j = s.i3cT j := (rfl)
@[simp] theorem State.inj_withTokens (s : State) (x : SMap Token) (j : Nat) : (s.withTokens x).inj j = s.inj j := (rfl)
@[simp] theorem State.strm_withTokens (s : State) (x : SMap Token) (j : Nat) : (s.withTokens x).strm j = s.strm j := (rfl)
@[simp] theorem State.stack_withTokens (s : State) (x : SMap Token) (j : Nat) : (s.withTokens x).stack j = s.stack j := (rfl)
@[simp] theorem State.byte_withTokens (s : State) (x : SMap Token) (j : Nat) : (s.withTokens x).byte j = s.byte j := (rfl)
@[simp] theorem State.rf_withTokens (s : State) (x : SMap Token) (j lo w : Nat) : (s.withTokens x).rf j lo w = s.rf j lo w := (rfl)

@[simp] theorem State.r_withTokOps (s : State) (x : List TokOp) (j : Nat) : (s.withTokOps x).r j = s.r j := (rfl)
@[simp] theorem State.die_withTokOps (s : State) (x : List TokOp) (j : Nat) : (s.withTokOps x).die j = s.die j := (rfl)
@[simp] theorem State.pt_withTokOps (s : State) (x : List TokOp) (j : Nat) : (s.withTokOps x).pt j = s.pt j := (rfl)
@[simp] theorem State.tile_withTokOps (s : State) (x : List TokOp) (j : Nat) : (s.withTokOps x).tile j = s.tile j := (rfl)
@[simp] theorem State.token_withTokOps (s : State) (x : List TokOp) (j : Nat) : (s.withTokOps x).token j = s.token j := (rfl)
@[simp] theorem State.walker_withTokOps (s : State) (x : List TokOp) (j : Nat) : (s.withTokOps x).walker j = s.walker j := (rfl)
@[simp] theorem State.preWalker_withTokOps (s : State) (x : List TokOp) (j : Nat) : (s.withTokOps x).preWalker j = s.preWalker j := (rfl)
@[simp] theorem State.port_withTokOps (s : State) (x : List TokOp) (j : Nat) : (s.withTokOps x).port j = s.port j := (rfl)
@[simp] theorem State.ring_withTokOps (s : State) (x : List TokOp) (j : Nat) : (s.withTokOps x).ring j = s.ring j := (rfl)
@[simp] theorem State.pcieFn_withTokOps (s : State) (x : List TokOp) (j : Nat) : (s.withTokOps x).pcieFn j = s.pcieFn j := (rfl)
@[simp] theorem State.notif_withTokOps (s : State) (x : List TokOp) (j : Nat) : (s.withTokOps x).notif j = s.notif j := (rfl)
@[simp] theorem State.part_withTokOps (s : State) (x : List TokOp) (j : Nat) : (s.withTokOps x).part j = s.part j := (rfl)
@[simp] theorem State.ls_withTokOps (s : State) (x : List TokOp) (j : Nat) : (s.withTokOps x).ls j = s.ls j := (rfl)
@[simp] theorem State.tr_withTokOps (s : State) (x : List TokOp) (j : Nat) : (s.withTokOps x).tr j = s.tr j := (rfl)
@[simp] theorem State.trq_withTokOps (s : State) (x : List TokOp) (j : Nat) : (s.withTokOps x).trq j = s.trq j := (rfl)
@[simp] theorem State.i3cT_withTokOps (s : State) (x : List TokOp) (j : Nat) : (s.withTokOps x).i3cT j = s.i3cT j := (rfl)
@[simp] theorem State.inj_withTokOps (s : State) (x : List TokOp) (j : Nat) : (s.withTokOps x).inj j = s.inj j := (rfl)
@[simp] theorem State.strm_withTokOps (s : State) (x : List TokOp) (j : Nat) : (s.withTokOps x).strm j = s.strm j := (rfl)
@[simp] theorem State.stack_withTokOps (s : State) (x : List TokOp) (j : Nat) : (s.withTokOps x).stack j = s.stack j := (rfl)
@[simp] theorem State.byte_withTokOps (s : State) (x : List TokOp) (j : Nat) : (s.withTokOps x).byte j = s.byte j := (rfl)
@[simp] theorem State.rf_withTokOps (s : State) (x : List TokOp) (j lo w : Nat) : (s.withTokOps x).rf j lo w = s.rf j lo w := (rfl)

@[simp] theorem State.r_withSpent (s : State) (x : List (Nat × Stream)) (j : Nat) : (s.withSpent x).r j = s.r j := (rfl)
@[simp] theorem State.die_withSpent (s : State) (x : List (Nat × Stream)) (j : Nat) : (s.withSpent x).die j = s.die j := (rfl)
@[simp] theorem State.pt_withSpent (s : State) (x : List (Nat × Stream)) (j : Nat) : (s.withSpent x).pt j = s.pt j := (rfl)
@[simp] theorem State.tile_withSpent (s : State) (x : List (Nat × Stream)) (j : Nat) : (s.withSpent x).tile j = s.tile j := (rfl)
@[simp] theorem State.token_withSpent (s : State) (x : List (Nat × Stream)) (j : Nat) : (s.withSpent x).token j = s.token j := (rfl)
@[simp] theorem State.walker_withSpent (s : State) (x : List (Nat × Stream)) (j : Nat) : (s.withSpent x).walker j = s.walker j := (rfl)
@[simp] theorem State.preWalker_withSpent (s : State) (x : List (Nat × Stream)) (j : Nat) : (s.withSpent x).preWalker j = s.preWalker j := (rfl)
@[simp] theorem State.port_withSpent (s : State) (x : List (Nat × Stream)) (j : Nat) : (s.withSpent x).port j = s.port j := (rfl)
@[simp] theorem State.ring_withSpent (s : State) (x : List (Nat × Stream)) (j : Nat) : (s.withSpent x).ring j = s.ring j := (rfl)
@[simp] theorem State.pcieFn_withSpent (s : State) (x : List (Nat × Stream)) (j : Nat) : (s.withSpent x).pcieFn j = s.pcieFn j := (rfl)
@[simp] theorem State.notif_withSpent (s : State) (x : List (Nat × Stream)) (j : Nat) : (s.withSpent x).notif j = s.notif j := (rfl)
@[simp] theorem State.part_withSpent (s : State) (x : List (Nat × Stream)) (j : Nat) : (s.withSpent x).part j = s.part j := (rfl)
@[simp] theorem State.ls_withSpent (s : State) (x : List (Nat × Stream)) (j : Nat) : (s.withSpent x).ls j = s.ls j := (rfl)
@[simp] theorem State.tr_withSpent (s : State) (x : List (Nat × Stream)) (j : Nat) : (s.withSpent x).tr j = s.tr j := (rfl)
@[simp] theorem State.trq_withSpent (s : State) (x : List (Nat × Stream)) (j : Nat) : (s.withSpent x).trq j = s.trq j := (rfl)
@[simp] theorem State.i3cT_withSpent (s : State) (x : List (Nat × Stream)) (j : Nat) : (s.withSpent x).i3cT j = s.i3cT j := (rfl)
@[simp] theorem State.inj_withSpent (s : State) (x : List (Nat × Stream)) (j : Nat) : (s.withSpent x).inj j = s.inj j := (rfl)
@[simp] theorem State.strm_withSpent (s : State) (x : List (Nat × Stream)) (j : Nat) : (s.withSpent x).strm j = s.strm j := (rfl)
@[simp] theorem State.stack_withSpent (s : State) (x : List (Nat × Stream)) (j : Nat) : (s.withSpent x).stack j = s.stack j := (rfl)
@[simp] theorem State.byte_withSpent (s : State) (x : List (Nat × Stream)) (j : Nat) : (s.withSpent x).byte j = s.byte j := (rfl)
@[simp] theorem State.rf_withSpent (s : State) (x : List (Nat × Stream)) (j lo w : Nat) : (s.withSpent x).rf j lo w = s.rf j lo w := (rfl)

@[simp] theorem State.r_withRecent (s : State) (x : List Wrote) (j : Nat) : (s.withRecent x).r j = s.r j := (rfl)
@[simp] theorem State.die_withRecent (s : State) (x : List Wrote) (j : Nat) : (s.withRecent x).die j = s.die j := (rfl)
@[simp] theorem State.pt_withRecent (s : State) (x : List Wrote) (j : Nat) : (s.withRecent x).pt j = s.pt j := (rfl)
@[simp] theorem State.tile_withRecent (s : State) (x : List Wrote) (j : Nat) : (s.withRecent x).tile j = s.tile j := (rfl)
@[simp] theorem State.token_withRecent (s : State) (x : List Wrote) (j : Nat) : (s.withRecent x).token j = s.token j := (rfl)
@[simp] theorem State.walker_withRecent (s : State) (x : List Wrote) (j : Nat) : (s.withRecent x).walker j = s.walker j := (rfl)
@[simp] theorem State.preWalker_withRecent (s : State) (x : List Wrote) (j : Nat) : (s.withRecent x).preWalker j = s.preWalker j := (rfl)
@[simp] theorem State.port_withRecent (s : State) (x : List Wrote) (j : Nat) : (s.withRecent x).port j = s.port j := (rfl)
@[simp] theorem State.ring_withRecent (s : State) (x : List Wrote) (j : Nat) : (s.withRecent x).ring j = s.ring j := (rfl)
@[simp] theorem State.pcieFn_withRecent (s : State) (x : List Wrote) (j : Nat) : (s.withRecent x).pcieFn j = s.pcieFn j := (rfl)
@[simp] theorem State.notif_withRecent (s : State) (x : List Wrote) (j : Nat) : (s.withRecent x).notif j = s.notif j := (rfl)
@[simp] theorem State.part_withRecent (s : State) (x : List Wrote) (j : Nat) : (s.withRecent x).part j = s.part j := (rfl)
@[simp] theorem State.ls_withRecent (s : State) (x : List Wrote) (j : Nat) : (s.withRecent x).ls j = s.ls j := (rfl)
@[simp] theorem State.tr_withRecent (s : State) (x : List Wrote) (j : Nat) : (s.withRecent x).tr j = s.tr j := (rfl)
@[simp] theorem State.trq_withRecent (s : State) (x : List Wrote) (j : Nat) : (s.withRecent x).trq j = s.trq j := (rfl)
@[simp] theorem State.i3cT_withRecent (s : State) (x : List Wrote) (j : Nat) : (s.withRecent x).i3cT j = s.i3cT j := (rfl)
@[simp] theorem State.inj_withRecent (s : State) (x : List Wrote) (j : Nat) : (s.withRecent x).inj j = s.inj j := (rfl)
@[simp] theorem State.strm_withRecent (s : State) (x : List Wrote) (j : Nat) : (s.withRecent x).strm j = s.strm j := (rfl)
@[simp] theorem State.stack_withRecent (s : State) (x : List Wrote) (j : Nat) : (s.withRecent x).stack j = s.stack j := (rfl)
@[simp] theorem State.byte_withRecent (s : State) (x : List Wrote) (j : Nat) : (s.withRecent x).byte j = s.byte j := (rfl)
@[simp] theorem State.rf_withRecent (s : State) (x : List Wrote) (j lo w : Nat) : (s.withRecent x).rf j lo w = s.rf j lo w := (rfl)

@[simp] theorem State.r_withWalkers (s : State) (x : SMap Walker) (j : Nat) : (s.withWalkers x).r j = s.r j := (rfl)
@[simp] theorem State.die_withWalkers (s : State) (x : SMap Walker) (j : Nat) : (s.withWalkers x).die j = s.die j := (rfl)
@[simp] theorem State.pt_withWalkers (s : State) (x : SMap Walker) (j : Nat) : (s.withWalkers x).pt j = s.pt j := (rfl)
@[simp] theorem State.tile_withWalkers (s : State) (x : SMap Walker) (j : Nat) : (s.withWalkers x).tile j = s.tile j := (rfl)
@[simp] theorem State.token_withWalkers (s : State) (x : SMap Walker) (j : Nat) : (s.withWalkers x).token j = s.token j := (rfl)
@[simp] theorem State.preWalker_withWalkers (s : State) (x : SMap Walker) (j : Nat) : (s.withWalkers x).preWalker j = s.preWalker j := (rfl)
@[simp] theorem State.port_withWalkers (s : State) (x : SMap Walker) (j : Nat) : (s.withWalkers x).port j = s.port j := (rfl)
@[simp] theorem State.ring_withWalkers (s : State) (x : SMap Walker) (j : Nat) : (s.withWalkers x).ring j = s.ring j := (rfl)
@[simp] theorem State.pcieFn_withWalkers (s : State) (x : SMap Walker) (j : Nat) : (s.withWalkers x).pcieFn j = s.pcieFn j := (rfl)
@[simp] theorem State.notif_withWalkers (s : State) (x : SMap Walker) (j : Nat) : (s.withWalkers x).notif j = s.notif j := (rfl)
@[simp] theorem State.part_withWalkers (s : State) (x : SMap Walker) (j : Nat) : (s.withWalkers x).part j = s.part j := (rfl)
@[simp] theorem State.ls_withWalkers (s : State) (x : SMap Walker) (j : Nat) : (s.withWalkers x).ls j = s.ls j := (rfl)
@[simp] theorem State.tr_withWalkers (s : State) (x : SMap Walker) (j : Nat) : (s.withWalkers x).tr j = s.tr j := (rfl)
@[simp] theorem State.trq_withWalkers (s : State) (x : SMap Walker) (j : Nat) : (s.withWalkers x).trq j = s.trq j := (rfl)
@[simp] theorem State.i3cT_withWalkers (s : State) (x : SMap Walker) (j : Nat) : (s.withWalkers x).i3cT j = s.i3cT j := (rfl)
@[simp] theorem State.inj_withWalkers (s : State) (x : SMap Walker) (j : Nat) : (s.withWalkers x).inj j = s.inj j := (rfl)
@[simp] theorem State.strm_withWalkers (s : State) (x : SMap Walker) (j : Nat) : (s.withWalkers x).strm j = s.strm j := (rfl)
@[simp] theorem State.stack_withWalkers (s : State) (x : SMap Walker) (j : Nat) : (s.withWalkers x).stack j = s.stack j := (rfl)
@[simp] theorem State.byte_withWalkers (s : State) (x : SMap Walker) (j : Nat) : (s.withWalkers x).byte j = s.byte j := (rfl)
@[simp] theorem State.rf_withWalkers (s : State) (x : SMap Walker) (j lo w : Nat) : (s.withWalkers x).rf j lo w = s.rf j lo w := (rfl)

@[simp] theorem State.r_withPreWalkers (s : State) (x : SMap Walker) (j : Nat) : (s.withPreWalkers x).r j = s.r j := (rfl)
@[simp] theorem State.die_withPreWalkers (s : State) (x : SMap Walker) (j : Nat) : (s.withPreWalkers x).die j = s.die j := (rfl)
@[simp] theorem State.pt_withPreWalkers (s : State) (x : SMap Walker) (j : Nat) : (s.withPreWalkers x).pt j = s.pt j := (rfl)
@[simp] theorem State.tile_withPreWalkers (s : State) (x : SMap Walker) (j : Nat) : (s.withPreWalkers x).tile j = s.tile j := (rfl)
@[simp] theorem State.token_withPreWalkers (s : State) (x : SMap Walker) (j : Nat) : (s.withPreWalkers x).token j = s.token j := (rfl)
@[simp] theorem State.walker_withPreWalkers (s : State) (x : SMap Walker) (j : Nat) : (s.withPreWalkers x).walker j = s.walker j := (rfl)
@[simp] theorem State.port_withPreWalkers (s : State) (x : SMap Walker) (j : Nat) : (s.withPreWalkers x).port j = s.port j := (rfl)
@[simp] theorem State.ring_withPreWalkers (s : State) (x : SMap Walker) (j : Nat) : (s.withPreWalkers x).ring j = s.ring j := (rfl)
@[simp] theorem State.pcieFn_withPreWalkers (s : State) (x : SMap Walker) (j : Nat) : (s.withPreWalkers x).pcieFn j = s.pcieFn j := (rfl)
@[simp] theorem State.notif_withPreWalkers (s : State) (x : SMap Walker) (j : Nat) : (s.withPreWalkers x).notif j = s.notif j := (rfl)
@[simp] theorem State.part_withPreWalkers (s : State) (x : SMap Walker) (j : Nat) : (s.withPreWalkers x).part j = s.part j := (rfl)
@[simp] theorem State.ls_withPreWalkers (s : State) (x : SMap Walker) (j : Nat) : (s.withPreWalkers x).ls j = s.ls j := (rfl)
@[simp] theorem State.tr_withPreWalkers (s : State) (x : SMap Walker) (j : Nat) : (s.withPreWalkers x).tr j = s.tr j := (rfl)
@[simp] theorem State.trq_withPreWalkers (s : State) (x : SMap Walker) (j : Nat) : (s.withPreWalkers x).trq j = s.trq j := (rfl)
@[simp] theorem State.i3cT_withPreWalkers (s : State) (x : SMap Walker) (j : Nat) : (s.withPreWalkers x).i3cT j = s.i3cT j := (rfl)
@[simp] theorem State.inj_withPreWalkers (s : State) (x : SMap Walker) (j : Nat) : (s.withPreWalkers x).inj j = s.inj j := (rfl)
@[simp] theorem State.strm_withPreWalkers (s : State) (x : SMap Walker) (j : Nat) : (s.withPreWalkers x).strm j = s.strm j := (rfl)
@[simp] theorem State.stack_withPreWalkers (s : State) (x : SMap Walker) (j : Nat) : (s.withPreWalkers x).stack j = s.stack j := (rfl)
@[simp] theorem State.byte_withPreWalkers (s : State) (x : SMap Walker) (j : Nat) : (s.withPreWalkers x).byte j = s.byte j := (rfl)
@[simp] theorem State.rf_withPreWalkers (s : State) (x : SMap Walker) (j lo w : Nat) : (s.withPreWalkers x).rf j lo w = s.rf j lo w := (rfl)

@[simp] theorem State.r_withTransits (s : State) (x : List Transit) (j : Nat) : (s.withTransits x).r j = s.r j := (rfl)
@[simp] theorem State.die_withTransits (s : State) (x : List Transit) (j : Nat) : (s.withTransits x).die j = s.die j := (rfl)
@[simp] theorem State.pt_withTransits (s : State) (x : List Transit) (j : Nat) : (s.withTransits x).pt j = s.pt j := (rfl)
@[simp] theorem State.tile_withTransits (s : State) (x : List Transit) (j : Nat) : (s.withTransits x).tile j = s.tile j := (rfl)
@[simp] theorem State.token_withTransits (s : State) (x : List Transit) (j : Nat) : (s.withTransits x).token j = s.token j := (rfl)
@[simp] theorem State.walker_withTransits (s : State) (x : List Transit) (j : Nat) : (s.withTransits x).walker j = s.walker j := (rfl)
@[simp] theorem State.preWalker_withTransits (s : State) (x : List Transit) (j : Nat) : (s.withTransits x).preWalker j = s.preWalker j := (rfl)
@[simp] theorem State.port_withTransits (s : State) (x : List Transit) (j : Nat) : (s.withTransits x).port j = s.port j := (rfl)
@[simp] theorem State.ring_withTransits (s : State) (x : List Transit) (j : Nat) : (s.withTransits x).ring j = s.ring j := (rfl)
@[simp] theorem State.pcieFn_withTransits (s : State) (x : List Transit) (j : Nat) : (s.withTransits x).pcieFn j = s.pcieFn j := (rfl)
@[simp] theorem State.notif_withTransits (s : State) (x : List Transit) (j : Nat) : (s.withTransits x).notif j = s.notif j := (rfl)
@[simp] theorem State.part_withTransits (s : State) (x : List Transit) (j : Nat) : (s.withTransits x).part j = s.part j := (rfl)
@[simp] theorem State.ls_withTransits (s : State) (x : List Transit) (j : Nat) : (s.withTransits x).ls j = s.ls j := (rfl)
@[simp] theorem State.tr_withTransits (s : State) (x : List Transit) (j : Nat) : (s.withTransits x).tr j = s.tr j := (rfl)
@[simp] theorem State.trq_withTransits (s : State) (x : List Transit) (j : Nat) : (s.withTransits x).trq j = s.trq j := (rfl)
@[simp] theorem State.i3cT_withTransits (s : State) (x : List Transit) (j : Nat) : (s.withTransits x).i3cT j = s.i3cT j := (rfl)
@[simp] theorem State.inj_withTransits (s : State) (x : List Transit) (j : Nat) : (s.withTransits x).inj j = s.inj j := (rfl)
@[simp] theorem State.strm_withTransits (s : State) (x : List Transit) (j : Nat) : (s.withTransits x).strm j = s.strm j := (rfl)
@[simp] theorem State.stack_withTransits (s : State) (x : List Transit) (j : Nat) : (s.withTransits x).stack j = s.stack j := (rfl)
@[simp] theorem State.byte_withTransits (s : State) (x : List Transit) (j : Nat) : (s.withTransits x).byte j = s.byte j := (rfl)
@[simp] theorem State.rf_withTransits (s : State) (x : List Transit) (j lo w : Nat) : (s.withTransits x).rf j lo w = s.rf j lo w := (rfl)

@[simp] theorem State.r_withSramReads (s : State) (x : List SramRead) (j : Nat) : (s.withSramReads x).r j = s.r j := (rfl)
@[simp] theorem State.die_withSramReads (s : State) (x : List SramRead) (j : Nat) : (s.withSramReads x).die j = s.die j := (rfl)
@[simp] theorem State.pt_withSramReads (s : State) (x : List SramRead) (j : Nat) : (s.withSramReads x).pt j = s.pt j := (rfl)
@[simp] theorem State.tile_withSramReads (s : State) (x : List SramRead) (j : Nat) : (s.withSramReads x).tile j = s.tile j := (rfl)
@[simp] theorem State.token_withSramReads (s : State) (x : List SramRead) (j : Nat) : (s.withSramReads x).token j = s.token j := (rfl)
@[simp] theorem State.walker_withSramReads (s : State) (x : List SramRead) (j : Nat) : (s.withSramReads x).walker j = s.walker j := (rfl)
@[simp] theorem State.preWalker_withSramReads (s : State) (x : List SramRead) (j : Nat) : (s.withSramReads x).preWalker j = s.preWalker j := (rfl)
@[simp] theorem State.port_withSramReads (s : State) (x : List SramRead) (j : Nat) : (s.withSramReads x).port j = s.port j := (rfl)
@[simp] theorem State.ring_withSramReads (s : State) (x : List SramRead) (j : Nat) : (s.withSramReads x).ring j = s.ring j := (rfl)
@[simp] theorem State.pcieFn_withSramReads (s : State) (x : List SramRead) (j : Nat) : (s.withSramReads x).pcieFn j = s.pcieFn j := (rfl)
@[simp] theorem State.notif_withSramReads (s : State) (x : List SramRead) (j : Nat) : (s.withSramReads x).notif j = s.notif j := (rfl)
@[simp] theorem State.part_withSramReads (s : State) (x : List SramRead) (j : Nat) : (s.withSramReads x).part j = s.part j := (rfl)
@[simp] theorem State.ls_withSramReads (s : State) (x : List SramRead) (j : Nat) : (s.withSramReads x).ls j = s.ls j := (rfl)
@[simp] theorem State.tr_withSramReads (s : State) (x : List SramRead) (j : Nat) : (s.withSramReads x).tr j = s.tr j := (rfl)
@[simp] theorem State.trq_withSramReads (s : State) (x : List SramRead) (j : Nat) : (s.withSramReads x).trq j = s.trq j := (rfl)
@[simp] theorem State.i3cT_withSramReads (s : State) (x : List SramRead) (j : Nat) : (s.withSramReads x).i3cT j = s.i3cT j := (rfl)
@[simp] theorem State.inj_withSramReads (s : State) (x : List SramRead) (j : Nat) : (s.withSramReads x).inj j = s.inj j := (rfl)
@[simp] theorem State.strm_withSramReads (s : State) (x : List SramRead) (j : Nat) : (s.withSramReads x).strm j = s.strm j := (rfl)
@[simp] theorem State.stack_withSramReads (s : State) (x : List SramRead) (j : Nat) : (s.withSramReads x).stack j = s.stack j := (rfl)
@[simp] theorem State.byte_withSramReads (s : State) (x : List SramRead) (j : Nat) : (s.withSramReads x).byte j = s.byte j := (rfl)
@[simp] theorem State.rf_withSramReads (s : State) (x : List SramRead) (j lo w : Nat) : (s.withSramReads x).rf j lo w = s.rf j lo w := (rfl)

@[simp] theorem State.r_withJn (s : State) (x : SMap JnSlot) (j : Nat) : (s.withJn x).r j = s.r j := (rfl)
@[simp] theorem State.die_withJn (s : State) (x : SMap JnSlot) (j : Nat) : (s.withJn x).die j = s.die j := (rfl)
@[simp] theorem State.pt_withJn (s : State) (x : SMap JnSlot) (j : Nat) : (s.withJn x).pt j = s.pt j := (rfl)
@[simp] theorem State.tile_withJn (s : State) (x : SMap JnSlot) (j : Nat) : (s.withJn x).tile j = s.tile j := (rfl)
@[simp] theorem State.token_withJn (s : State) (x : SMap JnSlot) (j : Nat) : (s.withJn x).token j = s.token j := (rfl)
@[simp] theorem State.walker_withJn (s : State) (x : SMap JnSlot) (j : Nat) : (s.withJn x).walker j = s.walker j := (rfl)
@[simp] theorem State.preWalker_withJn (s : State) (x : SMap JnSlot) (j : Nat) : (s.withJn x).preWalker j = s.preWalker j := (rfl)
@[simp] theorem State.port_withJn (s : State) (x : SMap JnSlot) (j : Nat) : (s.withJn x).port j = s.port j := (rfl)
@[simp] theorem State.ring_withJn (s : State) (x : SMap JnSlot) (j : Nat) : (s.withJn x).ring j = s.ring j := (rfl)
@[simp] theorem State.pcieFn_withJn (s : State) (x : SMap JnSlot) (j : Nat) : (s.withJn x).pcieFn j = s.pcieFn j := (rfl)
@[simp] theorem State.notif_withJn (s : State) (x : SMap JnSlot) (j : Nat) : (s.withJn x).notif j = s.notif j := (rfl)
@[simp] theorem State.part_withJn (s : State) (x : SMap JnSlot) (j : Nat) : (s.withJn x).part j = s.part j := (rfl)
@[simp] theorem State.ls_withJn (s : State) (x : SMap JnSlot) (j : Nat) : (s.withJn x).ls j = s.ls j := (rfl)
@[simp] theorem State.tr_withJn (s : State) (x : SMap JnSlot) (j : Nat) : (s.withJn x).tr j = s.tr j := (rfl)
@[simp] theorem State.trq_withJn (s : State) (x : SMap JnSlot) (j : Nat) : (s.withJn x).trq j = s.trq j := (rfl)
@[simp] theorem State.i3cT_withJn (s : State) (x : SMap JnSlot) (j : Nat) : (s.withJn x).i3cT j = s.i3cT j := (rfl)
@[simp] theorem State.inj_withJn (s : State) (x : SMap JnSlot) (j : Nat) : (s.withJn x).inj j = s.inj j := (rfl)
@[simp] theorem State.strm_withJn (s : State) (x : SMap JnSlot) (j : Nat) : (s.withJn x).strm j = s.strm j := (rfl)
@[simp] theorem State.stack_withJn (s : State) (x : SMap JnSlot) (j : Nat) : (s.withJn x).stack j = s.stack j := (rfl)
@[simp] theorem State.byte_withJn (s : State) (x : SMap JnSlot) (j : Nat) : (s.withJn x).byte j = s.byte j := (rfl)
@[simp] theorem State.rf_withJn (s : State) (x : SMap JnSlot) (j lo w : Nat) : (s.withJn x).rf j lo w = s.rf j lo w := (rfl)

@[simp] theorem State.r_withRings (s : State) (x : SMap Ring) (j : Nat) : (s.withRings x).r j = s.r j := (rfl)
@[simp] theorem State.die_withRings (s : State) (x : SMap Ring) (j : Nat) : (s.withRings x).die j = s.die j := (rfl)
@[simp] theorem State.pt_withRings (s : State) (x : SMap Ring) (j : Nat) : (s.withRings x).pt j = s.pt j := (rfl)
@[simp] theorem State.tile_withRings (s : State) (x : SMap Ring) (j : Nat) : (s.withRings x).tile j = s.tile j := (rfl)
@[simp] theorem State.token_withRings (s : State) (x : SMap Ring) (j : Nat) : (s.withRings x).token j = s.token j := (rfl)
@[simp] theorem State.walker_withRings (s : State) (x : SMap Ring) (j : Nat) : (s.withRings x).walker j = s.walker j := (rfl)
@[simp] theorem State.preWalker_withRings (s : State) (x : SMap Ring) (j : Nat) : (s.withRings x).preWalker j = s.preWalker j := (rfl)
@[simp] theorem State.port_withRings (s : State) (x : SMap Ring) (j : Nat) : (s.withRings x).port j = s.port j := (rfl)
@[simp] theorem State.pcieFn_withRings (s : State) (x : SMap Ring) (j : Nat) : (s.withRings x).pcieFn j = s.pcieFn j := (rfl)
@[simp] theorem State.notif_withRings (s : State) (x : SMap Ring) (j : Nat) : (s.withRings x).notif j = s.notif j := (rfl)
@[simp] theorem State.part_withRings (s : State) (x : SMap Ring) (j : Nat) : (s.withRings x).part j = s.part j := (rfl)
@[simp] theorem State.ls_withRings (s : State) (x : SMap Ring) (j : Nat) : (s.withRings x).ls j = s.ls j := (rfl)
@[simp] theorem State.tr_withRings (s : State) (x : SMap Ring) (j : Nat) : (s.withRings x).tr j = s.tr j := (rfl)
@[simp] theorem State.trq_withRings (s : State) (x : SMap Ring) (j : Nat) : (s.withRings x).trq j = s.trq j := (rfl)
@[simp] theorem State.i3cT_withRings (s : State) (x : SMap Ring) (j : Nat) : (s.withRings x).i3cT j = s.i3cT j := (rfl)
@[simp] theorem State.inj_withRings (s : State) (x : SMap Ring) (j : Nat) : (s.withRings x).inj j = s.inj j := (rfl)
@[simp] theorem State.strm_withRings (s : State) (x : SMap Ring) (j : Nat) : (s.withRings x).strm j = s.strm j := (rfl)
@[simp] theorem State.stack_withRings (s : State) (x : SMap Ring) (j : Nat) : (s.withRings x).stack j = s.stack j := (rfl)
@[simp] theorem State.byte_withRings (s : State) (x : SMap Ring) (j : Nat) : (s.withRings x).byte j = s.byte j := (rfl)
@[simp] theorem State.rf_withRings (s : State) (x : SMap Ring) (j lo w : Nat) : (s.withRings x).rf j lo w = s.rf j lo w := (rfl)

@[simp] theorem State.r_withTurn (s : State) (x : Nat) (j : Nat) : (s.withTurn x).r j = s.r j := (rfl)
@[simp] theorem State.die_withTurn (s : State) (x : Nat) (j : Nat) : (s.withTurn x).die j = s.die j := (rfl)
@[simp] theorem State.pt_withTurn (s : State) (x : Nat) (j : Nat) : (s.withTurn x).pt j = s.pt j := (rfl)
@[simp] theorem State.tile_withTurn (s : State) (x : Nat) (j : Nat) : (s.withTurn x).tile j = s.tile j := (rfl)
@[simp] theorem State.token_withTurn (s : State) (x : Nat) (j : Nat) : (s.withTurn x).token j = s.token j := (rfl)
@[simp] theorem State.walker_withTurn (s : State) (x : Nat) (j : Nat) : (s.withTurn x).walker j = s.walker j := (rfl)
@[simp] theorem State.preWalker_withTurn (s : State) (x : Nat) (j : Nat) : (s.withTurn x).preWalker j = s.preWalker j := (rfl)
@[simp] theorem State.port_withTurn (s : State) (x : Nat) (j : Nat) : (s.withTurn x).port j = s.port j := (rfl)
@[simp] theorem State.ring_withTurn (s : State) (x : Nat) (j : Nat) : (s.withTurn x).ring j = s.ring j := (rfl)
@[simp] theorem State.pcieFn_withTurn (s : State) (x : Nat) (j : Nat) : (s.withTurn x).pcieFn j = s.pcieFn j := (rfl)
@[simp] theorem State.notif_withTurn (s : State) (x : Nat) (j : Nat) : (s.withTurn x).notif j = s.notif j := (rfl)
@[simp] theorem State.part_withTurn (s : State) (x : Nat) (j : Nat) : (s.withTurn x).part j = s.part j := (rfl)
@[simp] theorem State.ls_withTurn (s : State) (x : Nat) (j : Nat) : (s.withTurn x).ls j = s.ls j := (rfl)
@[simp] theorem State.tr_withTurn (s : State) (x : Nat) (j : Nat) : (s.withTurn x).tr j = s.tr j := (rfl)
@[simp] theorem State.trq_withTurn (s : State) (x : Nat) (j : Nat) : (s.withTurn x).trq j = s.trq j := (rfl)
@[simp] theorem State.i3cT_withTurn (s : State) (x : Nat) (j : Nat) : (s.withTurn x).i3cT j = s.i3cT j := (rfl)
@[simp] theorem State.inj_withTurn (s : State) (x : Nat) (j : Nat) : (s.withTurn x).inj j = s.inj j := (rfl)
@[simp] theorem State.strm_withTurn (s : State) (x : Nat) (j : Nat) : (s.withTurn x).strm j = s.strm j := (rfl)
@[simp] theorem State.stack_withTurn (s : State) (x : Nat) (j : Nat) : (s.withTurn x).stack j = s.stack j := (rfl)
@[simp] theorem State.byte_withTurn (s : State) (x : Nat) (j : Nat) : (s.withTurn x).byte j = s.byte j := (rfl)
@[simp] theorem State.rf_withTurn (s : State) (x : Nat) (j lo w : Nat) : (s.withTurn x).rf j lo w = s.rf j lo w := (rfl)

@[simp] theorem State.r_withNotify (s : State) (x : SMap Notify) (j : Nat) : (s.withNotify x).r j = s.r j := (rfl)
@[simp] theorem State.die_withNotify (s : State) (x : SMap Notify) (j : Nat) : (s.withNotify x).die j = s.die j := (rfl)
@[simp] theorem State.pt_withNotify (s : State) (x : SMap Notify) (j : Nat) : (s.withNotify x).pt j = s.pt j := (rfl)
@[simp] theorem State.tile_withNotify (s : State) (x : SMap Notify) (j : Nat) : (s.withNotify x).tile j = s.tile j := (rfl)
@[simp] theorem State.token_withNotify (s : State) (x : SMap Notify) (j : Nat) : (s.withNotify x).token j = s.token j := (rfl)
@[simp] theorem State.walker_withNotify (s : State) (x : SMap Notify) (j : Nat) : (s.withNotify x).walker j = s.walker j := (rfl)
@[simp] theorem State.preWalker_withNotify (s : State) (x : SMap Notify) (j : Nat) : (s.withNotify x).preWalker j = s.preWalker j := (rfl)
@[simp] theorem State.port_withNotify (s : State) (x : SMap Notify) (j : Nat) : (s.withNotify x).port j = s.port j := (rfl)
@[simp] theorem State.ring_withNotify (s : State) (x : SMap Notify) (j : Nat) : (s.withNotify x).ring j = s.ring j := (rfl)
@[simp] theorem State.pcieFn_withNotify (s : State) (x : SMap Notify) (j : Nat) : (s.withNotify x).pcieFn j = s.pcieFn j := (rfl)
@[simp] theorem State.part_withNotify (s : State) (x : SMap Notify) (j : Nat) : (s.withNotify x).part j = s.part j := (rfl)
@[simp] theorem State.ls_withNotify (s : State) (x : SMap Notify) (j : Nat) : (s.withNotify x).ls j = s.ls j := (rfl)
@[simp] theorem State.tr_withNotify (s : State) (x : SMap Notify) (j : Nat) : (s.withNotify x).tr j = s.tr j := (rfl)
@[simp] theorem State.trq_withNotify (s : State) (x : SMap Notify) (j : Nat) : (s.withNotify x).trq j = s.trq j := (rfl)
@[simp] theorem State.i3cT_withNotify (s : State) (x : SMap Notify) (j : Nat) : (s.withNotify x).i3cT j = s.i3cT j := (rfl)
@[simp] theorem State.inj_withNotify (s : State) (x : SMap Notify) (j : Nat) : (s.withNotify x).inj j = s.inj j := (rfl)
@[simp] theorem State.strm_withNotify (s : State) (x : SMap Notify) (j : Nat) : (s.withNotify x).strm j = s.strm j := (rfl)
@[simp] theorem State.stack_withNotify (s : State) (x : SMap Notify) (j : Nat) : (s.withNotify x).stack j = s.stack j := (rfl)
@[simp] theorem State.byte_withNotify (s : State) (x : SMap Notify) (j : Nat) : (s.withNotify x).byte j = s.byte j := (rfl)
@[simp] theorem State.rf_withNotify (s : State) (x : SMap Notify) (j lo w : Nat) : (s.withNotify x).rf j lo w = s.rf j lo w := (rfl)

@[simp] theorem State.r_withNotes (s : State) (x : List Note) (j : Nat) : (s.withNotes x).r j = s.r j := (rfl)
@[simp] theorem State.die_withNotes (s : State) (x : List Note) (j : Nat) : (s.withNotes x).die j = s.die j := (rfl)
@[simp] theorem State.pt_withNotes (s : State) (x : List Note) (j : Nat) : (s.withNotes x).pt j = s.pt j := (rfl)
@[simp] theorem State.tile_withNotes (s : State) (x : List Note) (j : Nat) : (s.withNotes x).tile j = s.tile j := (rfl)
@[simp] theorem State.token_withNotes (s : State) (x : List Note) (j : Nat) : (s.withNotes x).token j = s.token j := (rfl)
@[simp] theorem State.walker_withNotes (s : State) (x : List Note) (j : Nat) : (s.withNotes x).walker j = s.walker j := (rfl)
@[simp] theorem State.preWalker_withNotes (s : State) (x : List Note) (j : Nat) : (s.withNotes x).preWalker j = s.preWalker j := (rfl)
@[simp] theorem State.port_withNotes (s : State) (x : List Note) (j : Nat) : (s.withNotes x).port j = s.port j := (rfl)
@[simp] theorem State.ring_withNotes (s : State) (x : List Note) (j : Nat) : (s.withNotes x).ring j = s.ring j := (rfl)
@[simp] theorem State.pcieFn_withNotes (s : State) (x : List Note) (j : Nat) : (s.withNotes x).pcieFn j = s.pcieFn j := (rfl)
@[simp] theorem State.notif_withNotes (s : State) (x : List Note) (j : Nat) : (s.withNotes x).notif j = s.notif j := (rfl)
@[simp] theorem State.part_withNotes (s : State) (x : List Note) (j : Nat) : (s.withNotes x).part j = s.part j := (rfl)
@[simp] theorem State.ls_withNotes (s : State) (x : List Note) (j : Nat) : (s.withNotes x).ls j = s.ls j := (rfl)
@[simp] theorem State.tr_withNotes (s : State) (x : List Note) (j : Nat) : (s.withNotes x).tr j = s.tr j := (rfl)
@[simp] theorem State.trq_withNotes (s : State) (x : List Note) (j : Nat) : (s.withNotes x).trq j = s.trq j := (rfl)
@[simp] theorem State.i3cT_withNotes (s : State) (x : List Note) (j : Nat) : (s.withNotes x).i3cT j = s.i3cT j := (rfl)
@[simp] theorem State.inj_withNotes (s : State) (x : List Note) (j : Nat) : (s.withNotes x).inj j = s.inj j := (rfl)
@[simp] theorem State.strm_withNotes (s : State) (x : List Note) (j : Nat) : (s.withNotes x).strm j = s.strm j := (rfl)
@[simp] theorem State.stack_withNotes (s : State) (x : List Note) (j : Nat) : (s.withNotes x).stack j = s.stack j := (rfl)
@[simp] theorem State.byte_withNotes (s : State) (x : List Note) (j : Nat) : (s.withNotes x).byte j = s.byte j := (rfl)
@[simp] theorem State.rf_withNotes (s : State) (x : List Note) (j lo w : Nat) : (s.withNotes x).rf j lo w = s.rf j lo w := (rfl)

@[simp] theorem State.r_withHostOut (s : State) (x : List HostWrite) (j : Nat) : (s.withHostOut x).r j = s.r j := (rfl)
@[simp] theorem State.die_withHostOut (s : State) (x : List HostWrite) (j : Nat) : (s.withHostOut x).die j = s.die j := (rfl)
@[simp] theorem State.pt_withHostOut (s : State) (x : List HostWrite) (j : Nat) : (s.withHostOut x).pt j = s.pt j := (rfl)
@[simp] theorem State.tile_withHostOut (s : State) (x : List HostWrite) (j : Nat) : (s.withHostOut x).tile j = s.tile j := (rfl)
@[simp] theorem State.token_withHostOut (s : State) (x : List HostWrite) (j : Nat) : (s.withHostOut x).token j = s.token j := (rfl)
@[simp] theorem State.walker_withHostOut (s : State) (x : List HostWrite) (j : Nat) : (s.withHostOut x).walker j = s.walker j := (rfl)
@[simp] theorem State.preWalker_withHostOut (s : State) (x : List HostWrite) (j : Nat) : (s.withHostOut x).preWalker j = s.preWalker j := (rfl)
@[simp] theorem State.port_withHostOut (s : State) (x : List HostWrite) (j : Nat) : (s.withHostOut x).port j = s.port j := (rfl)
@[simp] theorem State.ring_withHostOut (s : State) (x : List HostWrite) (j : Nat) : (s.withHostOut x).ring j = s.ring j := (rfl)
@[simp] theorem State.pcieFn_withHostOut (s : State) (x : List HostWrite) (j : Nat) : (s.withHostOut x).pcieFn j = s.pcieFn j := (rfl)
@[simp] theorem State.notif_withHostOut (s : State) (x : List HostWrite) (j : Nat) : (s.withHostOut x).notif j = s.notif j := (rfl)
@[simp] theorem State.part_withHostOut (s : State) (x : List HostWrite) (j : Nat) : (s.withHostOut x).part j = s.part j := (rfl)
@[simp] theorem State.ls_withHostOut (s : State) (x : List HostWrite) (j : Nat) : (s.withHostOut x).ls j = s.ls j := (rfl)
@[simp] theorem State.tr_withHostOut (s : State) (x : List HostWrite) (j : Nat) : (s.withHostOut x).tr j = s.tr j := (rfl)
@[simp] theorem State.trq_withHostOut (s : State) (x : List HostWrite) (j : Nat) : (s.withHostOut x).trq j = s.trq j := (rfl)
@[simp] theorem State.i3cT_withHostOut (s : State) (x : List HostWrite) (j : Nat) : (s.withHostOut x).i3cT j = s.i3cT j := (rfl)
@[simp] theorem State.inj_withHostOut (s : State) (x : List HostWrite) (j : Nat) : (s.withHostOut x).inj j = s.inj j := (rfl)
@[simp] theorem State.strm_withHostOut (s : State) (x : List HostWrite) (j : Nat) : (s.withHostOut x).strm j = s.strm j := (rfl)
@[simp] theorem State.stack_withHostOut (s : State) (x : List HostWrite) (j : Nat) : (s.withHostOut x).stack j = s.stack j := (rfl)
@[simp] theorem State.byte_withHostOut (s : State) (x : List HostWrite) (j : Nat) : (s.withHostOut x).byte j = s.byte j := (rfl)
@[simp] theorem State.rf_withHostOut (s : State) (x : List HostWrite) (j lo w : Nat) : (s.withHostOut x).rf j lo w = s.rf j lo w := (rfl)

@[simp] theorem State.r_withIrqs (s : State) (x : List (Nat × Nat)) (j : Nat) : (s.withIrqs x).r j = s.r j := (rfl)
@[simp] theorem State.die_withIrqs (s : State) (x : List (Nat × Nat)) (j : Nat) : (s.withIrqs x).die j = s.die j := (rfl)
@[simp] theorem State.pt_withIrqs (s : State) (x : List (Nat × Nat)) (j : Nat) : (s.withIrqs x).pt j = s.pt j := (rfl)
@[simp] theorem State.tile_withIrqs (s : State) (x : List (Nat × Nat)) (j : Nat) : (s.withIrqs x).tile j = s.tile j := (rfl)
@[simp] theorem State.token_withIrqs (s : State) (x : List (Nat × Nat)) (j : Nat) : (s.withIrqs x).token j = s.token j := (rfl)
@[simp] theorem State.walker_withIrqs (s : State) (x : List (Nat × Nat)) (j : Nat) : (s.withIrqs x).walker j = s.walker j := (rfl)
@[simp] theorem State.preWalker_withIrqs (s : State) (x : List (Nat × Nat)) (j : Nat) : (s.withIrqs x).preWalker j = s.preWalker j := (rfl)
@[simp] theorem State.port_withIrqs (s : State) (x : List (Nat × Nat)) (j : Nat) : (s.withIrqs x).port j = s.port j := (rfl)
@[simp] theorem State.ring_withIrqs (s : State) (x : List (Nat × Nat)) (j : Nat) : (s.withIrqs x).ring j = s.ring j := (rfl)
@[simp] theorem State.pcieFn_withIrqs (s : State) (x : List (Nat × Nat)) (j : Nat) : (s.withIrqs x).pcieFn j = s.pcieFn j := (rfl)
@[simp] theorem State.notif_withIrqs (s : State) (x : List (Nat × Nat)) (j : Nat) : (s.withIrqs x).notif j = s.notif j := (rfl)
@[simp] theorem State.part_withIrqs (s : State) (x : List (Nat × Nat)) (j : Nat) : (s.withIrqs x).part j = s.part j := (rfl)
@[simp] theorem State.ls_withIrqs (s : State) (x : List (Nat × Nat)) (j : Nat) : (s.withIrqs x).ls j = s.ls j := (rfl)
@[simp] theorem State.tr_withIrqs (s : State) (x : List (Nat × Nat)) (j : Nat) : (s.withIrqs x).tr j = s.tr j := (rfl)
@[simp] theorem State.trq_withIrqs (s : State) (x : List (Nat × Nat)) (j : Nat) : (s.withIrqs x).trq j = s.trq j := (rfl)
@[simp] theorem State.i3cT_withIrqs (s : State) (x : List (Nat × Nat)) (j : Nat) : (s.withIrqs x).i3cT j = s.i3cT j := (rfl)
@[simp] theorem State.inj_withIrqs (s : State) (x : List (Nat × Nat)) (j : Nat) : (s.withIrqs x).inj j = s.inj j := (rfl)
@[simp] theorem State.strm_withIrqs (s : State) (x : List (Nat × Nat)) (j : Nat) : (s.withIrqs x).strm j = s.strm j := (rfl)
@[simp] theorem State.stack_withIrqs (s : State) (x : List (Nat × Nat)) (j : Nat) : (s.withIrqs x).stack j = s.stack j := (rfl)
@[simp] theorem State.byte_withIrqs (s : State) (x : List (Nat × Nat)) (j : Nat) : (s.withIrqs x).byte j = s.byte j := (rfl)
@[simp] theorem State.rf_withIrqs (s : State) (x : List (Nat × Nat)) (j lo w : Nat) : (s.withIrqs x).rf j lo w = s.rf j lo w := (rfl)

@[simp] theorem State.r_withVfs (s : State) (x : Nat) (j : Nat) : (s.withVfs x).r j = s.r j := (rfl)
@[simp] theorem State.die_withVfs (s : State) (x : Nat) (j : Nat) : (s.withVfs x).die j = s.die j := (rfl)
@[simp] theorem State.pt_withVfs (s : State) (x : Nat) (j : Nat) : (s.withVfs x).pt j = s.pt j := (rfl)
@[simp] theorem State.tile_withVfs (s : State) (x : Nat) (j : Nat) : (s.withVfs x).tile j = s.tile j := (rfl)
@[simp] theorem State.token_withVfs (s : State) (x : Nat) (j : Nat) : (s.withVfs x).token j = s.token j := (rfl)
@[simp] theorem State.walker_withVfs (s : State) (x : Nat) (j : Nat) : (s.withVfs x).walker j = s.walker j := (rfl)
@[simp] theorem State.preWalker_withVfs (s : State) (x : Nat) (j : Nat) : (s.withVfs x).preWalker j = s.preWalker j := (rfl)
@[simp] theorem State.port_withVfs (s : State) (x : Nat) (j : Nat) : (s.withVfs x).port j = s.port j := (rfl)
@[simp] theorem State.ring_withVfs (s : State) (x : Nat) (j : Nat) : (s.withVfs x).ring j = s.ring j := (rfl)
@[simp] theorem State.pcieFn_withVfs (s : State) (x : Nat) (j : Nat) : (s.withVfs x).pcieFn j = s.pcieFn j := (rfl)
@[simp] theorem State.notif_withVfs (s : State) (x : Nat) (j : Nat) : (s.withVfs x).notif j = s.notif j := (rfl)
@[simp] theorem State.part_withVfs (s : State) (x : Nat) (j : Nat) : (s.withVfs x).part j = s.part j := (rfl)
@[simp] theorem State.ls_withVfs (s : State) (x : Nat) (j : Nat) : (s.withVfs x).ls j = s.ls j := (rfl)
@[simp] theorem State.tr_withVfs (s : State) (x : Nat) (j : Nat) : (s.withVfs x).tr j = s.tr j := (rfl)
@[simp] theorem State.trq_withVfs (s : State) (x : Nat) (j : Nat) : (s.withVfs x).trq j = s.trq j := (rfl)
@[simp] theorem State.i3cT_withVfs (s : State) (x : Nat) (j : Nat) : (s.withVfs x).i3cT j = s.i3cT j := (rfl)
@[simp] theorem State.inj_withVfs (s : State) (x : Nat) (j : Nat) : (s.withVfs x).inj j = s.inj j := (rfl)
@[simp] theorem State.strm_withVfs (s : State) (x : Nat) (j : Nat) : (s.withVfs x).strm j = s.strm j := (rfl)
@[simp] theorem State.stack_withVfs (s : State) (x : Nat) (j : Nat) : (s.withVfs x).stack j = s.stack j := (rfl)
@[simp] theorem State.byte_withVfs (s : State) (x : Nat) (j : Nat) : (s.withVfs x).byte j = s.byte j := (rfl)
@[simp] theorem State.rf_withVfs (s : State) (x : Nat) (j lo w : Nat) : (s.withVfs x).rf j lo w = s.rf j lo w := (rfl)

@[simp] theorem State.r_withPcieUp (s : State) (x : Bool) (j : Nat) : (s.withPcieUp x).r j = s.r j := (rfl)
@[simp] theorem State.die_withPcieUp (s : State) (x : Bool) (j : Nat) : (s.withPcieUp x).die j = s.die j := (rfl)
@[simp] theorem State.pt_withPcieUp (s : State) (x : Bool) (j : Nat) : (s.withPcieUp x).pt j = s.pt j := (rfl)
@[simp] theorem State.tile_withPcieUp (s : State) (x : Bool) (j : Nat) : (s.withPcieUp x).tile j = s.tile j := (rfl)
@[simp] theorem State.token_withPcieUp (s : State) (x : Bool) (j : Nat) : (s.withPcieUp x).token j = s.token j := (rfl)
@[simp] theorem State.walker_withPcieUp (s : State) (x : Bool) (j : Nat) : (s.withPcieUp x).walker j = s.walker j := (rfl)
@[simp] theorem State.preWalker_withPcieUp (s : State) (x : Bool) (j : Nat) : (s.withPcieUp x).preWalker j = s.preWalker j := (rfl)
@[simp] theorem State.port_withPcieUp (s : State) (x : Bool) (j : Nat) : (s.withPcieUp x).port j = s.port j := (rfl)
@[simp] theorem State.ring_withPcieUp (s : State) (x : Bool) (j : Nat) : (s.withPcieUp x).ring j = s.ring j := (rfl)
@[simp] theorem State.pcieFn_withPcieUp (s : State) (x : Bool) (j : Nat) : (s.withPcieUp x).pcieFn j = s.pcieFn j := (rfl)
@[simp] theorem State.notif_withPcieUp (s : State) (x : Bool) (j : Nat) : (s.withPcieUp x).notif j = s.notif j := (rfl)
@[simp] theorem State.part_withPcieUp (s : State) (x : Bool) (j : Nat) : (s.withPcieUp x).part j = s.part j := (rfl)
@[simp] theorem State.ls_withPcieUp (s : State) (x : Bool) (j : Nat) : (s.withPcieUp x).ls j = s.ls j := (rfl)
@[simp] theorem State.tr_withPcieUp (s : State) (x : Bool) (j : Nat) : (s.withPcieUp x).tr j = s.tr j := (rfl)
@[simp] theorem State.trq_withPcieUp (s : State) (x : Bool) (j : Nat) : (s.withPcieUp x).trq j = s.trq j := (rfl)
@[simp] theorem State.i3cT_withPcieUp (s : State) (x : Bool) (j : Nat) : (s.withPcieUp x).i3cT j = s.i3cT j := (rfl)
@[simp] theorem State.inj_withPcieUp (s : State) (x : Bool) (j : Nat) : (s.withPcieUp x).inj j = s.inj j := (rfl)
@[simp] theorem State.strm_withPcieUp (s : State) (x : Bool) (j : Nat) : (s.withPcieUp x).strm j = s.strm j := (rfl)
@[simp] theorem State.stack_withPcieUp (s : State) (x : Bool) (j : Nat) : (s.withPcieUp x).stack j = s.stack j := (rfl)
@[simp] theorem State.byte_withPcieUp (s : State) (x : Bool) (j : Nat) : (s.withPcieUp x).byte j = s.byte j := (rfl)
@[simp] theorem State.rf_withPcieUp (s : State) (x : Bool) (j lo w : Nat) : (s.withPcieUp x).rf j lo w = s.rf j lo w := (rfl)

@[simp] theorem State.r_withAts (s : State) (x : SMap (List Nat)) (j : Nat) : (s.withAts x).r j = s.r j := (rfl)
@[simp] theorem State.die_withAts (s : State) (x : SMap (List Nat)) (j : Nat) : (s.withAts x).die j = s.die j := (rfl)
@[simp] theorem State.pt_withAts (s : State) (x : SMap (List Nat)) (j : Nat) : (s.withAts x).pt j = s.pt j := (rfl)
@[simp] theorem State.tile_withAts (s : State) (x : SMap (List Nat)) (j : Nat) : (s.withAts x).tile j = s.tile j := (rfl)
@[simp] theorem State.token_withAts (s : State) (x : SMap (List Nat)) (j : Nat) : (s.withAts x).token j = s.token j := (rfl)
@[simp] theorem State.walker_withAts (s : State) (x : SMap (List Nat)) (j : Nat) : (s.withAts x).walker j = s.walker j := (rfl)
@[simp] theorem State.preWalker_withAts (s : State) (x : SMap (List Nat)) (j : Nat) : (s.withAts x).preWalker j = s.preWalker j := (rfl)
@[simp] theorem State.port_withAts (s : State) (x : SMap (List Nat)) (j : Nat) : (s.withAts x).port j = s.port j := (rfl)
@[simp] theorem State.ring_withAts (s : State) (x : SMap (List Nat)) (j : Nat) : (s.withAts x).ring j = s.ring j := (rfl)
@[simp] theorem State.pcieFn_withAts (s : State) (x : SMap (List Nat)) (j : Nat) : (s.withAts x).pcieFn j = s.pcieFn j := (rfl)
@[simp] theorem State.notif_withAts (s : State) (x : SMap (List Nat)) (j : Nat) : (s.withAts x).notif j = s.notif j := (rfl)
@[simp] theorem State.part_withAts (s : State) (x : SMap (List Nat)) (j : Nat) : (s.withAts x).part j = s.part j := (rfl)
@[simp] theorem State.ls_withAts (s : State) (x : SMap (List Nat)) (j : Nat) : (s.withAts x).ls j = s.ls j := (rfl)
@[simp] theorem State.tr_withAts (s : State) (x : SMap (List Nat)) (j : Nat) : (s.withAts x).tr j = s.tr j := (rfl)
@[simp] theorem State.trq_withAts (s : State) (x : SMap (List Nat)) (j : Nat) : (s.withAts x).trq j = s.trq j := (rfl)
@[simp] theorem State.i3cT_withAts (s : State) (x : SMap (List Nat)) (j : Nat) : (s.withAts x).i3cT j = s.i3cT j := (rfl)
@[simp] theorem State.inj_withAts (s : State) (x : SMap (List Nat)) (j : Nat) : (s.withAts x).inj j = s.inj j := (rfl)
@[simp] theorem State.strm_withAts (s : State) (x : SMap (List Nat)) (j : Nat) : (s.withAts x).strm j = s.strm j := (rfl)
@[simp] theorem State.stack_withAts (s : State) (x : SMap (List Nat)) (j : Nat) : (s.withAts x).stack j = s.stack j := (rfl)
@[simp] theorem State.byte_withAts (s : State) (x : SMap (List Nat)) (j : Nat) : (s.withAts x).byte j = s.byte j := (rfl)
@[simp] theorem State.rf_withAts (s : State) (x : SMap (List Nat)) (j lo w : Nat) : (s.withAts x).rf j lo w = s.rf j lo w := (rfl)

@[simp] theorem State.r_withAtsDone (s : State) (x : List Nat) (j : Nat) : (s.withAtsDone x).r j = s.r j := (rfl)
@[simp] theorem State.die_withAtsDone (s : State) (x : List Nat) (j : Nat) : (s.withAtsDone x).die j = s.die j := (rfl)
@[simp] theorem State.pt_withAtsDone (s : State) (x : List Nat) (j : Nat) : (s.withAtsDone x).pt j = s.pt j := (rfl)
@[simp] theorem State.tile_withAtsDone (s : State) (x : List Nat) (j : Nat) : (s.withAtsDone x).tile j = s.tile j := (rfl)
@[simp] theorem State.token_withAtsDone (s : State) (x : List Nat) (j : Nat) : (s.withAtsDone x).token j = s.token j := (rfl)
@[simp] theorem State.walker_withAtsDone (s : State) (x : List Nat) (j : Nat) : (s.withAtsDone x).walker j = s.walker j := (rfl)
@[simp] theorem State.preWalker_withAtsDone (s : State) (x : List Nat) (j : Nat) : (s.withAtsDone x).preWalker j = s.preWalker j := (rfl)
@[simp] theorem State.port_withAtsDone (s : State) (x : List Nat) (j : Nat) : (s.withAtsDone x).port j = s.port j := (rfl)
@[simp] theorem State.ring_withAtsDone (s : State) (x : List Nat) (j : Nat) : (s.withAtsDone x).ring j = s.ring j := (rfl)
@[simp] theorem State.pcieFn_withAtsDone (s : State) (x : List Nat) (j : Nat) : (s.withAtsDone x).pcieFn j = s.pcieFn j := (rfl)
@[simp] theorem State.notif_withAtsDone (s : State) (x : List Nat) (j : Nat) : (s.withAtsDone x).notif j = s.notif j := (rfl)
@[simp] theorem State.part_withAtsDone (s : State) (x : List Nat) (j : Nat) : (s.withAtsDone x).part j = s.part j := (rfl)
@[simp] theorem State.ls_withAtsDone (s : State) (x : List Nat) (j : Nat) : (s.withAtsDone x).ls j = s.ls j := (rfl)
@[simp] theorem State.tr_withAtsDone (s : State) (x : List Nat) (j : Nat) : (s.withAtsDone x).tr j = s.tr j := (rfl)
@[simp] theorem State.trq_withAtsDone (s : State) (x : List Nat) (j : Nat) : (s.withAtsDone x).trq j = s.trq j := (rfl)
@[simp] theorem State.i3cT_withAtsDone (s : State) (x : List Nat) (j : Nat) : (s.withAtsDone x).i3cT j = s.i3cT j := (rfl)
@[simp] theorem State.inj_withAtsDone (s : State) (x : List Nat) (j : Nat) : (s.withAtsDone x).inj j = s.inj j := (rfl)
@[simp] theorem State.strm_withAtsDone (s : State) (x : List Nat) (j : Nat) : (s.withAtsDone x).strm j = s.strm j := (rfl)
@[simp] theorem State.stack_withAtsDone (s : State) (x : List Nat) (j : Nat) : (s.withAtsDone x).stack j = s.stack j := (rfl)
@[simp] theorem State.byte_withAtsDone (s : State) (x : List Nat) (j : Nat) : (s.withAtsDone x).byte j = s.byte j := (rfl)
@[simp] theorem State.rf_withAtsDone (s : State) (x : List Nat) (j lo w : Nat) : (s.withAtsDone x).rf j lo w = s.rf j lo w := (rfl)

@[simp] theorem State.r_withPower (s : State) (x : Power) (j : Nat) : (s.withPower x).r j = s.r j := (rfl)
@[simp] theorem State.die_withPower (s : State) (x : Power) (j : Nat) : (s.withPower x).die j = s.die j := (rfl)
@[simp] theorem State.pt_withPower (s : State) (x : Power) (j : Nat) : (s.withPower x).pt j = s.pt j := (rfl)
@[simp] theorem State.tile_withPower (s : State) (x : Power) (j : Nat) : (s.withPower x).tile j = s.tile j := (rfl)
@[simp] theorem State.token_withPower (s : State) (x : Power) (j : Nat) : (s.withPower x).token j = s.token j := (rfl)
@[simp] theorem State.walker_withPower (s : State) (x : Power) (j : Nat) : (s.withPower x).walker j = s.walker j := (rfl)
@[simp] theorem State.preWalker_withPower (s : State) (x : Power) (j : Nat) : (s.withPower x).preWalker j = s.preWalker j := (rfl)
@[simp] theorem State.port_withPower (s : State) (x : Power) (j : Nat) : (s.withPower x).port j = s.port j := (rfl)
@[simp] theorem State.ring_withPower (s : State) (x : Power) (j : Nat) : (s.withPower x).ring j = s.ring j := (rfl)
@[simp] theorem State.pcieFn_withPower (s : State) (x : Power) (j : Nat) : (s.withPower x).pcieFn j = s.pcieFn j := (rfl)
@[simp] theorem State.notif_withPower (s : State) (x : Power) (j : Nat) : (s.withPower x).notif j = s.notif j := (rfl)
@[simp] theorem State.part_withPower (s : State) (x : Power) (j : Nat) : (s.withPower x).part j = s.part j := (rfl)
@[simp] theorem State.ls_withPower (s : State) (x : Power) (j : Nat) : (s.withPower x).ls j = s.ls j := (rfl)
@[simp] theorem State.tr_withPower (s : State) (x : Power) (j : Nat) : (s.withPower x).tr j = s.tr j := (rfl)
@[simp] theorem State.trq_withPower (s : State) (x : Power) (j : Nat) : (s.withPower x).trq j = s.trq j := (rfl)
@[simp] theorem State.i3cT_withPower (s : State) (x : Power) (j : Nat) : (s.withPower x).i3cT j = s.i3cT j := (rfl)
@[simp] theorem State.inj_withPower (s : State) (x : Power) (j : Nat) : (s.withPower x).inj j = s.inj j := (rfl)
@[simp] theorem State.strm_withPower (s : State) (x : Power) (j : Nat) : (s.withPower x).strm j = s.strm j := (rfl)
@[simp] theorem State.stack_withPower (s : State) (x : Power) (j : Nat) : (s.withPower x).stack j = s.stack j := (rfl)
@[simp] theorem State.byte_withPower (s : State) (x : Power) (j : Nat) : (s.withPower x).byte j = s.byte j := (rfl)
@[simp] theorem State.rf_withPower (s : State) (x : Power) (j lo w : Nat) : (s.withPower x).rf j lo w = s.rf j lo w := (rfl)

@[simp] theorem State.r_withPins (s : State) (x : Pins) (j : Nat) : (s.withPins x).r j = s.r j := (rfl)
@[simp] theorem State.die_withPins (s : State) (x : Pins) (j : Nat) : (s.withPins x).die j = s.die j := (rfl)
@[simp] theorem State.pt_withPins (s : State) (x : Pins) (j : Nat) : (s.withPins x).pt j = s.pt j := (rfl)
@[simp] theorem State.tile_withPins (s : State) (x : Pins) (j : Nat) : (s.withPins x).tile j = s.tile j := (rfl)
@[simp] theorem State.token_withPins (s : State) (x : Pins) (j : Nat) : (s.withPins x).token j = s.token j := (rfl)
@[simp] theorem State.walker_withPins (s : State) (x : Pins) (j : Nat) : (s.withPins x).walker j = s.walker j := (rfl)
@[simp] theorem State.preWalker_withPins (s : State) (x : Pins) (j : Nat) : (s.withPins x).preWalker j = s.preWalker j := (rfl)
@[simp] theorem State.port_withPins (s : State) (x : Pins) (j : Nat) : (s.withPins x).port j = s.port j := (rfl)
@[simp] theorem State.ring_withPins (s : State) (x : Pins) (j : Nat) : (s.withPins x).ring j = s.ring j := (rfl)
@[simp] theorem State.pcieFn_withPins (s : State) (x : Pins) (j : Nat) : (s.withPins x).pcieFn j = s.pcieFn j := (rfl)
@[simp] theorem State.notif_withPins (s : State) (x : Pins) (j : Nat) : (s.withPins x).notif j = s.notif j := (rfl)
@[simp] theorem State.part_withPins (s : State) (x : Pins) (j : Nat) : (s.withPins x).part j = s.part j := (rfl)
@[simp] theorem State.ls_withPins (s : State) (x : Pins) (j : Nat) : (s.withPins x).ls j = s.ls j := (rfl)
@[simp] theorem State.tr_withPins (s : State) (x : Pins) (j : Nat) : (s.withPins x).tr j = s.tr j := (rfl)
@[simp] theorem State.trq_withPins (s : State) (x : Pins) (j : Nat) : (s.withPins x).trq j = s.trq j := (rfl)
@[simp] theorem State.i3cT_withPins (s : State) (x : Pins) (j : Nat) : (s.withPins x).i3cT j = s.i3cT j := (rfl)
@[simp] theorem State.inj_withPins (s : State) (x : Pins) (j : Nat) : (s.withPins x).inj j = s.inj j := (rfl)
@[simp] theorem State.strm_withPins (s : State) (x : Pins) (j : Nat) : (s.withPins x).strm j = s.strm j := (rfl)
@[simp] theorem State.stack_withPins (s : State) (x : Pins) (j : Nat) : (s.withPins x).stack j = s.stack j := (rfl)
@[simp] theorem State.byte_withPins (s : State) (x : Pins) (j : Nat) : (s.withPins x).byte j = s.byte j := (rfl)
@[simp] theorem State.rf_withPins (s : State) (x : Pins) (j lo w : Nat) : (s.withPins x).rf j lo w = s.rf j lo w := (rfl)

@[simp] theorem State.r_withMon (s : State) (x : Mon) (j : Nat) : (s.withMon x).r j = s.r j := (rfl)
@[simp] theorem State.die_withMon (s : State) (x : Mon) (j : Nat) : (s.withMon x).die j = s.die j := (rfl)
@[simp] theorem State.pt_withMon (s : State) (x : Mon) (j : Nat) : (s.withMon x).pt j = s.pt j := (rfl)
@[simp] theorem State.tile_withMon (s : State) (x : Mon) (j : Nat) : (s.withMon x).tile j = s.tile j := (rfl)
@[simp] theorem State.token_withMon (s : State) (x : Mon) (j : Nat) : (s.withMon x).token j = s.token j := (rfl)
@[simp] theorem State.walker_withMon (s : State) (x : Mon) (j : Nat) : (s.withMon x).walker j = s.walker j := (rfl)
@[simp] theorem State.preWalker_withMon (s : State) (x : Mon) (j : Nat) : (s.withMon x).preWalker j = s.preWalker j := (rfl)
@[simp] theorem State.port_withMon (s : State) (x : Mon) (j : Nat) : (s.withMon x).port j = s.port j := (rfl)
@[simp] theorem State.ring_withMon (s : State) (x : Mon) (j : Nat) : (s.withMon x).ring j = s.ring j := (rfl)
@[simp] theorem State.pcieFn_withMon (s : State) (x : Mon) (j : Nat) : (s.withMon x).pcieFn j = s.pcieFn j := (rfl)
@[simp] theorem State.notif_withMon (s : State) (x : Mon) (j : Nat) : (s.withMon x).notif j = s.notif j := (rfl)
@[simp] theorem State.part_withMon (s : State) (x : Mon) (j : Nat) : (s.withMon x).part j = s.part j := (rfl)
@[simp] theorem State.ls_withMon (s : State) (x : Mon) (j : Nat) : (s.withMon x).ls j = s.ls j := (rfl)
@[simp] theorem State.tr_withMon (s : State) (x : Mon) (j : Nat) : (s.withMon x).tr j = s.tr j := (rfl)
@[simp] theorem State.trq_withMon (s : State) (x : Mon) (j : Nat) : (s.withMon x).trq j = s.trq j := (rfl)
@[simp] theorem State.i3cT_withMon (s : State) (x : Mon) (j : Nat) : (s.withMon x).i3cT j = s.i3cT j := (rfl)
@[simp] theorem State.inj_withMon (s : State) (x : Mon) (j : Nat) : (s.withMon x).inj j = s.inj j := (rfl)
@[simp] theorem State.strm_withMon (s : State) (x : Mon) (j : Nat) : (s.withMon x).strm j = s.strm j := (rfl)
@[simp] theorem State.stack_withMon (s : State) (x : Mon) (j : Nat) : (s.withMon x).stack j = s.stack j := (rfl)
@[simp] theorem State.byte_withMon (s : State) (x : Mon) (j : Nat) : (s.withMon x).byte j = s.byte j := (rfl)
@[simp] theorem State.rf_withMon (s : State) (x : Mon) (j lo w : Nat) : (s.withMon x).rf j lo w = s.rf j lo w := (rfl)

@[simp] theorem State.r_withTxn (s : State) (x : Option Txn) (j : Nat) : (s.withTxn x).r j = s.r j := (rfl)
@[simp] theorem State.die_withTxn (s : State) (x : Option Txn) (j : Nat) : (s.withTxn x).die j = s.die j := (rfl)
@[simp] theorem State.pt_withTxn (s : State) (x : Option Txn) (j : Nat) : (s.withTxn x).pt j = s.pt j := (rfl)
@[simp] theorem State.tile_withTxn (s : State) (x : Option Txn) (j : Nat) : (s.withTxn x).tile j = s.tile j := (rfl)
@[simp] theorem State.token_withTxn (s : State) (x : Option Txn) (j : Nat) : (s.withTxn x).token j = s.token j := (rfl)
@[simp] theorem State.walker_withTxn (s : State) (x : Option Txn) (j : Nat) : (s.withTxn x).walker j = s.walker j := (rfl)
@[simp] theorem State.preWalker_withTxn (s : State) (x : Option Txn) (j : Nat) : (s.withTxn x).preWalker j = s.preWalker j := (rfl)
@[simp] theorem State.port_withTxn (s : State) (x : Option Txn) (j : Nat) : (s.withTxn x).port j = s.port j := (rfl)
@[simp] theorem State.ring_withTxn (s : State) (x : Option Txn) (j : Nat) : (s.withTxn x).ring j = s.ring j := (rfl)
@[simp] theorem State.pcieFn_withTxn (s : State) (x : Option Txn) (j : Nat) : (s.withTxn x).pcieFn j = s.pcieFn j := (rfl)
@[simp] theorem State.notif_withTxn (s : State) (x : Option Txn) (j : Nat) : (s.withTxn x).notif j = s.notif j := (rfl)
@[simp] theorem State.part_withTxn (s : State) (x : Option Txn) (j : Nat) : (s.withTxn x).part j = s.part j := (rfl)
@[simp] theorem State.ls_withTxn (s : State) (x : Option Txn) (j : Nat) : (s.withTxn x).ls j = s.ls j := (rfl)
@[simp] theorem State.tr_withTxn (s : State) (x : Option Txn) (j : Nat) : (s.withTxn x).tr j = s.tr j := (rfl)
@[simp] theorem State.trq_withTxn (s : State) (x : Option Txn) (j : Nat) : (s.withTxn x).trq j = s.trq j := (rfl)
@[simp] theorem State.i3cT_withTxn (s : State) (x : Option Txn) (j : Nat) : (s.withTxn x).i3cT j = s.i3cT j := (rfl)
@[simp] theorem State.inj_withTxn (s : State) (x : Option Txn) (j : Nat) : (s.withTxn x).inj j = s.inj j := (rfl)
@[simp] theorem State.strm_withTxn (s : State) (x : Option Txn) (j : Nat) : (s.withTxn x).strm j = s.strm j := (rfl)
@[simp] theorem State.stack_withTxn (s : State) (x : Option Txn) (j : Nat) : (s.withTxn x).stack j = s.stack j := (rfl)
@[simp] theorem State.byte_withTxn (s : State) (x : Option Txn) (j : Nat) : (s.withTxn x).byte j = s.byte j := (rfl)
@[simp] theorem State.rf_withTxn (s : State) (x : Option Txn) (j lo w : Nat) : (s.withTxn x).rf j lo w = s.rf j lo w := (rfl)

@[simp] theorem State.r_withArmedTxns (s : State) (x : List Txn) (j : Nat) : (s.withArmedTxns x).r j = s.r j := (rfl)
@[simp] theorem State.die_withArmedTxns (s : State) (x : List Txn) (j : Nat) : (s.withArmedTxns x).die j = s.die j := (rfl)
@[simp] theorem State.pt_withArmedTxns (s : State) (x : List Txn) (j : Nat) : (s.withArmedTxns x).pt j = s.pt j := (rfl)
@[simp] theorem State.tile_withArmedTxns (s : State) (x : List Txn) (j : Nat) : (s.withArmedTxns x).tile j = s.tile j := (rfl)
@[simp] theorem State.token_withArmedTxns (s : State) (x : List Txn) (j : Nat) : (s.withArmedTxns x).token j = s.token j := (rfl)
@[simp] theorem State.walker_withArmedTxns (s : State) (x : List Txn) (j : Nat) : (s.withArmedTxns x).walker j = s.walker j := (rfl)
@[simp] theorem State.preWalker_withArmedTxns (s : State) (x : List Txn) (j : Nat) : (s.withArmedTxns x).preWalker j = s.preWalker j := (rfl)
@[simp] theorem State.port_withArmedTxns (s : State) (x : List Txn) (j : Nat) : (s.withArmedTxns x).port j = s.port j := (rfl)
@[simp] theorem State.ring_withArmedTxns (s : State) (x : List Txn) (j : Nat) : (s.withArmedTxns x).ring j = s.ring j := (rfl)
@[simp] theorem State.pcieFn_withArmedTxns (s : State) (x : List Txn) (j : Nat) : (s.withArmedTxns x).pcieFn j = s.pcieFn j := (rfl)
@[simp] theorem State.notif_withArmedTxns (s : State) (x : List Txn) (j : Nat) : (s.withArmedTxns x).notif j = s.notif j := (rfl)
@[simp] theorem State.part_withArmedTxns (s : State) (x : List Txn) (j : Nat) : (s.withArmedTxns x).part j = s.part j := (rfl)
@[simp] theorem State.ls_withArmedTxns (s : State) (x : List Txn) (j : Nat) : (s.withArmedTxns x).ls j = s.ls j := (rfl)
@[simp] theorem State.tr_withArmedTxns (s : State) (x : List Txn) (j : Nat) : (s.withArmedTxns x).tr j = s.tr j := (rfl)
@[simp] theorem State.trq_withArmedTxns (s : State) (x : List Txn) (j : Nat) : (s.withArmedTxns x).trq j = s.trq j := (rfl)
@[simp] theorem State.i3cT_withArmedTxns (s : State) (x : List Txn) (j : Nat) : (s.withArmedTxns x).i3cT j = s.i3cT j := (rfl)
@[simp] theorem State.inj_withArmedTxns (s : State) (x : List Txn) (j : Nat) : (s.withArmedTxns x).inj j = s.inj j := (rfl)
@[simp] theorem State.strm_withArmedTxns (s : State) (x : List Txn) (j : Nat) : (s.withArmedTxns x).strm j = s.strm j := (rfl)
@[simp] theorem State.stack_withArmedTxns (s : State) (x : List Txn) (j : Nat) : (s.withArmedTxns x).stack j = s.stack j := (rfl)
@[simp] theorem State.byte_withArmedTxns (s : State) (x : List Txn) (j : Nat) : (s.withArmedTxns x).byte j = s.byte j := (rfl)
@[simp] theorem State.rf_withArmedTxns (s : State) (x : List Txn) (j lo w : Nat) : (s.withArmedTxns x).rf j lo w = s.rf j lo w := (rfl)

@[simp] theorem State.r_withProt (s : State) (x : Prot) (j : Nat) : (s.withProt x).r j = s.r j := (rfl)
@[simp] theorem State.die_withProt (s : State) (x : Prot) (j : Nat) : (s.withProt x).die j = s.die j := (rfl)
@[simp] theorem State.pt_withProt (s : State) (x : Prot) (j : Nat) : (s.withProt x).pt j = s.pt j := (rfl)
@[simp] theorem State.tile_withProt (s : State) (x : Prot) (j : Nat) : (s.withProt x).tile j = s.tile j := (rfl)
@[simp] theorem State.token_withProt (s : State) (x : Prot) (j : Nat) : (s.withProt x).token j = s.token j := (rfl)
@[simp] theorem State.walker_withProt (s : State) (x : Prot) (j : Nat) : (s.withProt x).walker j = s.walker j := (rfl)
@[simp] theorem State.preWalker_withProt (s : State) (x : Prot) (j : Nat) : (s.withProt x).preWalker j = s.preWalker j := (rfl)
@[simp] theorem State.port_withProt (s : State) (x : Prot) (j : Nat) : (s.withProt x).port j = s.port j := (rfl)
@[simp] theorem State.ring_withProt (s : State) (x : Prot) (j : Nat) : (s.withProt x).ring j = s.ring j := (rfl)
@[simp] theorem State.pcieFn_withProt (s : State) (x : Prot) (j : Nat) : (s.withProt x).pcieFn j = s.pcieFn j := (rfl)
@[simp] theorem State.notif_withProt (s : State) (x : Prot) (j : Nat) : (s.withProt x).notif j = s.notif j := (rfl)
@[simp] theorem State.part_withProt (s : State) (x : Prot) (j : Nat) : (s.withProt x).part j = s.part j := (rfl)
@[simp] theorem State.ls_withProt (s : State) (x : Prot) (j : Nat) : (s.withProt x).ls j = s.ls j := (rfl)
@[simp] theorem State.tr_withProt (s : State) (x : Prot) (j : Nat) : (s.withProt x).tr j = s.tr j := (rfl)
@[simp] theorem State.trq_withProt (s : State) (x : Prot) (j : Nat) : (s.withProt x).trq j = s.trq j := (rfl)
@[simp] theorem State.i3cT_withProt (s : State) (x : Prot) (j : Nat) : (s.withProt x).i3cT j = s.i3cT j := (rfl)
@[simp] theorem State.inj_withProt (s : State) (x : Prot) (j : Nat) : (s.withProt x).inj j = s.inj j := (rfl)
@[simp] theorem State.strm_withProt (s : State) (x : Prot) (j : Nat) : (s.withProt x).strm j = s.strm j := (rfl)
@[simp] theorem State.stack_withProt (s : State) (x : Prot) (j : Nat) : (s.withProt x).stack j = s.stack j := (rfl)
@[simp] theorem State.byte_withProt (s : State) (x : Prot) (j : Nat) : (s.withProt x).byte j = s.byte j := (rfl)
@[simp] theorem State.rf_withProt (s : State) (x : Prot) (j lo w : Nat) : (s.withProt x).rf j lo w = s.rf j lo w := (rfl)

@[simp] theorem State.r_withSnapAt (s : State) (x : Option Nat) (j : Nat) : (s.withSnapAt x).r j = s.r j := (rfl)
@[simp] theorem State.die_withSnapAt (s : State) (x : Option Nat) (j : Nat) : (s.withSnapAt x).die j = s.die j := (rfl)
@[simp] theorem State.pt_withSnapAt (s : State) (x : Option Nat) (j : Nat) : (s.withSnapAt x).pt j = s.pt j := (rfl)
@[simp] theorem State.tile_withSnapAt (s : State) (x : Option Nat) (j : Nat) : (s.withSnapAt x).tile j = s.tile j := (rfl)
@[simp] theorem State.token_withSnapAt (s : State) (x : Option Nat) (j : Nat) : (s.withSnapAt x).token j = s.token j := (rfl)
@[simp] theorem State.walker_withSnapAt (s : State) (x : Option Nat) (j : Nat) : (s.withSnapAt x).walker j = s.walker j := (rfl)
@[simp] theorem State.preWalker_withSnapAt (s : State) (x : Option Nat) (j : Nat) : (s.withSnapAt x).preWalker j = s.preWalker j := (rfl)
@[simp] theorem State.port_withSnapAt (s : State) (x : Option Nat) (j : Nat) : (s.withSnapAt x).port j = s.port j := (rfl)
@[simp] theorem State.ring_withSnapAt (s : State) (x : Option Nat) (j : Nat) : (s.withSnapAt x).ring j = s.ring j := (rfl)
@[simp] theorem State.pcieFn_withSnapAt (s : State) (x : Option Nat) (j : Nat) : (s.withSnapAt x).pcieFn j = s.pcieFn j := (rfl)
@[simp] theorem State.notif_withSnapAt (s : State) (x : Option Nat) (j : Nat) : (s.withSnapAt x).notif j = s.notif j := (rfl)
@[simp] theorem State.part_withSnapAt (s : State) (x : Option Nat) (j : Nat) : (s.withSnapAt x).part j = s.part j := (rfl)
@[simp] theorem State.ls_withSnapAt (s : State) (x : Option Nat) (j : Nat) : (s.withSnapAt x).ls j = s.ls j := (rfl)
@[simp] theorem State.tr_withSnapAt (s : State) (x : Option Nat) (j : Nat) : (s.withSnapAt x).tr j = s.tr j := (rfl)
@[simp] theorem State.trq_withSnapAt (s : State) (x : Option Nat) (j : Nat) : (s.withSnapAt x).trq j = s.trq j := (rfl)
@[simp] theorem State.i3cT_withSnapAt (s : State) (x : Option Nat) (j : Nat) : (s.withSnapAt x).i3cT j = s.i3cT j := (rfl)
@[simp] theorem State.inj_withSnapAt (s : State) (x : Option Nat) (j : Nat) : (s.withSnapAt x).inj j = s.inj j := (rfl)
@[simp] theorem State.strm_withSnapAt (s : State) (x : Option Nat) (j : Nat) : (s.withSnapAt x).strm j = s.strm j := (rfl)
@[simp] theorem State.stack_withSnapAt (s : State) (x : Option Nat) (j : Nat) : (s.withSnapAt x).stack j = s.stack j := (rfl)
@[simp] theorem State.byte_withSnapAt (s : State) (x : Option Nat) (j : Nat) : (s.withSnapAt x).byte j = s.byte j := (rfl)
@[simp] theorem State.rf_withSnapAt (s : State) (x : Option Nat) (j lo w : Nat) : (s.withSnapAt x).rf j lo w = s.rf j lo w := (rfl)

@[simp] theorem State.r_withDump (s : State) (x : Option Dump) (j : Nat) : (s.withDump x).r j = s.r j := (rfl)
@[simp] theorem State.die_withDump (s : State) (x : Option Dump) (j : Nat) : (s.withDump x).die j = s.die j := (rfl)
@[simp] theorem State.pt_withDump (s : State) (x : Option Dump) (j : Nat) : (s.withDump x).pt j = s.pt j := (rfl)
@[simp] theorem State.tile_withDump (s : State) (x : Option Dump) (j : Nat) : (s.withDump x).tile j = s.tile j := (rfl)
@[simp] theorem State.token_withDump (s : State) (x : Option Dump) (j : Nat) : (s.withDump x).token j = s.token j := (rfl)
@[simp] theorem State.walker_withDump (s : State) (x : Option Dump) (j : Nat) : (s.withDump x).walker j = s.walker j := (rfl)
@[simp] theorem State.preWalker_withDump (s : State) (x : Option Dump) (j : Nat) : (s.withDump x).preWalker j = s.preWalker j := (rfl)
@[simp] theorem State.port_withDump (s : State) (x : Option Dump) (j : Nat) : (s.withDump x).port j = s.port j := (rfl)
@[simp] theorem State.ring_withDump (s : State) (x : Option Dump) (j : Nat) : (s.withDump x).ring j = s.ring j := (rfl)
@[simp] theorem State.pcieFn_withDump (s : State) (x : Option Dump) (j : Nat) : (s.withDump x).pcieFn j = s.pcieFn j := (rfl)
@[simp] theorem State.notif_withDump (s : State) (x : Option Dump) (j : Nat) : (s.withDump x).notif j = s.notif j := (rfl)
@[simp] theorem State.part_withDump (s : State) (x : Option Dump) (j : Nat) : (s.withDump x).part j = s.part j := (rfl)
@[simp] theorem State.ls_withDump (s : State) (x : Option Dump) (j : Nat) : (s.withDump x).ls j = s.ls j := (rfl)
@[simp] theorem State.tr_withDump (s : State) (x : Option Dump) (j : Nat) : (s.withDump x).tr j = s.tr j := (rfl)
@[simp] theorem State.trq_withDump (s : State) (x : Option Dump) (j : Nat) : (s.withDump x).trq j = s.trq j := (rfl)
@[simp] theorem State.i3cT_withDump (s : State) (x : Option Dump) (j : Nat) : (s.withDump x).i3cT j = s.i3cT j := (rfl)
@[simp] theorem State.inj_withDump (s : State) (x : Option Dump) (j : Nat) : (s.withDump x).inj j = s.inj j := (rfl)
@[simp] theorem State.strm_withDump (s : State) (x : Option Dump) (j : Nat) : (s.withDump x).strm j = s.strm j := (rfl)
@[simp] theorem State.stack_withDump (s : State) (x : Option Dump) (j : Nat) : (s.withDump x).stack j = s.stack j := (rfl)
@[simp] theorem State.byte_withDump (s : State) (x : Option Dump) (j : Nat) : (s.withDump x).byte j = s.byte j := (rfl)
@[simp] theorem State.rf_withDump (s : State) (x : Option Dump) (j lo w : Nat) : (s.withDump x).rf j lo w = s.rf j lo w := (rfl)

@[simp] theorem State.r_withWfg (s : State) (x : Wfg) (j : Nat) : (s.withWfg x).r j = s.r j := (rfl)
@[simp] theorem State.die_withWfg (s : State) (x : Wfg) (j : Nat) : (s.withWfg x).die j = s.die j := (rfl)
@[simp] theorem State.pt_withWfg (s : State) (x : Wfg) (j : Nat) : (s.withWfg x).pt j = s.pt j := (rfl)
@[simp] theorem State.tile_withWfg (s : State) (x : Wfg) (j : Nat) : (s.withWfg x).tile j = s.tile j := (rfl)
@[simp] theorem State.token_withWfg (s : State) (x : Wfg) (j : Nat) : (s.withWfg x).token j = s.token j := (rfl)
@[simp] theorem State.walker_withWfg (s : State) (x : Wfg) (j : Nat) : (s.withWfg x).walker j = s.walker j := (rfl)
@[simp] theorem State.preWalker_withWfg (s : State) (x : Wfg) (j : Nat) : (s.withWfg x).preWalker j = s.preWalker j := (rfl)
@[simp] theorem State.port_withWfg (s : State) (x : Wfg) (j : Nat) : (s.withWfg x).port j = s.port j := (rfl)
@[simp] theorem State.ring_withWfg (s : State) (x : Wfg) (j : Nat) : (s.withWfg x).ring j = s.ring j := (rfl)
@[simp] theorem State.pcieFn_withWfg (s : State) (x : Wfg) (j : Nat) : (s.withWfg x).pcieFn j = s.pcieFn j := (rfl)
@[simp] theorem State.notif_withWfg (s : State) (x : Wfg) (j : Nat) : (s.withWfg x).notif j = s.notif j := (rfl)
@[simp] theorem State.part_withWfg (s : State) (x : Wfg) (j : Nat) : (s.withWfg x).part j = s.part j := (rfl)
@[simp] theorem State.ls_withWfg (s : State) (x : Wfg) (j : Nat) : (s.withWfg x).ls j = s.ls j := (rfl)
@[simp] theorem State.tr_withWfg (s : State) (x : Wfg) (j : Nat) : (s.withWfg x).tr j = s.tr j := (rfl)
@[simp] theorem State.trq_withWfg (s : State) (x : Wfg) (j : Nat) : (s.withWfg x).trq j = s.trq j := (rfl)
@[simp] theorem State.i3cT_withWfg (s : State) (x : Wfg) (j : Nat) : (s.withWfg x).i3cT j = s.i3cT j := (rfl)
@[simp] theorem State.inj_withWfg (s : State) (x : Wfg) (j : Nat) : (s.withWfg x).inj j = s.inj j := (rfl)
@[simp] theorem State.strm_withWfg (s : State) (x : Wfg) (j : Nat) : (s.withWfg x).strm j = s.strm j := (rfl)
@[simp] theorem State.stack_withWfg (s : State) (x : Wfg) (j : Nat) : (s.withWfg x).stack j = s.stack j := (rfl)
@[simp] theorem State.byte_withWfg (s : State) (x : Wfg) (j : Nat) : (s.withWfg x).byte j = s.byte j := (rfl)
@[simp] theorem State.rf_withWfg (s : State) (x : Wfg) (j lo w : Nat) : (s.withWfg x).rf j lo w = s.rf j lo w := (rfl)

@[simp] theorem State.r_withStreams (s : State) (x : SMap (List Stream)) (j : Nat) : (s.withStreams x).r j = s.r j := (rfl)
@[simp] theorem State.die_withStreams (s : State) (x : SMap (List Stream)) (j : Nat) : (s.withStreams x).die j = s.die j := (rfl)
@[simp] theorem State.pt_withStreams (s : State) (x : SMap (List Stream)) (j : Nat) : (s.withStreams x).pt j = s.pt j := (rfl)
@[simp] theorem State.tile_withStreams (s : State) (x : SMap (List Stream)) (j : Nat) : (s.withStreams x).tile j = s.tile j := (rfl)
@[simp] theorem State.token_withStreams (s : State) (x : SMap (List Stream)) (j : Nat) : (s.withStreams x).token j = s.token j := (rfl)
@[simp] theorem State.walker_withStreams (s : State) (x : SMap (List Stream)) (j : Nat) : (s.withStreams x).walker j = s.walker j := (rfl)
@[simp] theorem State.preWalker_withStreams (s : State) (x : SMap (List Stream)) (j : Nat) : (s.withStreams x).preWalker j = s.preWalker j := (rfl)
@[simp] theorem State.port_withStreams (s : State) (x : SMap (List Stream)) (j : Nat) : (s.withStreams x).port j = s.port j := (rfl)
@[simp] theorem State.ring_withStreams (s : State) (x : SMap (List Stream)) (j : Nat) : (s.withStreams x).ring j = s.ring j := (rfl)
@[simp] theorem State.pcieFn_withStreams (s : State) (x : SMap (List Stream)) (j : Nat) : (s.withStreams x).pcieFn j = s.pcieFn j := (rfl)
@[simp] theorem State.notif_withStreams (s : State) (x : SMap (List Stream)) (j : Nat) : (s.withStreams x).notif j = s.notif j := (rfl)
@[simp] theorem State.part_withStreams (s : State) (x : SMap (List Stream)) (j : Nat) : (s.withStreams x).part j = s.part j := (rfl)
@[simp] theorem State.ls_withStreams (s : State) (x : SMap (List Stream)) (j : Nat) : (s.withStreams x).ls j = s.ls j := (rfl)
@[simp] theorem State.tr_withStreams (s : State) (x : SMap (List Stream)) (j : Nat) : (s.withStreams x).tr j = s.tr j := (rfl)
@[simp] theorem State.trq_withStreams (s : State) (x : SMap (List Stream)) (j : Nat) : (s.withStreams x).trq j = s.trq j := (rfl)
@[simp] theorem State.i3cT_withStreams (s : State) (x : SMap (List Stream)) (j : Nat) : (s.withStreams x).i3cT j = s.i3cT j := (rfl)
@[simp] theorem State.inj_withStreams (s : State) (x : SMap (List Stream)) (j : Nat) : (s.withStreams x).inj j = s.inj j := (rfl)
@[simp] theorem State.stack_withStreams (s : State) (x : SMap (List Stream)) (j : Nat) : (s.withStreams x).stack j = s.stack j := (rfl)
@[simp] theorem State.byte_withStreams (s : State) (x : SMap (List Stream)) (j : Nat) : (s.withStreams x).byte j = s.byte j := (rfl)
@[simp] theorem State.rf_withStreams (s : State) (x : SMap (List Stream)) (j lo w : Nat) : (s.withStreams x).rf j lo w = s.rf j lo w := (rfl)

@[simp] theorem State.r_withGrants (s : State) (x : SMap (Nat × Nat)) (j : Nat) : (s.withGrants x).r j = s.r j := (rfl)
@[simp] theorem State.die_withGrants (s : State) (x : SMap (Nat × Nat)) (j : Nat) : (s.withGrants x).die j = s.die j := (rfl)
@[simp] theorem State.pt_withGrants (s : State) (x : SMap (Nat × Nat)) (j : Nat) : (s.withGrants x).pt j = s.pt j := (rfl)
@[simp] theorem State.tile_withGrants (s : State) (x : SMap (Nat × Nat)) (j : Nat) : (s.withGrants x).tile j = s.tile j := (rfl)
@[simp] theorem State.token_withGrants (s : State) (x : SMap (Nat × Nat)) (j : Nat) : (s.withGrants x).token j = s.token j := (rfl)
@[simp] theorem State.walker_withGrants (s : State) (x : SMap (Nat × Nat)) (j : Nat) : (s.withGrants x).walker j = s.walker j := (rfl)
@[simp] theorem State.preWalker_withGrants (s : State) (x : SMap (Nat × Nat)) (j : Nat) : (s.withGrants x).preWalker j = s.preWalker j := (rfl)
@[simp] theorem State.port_withGrants (s : State) (x : SMap (Nat × Nat)) (j : Nat) : (s.withGrants x).port j = s.port j := (rfl)
@[simp] theorem State.ring_withGrants (s : State) (x : SMap (Nat × Nat)) (j : Nat) : (s.withGrants x).ring j = s.ring j := (rfl)
@[simp] theorem State.pcieFn_withGrants (s : State) (x : SMap (Nat × Nat)) (j : Nat) : (s.withGrants x).pcieFn j = s.pcieFn j := (rfl)
@[simp] theorem State.notif_withGrants (s : State) (x : SMap (Nat × Nat)) (j : Nat) : (s.withGrants x).notif j = s.notif j := (rfl)
@[simp] theorem State.part_withGrants (s : State) (x : SMap (Nat × Nat)) (j : Nat) : (s.withGrants x).part j = s.part j := (rfl)
@[simp] theorem State.ls_withGrants (s : State) (x : SMap (Nat × Nat)) (j : Nat) : (s.withGrants x).ls j = s.ls j := (rfl)
@[simp] theorem State.tr_withGrants (s : State) (x : SMap (Nat × Nat)) (j : Nat) : (s.withGrants x).tr j = s.tr j := (rfl)
@[simp] theorem State.trq_withGrants (s : State) (x : SMap (Nat × Nat)) (j : Nat) : (s.withGrants x).trq j = s.trq j := (rfl)
@[simp] theorem State.i3cT_withGrants (s : State) (x : SMap (Nat × Nat)) (j : Nat) : (s.withGrants x).i3cT j = s.i3cT j := (rfl)
@[simp] theorem State.inj_withGrants (s : State) (x : SMap (Nat × Nat)) (j : Nat) : (s.withGrants x).inj j = s.inj j := (rfl)
@[simp] theorem State.strm_withGrants (s : State) (x : SMap (Nat × Nat)) (j : Nat) : (s.withGrants x).strm j = s.strm j := (rfl)
@[simp] theorem State.stack_withGrants (s : State) (x : SMap (Nat × Nat)) (j : Nat) : (s.withGrants x).stack j = s.stack j := (rfl)
@[simp] theorem State.byte_withGrants (s : State) (x : SMap (Nat × Nat)) (j : Nat) : (s.withGrants x).byte j = s.byte j := (rfl)
@[simp] theorem State.rf_withGrants (s : State) (x : SMap (Nat × Nat)) (j lo w : Nat) : (s.withGrants x).rf j lo w = s.rf j lo w := (rfl)

@[simp] theorem State.r_withEngine (s : State) (x : SMap (Nat × Nat)) (j : Nat) : (s.withEngine x).r j = s.r j := (rfl)
@[simp] theorem State.die_withEngine (s : State) (x : SMap (Nat × Nat)) (j : Nat) : (s.withEngine x).die j = s.die j := (rfl)
@[simp] theorem State.pt_withEngine (s : State) (x : SMap (Nat × Nat)) (j : Nat) : (s.withEngine x).pt j = s.pt j := (rfl)
@[simp] theorem State.tile_withEngine (s : State) (x : SMap (Nat × Nat)) (j : Nat) : (s.withEngine x).tile j = s.tile j := (rfl)
@[simp] theorem State.token_withEngine (s : State) (x : SMap (Nat × Nat)) (j : Nat) : (s.withEngine x).token j = s.token j := (rfl)
@[simp] theorem State.walker_withEngine (s : State) (x : SMap (Nat × Nat)) (j : Nat) : (s.withEngine x).walker j = s.walker j := (rfl)
@[simp] theorem State.preWalker_withEngine (s : State) (x : SMap (Nat × Nat)) (j : Nat) : (s.withEngine x).preWalker j = s.preWalker j := (rfl)
@[simp] theorem State.port_withEngine (s : State) (x : SMap (Nat × Nat)) (j : Nat) : (s.withEngine x).port j = s.port j := (rfl)
@[simp] theorem State.ring_withEngine (s : State) (x : SMap (Nat × Nat)) (j : Nat) : (s.withEngine x).ring j = s.ring j := (rfl)
@[simp] theorem State.pcieFn_withEngine (s : State) (x : SMap (Nat × Nat)) (j : Nat) : (s.withEngine x).pcieFn j = s.pcieFn j := (rfl)
@[simp] theorem State.notif_withEngine (s : State) (x : SMap (Nat × Nat)) (j : Nat) : (s.withEngine x).notif j = s.notif j := (rfl)
@[simp] theorem State.part_withEngine (s : State) (x : SMap (Nat × Nat)) (j : Nat) : (s.withEngine x).part j = s.part j := (rfl)
@[simp] theorem State.ls_withEngine (s : State) (x : SMap (Nat × Nat)) (j : Nat) : (s.withEngine x).ls j = s.ls j := (rfl)
@[simp] theorem State.tr_withEngine (s : State) (x : SMap (Nat × Nat)) (j : Nat) : (s.withEngine x).tr j = s.tr j := (rfl)
@[simp] theorem State.trq_withEngine (s : State) (x : SMap (Nat × Nat)) (j : Nat) : (s.withEngine x).trq j = s.trq j := (rfl)
@[simp] theorem State.i3cT_withEngine (s : State) (x : SMap (Nat × Nat)) (j : Nat) : (s.withEngine x).i3cT j = s.i3cT j := (rfl)
@[simp] theorem State.inj_withEngine (s : State) (x : SMap (Nat × Nat)) (j : Nat) : (s.withEngine x).inj j = s.inj j := (rfl)
@[simp] theorem State.strm_withEngine (s : State) (x : SMap (Nat × Nat)) (j : Nat) : (s.withEngine x).strm j = s.strm j := (rfl)
@[simp] theorem State.stack_withEngine (s : State) (x : SMap (Nat × Nat)) (j : Nat) : (s.withEngine x).stack j = s.stack j := (rfl)
@[simp] theorem State.byte_withEngine (s : State) (x : SMap (Nat × Nat)) (j : Nat) : (s.withEngine x).byte j = s.byte j := (rfl)
@[simp] theorem State.rf_withEngine (s : State) (x : SMap (Nat × Nat)) (j lo w : Nat) : (s.withEngine x).rf j lo w = s.rf j lo w := (rfl)

@[simp] theorem State.r_withHbm (s : State) (x : SMap Stack) (j : Nat) : (s.withHbm x).r j = s.r j := (rfl)
@[simp] theorem State.die_withHbm (s : State) (x : SMap Stack) (j : Nat) : (s.withHbm x).die j = s.die j := (rfl)
@[simp] theorem State.pt_withHbm (s : State) (x : SMap Stack) (j : Nat) : (s.withHbm x).pt j = s.pt j := (rfl)
@[simp] theorem State.tile_withHbm (s : State) (x : SMap Stack) (j : Nat) : (s.withHbm x).tile j = s.tile j := (rfl)
@[simp] theorem State.token_withHbm (s : State) (x : SMap Stack) (j : Nat) : (s.withHbm x).token j = s.token j := (rfl)
@[simp] theorem State.walker_withHbm (s : State) (x : SMap Stack) (j : Nat) : (s.withHbm x).walker j = s.walker j := (rfl)
@[simp] theorem State.preWalker_withHbm (s : State) (x : SMap Stack) (j : Nat) : (s.withHbm x).preWalker j = s.preWalker j := (rfl)
@[simp] theorem State.port_withHbm (s : State) (x : SMap Stack) (j : Nat) : (s.withHbm x).port j = s.port j := (rfl)
@[simp] theorem State.ring_withHbm (s : State) (x : SMap Stack) (j : Nat) : (s.withHbm x).ring j = s.ring j := (rfl)
@[simp] theorem State.pcieFn_withHbm (s : State) (x : SMap Stack) (j : Nat) : (s.withHbm x).pcieFn j = s.pcieFn j := (rfl)
@[simp] theorem State.notif_withHbm (s : State) (x : SMap Stack) (j : Nat) : (s.withHbm x).notif j = s.notif j := (rfl)
@[simp] theorem State.part_withHbm (s : State) (x : SMap Stack) (j : Nat) : (s.withHbm x).part j = s.part j := (rfl)
@[simp] theorem State.ls_withHbm (s : State) (x : SMap Stack) (j : Nat) : (s.withHbm x).ls j = s.ls j := (rfl)
@[simp] theorem State.tr_withHbm (s : State) (x : SMap Stack) (j : Nat) : (s.withHbm x).tr j = s.tr j := (rfl)
@[simp] theorem State.trq_withHbm (s : State) (x : SMap Stack) (j : Nat) : (s.withHbm x).trq j = s.trq j := (rfl)
@[simp] theorem State.i3cT_withHbm (s : State) (x : SMap Stack) (j : Nat) : (s.withHbm x).i3cT j = s.i3cT j := (rfl)
@[simp] theorem State.inj_withHbm (s : State) (x : SMap Stack) (j : Nat) : (s.withHbm x).inj j = s.inj j := (rfl)
@[simp] theorem State.strm_withHbm (s : State) (x : SMap Stack) (j : Nat) : (s.withHbm x).strm j = s.strm j := (rfl)
@[simp] theorem State.byte_withHbm (s : State) (x : SMap Stack) (j : Nat) : (s.withHbm x).byte j = s.byte j := (rfl)
@[simp] theorem State.rf_withHbm (s : State) (x : SMap Stack) (j lo w : Nat) : (s.withHbm x).rf j lo w = s.rf j lo w := (rfl)

@[simp] theorem State.r_withSpray (s : State) (x : SMap Nat) (j : Nat) : (s.withSpray x).r j = s.r j := (rfl)
@[simp] theorem State.die_withSpray (s : State) (x : SMap Nat) (j : Nat) : (s.withSpray x).die j = s.die j := (rfl)
@[simp] theorem State.pt_withSpray (s : State) (x : SMap Nat) (j : Nat) : (s.withSpray x).pt j = s.pt j := (rfl)
@[simp] theorem State.tile_withSpray (s : State) (x : SMap Nat) (j : Nat) : (s.withSpray x).tile j = s.tile j := (rfl)
@[simp] theorem State.token_withSpray (s : State) (x : SMap Nat) (j : Nat) : (s.withSpray x).token j = s.token j := (rfl)
@[simp] theorem State.walker_withSpray (s : State) (x : SMap Nat) (j : Nat) : (s.withSpray x).walker j = s.walker j := (rfl)
@[simp] theorem State.preWalker_withSpray (s : State) (x : SMap Nat) (j : Nat) : (s.withSpray x).preWalker j = s.preWalker j := (rfl)
@[simp] theorem State.port_withSpray (s : State) (x : SMap Nat) (j : Nat) : (s.withSpray x).port j = s.port j := (rfl)
@[simp] theorem State.ring_withSpray (s : State) (x : SMap Nat) (j : Nat) : (s.withSpray x).ring j = s.ring j := (rfl)
@[simp] theorem State.pcieFn_withSpray (s : State) (x : SMap Nat) (j : Nat) : (s.withSpray x).pcieFn j = s.pcieFn j := (rfl)
@[simp] theorem State.notif_withSpray (s : State) (x : SMap Nat) (j : Nat) : (s.withSpray x).notif j = s.notif j := (rfl)
@[simp] theorem State.part_withSpray (s : State) (x : SMap Nat) (j : Nat) : (s.withSpray x).part j = s.part j := (rfl)
@[simp] theorem State.ls_withSpray (s : State) (x : SMap Nat) (j : Nat) : (s.withSpray x).ls j = s.ls j := (rfl)
@[simp] theorem State.tr_withSpray (s : State) (x : SMap Nat) (j : Nat) : (s.withSpray x).tr j = s.tr j := (rfl)
@[simp] theorem State.trq_withSpray (s : State) (x : SMap Nat) (j : Nat) : (s.withSpray x).trq j = s.trq j := (rfl)
@[simp] theorem State.i3cT_withSpray (s : State) (x : SMap Nat) (j : Nat) : (s.withSpray x).i3cT j = s.i3cT j := (rfl)
@[simp] theorem State.inj_withSpray (s : State) (x : SMap Nat) (j : Nat) : (s.withSpray x).inj j = s.inj j := (rfl)
@[simp] theorem State.strm_withSpray (s : State) (x : SMap Nat) (j : Nat) : (s.withSpray x).strm j = s.strm j := (rfl)
@[simp] theorem State.stack_withSpray (s : State) (x : SMap Nat) (j : Nat) : (s.withSpray x).stack j = s.stack j := (rfl)
@[simp] theorem State.byte_withSpray (s : State) (x : SMap Nat) (j : Nat) : (s.withSpray x).byte j = s.byte j := (rfl)
@[simp] theorem State.rf_withSpray (s : State) (x : SMap Nat) (j lo w : Nat) : (s.withSpray x).rf j lo w = s.rf j lo w := (rfl)

@[simp] theorem State.r_withNseq (s : State) (x : BitVec 16) (j : Nat) : (s.withNseq x).r j = s.r j := (rfl)
@[simp] theorem State.die_withNseq (s : State) (x : BitVec 16) (j : Nat) : (s.withNseq x).die j = s.die j := (rfl)
@[simp] theorem State.pt_withNseq (s : State) (x : BitVec 16) (j : Nat) : (s.withNseq x).pt j = s.pt j := (rfl)
@[simp] theorem State.tile_withNseq (s : State) (x : BitVec 16) (j : Nat) : (s.withNseq x).tile j = s.tile j := (rfl)
@[simp] theorem State.token_withNseq (s : State) (x : BitVec 16) (j : Nat) : (s.withNseq x).token j = s.token j := (rfl)
@[simp] theorem State.walker_withNseq (s : State) (x : BitVec 16) (j : Nat) : (s.withNseq x).walker j = s.walker j := (rfl)
@[simp] theorem State.preWalker_withNseq (s : State) (x : BitVec 16) (j : Nat) : (s.withNseq x).preWalker j = s.preWalker j := (rfl)
@[simp] theorem State.port_withNseq (s : State) (x : BitVec 16) (j : Nat) : (s.withNseq x).port j = s.port j := (rfl)
@[simp] theorem State.ring_withNseq (s : State) (x : BitVec 16) (j : Nat) : (s.withNseq x).ring j = s.ring j := (rfl)
@[simp] theorem State.pcieFn_withNseq (s : State) (x : BitVec 16) (j : Nat) : (s.withNseq x).pcieFn j = s.pcieFn j := (rfl)
@[simp] theorem State.notif_withNseq (s : State) (x : BitVec 16) (j : Nat) : (s.withNseq x).notif j = s.notif j := (rfl)
@[simp] theorem State.part_withNseq (s : State) (x : BitVec 16) (j : Nat) : (s.withNseq x).part j = s.part j := (rfl)
@[simp] theorem State.ls_withNseq (s : State) (x : BitVec 16) (j : Nat) : (s.withNseq x).ls j = s.ls j := (rfl)
@[simp] theorem State.tr_withNseq (s : State) (x : BitVec 16) (j : Nat) : (s.withNseq x).tr j = s.tr j := (rfl)
@[simp] theorem State.trq_withNseq (s : State) (x : BitVec 16) (j : Nat) : (s.withNseq x).trq j = s.trq j := (rfl)
@[simp] theorem State.i3cT_withNseq (s : State) (x : BitVec 16) (j : Nat) : (s.withNseq x).i3cT j = s.i3cT j := (rfl)
@[simp] theorem State.inj_withNseq (s : State) (x : BitVec 16) (j : Nat) : (s.withNseq x).inj j = s.inj j := (rfl)
@[simp] theorem State.strm_withNseq (s : State) (x : BitVec 16) (j : Nat) : (s.withNseq x).strm j = s.strm j := (rfl)
@[simp] theorem State.stack_withNseq (s : State) (x : BitVec 16) (j : Nat) : (s.withNseq x).stack j = s.stack j := (rfl)
@[simp] theorem State.byte_withNseq (s : State) (x : BitVec 16) (j : Nat) : (s.withNseq x).byte j = s.byte j := (rfl)
@[simp] theorem State.rf_withNseq (s : State) (x : BitVec 16) (j lo w : Nat) : (s.withNseq x).rf j lo w = s.rf j lo w := (rfl)

@[simp] theorem State.r_withLastNseq (s : State) (x : SMap Nat) (j : Nat) : (s.withLastNseq x).r j = s.r j := (rfl)
@[simp] theorem State.die_withLastNseq (s : State) (x : SMap Nat) (j : Nat) : (s.withLastNseq x).die j = s.die j := (rfl)
@[simp] theorem State.pt_withLastNseq (s : State) (x : SMap Nat) (j : Nat) : (s.withLastNseq x).pt j = s.pt j := (rfl)
@[simp] theorem State.tile_withLastNseq (s : State) (x : SMap Nat) (j : Nat) : (s.withLastNseq x).tile j = s.tile j := (rfl)
@[simp] theorem State.token_withLastNseq (s : State) (x : SMap Nat) (j : Nat) : (s.withLastNseq x).token j = s.token j := (rfl)
@[simp] theorem State.walker_withLastNseq (s : State) (x : SMap Nat) (j : Nat) : (s.withLastNseq x).walker j = s.walker j := (rfl)
@[simp] theorem State.preWalker_withLastNseq (s : State) (x : SMap Nat) (j : Nat) : (s.withLastNseq x).preWalker j = s.preWalker j := (rfl)
@[simp] theorem State.port_withLastNseq (s : State) (x : SMap Nat) (j : Nat) : (s.withLastNseq x).port j = s.port j := (rfl)
@[simp] theorem State.ring_withLastNseq (s : State) (x : SMap Nat) (j : Nat) : (s.withLastNseq x).ring j = s.ring j := (rfl)
@[simp] theorem State.pcieFn_withLastNseq (s : State) (x : SMap Nat) (j : Nat) : (s.withLastNseq x).pcieFn j = s.pcieFn j := (rfl)
@[simp] theorem State.notif_withLastNseq (s : State) (x : SMap Nat) (j : Nat) : (s.withLastNseq x).notif j = s.notif j := (rfl)
@[simp] theorem State.part_withLastNseq (s : State) (x : SMap Nat) (j : Nat) : (s.withLastNseq x).part j = s.part j := (rfl)
@[simp] theorem State.ls_withLastNseq (s : State) (x : SMap Nat) (j : Nat) : (s.withLastNseq x).ls j = s.ls j := (rfl)
@[simp] theorem State.tr_withLastNseq (s : State) (x : SMap Nat) (j : Nat) : (s.withLastNseq x).tr j = s.tr j := (rfl)
@[simp] theorem State.trq_withLastNseq (s : State) (x : SMap Nat) (j : Nat) : (s.withLastNseq x).trq j = s.trq j := (rfl)
@[simp] theorem State.i3cT_withLastNseq (s : State) (x : SMap Nat) (j : Nat) : (s.withLastNseq x).i3cT j = s.i3cT j := (rfl)
@[simp] theorem State.inj_withLastNseq (s : State) (x : SMap Nat) (j : Nat) : (s.withLastNseq x).inj j = s.inj j := (rfl)
@[simp] theorem State.strm_withLastNseq (s : State) (x : SMap Nat) (j : Nat) : (s.withLastNseq x).strm j = s.strm j := (rfl)
@[simp] theorem State.stack_withLastNseq (s : State) (x : SMap Nat) (j : Nat) : (s.withLastNseq x).stack j = s.stack j := (rfl)
@[simp] theorem State.byte_withLastNseq (s : State) (x : SMap Nat) (j : Nat) : (s.withLastNseq x).byte j = s.byte j := (rfl)
@[simp] theorem State.rf_withLastNseq (s : State) (x : SMap Nat) (j lo w : Nat) : (s.withLastNseq x).rf j lo w = s.rf j lo w := (rfl)

@[simp] theorem State.r_withFlipPrev (s : State) (x : Option Nat) (j : Nat) : (s.withFlipPrev x).r j = s.r j := (rfl)
@[simp] theorem State.die_withFlipPrev (s : State) (x : Option Nat) (j : Nat) : (s.withFlipPrev x).die j = s.die j := (rfl)
@[simp] theorem State.pt_withFlipPrev (s : State) (x : Option Nat) (j : Nat) : (s.withFlipPrev x).pt j = s.pt j := (rfl)
@[simp] theorem State.tile_withFlipPrev (s : State) (x : Option Nat) (j : Nat) : (s.withFlipPrev x).tile j = s.tile j := (rfl)
@[simp] theorem State.token_withFlipPrev (s : State) (x : Option Nat) (j : Nat) : (s.withFlipPrev x).token j = s.token j := (rfl)
@[simp] theorem State.walker_withFlipPrev (s : State) (x : Option Nat) (j : Nat) : (s.withFlipPrev x).walker j = s.walker j := (rfl)
@[simp] theorem State.preWalker_withFlipPrev (s : State) (x : Option Nat) (j : Nat) : (s.withFlipPrev x).preWalker j = s.preWalker j := (rfl)
@[simp] theorem State.port_withFlipPrev (s : State) (x : Option Nat) (j : Nat) : (s.withFlipPrev x).port j = s.port j := (rfl)
@[simp] theorem State.ring_withFlipPrev (s : State) (x : Option Nat) (j : Nat) : (s.withFlipPrev x).ring j = s.ring j := (rfl)
@[simp] theorem State.pcieFn_withFlipPrev (s : State) (x : Option Nat) (j : Nat) : (s.withFlipPrev x).pcieFn j = s.pcieFn j := (rfl)
@[simp] theorem State.notif_withFlipPrev (s : State) (x : Option Nat) (j : Nat) : (s.withFlipPrev x).notif j = s.notif j := (rfl)
@[simp] theorem State.part_withFlipPrev (s : State) (x : Option Nat) (j : Nat) : (s.withFlipPrev x).part j = s.part j := (rfl)
@[simp] theorem State.ls_withFlipPrev (s : State) (x : Option Nat) (j : Nat) : (s.withFlipPrev x).ls j = s.ls j := (rfl)
@[simp] theorem State.tr_withFlipPrev (s : State) (x : Option Nat) (j : Nat) : (s.withFlipPrev x).tr j = s.tr j := (rfl)
@[simp] theorem State.trq_withFlipPrev (s : State) (x : Option Nat) (j : Nat) : (s.withFlipPrev x).trq j = s.trq j := (rfl)
@[simp] theorem State.i3cT_withFlipPrev (s : State) (x : Option Nat) (j : Nat) : (s.withFlipPrev x).i3cT j = s.i3cT j := (rfl)
@[simp] theorem State.inj_withFlipPrev (s : State) (x : Option Nat) (j : Nat) : (s.withFlipPrev x).inj j = s.inj j := (rfl)
@[simp] theorem State.strm_withFlipPrev (s : State) (x : Option Nat) (j : Nat) : (s.withFlipPrev x).strm j = s.strm j := (rfl)
@[simp] theorem State.stack_withFlipPrev (s : State) (x : Option Nat) (j : Nat) : (s.withFlipPrev x).stack j = s.stack j := (rfl)
@[simp] theorem State.byte_withFlipPrev (s : State) (x : Option Nat) (j : Nat) : (s.withFlipPrev x).byte j = s.byte j := (rfl)
@[simp] theorem State.rf_withFlipPrev (s : State) (x : Option Nat) (j lo w : Nat) : (s.withFlipPrev x).rf j lo w = s.rf j lo w := (rfl)

@[simp] theorem State.r_withSkipScrub (s : State) (x : List Nat) (j : Nat) : (s.withSkipScrub x).r j = s.r j := (rfl)
@[simp] theorem State.die_withSkipScrub (s : State) (x : List Nat) (j : Nat) : (s.withSkipScrub x).die j = s.die j := (rfl)
@[simp] theorem State.pt_withSkipScrub (s : State) (x : List Nat) (j : Nat) : (s.withSkipScrub x).pt j = s.pt j := (rfl)
@[simp] theorem State.tile_withSkipScrub (s : State) (x : List Nat) (j : Nat) : (s.withSkipScrub x).tile j = s.tile j := (rfl)
@[simp] theorem State.token_withSkipScrub (s : State) (x : List Nat) (j : Nat) : (s.withSkipScrub x).token j = s.token j := (rfl)
@[simp] theorem State.walker_withSkipScrub (s : State) (x : List Nat) (j : Nat) : (s.withSkipScrub x).walker j = s.walker j := (rfl)
@[simp] theorem State.preWalker_withSkipScrub (s : State) (x : List Nat) (j : Nat) : (s.withSkipScrub x).preWalker j = s.preWalker j := (rfl)
@[simp] theorem State.port_withSkipScrub (s : State) (x : List Nat) (j : Nat) : (s.withSkipScrub x).port j = s.port j := (rfl)
@[simp] theorem State.ring_withSkipScrub (s : State) (x : List Nat) (j : Nat) : (s.withSkipScrub x).ring j = s.ring j := (rfl)
@[simp] theorem State.pcieFn_withSkipScrub (s : State) (x : List Nat) (j : Nat) : (s.withSkipScrub x).pcieFn j = s.pcieFn j := (rfl)
@[simp] theorem State.notif_withSkipScrub (s : State) (x : List Nat) (j : Nat) : (s.withSkipScrub x).notif j = s.notif j := (rfl)
@[simp] theorem State.part_withSkipScrub (s : State) (x : List Nat) (j : Nat) : (s.withSkipScrub x).part j = s.part j := (rfl)
@[simp] theorem State.ls_withSkipScrub (s : State) (x : List Nat) (j : Nat) : (s.withSkipScrub x).ls j = s.ls j := (rfl)
@[simp] theorem State.tr_withSkipScrub (s : State) (x : List Nat) (j : Nat) : (s.withSkipScrub x).tr j = s.tr j := (rfl)
@[simp] theorem State.trq_withSkipScrub (s : State) (x : List Nat) (j : Nat) : (s.withSkipScrub x).trq j = s.trq j := (rfl)
@[simp] theorem State.i3cT_withSkipScrub (s : State) (x : List Nat) (j : Nat) : (s.withSkipScrub x).i3cT j = s.i3cT j := (rfl)
@[simp] theorem State.inj_withSkipScrub (s : State) (x : List Nat) (j : Nat) : (s.withSkipScrub x).inj j = s.inj j := (rfl)
@[simp] theorem State.strm_withSkipScrub (s : State) (x : List Nat) (j : Nat) : (s.withSkipScrub x).strm j = s.strm j := (rfl)
@[simp] theorem State.stack_withSkipScrub (s : State) (x : List Nat) (j : Nat) : (s.withSkipScrub x).stack j = s.stack j := (rfl)
@[simp] theorem State.byte_withSkipScrub (s : State) (x : List Nat) (j : Nat) : (s.withSkipScrub x).byte j = s.byte j := (rfl)
@[simp] theorem State.rf_withSkipScrub (s : State) (x : List Nat) (j lo w : Nat) : (s.withSkipScrub x).rf j lo w = s.rf j lo w := (rfl)

@[simp] theorem State.r_withFailedQuarters (s : State) (x : BitVec 16) (j : Nat) : (s.withFailedQuarters x).r j = s.r j := (rfl)
@[simp] theorem State.die_withFailedQuarters (s : State) (x : BitVec 16) (j : Nat) : (s.withFailedQuarters x).die j = s.die j := (rfl)
@[simp] theorem State.pt_withFailedQuarters (s : State) (x : BitVec 16) (j : Nat) : (s.withFailedQuarters x).pt j = s.pt j := (rfl)
@[simp] theorem State.tile_withFailedQuarters (s : State) (x : BitVec 16) (j : Nat) : (s.withFailedQuarters x).tile j = s.tile j := (rfl)
@[simp] theorem State.token_withFailedQuarters (s : State) (x : BitVec 16) (j : Nat) : (s.withFailedQuarters x).token j = s.token j := (rfl)
@[simp] theorem State.walker_withFailedQuarters (s : State) (x : BitVec 16) (j : Nat) : (s.withFailedQuarters x).walker j = s.walker j := (rfl)
@[simp] theorem State.preWalker_withFailedQuarters (s : State) (x : BitVec 16) (j : Nat) : (s.withFailedQuarters x).preWalker j = s.preWalker j := (rfl)
@[simp] theorem State.port_withFailedQuarters (s : State) (x : BitVec 16) (j : Nat) : (s.withFailedQuarters x).port j = s.port j := (rfl)
@[simp] theorem State.ring_withFailedQuarters (s : State) (x : BitVec 16) (j : Nat) : (s.withFailedQuarters x).ring j = s.ring j := (rfl)
@[simp] theorem State.pcieFn_withFailedQuarters (s : State) (x : BitVec 16) (j : Nat) : (s.withFailedQuarters x).pcieFn j = s.pcieFn j := (rfl)
@[simp] theorem State.notif_withFailedQuarters (s : State) (x : BitVec 16) (j : Nat) : (s.withFailedQuarters x).notif j = s.notif j := (rfl)
@[simp] theorem State.part_withFailedQuarters (s : State) (x : BitVec 16) (j : Nat) : (s.withFailedQuarters x).part j = s.part j := (rfl)
@[simp] theorem State.ls_withFailedQuarters (s : State) (x : BitVec 16) (j : Nat) : (s.withFailedQuarters x).ls j = s.ls j := (rfl)
@[simp] theorem State.tr_withFailedQuarters (s : State) (x : BitVec 16) (j : Nat) : (s.withFailedQuarters x).tr j = s.tr j := (rfl)
@[simp] theorem State.trq_withFailedQuarters (s : State) (x : BitVec 16) (j : Nat) : (s.withFailedQuarters x).trq j = s.trq j := (rfl)
@[simp] theorem State.i3cT_withFailedQuarters (s : State) (x : BitVec 16) (j : Nat) : (s.withFailedQuarters x).i3cT j = s.i3cT j := (rfl)
@[simp] theorem State.inj_withFailedQuarters (s : State) (x : BitVec 16) (j : Nat) : (s.withFailedQuarters x).inj j = s.inj j := (rfl)
@[simp] theorem State.strm_withFailedQuarters (s : State) (x : BitVec 16) (j : Nat) : (s.withFailedQuarters x).strm j = s.strm j := (rfl)
@[simp] theorem State.stack_withFailedQuarters (s : State) (x : BitVec 16) (j : Nat) : (s.withFailedQuarters x).stack j = s.stack j := (rfl)
@[simp] theorem State.byte_withFailedQuarters (s : State) (x : BitVec 16) (j : Nat) : (s.withFailedQuarters x).byte j = s.byte j := (rfl)
@[simp] theorem State.rf_withFailedQuarters (s : State) (x : BitVec 16) (j lo w : Nat) : (s.withFailedQuarters x).rf j lo w = s.rf j lo w := (rfl)

@[simp] theorem State.r_withEthOut (s : State) (x : List PtpFrame) (j : Nat) : (s.withEthOut x).r j = s.r j := (rfl)
@[simp] theorem State.die_withEthOut (s : State) (x : List PtpFrame) (j : Nat) : (s.withEthOut x).die j = s.die j := (rfl)
@[simp] theorem State.pt_withEthOut (s : State) (x : List PtpFrame) (j : Nat) : (s.withEthOut x).pt j = s.pt j := (rfl)
@[simp] theorem State.tile_withEthOut (s : State) (x : List PtpFrame) (j : Nat) : (s.withEthOut x).tile j = s.tile j := (rfl)
@[simp] theorem State.token_withEthOut (s : State) (x : List PtpFrame) (j : Nat) : (s.withEthOut x).token j = s.token j := (rfl)
@[simp] theorem State.walker_withEthOut (s : State) (x : List PtpFrame) (j : Nat) : (s.withEthOut x).walker j = s.walker j := (rfl)
@[simp] theorem State.preWalker_withEthOut (s : State) (x : List PtpFrame) (j : Nat) : (s.withEthOut x).preWalker j = s.preWalker j := (rfl)
@[simp] theorem State.port_withEthOut (s : State) (x : List PtpFrame) (j : Nat) : (s.withEthOut x).port j = s.port j := (rfl)
@[simp] theorem State.ring_withEthOut (s : State) (x : List PtpFrame) (j : Nat) : (s.withEthOut x).ring j = s.ring j := (rfl)
@[simp] theorem State.pcieFn_withEthOut (s : State) (x : List PtpFrame) (j : Nat) : (s.withEthOut x).pcieFn j = s.pcieFn j := (rfl)
@[simp] theorem State.notif_withEthOut (s : State) (x : List PtpFrame) (j : Nat) : (s.withEthOut x).notif j = s.notif j := (rfl)
@[simp] theorem State.part_withEthOut (s : State) (x : List PtpFrame) (j : Nat) : (s.withEthOut x).part j = s.part j := (rfl)
@[simp] theorem State.ls_withEthOut (s : State) (x : List PtpFrame) (j : Nat) : (s.withEthOut x).ls j = s.ls j := (rfl)
@[simp] theorem State.tr_withEthOut (s : State) (x : List PtpFrame) (j : Nat) : (s.withEthOut x).tr j = s.tr j := (rfl)
@[simp] theorem State.trq_withEthOut (s : State) (x : List PtpFrame) (j : Nat) : (s.withEthOut x).trq j = s.trq j := (rfl)
@[simp] theorem State.i3cT_withEthOut (s : State) (x : List PtpFrame) (j : Nat) : (s.withEthOut x).i3cT j = s.i3cT j := (rfl)
@[simp] theorem State.inj_withEthOut (s : State) (x : List PtpFrame) (j : Nat) : (s.withEthOut x).inj j = s.inj j := (rfl)
@[simp] theorem State.strm_withEthOut (s : State) (x : List PtpFrame) (j : Nat) : (s.withEthOut x).strm j = s.strm j := (rfl)
@[simp] theorem State.stack_withEthOut (s : State) (x : List PtpFrame) (j : Nat) : (s.withEthOut x).stack j = s.stack j := (rfl)
@[simp] theorem State.byte_withEthOut (s : State) (x : List PtpFrame) (j : Nat) : (s.withEthOut x).byte j = s.byte j := (rfl)
@[simp] theorem State.rf_withEthOut (s : State) (x : List PtpFrame) (j lo w : Nat) : (s.withEthOut x).rf j lo w = s.rf j lo w := (rfl)

@[simp] theorem State.r_withSetNow (s : State) (x : SMap W64) (j : Nat) : (s.withSetNow x).r j = s.r j := (rfl)
@[simp] theorem State.die_withSetNow (s : State) (x : SMap W64) (j : Nat) : (s.withSetNow x).die j = s.die j := (rfl)
@[simp] theorem State.pt_withSetNow (s : State) (x : SMap W64) (j : Nat) : (s.withSetNow x).pt j = s.pt j := (rfl)
@[simp] theorem State.tile_withSetNow (s : State) (x : SMap W64) (j : Nat) : (s.withSetNow x).tile j = s.tile j := (rfl)
@[simp] theorem State.token_withSetNow (s : State) (x : SMap W64) (j : Nat) : (s.withSetNow x).token j = s.token j := (rfl)
@[simp] theorem State.walker_withSetNow (s : State) (x : SMap W64) (j : Nat) : (s.withSetNow x).walker j = s.walker j := (rfl)
@[simp] theorem State.preWalker_withSetNow (s : State) (x : SMap W64) (j : Nat) : (s.withSetNow x).preWalker j = s.preWalker j := (rfl)
@[simp] theorem State.port_withSetNow (s : State) (x : SMap W64) (j : Nat) : (s.withSetNow x).port j = s.port j := (rfl)
@[simp] theorem State.ring_withSetNow (s : State) (x : SMap W64) (j : Nat) : (s.withSetNow x).ring j = s.ring j := (rfl)
@[simp] theorem State.pcieFn_withSetNow (s : State) (x : SMap W64) (j : Nat) : (s.withSetNow x).pcieFn j = s.pcieFn j := (rfl)
@[simp] theorem State.notif_withSetNow (s : State) (x : SMap W64) (j : Nat) : (s.withSetNow x).notif j = s.notif j := (rfl)
@[simp] theorem State.part_withSetNow (s : State) (x : SMap W64) (j : Nat) : (s.withSetNow x).part j = s.part j := (rfl)
@[simp] theorem State.ls_withSetNow (s : State) (x : SMap W64) (j : Nat) : (s.withSetNow x).ls j = s.ls j := (rfl)
@[simp] theorem State.tr_withSetNow (s : State) (x : SMap W64) (j : Nat) : (s.withSetNow x).tr j = s.tr j := (rfl)
@[simp] theorem State.trq_withSetNow (s : State) (x : SMap W64) (j : Nat) : (s.withSetNow x).trq j = s.trq j := (rfl)
@[simp] theorem State.i3cT_withSetNow (s : State) (x : SMap W64) (j : Nat) : (s.withSetNow x).i3cT j = s.i3cT j := (rfl)
@[simp] theorem State.inj_withSetNow (s : State) (x : SMap W64) (j : Nat) : (s.withSetNow x).inj j = s.inj j := (rfl)
@[simp] theorem State.strm_withSetNow (s : State) (x : SMap W64) (j : Nat) : (s.withSetNow x).strm j = s.strm j := (rfl)
@[simp] theorem State.stack_withSetNow (s : State) (x : SMap W64) (j : Nat) : (s.withSetNow x).stack j = s.stack j := (rfl)
@[simp] theorem State.byte_withSetNow (s : State) (x : SMap W64) (j : Nat) : (s.withSetNow x).byte j = s.byte j := (rfl)
@[simp] theorem State.rf_withSetNow (s : State) (x : SMap W64) (j lo w : Nat) : (s.withSetNow x).rf j lo w = s.rf j lo w := (rfl)

@[simp] theorem State.r_withTxnNow (s : State) (x : SMap W64) (j : Nat) : (s.withTxnNow x).r j = s.r j := (rfl)
@[simp] theorem State.die_withTxnNow (s : State) (x : SMap W64) (j : Nat) : (s.withTxnNow x).die j = s.die j := (rfl)
@[simp] theorem State.pt_withTxnNow (s : State) (x : SMap W64) (j : Nat) : (s.withTxnNow x).pt j = s.pt j := (rfl)
@[simp] theorem State.tile_withTxnNow (s : State) (x : SMap W64) (j : Nat) : (s.withTxnNow x).tile j = s.tile j := (rfl)
@[simp] theorem State.token_withTxnNow (s : State) (x : SMap W64) (j : Nat) : (s.withTxnNow x).token j = s.token j := (rfl)
@[simp] theorem State.walker_withTxnNow (s : State) (x : SMap W64) (j : Nat) : (s.withTxnNow x).walker j = s.walker j := (rfl)
@[simp] theorem State.preWalker_withTxnNow (s : State) (x : SMap W64) (j : Nat) : (s.withTxnNow x).preWalker j = s.preWalker j := (rfl)
@[simp] theorem State.port_withTxnNow (s : State) (x : SMap W64) (j : Nat) : (s.withTxnNow x).port j = s.port j := (rfl)
@[simp] theorem State.ring_withTxnNow (s : State) (x : SMap W64) (j : Nat) : (s.withTxnNow x).ring j = s.ring j := (rfl)
@[simp] theorem State.pcieFn_withTxnNow (s : State) (x : SMap W64) (j : Nat) : (s.withTxnNow x).pcieFn j = s.pcieFn j := (rfl)
@[simp] theorem State.notif_withTxnNow (s : State) (x : SMap W64) (j : Nat) : (s.withTxnNow x).notif j = s.notif j := (rfl)
@[simp] theorem State.part_withTxnNow (s : State) (x : SMap W64) (j : Nat) : (s.withTxnNow x).part j = s.part j := (rfl)
@[simp] theorem State.ls_withTxnNow (s : State) (x : SMap W64) (j : Nat) : (s.withTxnNow x).ls j = s.ls j := (rfl)
@[simp] theorem State.tr_withTxnNow (s : State) (x : SMap W64) (j : Nat) : (s.withTxnNow x).tr j = s.tr j := (rfl)
@[simp] theorem State.trq_withTxnNow (s : State) (x : SMap W64) (j : Nat) : (s.withTxnNow x).trq j = s.trq j := (rfl)
@[simp] theorem State.i3cT_withTxnNow (s : State) (x : SMap W64) (j : Nat) : (s.withTxnNow x).i3cT j = s.i3cT j := (rfl)
@[simp] theorem State.inj_withTxnNow (s : State) (x : SMap W64) (j : Nat) : (s.withTxnNow x).inj j = s.inj j := (rfl)
@[simp] theorem State.strm_withTxnNow (s : State) (x : SMap W64) (j : Nat) : (s.withTxnNow x).strm j = s.strm j := (rfl)
@[simp] theorem State.stack_withTxnNow (s : State) (x : SMap W64) (j : Nat) : (s.withTxnNow x).stack j = s.stack j := (rfl)
@[simp] theorem State.byte_withTxnNow (s : State) (x : SMap W64) (j : Nat) : (s.withTxnNow x).byte j = s.byte j := (rfl)
@[simp] theorem State.rf_withTxnNow (s : State) (x : SMap W64) (j lo w : Nat) : (s.withTxnNow x).rf j lo w = s.rf j lo w := (rfl)

@[simp] theorem State.r_withCycleNow (s : State) (x : BitVec 4) (j : Nat) : (s.withCycleNow x).r j = s.r j := (rfl)
@[simp] theorem State.die_withCycleNow (s : State) (x : BitVec 4) (j : Nat) : (s.withCycleNow x).die j = s.die j := (rfl)
@[simp] theorem State.pt_withCycleNow (s : State) (x : BitVec 4) (j : Nat) : (s.withCycleNow x).pt j = s.pt j := (rfl)
@[simp] theorem State.tile_withCycleNow (s : State) (x : BitVec 4) (j : Nat) : (s.withCycleNow x).tile j = s.tile j := (rfl)
@[simp] theorem State.token_withCycleNow (s : State) (x : BitVec 4) (j : Nat) : (s.withCycleNow x).token j = s.token j := (rfl)
@[simp] theorem State.walker_withCycleNow (s : State) (x : BitVec 4) (j : Nat) : (s.withCycleNow x).walker j = s.walker j := (rfl)
@[simp] theorem State.preWalker_withCycleNow (s : State) (x : BitVec 4) (j : Nat) : (s.withCycleNow x).preWalker j = s.preWalker j := (rfl)
@[simp] theorem State.port_withCycleNow (s : State) (x : BitVec 4) (j : Nat) : (s.withCycleNow x).port j = s.port j := (rfl)
@[simp] theorem State.ring_withCycleNow (s : State) (x : BitVec 4) (j : Nat) : (s.withCycleNow x).ring j = s.ring j := (rfl)
@[simp] theorem State.pcieFn_withCycleNow (s : State) (x : BitVec 4) (j : Nat) : (s.withCycleNow x).pcieFn j = s.pcieFn j := (rfl)
@[simp] theorem State.notif_withCycleNow (s : State) (x : BitVec 4) (j : Nat) : (s.withCycleNow x).notif j = s.notif j := (rfl)
@[simp] theorem State.part_withCycleNow (s : State) (x : BitVec 4) (j : Nat) : (s.withCycleNow x).part j = s.part j := (rfl)
@[simp] theorem State.ls_withCycleNow (s : State) (x : BitVec 4) (j : Nat) : (s.withCycleNow x).ls j = s.ls j := (rfl)
@[simp] theorem State.tr_withCycleNow (s : State) (x : BitVec 4) (j : Nat) : (s.withCycleNow x).tr j = s.tr j := (rfl)
@[simp] theorem State.trq_withCycleNow (s : State) (x : BitVec 4) (j : Nat) : (s.withCycleNow x).trq j = s.trq j := (rfl)
@[simp] theorem State.i3cT_withCycleNow (s : State) (x : BitVec 4) (j : Nat) : (s.withCycleNow x).i3cT j = s.i3cT j := (rfl)
@[simp] theorem State.inj_withCycleNow (s : State) (x : BitVec 4) (j : Nat) : (s.withCycleNow x).inj j = s.inj j := (rfl)
@[simp] theorem State.strm_withCycleNow (s : State) (x : BitVec 4) (j : Nat) : (s.withCycleNow x).strm j = s.strm j := (rfl)
@[simp] theorem State.stack_withCycleNow (s : State) (x : BitVec 4) (j : Nat) : (s.withCycleNow x).stack j = s.stack j := (rfl)
@[simp] theorem State.byte_withCycleNow (s : State) (x : BitVec 4) (j : Nat) : (s.withCycleNow x).byte j = s.byte j := (rfl)
@[simp] theorem State.rf_withCycleNow (s : State) (x : BitVec 4) (j lo w : Nat) : (s.withCycleNow x).rf j lo w = s.rf j lo w := (rfl)

/-! ## Memory -/

@[simp] theorem State.byte_setByte_same (s : State) (a : Nat) (b : Byte) : (s.setByte a b).byte a = b :=
  SMap.get_set_same _ _ _ _

@[simp] theorem State.byte_setByte_ne (s : State) (a : Nat) (b : Byte) {j : Nat} (h : j ≠ a) :
    (s.setByte a b).byte j = s.byte j := SMap.get_set_ne _ _ _ h

/-- Bytes outside a stored list read as before. -/
theorem State.byte_setBytes_out (bs : List Byte) : ∀ (s : State) (a j : Nat), j < a ∨ a + bs.length ≤ j →
    (s.setBytes a bs).byte j = s.byte j := by
  induction bs with
  | nil => intros; rfl
  | cons b bs ih =>
    intro s a j h
    simp only [List.length_cons] at h
    simp only [State.setBytes]
    rw [ih _ _ _ (by omega), State.byte_setByte_ne _ _ _ (by omega)]

/-- A stored byte reads back. -/
theorem State.byte_setBytes_in (bs : List Byte) : ∀ (s : State) (a i : Nat) (h : i < bs.length),
    (s.setBytes a bs).byte (a + i) = bs[i] := by
  induction bs with
  | nil => intro _ _ i h; simp at h
  | cons b bs ih =>
    intro s a i h
    simp only [State.setBytes]
    cases i with
    | zero => rw [Nat.add_zero, State.byte_setBytes_out _ _ _ _ (by omega)]; simp
    | succ i =>
      have := ih (s.setByte a b) (a + 1) i (by simpa using h)
      rw [show a + (i + 1) = a + 1 + i by omega, this]
      simp

theorem bytesLE_length (n v : Nat) : (bytesLE n v).length = n := by
  induction n generalizing v with
  | zero => rfl
  | succ n ih => simp [bytesLE, ih]

/-- Bytes outside a store read as before. -/
theorem State.byte_store_out (s : State) (a n v j : Nat) (h : j < a ∨ a + n ≤ j) : (s.store a n v).byte j = s.byte j :=
  State.byte_setBytes_out _ _ _ _ (by simpa [bytesLE_length] using h)

/-- A zeroed range reads 0 and every other byte as before. -/
theorem State.byte_zeroMem (s : State) (a n j : Nat) :
    (s.zeroMem a n).byte j = if a ≤ j ∧ j < a + n then 0 else s.byte j := by
  by_cases h : a ≤ j ∧ j < a + n
  · rw [if_pos h]
    exact SMap.get_keep_not _ _ _ _ (by simp; omega)
  · rw [if_neg h]
    exact SMap.get_keep _ _ _ _ (by simp; omega)

theorem State.wf_setByte (s : State) (a : Nat) (b : Byte) (h : Memory.wf s.mem = true) :
    Memory.wf (s.setByte a b).mem = true := SMap.wf_set _ _ _ _ h

theorem State.wf_setBytes (bs : List Byte) : ∀ (s : State) (a : Nat), Memory.wf s.mem = true →
    Memory.wf (s.setBytes a bs).mem = true := by
  induction bs with
  | nil => intro _ _ h; exact h
  | cons b bs ih => intro s a h; exact ih _ _ (State.wf_setByte s a b h)

theorem State.wf_store (s : State) (a n v : Nat) (h : Memory.wf s.mem = true) : Memory.wf (s.store a n v).mem = true :=
  State.wf_setBytes _ _ _ h

theorem State.wf_zeroMem (s : State) (a n : Nat) (h : Memory.wf s.mem = true) : Memory.wf (s.zeroMem a n).mem = true :=
  SMap.wf_keep _ _ _ h

theorem State.wf_putCells (cs : List Host.Cell) : ∀ (s : State) (src dst : Nat), Memory.wf s.mem = true →
    Memory.wf (s.putCells src dst cs).mem = true := by
  induction cs with
  | nil => intro _ _ _ h; exact h
  | cons c cs ih => intro s src dst h; exact ih _ _ _ (State.wf_setByte s _ _ h)

theorem State.wf_copyMem (s : State) (src dst n : Nat) (h : Memory.wf s.mem = true) :
    Memory.wf (s.copyMem src dst n).mem = true := State.wf_putCells _ _ _ _ (State.wf_zeroMem s dst n h)

/-- The memory after reset has the canonical form. -/
theorem State.wf_reset : Memory.wf State.reset.mem = true := rfl

/-! ## Bit fields -/

theorem fld_setFld_same (v : BitVec n) (lo w x : Nat) (h : lo + w ≤ n) : fld (setFld v lo w x) lo w = x % 2 ^ w := by
  have hp : 0 < 2 ^ lo := Nat.two_pow_pos lo
  have hw : 0 < 2 ^ w := Nat.two_pow_pos w
  simp only [fld, setFld, BitVec.toNat_ofNat, Nat.pow_add]
  set A := v.toNat % 2 ^ lo with hA
  have hA' : A < 2 ^ lo := Nat.mod_lt _ hp
  set H := v.toNat / (2 ^ lo * 2 ^ w)
  have e : A + x % 2 ^ w * 2 ^ lo + H * (2 ^ lo * 2 ^ w) = A + 2 ^ lo * (x % 2 ^ w + 2 ^ w * H) := by ring
  obtain ⟨c, hc⟩ := Nat.exists_eq_add_of_le h
  rw [e, hc, show 2 ^ (lo + w + c) = 2 ^ lo * (2 ^ w * 2 ^ c) by rw [pow_add, pow_add, mul_assoc]]
  rw [Nat.mod_mul_right_div_self, Nat.add_mul_div_left _ _ hp, Nat.div_eq_of_lt hA', Nat.zero_add,
    Nat.mod_mul_right_mod, Nat.add_mul_mod_self_left, Nat.mod_mod]

end Sys2Proof.Machine
end

