-- ==== Sys2Proof/Laws/Access.lean ====
section
/-!
SUPPORT. Register accesses: what an access that is carried out comes to, and what a wake condition leaves alone.
-/
namespace Sys2Proof.Machine
open Sys2Proof

/-- A wake condition changes nothing but the module state machine. -/
theorem State.wakeBy_cases (s : State) (code : Nat) : s.wakeBy code = s ∨
    s.wakeBy code = s.withPower { s.power with wake := some (code, s.power.entering ≠ none), pgAt := s.clk } := by
  simp only [State.wakeBy]
  split <;> split <;> simp

@[simp] theorem State.pending_wakeBy (s : State) (c : Nat) : (s.wakeBy c).pending = s.pending := by
  rcases s.wakeBy_cases c with h | h <;> rw [h]; rfl
@[simp] theorem State.freeCtr_wakeBy (s : State) (c : Nat) : (s.wakeBy c).freeCtr = s.freeCtr := by
  rcases s.wakeBy_cases c with h | h <;> rw [h]; rfl
@[simp] theorem State.regs_wakeBy (s : State) (c : Nat) : (s.wakeBy c).regs = s.regs := by
  rcases s.wakeBy_cases c with h | h <;> rw [h]; rfl
@[simp] theorem State.mem_wakeBy (s : State) (c : Nat) : (s.wakeBy c).mem = s.mem := by
  rcases s.wakeBy_cases c with h | h <;> rw [h]; rfl
@[simp] theorem State.dies_wakeBy (s : State) (c : Nat) : (s.wakeBy c).dies = s.dies := by
  rcases s.wakeBy_cases c with h | h <;> rw [h]; rfl
@[simp] theorem State.evlog_wakeBy (s : State) (c : Nat) : (s.wakeBy c).evlog = s.evlog := by
  rcases s.wakeBy_cases c with h | h <;> rw [h]; rfl
@[simp] theorem State.rates_wakeBy (s : State) (c : Nat) : (s.wakeBy c).rates = s.rates := by
  rcases s.wakeBy_cases c with h | h <;> rw [h]; rfl
@[simp] theorem State.time_wakeBy (s : State) (c : Nat) : (s.wakeBy c).time = s.time := by
  rcases s.wakeBy_cases c with h | h <;> rw [h]; rfl
@[simp] theorem State.ptime_wakeBy (s : State) (c : Nat) : (s.wakeBy c).ptime = s.ptime := by
  rcases s.wakeBy_cases c with h | h <;> rw [h]; rfl
@[simp] theorem State.tiles_wakeBy (s : State) (c : Nat) : (s.wakeBy c).tiles = s.tiles := by
  rcases s.wakeBy_cases c with h | h <;> rw [h]; rfl
@[simp] theorem State.lineCells_wakeBy (s : State) (c : Nat) : (s.wakeBy c).lineCells = s.lineCells := by
  rcases s.wakeBy_cases c with h | h <;> rw [h]; rfl
@[simp] theorem State.tokens_wakeBy (s : State) (c : Nat) : (s.wakeBy c).tokens = s.tokens := by
  rcases s.wakeBy_cases c with h | h <;> rw [h]; rfl
@[simp] theorem State.tokOps_wakeBy (s : State) (c : Nat) : (s.wakeBy c).tokOps = s.tokOps := by
  rcases s.wakeBy_cases c with h | h <;> rw [h]; rfl
@[simp] theorem State.walkers_wakeBy (s : State) (c : Nat) : (s.wakeBy c).walkers = s.walkers := by
  rcases s.wakeBy_cases c with h | h <;> rw [h]; rfl
@[simp] theorem State.preWalkers_wakeBy (s : State) (c : Nat) : (s.wakeBy c).preWalkers = s.preWalkers := by
  rcases s.wakeBy_cases c with h | h <;> rw [h]; rfl
@[simp] theorem State.transits_wakeBy (s : State) (c : Nat) : (s.wakeBy c).transits = s.transits := by
  rcases s.wakeBy_cases c with h | h <;> rw [h]; rfl
@[simp] theorem State.ports_wakeBy (s : State) (c : Nat) : (s.wakeBy c).ports = s.ports := by
  rcases s.wakeBy_cases c with h | h <;> rw [h]; rfl
@[simp] theorem State.rings_wakeBy (s : State) (c : Nat) : (s.wakeBy c).rings = s.rings := by
  rcases s.wakeBy_cases c with h | h <;> rw [h]; rfl
@[simp] theorem State.notify_wakeBy (s : State) (c : Nat) : (s.wakeBy c).notify = s.notify := by
  rcases s.wakeBy_cases c with h | h <;> rw [h]; rfl
@[simp] theorem State.notes_wakeBy (s : State) (c : Nat) : (s.wakeBy c).notes = s.notes := by
  rcases s.wakeBy_cases c with h | h <;> rw [h]; rfl
@[simp] theorem State.hostOut_wakeBy (s : State) (c : Nat) : (s.wakeBy c).hostOut = s.hostOut := by
  rcases s.wakeBy_cases c with h | h <;> rw [h]; rfl
@[simp] theorem State.irqs_wakeBy (s : State) (c : Nat) : (s.wakeBy c).irqs = s.irqs := by
  rcases s.wakeBy_cases c with h | h <;> rw [h]; rfl
@[simp] theorem State.vfs_wakeBy (s : State) (c : Nat) : (s.wakeBy c).vfs = s.vfs := by
  rcases s.wakeBy_cases c with h | h <;> rw [h]; rfl
@[simp] theorem State.pcieUp_wakeBy (s : State) (c : Nat) : (s.wakeBy c).pcieUp = s.pcieUp := by
  rcases s.wakeBy_cases c with h | h <;> rw [h]; rfl
@[simp] theorem State.ats_wakeBy (s : State) (c : Nat) : (s.wakeBy c).ats = s.ats := by
  rcases s.wakeBy_cases c with h | h <;> rw [h]; rfl
@[simp] theorem State.atsDone_wakeBy (s : State) (c : Nat) : (s.wakeBy c).atsDone = s.atsDone := by
  rcases s.wakeBy_cases c with h | h <;> rw [h]; rfl
@[simp] theorem State.parts_wakeBy (s : State) (c : Nat) : (s.wakeBy c).parts = s.parts := by
  rcases s.wakeBy_cases c with h | h <;> rw [h]; rfl
@[simp] theorem State.lock_wakeBy (s : State) (c : Nat) : (s.wakeBy c).lock = s.lock := by
  rcases s.wakeBy_cases c with h | h <;> rw [h]; rfl
@[simp] theorem State.pins_wakeBy (s : State) (c : Nat) : (s.wakeBy c).pins = s.pins := by
  rcases s.wakeBy_cases c with h | h <;> rw [h]; rfl
@[simp] theorem State.mon_wakeBy (s : State) (c : Nat) : (s.wakeBy c).mon = s.mon := by
  rcases s.wakeBy_cases c with h | h <;> rw [h]; rfl
@[simp] theorem State.txn_wakeBy (s : State) (c : Nat) : (s.wakeBy c).txn = s.txn := by
  rcases s.wakeBy_cases c with h | h <;> rw [h]; rfl
@[simp] theorem State.armedTxns_wakeBy (s : State) (c : Nat) : (s.wakeBy c).armedTxns = s.armedTxns := by
  rcases s.wakeBy_cases c with h | h <;> rw [h]; rfl
@[simp] theorem State.prot_wakeBy (s : State) (c : Nat) : (s.wakeBy c).prot = s.prot := by
  rcases s.wakeBy_cases c with h | h <;> rw [h]; rfl
@[simp] theorem State.snapAt_wakeBy (s : State) (c : Nat) : (s.wakeBy c).snapAt = s.snapAt := by
  rcases s.wakeBy_cases c with h | h <;> rw [h]; rfl
@[simp] theorem State.trace_wakeBy (s : State) (c : Nat) : (s.wakeBy c).trace = s.trace := by
  rcases s.wakeBy_cases c with h | h <;> rw [h]; rfl
@[simp] theorem State.traceQ_wakeBy (s : State) (c : Nat) : (s.wakeBy c).traceQ = s.traceQ := by
  rcases s.wakeBy_cases c with h | h <;> rw [h]; rfl
@[simp] theorem State.dump_wakeBy (s : State) (c : Nat) : (s.wakeBy c).dump = s.dump := by
  rcases s.wakeBy_cases c with h | h <;> rw [h]; rfl
@[simp] theorem State.wfg_wakeBy (s : State) (c : Nat) : (s.wakeBy c).wfg = s.wfg := by
  rcases s.wakeBy_cases c with h | h <;> rw [h]; rfl
@[simp] theorem State.i3c_wakeBy (s : State) (c : Nat) : (s.wakeBy c).i3c = s.i3c := by
  rcases s.wakeBy_cases c with h | h <;> rw [h]; rfl
@[simp] theorem State.readData_wakeBy (s : State) (c : Nat) : (s.wakeBy c).readData = s.readData := by
  rcases s.wakeBy_cases c with h | h <;> rw [h]; rfl
@[simp] theorem State.inject_wakeBy (s : State) (c : Nat) : (s.wakeBy c).inject = s.inject := by
  rcases s.wakeBy_cases c with h | h <;> rw [h]; rfl
@[simp] theorem State.streams_wakeBy (s : State) (c : Nat) : (s.wakeBy c).streams = s.streams := by
  rcases s.wakeBy_cases c with h | h <;> rw [h]; rfl
@[simp] theorem State.hbm_wakeBy (s : State) (c : Nat) : (s.wakeBy c).hbm = s.hbm := by
  rcases s.wakeBy_cases c with h | h <;> rw [h]; rfl
@[simp] theorem State.spray_wakeBy (s : State) (c : Nat) : (s.wakeBy c).spray = s.spray := by
  rcases s.wakeBy_cases c with h | h <;> rw [h]; rfl
@[simp] theorem State.nseq_wakeBy (s : State) (c : Nat) : (s.wakeBy c).nseq = s.nseq := by
  rcases s.wakeBy_cases c with h | h <;> rw [h]; rfl
@[simp] theorem State.lastNseq_wakeBy (s : State) (c : Nat) : (s.wakeBy c).lastNseq = s.lastNseq := by
  rcases s.wakeBy_cases c with h | h <;> rw [h]; rfl
@[simp] theorem State.flipPrev_wakeBy (s : State) (c : Nat) : (s.wakeBy c).flipPrev = s.flipPrev := by
  rcases s.wakeBy_cases c with h | h <;> rw [h]; rfl
@[simp] theorem State.skipScrub_wakeBy (s : State) (c : Nat) : (s.wakeBy c).skipScrub = s.skipScrub := by
  rcases s.wakeBy_cases c with h | h <;> rw [h]; rfl
@[simp] theorem State.failedQuarters_wakeBy (s : State) (c : Nat) : (s.wakeBy c).failedQuarters = s.failedQuarters := by
  rcases s.wakeBy_cases c with h | h <;> rw [h]; rfl
@[simp] theorem State.ethOut_wakeBy (s : State) (c : Nat) : (s.wakeBy c).ethOut = s.ethOut := by
  rcases s.wakeBy_cases c with h | h <;> rw [h]; rfl
@[simp] theorem State.r_wakeBy (s : State) (c j : Nat) : (s.wakeBy c).r j = s.r j := by simp [State.r]
@[simp] theorem State.pending_reached (s : State) (i : Iface) : (s.reached i).pending = s.pending := by
  simp only [State.reached]; split <;> simp
@[simp] theorem State.freeCtr_reached (s : State) (i : Iface) : (s.reached i).freeCtr = s.freeCtr := by
  simp only [State.reached]; split <;> simp
@[simp] theorem State.regs_reached (s : State) (i : Iface) : (s.reached i).regs = s.regs := by
  simp only [State.reached]; split <;> simp
@[simp] theorem State.mem_reached (s : State) (i : Iface) : (s.reached i).mem = s.mem := by
  simp only [State.reached]; split <;> simp
@[simp] theorem State.dies_reached (s : State) (i : Iface) : (s.reached i).dies = s.dies := by
  simp only [State.reached]; split <;> simp
@[simp] theorem State.evlog_reached (s : State) (i : Iface) : (s.reached i).evlog = s.evlog := by
  simp only [State.reached]; split <;> simp
@[simp] theorem State.rates_reached (s : State) (i : Iface) : (s.reached i).rates = s.rates := by
  simp only [State.reached]; split <;> simp
@[simp] theorem State.time_reached (s : State) (i : Iface) : (s.reached i).time = s.time := by
  simp only [State.reached]; split <;> simp
@[simp] theorem State.ptime_reached (s : State) (i : Iface) : (s.reached i).ptime = s.ptime := by
  simp only [State.reached]; split <;> simp
@[simp] theorem State.tiles_reached (s : State) (i : Iface) : (s.reached i).tiles = s.tiles := by
  simp only [State.reached]; split <;> simp
@[simp] theorem State.lineCells_reached (s : State) (i : Iface) : (s.reached i).lineCells = s.lineCells := by
  simp only [State.reached]; split <;> simp
@[simp] theorem State.tokens_reached (s : State) (i : Iface) : (s.reached i).tokens = s.tokens := by
  simp only [State.reached]; split <;> simp
@[simp] theorem State.tokOps_reached (s : State) (i : Iface) : (s.reached i).tokOps = s.tokOps := by
  simp only [State.reached]; split <;> simp
@[simp] theorem State.walkers_reached (s : State) (i : Iface) : (s.reached i).walkers = s.walkers := by
  simp only [State.reached]; split <;> simp
@[simp] theorem State.preWalkers_reached (s : State) (i : Iface) : (s.reached i).preWalkers = s.preWalkers := by
  simp only [State.reached]; split <;> simp
@[simp] theorem State.transits_reached (s : State) (i : Iface) : (s.reached i).transits = s.transits := by
  simp only [State.reached]; split <;> simp
@[simp] theorem State.ports_reached (s : State) (i : Iface) : (s.reached i).ports = s.ports := by
  simp only [State.reached]; split <;> simp
@[simp] theorem State.rings_reached (s : State) (i : Iface) : (s.reached i).rings = s.rings := by
  simp only [State.reached]; split <;> simp
@[simp] theorem State.notify_reached (s : State) (i : Iface) : (s.reached i).notify = s.notify := by
  simp only [State.reached]; split <;> simp
@[simp] theorem State.notes_reached (s : State) (i : Iface) : (s.reached i).notes = s.notes := by
  simp only [State.reached]; split <;> simp
@[simp] theorem State.hostOut_reached (s : State) (i : Iface) : (s.reached i).hostOut = s.hostOut := by
  simp only [State.reached]; split <;> simp
@[simp] theorem State.irqs_reached (s : State) (i : Iface) : (s.reached i).irqs = s.irqs := by
  simp only [State.reached]; split <;> simp
@[simp] theorem State.vfs_reached (s : State) (i : Iface) : (s.reached i).vfs = s.vfs := by
  simp only [State.reached]; split <;> simp
@[simp] theorem State.pcieUp_reached (s : State) (i : Iface) : (s.reached i).pcieUp = s.pcieUp := by
  simp only [State.reached]; split <;> simp
@[simp] theorem State.ats_reached (s : State) (i : Iface) : (s.reached i).ats = s.ats := by
  simp only [State.reached]; split <;> simp
@[simp] theorem State.atsDone_reached (s : State) (i : Iface) : (s.reached i).atsDone = s.atsDone := by
  simp only [State.reached]; split <;> simp
@[simp] theorem State.parts_reached (s : State) (i : Iface) : (s.reached i).parts = s.parts := by
  simp only [State.reached]; split <;> simp
@[simp] theorem State.lock_reached (s : State) (i : Iface) : (s.reached i).lock = s.lock := by
  simp only [State.reached]; split <;> simp
@[simp] theorem State.pins_reached (s : State) (i : Iface) : (s.reached i).pins = s.pins := by
  simp only [State.reached]; split <;> simp
@[simp] theorem State.mon_reached (s : State) (i : Iface) : (s.reached i).mon = s.mon := by
  simp only [State.reached]; split <;> simp
@[simp] theorem State.txn_reached (s : State) (i : Iface) : (s.reached i).txn = s.txn := by
  simp only [State.reached]; split <;> simp
@[simp] theorem State.armedTxns_reached (s : State) (i : Iface) : (s.reached i).armedTxns = s.armedTxns := by
  simp only [State.reached]; split <;> simp
@[simp] theorem State.prot_reached (s : State) (i : Iface) : (s.reached i).prot = s.prot := by
  simp only [State.reached]; split <;> simp
@[simp] theorem State.snapAt_reached (s : State) (i : Iface) : (s.reached i).snapAt = s.snapAt := by
  simp only [State.reached]; split <;> simp
@[simp] theorem State.trace_reached (s : State) (i : Iface) : (s.reached i).trace = s.trace := by
  simp only [State.reached]; split <;> simp
@[simp] theorem State.traceQ_reached (s : State) (i : Iface) : (s.reached i).traceQ = s.traceQ := by
  simp only [State.reached]; split <;> simp
@[simp] theorem State.dump_reached (s : State) (i : Iface) : (s.reached i).dump = s.dump := by
  simp only [State.reached]; split <;> simp
@[simp] theorem State.wfg_reached (s : State) (i : Iface) : (s.reached i).wfg = s.wfg := by
  simp only [State.reached]; split <;> simp
@[simp] theorem State.i3c_reached (s : State) (i : Iface) : (s.reached i).i3c = s.i3c := by
  simp only [State.reached]; split <;> simp
@[simp] theorem State.readData_reached (s : State) (i : Iface) : (s.reached i).readData = s.readData := by
  simp only [State.reached]; split <;> simp
@[simp] theorem State.inject_reached (s : State) (i : Iface) : (s.reached i).inject = s.inject := by
  simp only [State.reached]; split <;> simp
@[simp] theorem State.streams_reached (s : State) (i : Iface) : (s.reached i).streams = s.streams := by
  simp only [State.reached]; split <;> simp
@[simp] theorem State.hbm_reached (s : State) (i : Iface) : (s.reached i).hbm = s.hbm := by
  simp only [State.reached]; split <;> simp
@[simp] theorem State.spray_reached (s : State) (i : Iface) : (s.reached i).spray = s.spray := by
  simp only [State.reached]; split <;> simp
@[simp] theorem State.nseq_reached (s : State) (i : Iface) : (s.reached i).nseq = s.nseq := by
  simp only [State.reached]; split <;> simp
@[simp] theorem State.lastNseq_reached (s : State) (i : Iface) : (s.reached i).lastNseq = s.lastNseq := by
  simp only [State.reached]; split <;> simp
@[simp] theorem State.flipPrev_reached (s : State) (i : Iface) : (s.reached i).flipPrev = s.flipPrev := by
  simp only [State.reached]; split <;> simp
@[simp] theorem State.skipScrub_reached (s : State) (i : Iface) : (s.reached i).skipScrub = s.skipScrub := by
  simp only [State.reached]; split <;> simp
@[simp] theorem State.failedQuarters_reached (s : State) (i : Iface) : (s.reached i).failedQuarters = s.failedQuarters := by
  simp only [State.reached]; split <;> simp
@[simp] theorem State.ethOut_reached (s : State) (i : Iface) : (s.reached i).ethOut = s.ethOut := by
  simp only [State.reached]; split <;> simp
@[simp] theorem State.r_reached (s : State) (i : Iface) (j : Nat) : (s.reached i).r j = s.r j := by simp [State.r]
@[simp] theorem State.rf_reached (s : State) (i : Iface) (j lo w : Nat) : (s.reached i).rf j lo w = s.rf j lo w := by
  simp [State.rf]
@[simp] theorem State.byte_reached (s : State) (i : Iface) (a : Nat) : (s.reached i).byte a = s.byte a := by
  simp [State.byte]

/-- A write that is carried out is what the register does with it. -/
theorem State.regWrite_ok (s : State) (i : Iface) (key : Nat) (wide : Bool) (act : State → State)
    (h : s.writable i key wide) : s.regWrite i key wide act = act (s.reached i) := by
  simp only [State.regWrite, h.1, Bool.false_eq_true, if_false]
  have h2 := h.2.1
  simp only [State.reached] at h2 ⊢
  rw [h2]

/-- A read that is carried out returns what the register holds for it. -/
theorem State.regRead_ok (s : State) (i : Iface) (key : Nat) (wide : Bool) (act : State → W64 × State)
    (h : s.readable i key wide) : s.regRead i key wide act = (act s).2.answer i (act s).1 := by
  simp only [State.regRead, h.1, Bool.false_eq_true, if_false, h.2]

/-- An access that is barred or whose class denies it changes nothing but what a fault capture and a report change. -/
theorem State.regWrite_denied (s : State) (i : Iface) (key : Nat) (wide : Bool) (act : State → State)
    (h : s.offline i = false) (c e : Nat) (v : W64) (hd : (s.reached i).regDenied i key true wide = some (c, e, v)) :
    s.regWrite i key wide act = (s.reached i).denyReg i key true wide c e := by
  simp only [State.regWrite, h, Bool.false_eq_true, if_false]
  simp only [State.reached] at hd ⊢
  rw [hd]

@[simp] theorem State.got_answer (s : State) (i : Iface) (v : W64) : (s.answer i v).got i = v := SMap.get_set_same _ _ _ _

/-- A command's answer, read off the state its meaning builds. -/
theorem answers_act {c : Instr} {s t : State} {P : State → Prop} (h : Sys2Proof.Machine.exec c s = s.act t)
    (hp : P (t.withPending s.pending)) : Answers c s P := ⟨_, h, hp⟩

end Sys2Proof.Machine
end

