-- ==== Sys2Proof/WellFormed.lean ====
section
/-!
DEFINITION. Well-formed commands. A command names one row of the opcode table, and an operand can spell another row or none:
a tile's word of another opcode (R141, R146), a newt of another type or scope (R338, R339), a written value whose OP, KIND or
enable bit belongs to another command (R378, R508, R527, R551), a sample without a reading (R514), a frame that I3C cannot
carry (R586). A command that is not well formed answers like any other, as its meaning's docstring says, and this file gives
the machine no behaviour.
-/
namespace Sys2Proof
open Sys2Proof.Machine

/-- The operands of a command belong to its row of the opcode table. -/
def Instr.wellFormed : Instr → Bool
  | .timeXferReceive _ n _ _ => fld n 0 8 == 0x01 && fld n 8 2 == 0
  | .salu _ w => iOpc w == 0x00
  | .salui _ w => iOpc w == 0x01
  | .scmp _ w => iOpc w == 0x02
  | .scmpi _ w => iOpc w == 0x03
  | .plog _ w => iOpc w == 0x04
  | .li _ w => iOpc w == 0x05
  | .lui _ w => iOpc w == 0x06
  | .br _ w => iOpc w == 0x20
  | .jal _ w => iOpc w == 0x21
  | .jr _ w => iOpc w == 0x22
  | .endCmd _ w => iOpc w == 0x23
  | .nop _ w => iOpc w == 0x24
  | .mfcr _ w => iOpc w == 0x28
  | .mtcr _ w => iOpc w == 0x29
  | .sld _ w _ => iOpc w == 0x30
  | .sst _ w => iOpc w == 0x31
  | .vfp _ w _ => iOpc w == 0x40
  | .vfps _ w _ => iOpc w == 0x41
  | .vint _ w _ => iOpc w == 0x42
  | .vints _ w _ => iOpc w == 0x43
  | .vmov _ w _ => iOpc w == 0x44
  | .vcvt _ w _ => iOpc w == 0x48
  | .vred _ w _ => iOpc w == 0x50
  | .vlacc _ w _ => iOpc w == 0x52
  | .vld _ w _ => iOpc w == 0x60
  | .vst _ w => iOpc w == 0x61
  | .gather _ w _ _ => iOpc w == 0x62
  | .scatter _ w _ => iOpc w == 0x63
  | .scataddi _ w _ _ => iOpc w == 0x64
  | .lexp _ w _ => iOpc w == 0x65
  | .lmrg _ w _ _ => iOpc w == 0x66
  | .vsort _ w _ => iOpc w == 0x70
  | .vtopk _ w _ => iOpc w == 0x71
  | .vrand _ w _ => iOpc w == 0x78
  | .mma _ w _ _ => iOpc w == 0x80
  | .drain _ w => iOpc w == 0x81
  | .drainv _ w => iOpc w == 0x82
  | .lsend _ w _ => iOpc w == 0x90
  | .arrive _ w => iOpc w == 0x91
  | .setCmd _ w => iOpc w == 0x92
  | .msend _ w _ => iOpc w == 0x94
  | .waitt _ w => iOpc w == 0x98
  | .waitf _ w => iOpc w == 0x99
  | .waitps _ w => iOpc w == 0x9A
  | .rdtime _ w => iOpc w == 0x9C
  | .tmark _ w => iOpc w == 0x9E
  | .routedNewt _ n => fld n 8 2 == 1
  | .broadcastNewt _ n => fld n 0 8 == 0x11 && fld n 8 2 == 2
  | .epochSet _ n => fld n 0 8 == 0x11 && fld n 8 2 == 2
  | .allStopNewt _ n => fld n 0 8 == 0x10 && fld n 8 2 == 2
  | .ringEnable _ _ v => fld v 5 1 == 1
  | .ringDisable _ _ v => fld v 5 1 == 0
  | .marginPlanReady reads => decide (reads.length = 32)
  | .thermalSample rs => rs.all fun x => decide (1 ≤ x.2.length) && decide (x.2.length ≤ 64)
  | .coldReset pin _ v _ => pin || fld v 0 3 == 1
  | .warmReset _ v _ => fld v 0 3 == 2
  | .computeReset _ v => fld v 0 3 == 3
  | .partitionReset _ v => fld v 0 3 == 4
  | .tileReset _ v => fld v 0 3 == 5
  | .resetCmdPort _ v => fld v 0 3 == 6
  | .txnBegin _ v => fld v 0 3 == 1
  | .txnSeal _ v => fld v 0 3 == 2
  | .txnCommit _ v _ => fld v 0 3 == 3
  | .txnRollback _ v => fld v 0 3 == 4
  | .lockstepNewt n => fld n 0 8 == 0x21 && fld n 8 2 == 1
  | .traceEnable _ _ v => fld v 0 1 == 1
  | .traceDisable _ _ v => fld v 0 1 == 0
  | .i3cWrite _ bs _ _ _ _ _ => decide (1 ≤ bs.length) && decide (bs.length ≤ 15)
  | .tick | .frameStart .. | .ftcRead .. | .ftcIncrWrite .. | .ftcStepWrite .. | .ftcStepAct | .timeCtrlWrite ..
  | .timeRestart .. | .timeXferSend .. | .timeXferMissing .. | .holdoverExpiry | .ref10mLoss | .ref10mPresent ..
  | .wtbLoadGo .. | .wtbLoaded | .wtbSecRead .. | .ptpFrameRx .. | .ptpFrameTx .. | .ptpTxStampRead .. | .ppsInEdge
  | .ppsOutEdge | .launchAt .. | .changeover .. | .cancel .. | .changeoverTick | .bankDrainEnd ..
  | .instructionFetch .. | .mmaComplete .. | .lineSendDepart .. | .lineCellHop .. | .lineEject .. | .externalCycle ..
  | .ftcWaitComplete .. | .tileWake .. | .tokenUpdateCycle .. | .tokenWaitResume .. | .tokenWaitTimeout ..
  | .seqWatchdog .. | .tokenSlotArrive .. | .tokenSlotSet .. | .tileSramScrub .. | .walkerRead .. | .changeoverEntry ..
  | .markEntry .. | .departEntry .. | .departReadyTest .. | .passOutboundTake .. | .reduceEntry ..
  | .reduceReadyTest .. | .junctionSlot .. | .portTxTick .. | .cellReceive .. | .dueWindowClose .. | .cellRelease ..
  | .platformWrite .. | .reduceWriteBack .. | .signalCellReceive .. | .replayTimeout .. | .linkUp .. | .enterSiding ..
  | .silentTimeout .. | .errorWindowEnd .. | .cableRemoved .. | .cableInserted .. | .cmisPoll .. | .trainingStart ..
  | .trainingComplete .. | .retrainTimer .. | .laneFailing .. | .laneSwitch .. | .cableHoursUpdate .. | .portReset ..
  | .retrain .. | .recheck .. | .holdDown .. | .holdPeakRead .. | .messageInjected .. | .packetForward .. | .write ..
  | .mailbox .. | .readReq .. | .readResp .. | .tokenArrive .. | .unschedStall .. | .epochFlip | .epochCmd ..
  | .allstopCmd .. | .streamEntry .. | .streamReadyTest .. | .streamComplete .. | .streamDeadline .. | .hbmRefresh ..
  | .hbmScrub .. | .stackRetired .. | .doorbell .. | .shadowPoll .. | .descriptorDispatch .. | .completionWrite ..
  | .cqHeadWrite .. | .irqDelayExpiry .. | .notifyEntry .. | .ping .. | .load .. | .mirror .. | .bind .. | .bindDone ..
  | .dma .. | .wait .. | .newt .. | .checkpoint .. | .stop .. | .query .. | .rehash .. | .flrVf .. | .flrPf | .hotReset
  | .pcieLinkDown | .partScrubbed | .rotaSwapStart .. | .rotaFillDone .. | .rotaFillLate .. | .rotaHalt ..
  | .eventReport .. | .clearFirst .. | .diePoll .. | .saHeartbeat .. | .saWatchdogFired .. | .plRequestWrite ..
  | .powerSample | .levelSwitch | .voltageSense .. | .droopFire .. | .droopSustained .. | .avsResponse .. | .avsTimeout ..
  | .pmRequestWrite .. | .waitm | .pmEntered .. | .moduleWake .. | .wakeAlarm | .wakePin | .ethWakeFrame
  | .readyChainStep .. | .resetDone | .powerOn .. | .powerOnFall | .auxPowerLost .. | .refclkLost | .replan ..
  | .txnAppend .. | .txnApply .. | .txnTimeout | .fuseBurn .. | .stageWrite .. | .stageErase ..
  | .stageVerify .. | .idCertRead .. | .lockstepFrameSend .. | .lockstepNoPartner .. | .ctrSnapGo .. | .ctrSnapshot
  | .traceTrigger .. | .traceRecordWrite .. | .traceSpill .. | .traceRead .. | .stopDump .. | .dumpDone ..
  | .wfgBuild .. | .wfgBuilt | .wfgRelease .. | .wfgRead .. | .stIndDataAccess .. | .regFaultRearm ..
  | .i3cReadSetup .. | .i3cRead .. | .registerWrite .. | .registerRead .. | .lineStopFailed ..
  | .pcieConfigurationWrite .. | .atsInvalidation .. | .avsStatusPoll .. | .marginPlanPending | .ppsOutFall
  | .dynamicAddress .. => true

end Sys2Proof
end

