-- ==== Sys2Proof/Tests/Slice0.lean ====
section
/-!
SUPPORT. Tests of one command on a small state, with results worked out from the rules by hand: the hypotheses of each
statement's clauses are met, at the ends of their ranges, and the command does there what its rule says.
-/
namespace Sys2Proof.Tests
open Sys2Proof Sys2Proof.Machine
set_option Elab.async false

/-! ## Helpers -/

/-- Every die has completed its ready chain, and a core cycle has begun on each C-die in this tick. -/
def up : State := (State.reset.w Reg.saDieReady 0xFFFFFFFF).withCycleNow 0xF

/-- The state a command answers. -/
def after (c : Instr) (s : State) : State :=
  match exec c s with
  | .next u => u
  | _ => s

/-- Tile 0 of `s` is `x`, in RUN with `w` fetched. -/
def onTile (w : W64) (x : Tile) (s : State := up) : State := s.setTile 0 { x with state := 1, fetched := some w, progLen := 100 }

/-- Tile 0 after command `c`. -/
def tileAfter (c : Instr) (s : State) : Tile := (after c s).tile 0

/-- Words of the formats of R141 and R144, PRED 0. -/
def wS (o rd ra rb fn imm : Nat) : W64 := BitVec.ofNat 64 (o * 2 ^ 56 + rd * 2 ^ 47 + ra * 2 ^ 42 + rb * 2 ^ 37 + fn * 2 ^ 32 + imm)
def wV (o vd va vb fn : Nat) (vc rs fmtd fmts : Nat := 0) : W64 :=
  BitVec.ofNat 64 (o * 2 ^ 56 + vd * 2 ^ 46 + va * 2 ^ 40 + vb * 2 ^ 34 + vc * 2 ^ 28 + rs * 2 ^ 16 + fmtd * 2 ^ 12 + fmts * 2 ^ 8 + fn)
def wX (o vd vi ra off : Nat) : W64 := BitVec.ofNat 64 (o * 2 ^ 56 + vd * 2 ^ 46 + vi * 2 ^ 40 + ra * 2 ^ 28 + off)
def wT (o rs1 rs2 rs3 tok ten imm : Nat) : W64 :=
  BitVec.ofNat 64 (o * 2 ^ 56 + rs1 * 2 ^ 47 + rs2 * 2 ^ 42 + rs3 * 2 ^ 37 + tok * 2 ^ 23 + ten * 2 ^ 22 + imm)

/-- A tile whose scalar registers 1 and 2 hold these. -/
def scalars (a b : W64) : Tile := { sregs := [(1, a), (2, b)] }

/-- Partition 0 holds every quarter of C-die 0 and its token blocks. -/
def owned : State := (up.w (Reg.saPartQuarters 0) 0xF).w (Reg.cnTokenBlock 0 0) 0x80000000

/-- `s` at FTC `n`. -/
def when (s : State) (n : Nat) : State := s.w Reg.sbFtc (BitVec.ofNat 64 n)

/-! ## Fabric time -/

/-- SB's 32-bit register TIME_STATUS with STATE `v`. -/
def timeIs (v : Nat) (s : State := up) : State := s.wf Reg.sbTimeStatus 0 3 v

theorem test_tick : up.clockRuns = true ∧ (after .tick (when up 0xFFFFFFFFFFFFFFFF)).now = 0 := by decide +kernel

theorem test_frame_start : (when up 4096).mon.pending = none ∧
    (after (.frameStart []) ((when up 4096).w (Reg.cnLct 3) 7)).r (Reg.cnLctAtFrame 3) = 7 ∧
    (after (.frameStart []) ((when up 4096).w (Reg.cnLct 3) 7)).r (Reg.cnFtcAtFrame 3) = 4096 := by decide +kernel

theorem test_ftc_read : up.readable .pf Reg.sbFtc true ∧ up.readable .pf Reg.sbFtc false ∧ up.readable .pf (Reg.sbFtc + 4) false ∧
    (after (.ftcRead .pf true false) (when up 0x500000007)).got .pf = 0x500000007 ∧
    (after (.ftcRead .pf false true) (when (after (.ftcRead .pf false false) (when up 0x500000007)) 0x600000000)).got .pf = 5 := by
  decide +kernel

theorem test_frame_start_replica : up.ready 0 = true ∧ up.ready 1 = true ∧
    (after (.frameStart [(0, 5)]) (when up 4096)).r (Reg.cnFtcAtFrame 3) = 4096 := by decide +kernel

theorem test_ftc_high_word : (after (.ftcRead .pf false true) (when up 0x600000000)).got .pf = 6 := by decide +kernel

theorem test_ftc_step_refused : (after .ftcStepAct (when ((timeIs 2).withTime { step := some 5 }) 8192)).now = 8192 := by decide +kernel

theorem test_ftc_incr : up.writable .sa Reg.sbFtcIncr true ∧
    (after (.ftcIncrWrite .sa 0x10003000000) up).rf Reg.sbFtcIncr 0 48 = 0x10003000000 ∧
    (after (.ftcIncrWrite .sa 0x10010000000) up).regs = up.regs := by decide +kernel

theorem test_ftc_step : up.writable .sa Reg.sbFtcStep true ∧ up.timeState = 0 ∧ up.jobActive = false ∧
    (after (.ftcStepWrite .sa (-5)) up).time.step = some (-5) ∧ (after (.ftcStepWrite .sa (-5)) (timeIs 2)).time.step = none := by
  decide +kernel

theorem test_ftc_step_act : (after .ftcStepAct ((when up 8192).withTime { step := some (-5) })).now = 8187 := by decide +kernel

theorem test_time_ctrl_range : up.writable .sa Reg.sbTimeCtrl false ∧ (after (.timeCtrlWrite .sa 0xC) up).regs = up.regs ∧
    (after (.timeCtrlWrite .sa 0xA) up).rf Reg.sbTimeCtrl 1 3 = 5 := by decide +kernel

theorem test_time_ctrl_root : (timeIs 2).writable .sa Reg.sbTimeCtrl false ∧
    (after (.timeCtrlWrite .sa 1) (timeIs 2)).rf Reg.sbTimeStatus 7 1 = 1 ∧ (after (.timeCtrlWrite .sa 1) (timeIs 2)).timeState = 2 := by
  decide +kernel

theorem test_time_restart : (after (.timeRestart .sa 1) (timeIs 4)).timeState = 2 ∧
    (after (.timeRestart .sa 1) ((timeIs 4).wf (Reg.saPartStatus 0) 0 3 3)).timeState = 4 := by decide +kernel

/-- Port 0 is in UP. -/
def linked (s : State := up) : State := s.w (Reg.lnLinkStatus 0) 4

theorem test_time_xfer_send : ((after (.timeXferSend 0 0) (when linked 63)).port 0).newtsLocal.map nwType = [1] ∧
    ((after (.timeXferSend 0 0) (when linked 127)).port 0).newtsLocal = [] := by decide +kernel

theorem test_time_xfer_receive : (up.w Reg.sbTimeStatus 0x80).rf Reg.sbTimeStatus 7 1 = 1 ∧
    findSent 0 (up.pt 0).sent = none ∧
    ((after (.timeXferReceive 0 (newtOf 1 0 0 0 0 0 0 (2 * 2 ^ 272 + 9 * 2 ^ 280)) 0 0) (up.w Reg.sbTimeStatus 0x80)).pt 0).nbHops = 9 ∧
    nwScope (newtOf 1 0 0 0 0 0 0 (2 * 2 ^ 272 + 9 * 2 ^ 280)) = 0 := by decide +kernel

/-- T1 100, T2 210, T3 50 and T4 260 ticks: a delay of 160 ticks and an offset of -50 (R56). -/
theorem test_time_xfer_exchange : findSent 0 ((up.setPt 0 { sent := [(0, 50 * 65536)] }).pt 0).sent = some (50 * 65536) ∧
    (after (.timeXferReceive 0 (newtOf 1 0 0 0 0 0 0 (100 + 260 * 2 ^ 192)) (210 * 65536) 0)
      ((up.w Reg.sbTimeStatus 0x80).setPt 0 { sent := [(0, 50 * 65536)] })).rf (Reg.lnTimeDelay 0) 0 32 = 40960 ∧
    (after (.timeXferReceive 0 (newtOf 1 0 0 0 0 0 0 (100 + 260 * 2 ^ 192)) (210 * 65536) 0)
      ((up.w Reg.sbTimeStatus 0x80).setPt 0 { sent := [(0, 50 * 65536)] })).r (Reg.lnTimeOffsetTicks 0) = -50 := by decide +kernel

/-- LOCKED to port 0 at the due tick of a slot that brought nothing. -/
def overdue : State := (when (timeIs 2) 111).w Reg.sbTimeCtrl 0x10

theorem test_time_xfer_missing : overdue.xferMissing 0 = true ∧ overdue.upstreams.contains 0 = true ∧
    overdue.rf Reg.sbTimeStatus 3 3 = 0 ∧ (when overdue 112).xferMissing 0 = false ∧
    (after (.timeXferMissing 0) overdue).time.missRun = 1 ∧
    (after (.timeXferMissing 0) (overdue.withTime { missRun := 3 })).timeState = 3 := by decide +kernel

theorem test_holdover_expiry : (after .holdoverExpiry ((timeIs 3).w Reg.sbHoldoverTicks 312500000)).timeState = 4 ∧
    (after .holdoverExpiry ((timeIs 3).w Reg.sbHoldoverTicks 312499999)).timeState = 3 := by decide +kernel

theorem test_ref10m_loss : (after .ref10mLoss ((up.w Reg.sbTimeStatus 0x4082).w Reg.sbTimeCtrl 0x201)).timeState = 3 := by decide +kernel

/-- A root that has lost its 10 MHz input. -/
def lostRoot : State := (up.w Reg.sbTimeStatus 0x84).w Reg.sbTimeCtrl 0x201

theorem test_ref10m_present : (after (.ref10mPresent true ⟨2048, 0⟩) lostRoot).timeState = 2 ∧
    (after (.ref10mPresent true ⟨2049, 0⟩) lostRoot).timeState = 4 ∧
    (after (.ref10mPresent true ⟨-2048, 0⟩) (lostRoot.wf Reg.sbTimeStatus 0 3 3)).timeState = 2 := by decide +kernel

theorem test_wtb_load : up.writable .sa Reg.sbWtbLoadNs true ∧ (after (.wtbLoadGo .sa 0x8000000000070000) up).time.load = true ∧
    (after .wtbLoaded (after (.wtbLoadGo .sa 0x8000000000070000) up)).time.wtbNs = 7 := by decide +kernel

theorem test_wtb_read : up.readable .pf Reg.sbWtbSec true ∧ (after (.wtbSecRead .pf) (up.w Reg.sbWtbSec 9)).got .pf = 9 := by
  decide +kernel

/-- A PTP frame over Ethernet of message type `k` and sequence number 9. -/
def ptpFrame (k : Byte) : List Byte := List.replicate 12 0 ++ [0x88, 0xF7, k] ++ List.replicate 29 0 ++ [0, 9] ++ List.replicate 12 0

theorem test_ptp_rx : ptpTransport (ptpFrame 2) = some .layer2 ∧ ptpPeerDelay (ptpType .layer2 (ptpFrame 2)) = true ∧
    (after (.ptpFrameRx (ptpFrame 2)) (up.w Reg.sbPtpPdelayDropped 0xFFFFFFFF)).rf Reg.sbPtpPdelayDropped 0 32 = 0xFFFFFFFF ∧
    ptpSupported (ptpType .layer2 (ptpFrame 0)) = true ∧
    ((after (.ptpFrameRx (ptpFrame 0)) (up.withTime { wtbNs := 5 })).time.ptpRx.map (·.ns)) = [(up.withTime { wtbNs := 5 }).wtbNsWord] := by
  decide +kernel

theorem test_ptp_tx : ((after (.ptpFrameTx false (ptpFrame 0)) up).time.stamps.map fun x => fld x 48 16) = [9] ∧
    ((after (.ptpFrameTx true (ptpFrame 0)) (up.w Reg.sbWtbSec 7)).ethOut.map fun x => frameField x.bytes 48 6) = [7] ∧
    (after (.ptpFrameTx true (ptpFrame 0)) (up.w Reg.sbWtbSec 7)).time.stamps = [] ∧ 14 + 44 ≤ (ptpFrame 0).length := by decide +kernel

theorem test_ptp_stamp_read : up.readable .sa Reg.sbPtpTxStamp true ∧
    (after (.ptpTxStampRead .sa) (up.withTime { stamps := [3, 4] })).got .sa = 3 ∧
    (after (.ptpTxStampRead .sa) (up.withTime { stamps := [3, 4] })).time.stamps = [4] := by decide +kernel

theorem test_ptp_stamp_empty : (after (.ptpTxStampRead .sa) up).got .sa = 0 ∧ up.time.stamps = [] := by decide +kernel

theorem test_pps_in : (after .ppsInEdge ((when up 77).w Reg.sbTimeCtrl 0x400)).r Reg.sbPpsInFtc = 77 ∧
    (after .ppsInEdge ((when up 77).w Reg.sbTimeCtrl 0x400)).rf Reg.sbPpsCount 0 32 = 1 ∧
    (after .ppsInEdge (when up 77)).rf Reg.sbPpsCount 0 32 = 0 := by decide +kernel

theorem test_pps_out : (after .ppsOutEdge ((up.withTime { ppsDue := true }).w Reg.sbTimeCtrl 0x800)).time.ppsOut = true ∧
    (after .ppsOutEdge (up.withTime { ppsDue := true })).time.ppsOut = false := by decide +kernel

theorem test_pps_fall : (after .ppsOutFall (when (up.withTime { ppsOut := true }) 312500)).time.ppsOut = false ∧
    (after .ppsOutFall (when (up.withTime { ppsOut := true }) 312499)).time.ppsOut = true := by decide +kernel

/-! ## Scalar instructions -/

theorem test_salu_adds : (onTile (wS 0 3 1 2 0 0) (scalars 5 7)).issues 0 0 (wS 0 3 1 2 0 0) ∧
    (tileAfter (.salu 0 (wS 0 3 1 2 0 0)) (onTile (wS 0 3 1 2 0 0) (scalars 5 7))).s 3 = 12 := by decide +kernel

theorem test_salu_mulhs : (tileAfter (.salu 0 (wS 0 3 1 2 10 0)) (onTile (wS 0 3 1 2 10 0) (scalars (-1) 2))).s 3 = -1 := by decide +kernel

theorem test_salui_sra : (onTile (wS 1 3 1 0 7 4) (scalars (-16) 0)).issues 0 1 (wS 1 3 1 0 7 4) ∧
    (tileAfter (.salui 0 (wS 1 3 1 0 7 4)) (onTile (wS 1 3 1 0 7 4) (scalars (-16) 0))).s 3 = -1 := by decide +kernel

theorem test_li_extends : (onTile (wS 5 3 0 0 0 0x80000000) {}).issues 0 5 (wS 5 3 0 0 0 0x80000000) ∧
    (tileAfter (.li 0 (wS 5 3 0 0 0 0x80000000)) (onTile (wS 5 3 0 0 0 0x80000000) {})).s 3 = 0xFFFFFFFF80000000 := by decide +kernel

theorem test_lui_keeps_low : (onTile (wS 6 1 0 0 0 9) (scalars 7 0)).issues 0 6 (wS 6 1 0 0 0 9) ∧
    (tileAfter (.lui 0 (wS 6 1 0 0 0 9)) (onTile (wS 6 1 0 0 0 9) (scalars 7 0))).s 1 = 0x900000007 := by decide +kernel

theorem test_scmp_signed : (onTile (wS 2 3 1 2 2 0) (scalars (-1) 1)).issues 0 2 (wS 2 3 1 2 2 0) ∧
    (tileAfter (.scmp 0 (wS 2 3 1 2 2 0)) (onTile (wS 2 3 1 2 2 0) (scalars (-1) 1))).p 3 = true := by decide +kernel

theorem test_scmpi_p0 : (onTile (wS 3 0 1 0 0 9) (scalars 1 0)).issues 0 3 (wS 3 0 1 0 0 9) ∧
    (tileAfter (.scmpi 0 (wS 3 0 1 0 0 9)) (onTile (wS 3 0 1 0 0 9) (scalars 1 0))).p 0 = true := by decide +kernel

theorem test_plog_xor : (onTile (wS 4 2 0 1 2 0) {}).issues 0 4 (wS 4 2 0 1 2 0) ∧
    (tileAfter (.plog 0 (wS 4 2 0 1 2 0)) (onTile (wS 4 2 0 1 2 0) {})).p 2 = true := by decide +kernel

theorem test_br : (onTile (wS 0x20 0 0 0 0 99) {}).issues 0 0x20 (wS 0x20 0 0 0 0 99) ∧
    (tileAfter (.br 0 (wS 0x20 0 0 0 0 99)) (onTile (wS 0x20 0 0 0 0 99) {})).pc = 99 := by decide +kernel

theorem test_br_range : (tileAfter (.br 0 (wS 0x20 0 0 0 0 100)) (onTile (wS 0x20 0 0 0 0 100) {})).fault = Ev.pcRange := by decide +kernel

theorem test_jal_links : (onTile (wS 0x21 4 0 0 0 7) { pc := 2 }).issues 0 0x21 (wS 0x21 4 0 0 0 7) ∧
    (tileAfter (.jal 0 (wS 0x21 4 0 0 0 7)) (onTile (wS 0x21 4 0 0 0 7) { pc := 2 })).s 4 = 3 := by decide +kernel

theorem test_jr : (onTile (wS 0x22 0 1 0 0 0) (scalars 42 0)).issues 0 0x22 (wS 0x22 0 1 0 0 0) ∧
    (tileAfter (.jr 0 (wS 0x22 0 1 0 0 0)) (onTile (wS 0x22 0 1 0 0 0) (scalars 42 0))).pc = 42 := by decide +kernel

theorem test_end_idles : (onTile (wS 0x23 0 0 0 0 0) {}).issues 0 0x23 (wS 0x23 0 0 0 0 0) ∧
    (tileAfter (.endCmd 0 (wS 0x23 0 0 0 0 0)) (onTile (wS 0x23 0 0 0 0 0) {})).state = 0 := by decide +kernel

theorem test_nop : (onTile (wS 0x24 0 0 0 0 0) {}).issues 0 0x24 (wS 0x24 0 0 0 0 0) ∧
    (tileAfter (.nop 0 (wS 0x24 0 0 0 0 0)) (onTile (wS 0x24 0 0 0 0 0) {})).pc = 1 := by decide +kernel

theorem test_guard_holds_back : ((onTile (wS 0 3 1 2 0 0 + 1 <<< 55) (scalars 5 7)).tile 0).p 0 = true ∧
    (tileAfter (.salu 0 (wS 0 3 1 2 0 0 + 1 <<< 55)) (onTile (wS 0 3 1 2 0 0 + 1 <<< 55) (scalars 5 7))).s 3 = 0 ∧
    (tileAfter (.salu 0 (wS 0 3 1 2 0 0 + 1 <<< 55)) (onTile (wS 0 3 1 2 0 0 + 1 <<< 55) (scalars 5 7))).pc = 1 := by decide +kernel

theorem test_mfcr_tile_id : (onTile (wS 0x28 3 0 0 0 4) {}).issues 0 0x28 (wS 0x28 3 0 0 0 4) ∧
    (tileAfter (.mfcr 0 (wS 0x28 3 0 0 0 2)) (onTile (wS 0x28 3 0 0 0 2) { fpFlags := 5 })).s 3 = 5 := by decide +kernel

theorem test_mtcr_clears_flags : (onTile (wS 0x29 0 1 0 0 2) { scalars 4 0 with fpFlags := 5 }).issues 0 0x29 (wS 0x29 0 1 0 0 2) ∧
    (tileAfter (.mtcr 0 (wS 0x29 0 1 0 0 2)) (onTile (wS 0x29 0 1 0 0 2) { scalars 4 0 with fpFlags := 5 })).fpFlags = 1 := by decide +kernel

theorem test_rdtime : (onTile (wT 0x9C 3 0 0 0 0 0) {} (up.w Reg.sbFtc 77)).issues 0 0x9C (wT 0x9C 3 0 0 0 0 0) ∧
    (tileAfter (.rdtime 0 (wT 0x9C 3 0 0 0 0 0)) (onTile (wT 0x9C 3 0 0 0 0 0) {} (up.w Reg.sbFtc 77))).s 3 = 77 := by decide +kernel

theorem test_tmark : (onTile (wT 0x9E 1 0 0 0 0 0xFFFF) {}).issues 0 0x9E (wT 0x9E 1 0 0 0 0 0xFFFF) ∧
    (tileAfter (.tmark 0 (wT 0x9E 1 0 0 0 0 0xFFFF)) (onTile (wT 0x9E 1 0 0 0 0 0xFFFF) {})).pc = 1 := by decide +kernel

theorem test_sst : (onTile (wS 0x31 0 1 2 0 0) (scalars 0x7FFFFF 0x0102030405060708)).issues 0 0x31 (wS 0x31 0 1 2 0 0) ∧
    (after (.sst 0 (wS 0x31 0 1 2 0 0)) (onTile (wS 0x31 0 1 2 0 0) (scalars 0x7FFFFF 0x0102030405060708))).byte
      (tileAddr 0 0x7FFFF8) = 8 := by decide +kernel

theorem test_sld : (onTile (wS 0x30 3 1 0 0 8) (scalars 0 0) (up.setByte (tileAddr 0 9) 2)).issues 0 0x30 (wS 0x30 3 1 0 0 8) ∧
    (tileAfter (.sld 0 (wS 0x30 3 1 0 0 8) .ok) (onTile (wS 0x30 3 1 0 0 8) (scalars 0 0) (up.setByte (tileAddr 0 9) 2))).s 3 =
      0x200 := by decide +kernel

/-! ## Vector and matrix instructions -/

/-- Vector registers 1 and 2 hold these. -/
def vecs (a b : Vec) (x : Tile := {}) : Tile := { x with vregs := [(1, a), (2, b)] }

theorem test_vfp_adds : (onTile (wV 0x40 3 1 2 0) (vecs 0x3F800000 0x3F800000)).issues 0 0x40 (wV 0x40 3 1 2 0) ∧
    lane ((tileAfter (.vfp 0 (wV 0x40 3 1 2 0) false) (onTile (wV 0x40 3 1 2 0) (vecs 0x3F800000 0x3F800000))).v 3) 0 =
      0x40000000 := by decide +kernel

theorem test_vfps : (onTile (wV 0x41 3 1 0 0 0 2) { vecs 0x3F800000 0 with sregs := [(2, 0x40000000)] }).issues 0 0x41
      (wV 0x41 3 1 0 0 0 2) ∧
    lane ((tileAfter (.vfps 0 (wV 0x41 3 1 0 0 0 2) false) (onTile (wV 0x41 3 1 0 0 0 2)
      { vecs 0x3F800000 0 with sregs := [(2, 0x40000000)] })).v 3) 0 = 0x40400000 := by decide +kernel

theorem test_vint_wraps : (onTile (wV 0x42 3 1 2 0) (vecs 0x7FFFFFFF 1)).issues 0 0x42 (wV 0x42 3 1 2 0) ∧
    lane ((tileAfter (.vint 0 (wV 0x42 3 1 2 0) false) (onTile (wV 0x42 3 1 2 0) (vecs 0x7FFFFFFF 1))).v 3) 0 = 0x80000000 ∧
    (tileAfter (.vint 0 (wV 0x42 3 1 2 0) false) (onTile (wV 0x42 3 1 2 0) (vecs 0x7FFFFFFF 1))).fpFlags =
      BitVec.ofNat 32 fIntOver := by decide +kernel

theorem test_vints : (onTile (wV 0x43 3 1 0 1 0 2) { vecs 5 0 with sregs := [(2, 7)] }).issues 0 0x43 (wV 0x43 3 1 0 1 0 2) ∧
    lane ((tileAfter (.vints 0 (wV 0x43 3 1 0 1 0 2) false) (onTile (wV 0x43 3 1 0 1 0 2)
      { vecs 5 0 with sregs := [(2, 7)] })).v 3) 255 = 0xFFFFFFF9 := by decide +kernel

theorem test_vmov_iota : (onTile (wV 0x44 3 0 0 2) {}).issues 0 0x44 (wV 0x44 3 0 0 2) ∧
    lane ((tileAfter (.vmov 0 (wV 0x44 3 0 0 2) false) (onTile (wV 0x44 3 0 0 2) {})).v 3) 255 = 255 := by decide +kernel

theorem test_vmov_perm_in_place : lane ((tileAfter (.vmov 0 (wV 0x44 1 1 2 3) false)
      (onTile (wV 0x44 1 1 2 3) (vecs (9 + 8 <<< 32) 1))).v 1) 0 = 8 := by decide +kernel

theorem test_vcvt_widens : (onTile (wV 0x48 3 1 0 0 0 0 0 2) (vecs 0x3C00 0)).issues 0 0x48 (wV 0x48 3 1 0 0 0 0 0 2) ∧
    lane ((tileAfter (.vcvt 0 (wV 0x48 3 1 0 0 0 0 0 2) false) (onTile (wV 0x48 3 1 0 0 0 0 0 2) (vecs 0x3C00 0))).v 3) 0 =
      0x3F800000 := by decide +kernel

theorem test_vcvt_narrows : (onTile (wV 0x48 3 1 0 0 0 0 2 0) (vecs 0x3F800000 0)).issues 0 0x48 (wV 0x48 3 1 0 0 0 0 2 0) ∧
    fld ((tileAfter (.vcvt 0 (wV 0x48 3 1 0 0 0 0 2 0) false) (onTile (wV 0x48 3 1 0 0 0 0 2 0) (vecs 0x3F800000 0))).v 3) 0 16 =
      0x3C00 := by decide +kernel

theorem test_vrand_issues : (onTile (wV 0x78 3 0 0 0 0 2) {}).issues 0 0x78 (wV 0x78 3 0 0 0 0 2) ∧
    (tileAfter (.vrand 0 (wV 0x78 3 0 0 0 0 2) false) (onTile (wV 0x78 3 0 0 0 0 2) {})).pc = 1 := by decide +kernel

theorem test_vred_counts : (onTile (wV 0x50 0 1 0 7 0 3) (vecs (3 + 1 <<< 8160) 0)).issues 0 0x50 (wV 0x50 0 1 0 7 0 3) ∧
    (tileAfter (.vred 0 (wV 0x50 0 1 0 7 0 3) false) (onTile (wV 0x50 0 1 0 7 0 3) (vecs (3 + 1 <<< 8160) 0))).s 3 = 2 := by decide +kernel

theorem test_vlacc_clears : (onTile (wV 0x52 0 0 0 0) { laccs := [(15, { nan := true })] }).issues 0 0x52 (wV 0x52 0 0 0 0) ∧
    ((tileAfter (.vlacc 0 (wV 0x52 0 0 0 0) false) (onTile (wV 0x52 0 0 0 0) { laccs := [(15, { nan := true })] })).lacc 15).nan =
      false := by decide +kernel

theorem test_vsort_issues : (onTile (wV 0x70 3 1 2 0 4) {}).issues 0 0x70 (wV 0x70 3 1 2 0 4) ∧ vVd (wV 0x70 3 1 2 0 4) ≠
    vVc (wV 0x70 3 1 2 0 4) := by decide +kernel

theorem test_vtopk_zeros : (onTile (wV 0x71 3 1 2 0 4 1) (vecs 5 6)).issues 0 0x71 (wV 0x71 3 1 2 0 4 1) ∧
    lane ((tileAfter (.vtopk 0 (wV 0x71 3 1 2 0 4 1) false) (onTile (wV 0x71 3 1 2 0 4 1) (vecs 5 6))).v 3) 0 = 0 := by decide +kernel

theorem test_vld : (onTile (wX 0x60 3 0 1 0) {} (up.setByte (tileAddr 0 4) 7)).issues 0 0x60 (wX 0x60 3 0 1 0) ∧
    lane ((tileAfter (.vld 0 (wX 0x60 3 0 1 63) .ok) (onTile (wX 0x60 3 0 1 63) {} (up.setByte (tileAddr 0 4) 7))).v 3) 1 = 7 := by
  decide +kernel

theorem test_vst_issues : (onTile (wX 0x61 1 0 2 0) (vecs 7 0)).issues 0 0x61 (wX 0x61 1 0 2 0) := by decide +kernel

theorem test_gather : (onTile (wX 0x62 3 1 2 0) (vecs 2 0) (up.setByte (tileAddr 0 8) 7)).issues 0 0x62 (wX 0x62 3 1 2 0) ∧
    lane ((tileAfter (.gather 0 (wX 0x62 3 1 2 0) .ok false) (onTile (wX 0x62 3 1 2 0) (vecs 2 0) (up.setByte (tileAddr 0 8) 7))).v 3)
      0 = 7 := by decide +kernel

theorem test_scatter_issues : (onTile (wX 0x63 1 2 3 0) (vecs 7 1)).issues 0 0x63 (wX 0x63 1 2 3 0) := by decide +kernel

theorem test_scataddi_issues : (onTile (wX 0x64 1 2 3 0) (vecs 7 1)).issues 0 0x64 (wX 0x64 1 2 3 0) := by decide +kernel

theorem test_lexp : (onTile (wX 0x65 0 0 3 0) { laccs := [(1, { val := 9 })] }).issues 0 0x65 (wX 0x65 0 0 3 0) ∧
    (after (.lexp 0 (wX 0x65 0 0 3 0) false) (onTile (wX 0x65 0 0 3 0) { laccs := [(1, { val := 9 })] })).byte (tileAddr 0 24) = 9 := by
  decide +kernel

theorem test_lmrg : (onTile (wX 0x66 0 0 3 0) {} (up.setByte (tileAddr 0 24) 9)).issues 0 0x66 (wX 0x66 0 0 3 0) ∧
    ((tileAfter (.lmrg 0 (wX 0x66 0 0 3 0) .ok false) (onTile (wX 0x66 0 0 3 0) {} (up.setByte (tileAddr 0 24) 9))).lacc 1).val = 9 := by
  decide +kernel

/-- An MMA of INT8 and of one block. -/
def mmaWord : W64 := BitVec.ofNat 64 (0x80 * 2 ^ 56 + 9 * 2 ^ 43 + 9 * 2 ^ 39 + 2 ^ 14)

theorem test_mma_issues : (onTile mmaWord {}).issues 0 0x80 mmaWord ∧ ((onTile mmaWord {}).tile 0).mma.length < 2 := by decide +kernel

theorem test_mma_complete : ((after (.mmaComplete 0 false) (up.setTile 0 { mma := [⟨2, 0, 0, 5, false⟩] })).tile 0).acc 2 = 5 ∧
    ((after (.mmaComplete 0 false) (up.setTile 0 { mma := [⟨2, 1, 0, 5, false⟩] })).tile 0).acc 2 = 0 := by decide +kernel

theorem test_drain_issues : (onTile (BitVec.ofNat 64 (0x81 * 2 ^ 56)) {}).issues 0 0x81 (BitVec.ofNat 64 (0x81 * 2 ^ 56)) ∧
    ((onTile (BitVec.ofNat 64 (0x81 * 2 ^ 56)) {}).tile 0).accBusy 0 = false := by decide +kernel

theorem test_drainv : (onTile (BitVec.ofNat 64 (0x82 * 2 ^ 56 + 3 * 2 ^ 8 + 35 * 2 ^ 14)) {}).issues 0 0x82
      (BitVec.ofNat 64 (0x82 * 2 ^ 56 + 3 * 2 ^ 8 + 35 * 2 ^ 14)) ∧
    lane ((tileAfter (.drainv 0 (BitVec.ofNat 64 (0x82 * 2 ^ 56 + 3 * 2 ^ 8 + 35 * 2 ^ 14)))
      (onTile (BitVec.ofNat 64 (0x82 * 2 ^ 56 + 3 * 2 ^ 8 + 35 * 2 ^ 14)) { accs := [(0, 7 <<< (32 * 9215))] })).v 3) 255 = 7 := by decide +kernel

/-! ## Local lines, tokens and messages -/

theorem test_lsend : (onTile (wT 0x90 1 2 3 0 0 37) {}).issues 0 0x90 (wT 0x90 1 2 3 0 0 37) ∧
    (onTile (wT 0x90 1 2 3 0 0 37) {}).lineCycle (0 : Fin 768) ≤ 0 ∧
    ((tileAfter (.lsend 0 (wT 0x90 1 2 3 0 0 37) .ok) (onTile (wT 0x90 1 2 3 0 0 37) {})).sendQ.map (·.dst)) = [37] := by
  decide +kernel

/-- A send of tile 200 to tile 237 at line cycle 1,000: the worked example of R87. -/
def sender : State := (up.setTile 200 { sendQ := [⟨1000, 237, 0, none, 5⟩] }).w (Reg.cnLct 1) 1000

theorem test_line_send_depart : sender.lineCycle (200 : Fin 768) = 1000 ∧
    (after (.lineSendDepart 200) sender).lineCells.map (fun x => (x.src, x.dst, x.due)) = [(200, 237, 1012)] := by decide +kernel

/-- A cell at the stop of row 0, site 0, for tile 8, one row down. -/
def hopper (dst : Nat) : State := (up.withLineCells [⟨0, dst, 0, 0, 1, 1, 256, none, 7⟩]).w (Reg.cnLct 0) 2

theorem test_line_cell_hop : (after (.lineCellHop 0) (hopper 8)).lineCells.map (fun x => (x.row, x.site, x.at_)) = [(1, 0, 2)] := by
  decide +kernel

/-- The boundary between rows 5 and 6 is closed, and open (R87). -/
theorem test_line_boundary : (up.withLineCells [⟨0, 48, 5, 0, 1, 9, 256, none, 7⟩]).nextStop ⟨0, 48, 5, 0, 1, 9, 256, none, 7⟩ = some (6, 0, 1) ∧
    (after (.lineCellHop 0) ((up.withLineCells [⟨0, 48, 5, 0, 1, 9, 256, none, 7⟩]).w (Reg.cnLct 0) 2)).lineCells = [] ∧
    (after (.lineCellHop 0) (((up.withLineCells [⟨0, 48, 5, 0, 1, 9, 256, none, 7⟩]).w (Reg.cnLct 0) 2).w (Reg.cnLineBoundary 0) 1)).lineCells.map
      (·.row) = [6] ∧
    (after (.lineCellHop 0) (hopper 0)).lineCells.map (fun x => (x.row, x.at_)) = [(0, 2)] := by decide +kernel

theorem test_line_eject : (hopper 0).nextStop ⟨0, 0, 0, 0, 1, 1, 256, none, 7⟩ = none ∧
    (tileAfter (.lineEject 0) (hopper 0)).eject.length = 1 := by decide +kernel

theorem test_external_cycle : ((up.setTile 0 { eject := [⟨0, 0, 0, 0, 1, 1, 256, none, 7⟩] }).w (Reg.cnLct 0) 7).externalNow 0 = true ∧
    (after (.externalCycle 0 []) ((up.setTile 0 { eject := [⟨0, 0, 0, 0, 1, 1, 256, none, 7⟩] }).w (Reg.cnLct 0) 7)).byte
      (tileAddr 0 256) = 7 := by decide +kernel

theorem test_arrive : (onTile (wT 0x91 1 0 0 3 1 0) (scalars 9 0) owned).issues 0 0x91 (wT 0x91 1 0 0 3 1 0) ∧
    (onTile (wT 0x91 1 0 0 3 1 0) (scalars 9 0) owned).tokenMine 0 3 = true ∧
    (after (.arrive 0 (wT 0x91 1 0 0 3 1 0)) (onTile (wT 0x91 1 0 0 3 1 0) (scalars 9 0) owned)).tokOps = [⟨3, false, 9, 0⟩] := by
  decide +kernel

theorem test_arrive_outside : (after (.arrive 0 (wT 0x91 1 0 0 3 1 0)) (onTile (wT 0x91 1 0 0 3 1 0) (scalars 9 0))).tokOps = [] := by
  decide +kernel

theorem test_set : (onTile (wT 0x92 1 0 0 3 1 0) (scalars 9 0) owned).issues 0 0x92 (wT 0x92 1 0 0 3 1 0) ∧
    (after (.setCmd 0 (wT 0x92 1 0 0 3 1 0)) (onTile (wT 0x92 1 0 0 3 1 0) (scalars 9 0) owned)).tokOps = [⟨3, true, 9, 0⟩] := by
  decide +kernel

theorem test_token_slots : (after (.tokenSlotArrive 16383 .w32 2) up).tokOps = [⟨16383, false, 2, 4⟩] ∧
    (after (.tokenSlotSet 16383 .w32 2) up).tokOps = [⟨16383, true, 2, 4⟩] ∧ (after (.tokenSlotSet 1 .w64 2) up).tokOps = [] := by
  decide +kernel

theorem test_token_update_saturates :
    (after (.tokenUpdateCycle 3) ((up.setToken 16383 { val := 0xFFFFFFFF }).withTokOps [⟨16383, false, 1, 4⟩])).token 16383 =
      { val := 0xFFFFFFFF, sat := true, logged := true } := by decide +kernel

theorem test_token_update_sets_first :
    ((after (.tokenUpdateCycle 0) (up.withTokOps [⟨3, false, 5, 0⟩, ⟨3, true, 9, 0⟩])).token 3).val = 14 := by decide +kernel

/-- An operation from another C-die needs a J-die (R15). -/
theorem test_token_update_crosses : up.someJunction = true ∧
    ((after (.tokenUpdateCycle 0) (up.withTokOps [⟨3, false, 5, 1⟩])).token 3).val = 5 ∧
    (after (.tokenUpdateCycle 0) ((up.withTokOps [⟨3, false, 5, 1⟩]).w Reg.saDieReady 0xFFFFFC3F)).tokOps = [⟨3, false, 5, 1⟩] := by
  decide +kernel

theorem test_waitt : (onTile (wT 0x98 1 0 0 3 1 0xFFFF) (scalars 9 0) owned).issues 0 0x98 (wT 0x98 1 0 0 3 1 0xFFFF) ∧
    (onTile (wT 0x98 1 0 0 3 1 0xFFFF) (scalars 9 0) owned).tokenMine 0 3 = true ∧
    (tileAfter (.waitt 0 (wT 0x98 1 0 0 3 1 0xFFFF)) (onTile (wT 0x98 1 0 0 3 1 0xFFFF) (scalars 9 0) owned)).wait =
      some { token := some 3, thresh := 9 } := by decide +kernel

/-- TIMEOUT 0 takes WAIT_LIMIT, 64 frames after reset; another value counts frames (R173). -/
theorem test_wait_deadlines : (onTile (wT 0x98 1 0 0 3 1 0) {} owned).issues 0 0x98 (wT 0x98 1 0 0 3 1 0) ∧
    ((tileAfter (.waitt 0 (wT 0x98 1 0 0 3 1 0)) (onTile (wT 0x98 1 0 0 3 1 0) {} owned)).wait.map (·.deadline)) = some (some 262144) ∧
    ((tileAfter (.waitt 0 (wT 0x98 1 0 0 3 1 2)) (onTile (wT 0x98 1 0 0 3 1 2) {} owned)).wait.map (·.deadline)) = some (some 8192) ∧
    (onTile (wT 0x9A 1 0 0 3 1 2) (scalars 9 0) owned).issues 0 0x9A (wT 0x9A 1 0 0 3 1 2) ∧
    ((tileAfter (.waitps 0 (wT 0x9A 1 0 0 3 1 2)) (onTile (wT 0x9A 1 0 0 3 1 2) (scalars 9 0) owned)).wait.map
      fun x => (x.token, x.thresh, x.deadline)) = some (some 3, 9, some 8192) := by decide +kernel

theorem test_waitf : (onTile (wT 0x99 1 0 0 0 0 0) (scalars 9 0)).issues 0 0x99 (wT 0x99 1 0 0 0 0 0) ∧
    (tileAfter (.waitf 0 (wT 0x99 1 0 0 0 0 0)) (onTile (wT 0x99 1 0 0 0 0 0) (scalars 9 0))).wait = some { ftc := some 9 } := by
  decide +kernel

theorem test_waitps : (onTile (wT 0x9A 0 1 0 0 0 0x1FFFF) (scalars 9 0)).issues 0 0x9A (wT 0x9A 0 1 0 0 0 0x1FFFF) ∧
    (tileAfter (.waitps 0 (wT 0x9A 0 1 0 0 0 0x1FFFF)) (onTile (wT 0x9A 0 1 0 0 0 0x1FFFF) (scalars 9 0))).state = 4 := by
  decide +kernel

theorem test_ftc_wait_complete : (up.setTile 0 { state := 3, wait := some { ftc := some 9 } }).coreRuns 0 = true ∧
    (tileAfter (.ftcWaitComplete 0) (when (up.setTile 0 { state := 3, wait := some { ftc := some 9 } }) 9)).state = 1 ∧
    (tileAfter (.ftcWaitComplete 0) (when (up.setTile 0 { state := 3, wait := some { ftc := some 9 } }) 8)).state = 3 := by
  decide +kernel

theorem test_token_wait_resume :
    (tileAfter (.tokenWaitResume 0) ((up.setTile 0 { state := 2, wait := some { token := some 3, met := some (4, 0) } }).w
      (Reg.cnLct 0) 7)).state = 1 ∧
    (tileAfter (.tokenWaitResume 0) ((up.setTile 0 { state := 2, wait := some { token := some 3, met := some (4, 0) } }).w
      (Reg.cnLct 0) 6)).state = 2 := by decide +kernel

theorem test_token_wait_timeout :
    (tileAfter (.tokenWaitTimeout 0) (when (up.setTile 0 { state := 2, wait := some { token := some 3, thresh := 1, deadline := some 4 } }) 4)).fault = Ev.tokenWaitTimeout := by decide +kernel

theorem test_tile_wake : (tileAfter (.tileWake 0) (when (up.setTile 0
      { state := 4, pmode := 2, vregs := [(1, 5)], wait := some { ftc := some 9 } }) 3134)).vregs = [] ∧
    (tileAfter (.tileWake 0) (when (up.setTile 0
      { state := 4, pmode := 2, vregs := [(1, 5)], wait := some { ftc := some 9 } }) 3133)).state = 4 := by decide +kernel

theorem test_fetch : (tileAfter (.instructionFetch 0 .ok) ((up.setTile 0 { state := 1, progLen := 1 }).setByte
      (instrBank 0 false) 6)).fetched = some 6 ∧
    (tileAfter (.instructionFetch 0 .ok) (up.setTile 0 { state := 1, pc := 1, progLen := 1 })).fault = Ev.pcRange := by decide +kernel

theorem test_fetch_errors : (tileAfter (.instructionFetch 0 .ce) ((up.setTile 0 { state := 1, progLen := 1 }).setByte
      (instrBank 0 false) 6)).fetched = some 6 ∧
    (after (.instructionFetch 0 .ce) (up.setTile 0 { state := 1, progLen := 1 })).rf (Reg.cnTileErr 0 0) 16 16 = 1 ∧
    (tileAfter (.instructionFetch 0 (.ue 0)) (up.setTile 0 { state := 1, progLen := 1 })).fault = Ev.instrUncorrectable ∧
    up.coreRuns 0 = true ∧ up.coreNow 0 = true := by decide +kernel

theorem test_seq_watchdog : (tileAfter (.seqWatchdog 0) (when (up.setTile 0 { state := 1 }) 312500)).fault = Ev.seqWatchdog ∧
    (tileAfter (.seqWatchdog 0) (when (up.setTile 0 { state := 1 }) 312499)).state = 1 := by decide +kernel

theorem test_tile_scrub : 0 < (up.w (Reg.cnLct 0) 7).idleRoom 0 ∧ (after (.tileSramScrub 0x1000007FFFFF .ce) (up.w (Reg.cnLct 0) 7)).rf (Reg.cnTileErr 0 0) 0 1 = 1 ∧
    (after (.tileSramScrub 0x100000800000 .ce) (up.w (Reg.cnLct 0) 7)).rf (Reg.cnTileErr 0 1) 0 1 = 1 := by decide +kernel

theorem test_msend_refused : (onTile (wT 0x94 1 0 0 0 0 0) {}).issues 0 0x94 (wT 0x94 1 0 0 0 0 0) ∧
    (onTile (wT 0x94 1 0 0 0 0 0) {}).throttled 1 = false ∧
    (after (.msend 0 (wT 0x94 1 0 0 0 0 0) .ok) (onTile (wT 0x94 1 0 0 0 0 0) {})).rf (Reg.cnInjRefused 0) 0 32 = 1 := by
  decide +kernel

/-- Partition 0 has job key 5, and tile 0 posts the descriptor of a WRITE of 4 bytes to its own module. -/
def posting : State :=
  onTile (wT 0x94 1 0 0 0 0 0) {} ((((owned.w (Reg.saPartJobKey 0) 5).setByte (tileAddr 0 1) 1).setByte (tileAddr 0 5) 0x10).setByte (tileAddr 0 12) 4)

theorem test_msend_taken : posting.issues 0 0x94 (wT 0x94 1 0 0 0 0 0) ∧ posting.throttled 1 = false ∧ posting.stopped 0 = false ∧
    ((after (.msend 0 (wT 0x94 1 0 0 0 0 0) .ok) posting).inj 1).msgs.map (fun m => (m.dest, m.len, m.key)) = [(0x100000000100, 4, 5)] := by
  decide +kernel

/-- A message of one packet that has been injected. -/
def sentMsg : Msg := { id := 1, op := 0, dest := 0, data := 0, len := 4, token := 0, msgId := 0, localToken := some 3, part := 0, key := 5, next := 1 }

theorem test_message_injected : sentMsg.packets ≤ sentMsg.next ∧
    (after (.messageInjected 1) (up.setInj 1 { msgs := [sentMsg] })).tokOps = [⟨3, false, 1, 0⟩] := by decide +kernel

/-- Partition 0 has job key 5, C-die 0 is in an external cycle, and SA's injection unit holds this packet of `n` bytes for address `a`, with DATA 7 and key 5. -/
def packet (op a n : Nat) : State :=
  ((owned.w (Reg.saPartJobKey 0) 5).w (Reg.cnLct 0) 7).setInj 0
    { cells := [⟨BitVec.ofNat 2112 (op + (n - 1) * 2 ^ 55 + a * 2 ^ 64 + 3 * 2 ^ 112 + 2 ^ 126 + 5 * 2 ^ 224 + 7 * 2 ^ 256), 0, 6, 0, false, false⟩] }

/-- The packet that `packet` holds. -/
def packetOf (op a n : Nat) : Queued := ((packet op a n).inj 0).cells.getD 0 ⟨0, 0, 0, 0, false, false⟩

theorem test_write_delivers : (packet 0 0x100000000100 4).pktRefused (setFld (packetOf 0 0x100000000100 4).cell 9 2 3) 0x100000000100 4 =
      none ∧ (after (.write 6 0 0) (packet 0 0x100000000100 4)).byte 0x100000000100 = 7 ∧
    (after (.write 6 0 0) (packet 0 0x100000000100 4)).tokOps = [⟨3, false, 1, 0⟩] := by decide +kernel

theorem test_read_resp_delivers : (after (.readResp 6 0 0) (packet 3 0x100000000100 4)).byte 0x100000000100 = 7 := by decide +kernel

theorem test_mailbox_delivers : (after (.mailbox 6 0 0) (packet 1 0x100000000100 4)).byte 0x100000000120 = 7 := by decide +kernel

theorem test_token_arrive_delivers : (after (.tokenArrive 6 0 0) (packet 4 0 4)).tokOps = [⟨3, false, 7, 0⟩] := by decide +kernel

theorem test_read_req_refused : (after (.readReq 6 0 0 []) (packet 2 0x100000000100 16)).mem = (packet 2 0x100000000100 16).mem ∧
    ((after (.readReq 6 0 0 []) (packet 2 0x100000000100 16)).inj 0).cells = [] := by decide +kernel

/-- Version 0 of the routes leads along +X to coordinate 1, and XP is in UP. -/
def routed : State := ((up.w (Reg.saRouteExt 0) 0x80001082).w (Reg.saRoute 0 0) 0x0100).w (Reg.lnLinkStatus 0) 4

theorem test_packet_forward : routed.hopOf (BitVec.ofNat 2112 (2 ^ 13 + 3 * 2 ^ 9)) true ≠ (.noRoute, routed) ∧
    ((after (.packetForward 6 0 0 .ok) (routed.setInj 0 { cells := [⟨BitVec.ofNat 2112 (2 ^ 13 + 3 * 2 ^ 9), 0, 6, 0, false, false⟩] })).port
      0).uout.length = 1 := by decide +kernel

theorem test_unsched_stall : ((after (.unschedStall 6 0) (when (up.setInj 0 { cells := [⟨0, 0, 6, 0, false, false⟩] }) 3000000)).inj
      0).stalled = true := by decide +kernel

/-! ## Programs and links -/

/-- The walker of owner 1 on unit 0 runs at entry 5 of the active bank, which holds `e`. -/
def walking (e : Nat) (b : Nat := 0) : State := (up.store (unitBank 0 false + 5 * entryBytes 0) 16 e).withWalkers [(walkKey 0 1 0, { state := 1, idx := 5, base := b })]

theorem test_walker_idle_entry : eType ((walking 0x208).entry 0 false 5) = 8 ∧
    ((after (.walkerRead 0 1 false false .ok) (walking 0x208)).walker (walkKey 0 1 0)).base = 1 ∧
    ((after (.walkerRead 0 1 false false .ok) (walking 0x208)).walker (walkKey 0 1 0)).idx = 6 := by decide +kernel

theorem test_walker_depart_entry :
    ((after (.walkerRead 0 1 false false .ok) (walking (0x1011 + 600 * 512) 100)).walker (walkKey 0 1 0)).dispatched.map (·.tick) =
      [708] := by decide +kernel

theorem test_changeover_entry : ((after (.changeoverEntry 0 1 false) (up.withWalkers
      [(walkKey 0 1 0, { state := 1, parkAt := some 0 })])).walker (walkKey 0 1 0)).state = 2 := by decide +kernel

/-- The walker of owner 1 on unit 0 has dispatched this entry for tick `t`. -/
def dispatched (kind : Nat) (e : BitVec 256) (t stage : Nat) : State :=
  up.withWalkers [(walkKey 0 1 kind, { state := 1, dispatched := [⟨1, 5, e, t, [0, 0, 0, 0], false, stage, 0, none⟩] })]

theorem test_mark_entry : (after (.markEntry 0 1 false) (dispatched 0 (0xC + 2 ^ 80 + 3 * 2 ^ 81 + 9 * 2 ^ 95) 0 0)).tokOps =
    [⟨3, false, 9, 4⟩] := by decide +kernel

theorem test_depart_entry : (dispatched 0 1 512 0).beyondRestart 0 ⟨1, 5, 1, 512, [0, 0, 0, 0], false, 0, 0, none⟩ = false ∧
    (((after (.departEntry 0 1) (dispatched 0 1 512 0)).walker (walkKey 0 1 0)).dispatched.map (·.stage)) = [1] := by decide +kernel

theorem test_reduce_entry :
    (((after (.reduceEntry 0 1) (dispatched 1 4 512 0)).walker (walkKey 0 1 1)).dispatched.map (·.stage)) = [1] := by decide +kernel

theorem test_depart_ready : ((after (.departReadyTest 0 1) (dispatched 0 (1 + 2 ^ 33) 480 1)).sramReads.map fun x =>
    (x.addr, x.move.cargo)) = [(0, .depart 0 480), (256, .depart 0 481)] := by decide +kernel

theorem test_reduce_ready : (dispatched 1 4 480 1).classDelay 0 = 0 ∧
    ((after (.reduceReadyTest 0 1) (dispatched 1 4 480 1)).sramReads.map (·.move.cargo)) = [.operand 0 480] := by decide +kernel

/-- The outbound half of owner 1 on port 0 takes its element at tick 1, which is `c`. -/
def passing (c : Option Payload) : State := when ((dispatched 0 (3 + 2 ^ 84) 17 0).setPort 0 { fwd := [⟨1, 1, 0, c⟩] }) 1

theorem test_pass_take : ((after (.passOutboundTake 0 1) (passing (some 7))).port 0).departs.map (·.data) = [some 7] ∧
    (after (.passOutboundTake 0 1) (passing none)).rf (Reg.lnPassVoid 0) 0 32 = 1 := by decide +kernel

/-- A departing cell waits for junction 0's slot of owner 1. -/
def crossing : State := (((up.withWalkers [(walkKey 6 1 0, { state := 1, dispatched := [⟨1, 5, 5 + 20 * 2 ^ 55, 0, [0, 0, 0, 0], false, 0, 0, none⟩] })]).withTransits
  [⟨1, 0, 4, 0, 0, 7, .depart 0 480⟩]).setPort 0 { departs := [⟨480, 1, 0, 0, 480, 0, false, none⟩] })

theorem test_junction_slot : (after (.junctionSlot 0) crossing).transits = [] ∧
    ((after (.junctionSlot 0) crossing).port 0).departs.map (·.data) = [some 7] ∧
    (after (.junctionSlot 0) crossing).r (Reg.jnJnCellsBooked 0) = 1 := by decide +kernel

/-- Port 0 expects a cell that departed at 0 and is released at `rel`. -/
def expecting (cell : Option Payload) (rel owner : Nat) : State :=
  up.setPort 0 { expects := [{ owner := owner, entry := 2 + 8 * 2 ^ 84, idx := 0, i := 0, d0 := 0, depart := 0, release := rel, bank := false, check := 0, cell := cell }] }

theorem test_due_window : ((after (.dueWindowClose 0) (when (expecting none 90 17) 53)).port 0).expects.map (·.waits) = [true] ∧
    ((after (.dueWindowClose 0) (when (expecting none 90 17) 52)).port 0).expects.map (·.waits) = [false] := by decide +kernel

theorem test_cell_release : (expecting (some 7) 90 17).discards 17 0 = false ∧
    (after (.cellRelease 0 true) (when (expecting (some 7) 90 17) 90)).transits.map (fun x => (x.lo, x.hi)) = [(98, 114)] ∧
    (after (.cellRelease 0 true) (when (expecting none 90 17) 90)).rf (Reg.lnTrainLate 0) 0 32 = 1 := by decide +kernel

/-- A platform cell for tile 0, in an external cycle. -/
def platform (sum : Bool) : State :=
  (up.setPort 2 { toTile := [⟨1, (0, 0, 0), 0, 256, 7, 0, some (3, 9), sum, false⟩] }).w (Reg.cnLct 0) 7

theorem test_platform_write : (platform false).externalNow 0 = true ∧ (after (.platformWrite 0) (platform false)).byte (tileAddr 0 256) = 7 ∧
    (after (.platformWrite 0) (platform false)).tokOps = [⟨3, false, 9, 0⟩] := by decide +kernel

theorem test_reduce_write_back : (after (.reduceWriteBack 0) (platform true)).byte (tileAddr 0 256) = 7 := by decide +kernel

theorem test_hold_peak : up.readable .pf (Reg.lnHoldPeak 0) false ∧
    (after (.holdPeakRead .pf 0) (up.w (Reg.lnHoldPeak 0) 9)).got .pf = 9 ∧
    (after (.holdPeakRead .pf 0) (up.w (Reg.lnHoldPeak 0) 9)).r (Reg.lnHoldPeak 0) = 0 := by decide +kernel

set_option maxRecDepth 100000 in
theorem test_tx_signal : ((after (.portTxTick 0) (when linked 63)).port 0).txLast.map cellClass = some 2 := by decide +kernel

set_option maxRecDepth 100000 in
theorem test_tx_departs : ((when linked 5).setPort 0 { departs := [⟨5, 0, 0, 0, 5, 0, false, some 7⟩] }).permitDep 0 5 = 0 ∧
    ((after (.portTxTick 0) ((when linked 5).setPort 0 { departs := [⟨5, 0, 0, 0, 5, 0, false, some 7⟩] })).port 0).replay.length = 1 ∧
    ((after (.portTxTick 0) ((when linked 5).setPort 0 { departs := [⟨5, 0, 0, 0, 5, 0, false, some 7⟩] })).port 0).txLast.map cellData =
      some 7 := by decide +kernel

set_option maxRecDepth 100000 in
theorem test_tx_idle : ((after (.portTxTick 0) (when linked 5)).port 0).txLast.map cellClass = some 3 := by decide +kernel

set_option maxRecDepth 100000 in
theorem test_cell_receive : (when (linked (expecting none 90 1)) 48).inWindow 0 48 { owner := 1, entry := 2 + 8 * 2 ^ 84, idx := 0, i := 0, d0 := 0, depart := 0, release := 90, bank := false, check := 0 } = true ∧
    ((after (.cellReceive 0 (sealCell 7 0) 0 []) (when (linked (expecting none 90 1)) 48)).port 0).expects.map (·.cell) =
      [some 7] := by decide +kernel

set_option maxRecDepth 100000 in
theorem test_cell_crc : crc24 (sealCell 7 0 + 1) ≠ cellCrc (sealCell 7 0 + 1) ∧
    (after (.cellReceive 0 (sealCell 7 0 + 1) 0 []) linked).rf (Reg.lnCrcFail 0) 0 32 = 1 := by decide +kernel

set_option maxRecDepth 100000 in
theorem test_signal_cell : crc24 (sealCell 0 (2 * 2 ^ 38 + 65536)) = cellCrc (sealCell 0 (2 * 2 ^ 38 + 65536)) ∧
    ((after (.signalCellReceive 0 (sealCell 0 (2 * 2 ^ 38 + 65536)) []) (linked.setPort 0
      { nextTx := 2, replay := [⟨0, 0, 0, 0, none, false⟩, ⟨1, 0, 0, 0, none, false⟩] })).port 0).replay.map (·.lseq) = [1] := by decide +kernel

theorem test_replay_timeout : linked.replayTimer 0 = 8192 ∧
    ((after (.replayTimeout 0) (when (linked.setPort 0 { replay := [⟨0, 0, 0, 0, none, false⟩] }) 8192)).port 0).replay.map (·.due) = [some 8230] := by
  decide +kernel

/-! ## Ports -/

/-- Port 0 in state `v`, a supported cable in its cage. -/
def portIn (v : Nat) (x : Port := {}) : State :=
  (up.w (Reg.lnLinkStatus 0) (BitVec.ofNat 64 (v + 2 ^ 22))).setPort 0 { x with cable := { present := true, up := true, record := some 0, txOnSince := some 0 } }

theorem test_training_start : (portIn 0 { retrainAt := some 9 }).mayTrain 0 = true ∧
    (when (portIn 0 { retrainAt := some 9 }) 9).trainDue 0 = true ∧
    (after (.trainingStart 0 none) (when (portIn 0 { retrainAt := some 9 }) 9)).linkState 0 = 1 ∧
    (after (.trainingStart 0 none) (when (portIn 0 { retrainAt := some 9 }) 8)).linkState 0 = 0 := by decide +kernel

theorem test_retrain_timer : (portIn 0).trainFails 0 < 8 ∧
    (after (.retrainTimer 0) (when (portIn 0 { retrainAt := some 9 }) 9)).linkState 0 = 1 ∧
    (after (.retrainTimer 0) (when (portIn 0 { retrainAt := some 9 }) 8)).linkState 0 = 0 := by decide +kernel

/-- A training whose phase `k` began at tick 1. -/
def trainAt (k : Nat) (rx tx : BitVec 34 := 0x3FFFFFFFF) : Train :=
  { phase := k, begun := 1, at_ := 1, rx := rx, tx := tx, peerHalf := true, deskew := 7 }

theorem test_training_steps : (trainAt 2).overrun 15625001 = false ∧ (trainAt 2).overrun 15625002 = true ∧
    (trainAt 2).next 9 0 (.locked 0x3FFFFFFFE) = some { trainAt 2 with phase := 3, at_ := 9, locked := 0x3FFFFFFFE } ∧
    ((after (.trainingStart 0 (some (.locked 5))) (when (portIn 1 { train := some (trainAt 2) }) 9)).port 0).train =
      some { trainAt 2 with phase := 3, at_ := 9, locked := 5 } ∧
    ((after (.trainingStart 0 (some (.deskewed [8, 0, 9] 3 true 4)))
      (when (portIn 1 { train := some { trainAt 4 with locked := 7, ready := 7 } }) 9)).port 0).train.map (·.rx) = some 3 := by
  decide +kernel

theorem test_training_complete :
    (trainAt 5).overrun 312501 = false ∧ ones34 0xFFFFFFFF = 32 ∧
    (after (.trainingComplete 0 true) (when (portIn 1 { train := some (trainAt 5) }) 312501)).linkState 0 = 2 ∧
    (after (.trainingComplete 0 true) (when (portIn 1 { train := some (trainAt 5) }) 312500)).linkState 0 = 1 ∧
    (after (.trainingComplete 0 true) (when (portIn 1 { train := some (trainAt 5) }) 312501)).r (Reg.lnLaneRxActive 0) = 0xFFFFFFFF ∧
    (after (.trainingComplete 0 true) (when (portIn 1 { train := some (trainAt 5) }) 312501)).rf (Reg.lnTsDeskew 0) 0 16 = 7 := by
  decide +kernel

theorem test_training_half : ones34 0x1FFFF = 17 ∧
    ((portIn 1).w (Reg.lnLinkCtrl 0) 0x10).rf (Reg.lnLinkCtrl 0) 4 1 = 1 ∧
    (after (.trainingComplete 0 true) (when ((portIn 1 { train := some (trainAt 5 0x1FFFF) }).w (Reg.lnLinkCtrl 0) 0x10) 312501)).portHalf 0 =
      true ∧
    (after (.trainingComplete 0 true) (when ((portIn 1 { train := some (trainAt 5 0x1FFFF) }).w (Reg.lnLinkCtrl 0) 0x10) 312501)).r
      (Reg.lnLaneRxActive 0) = 0xFFFF := by decide +kernel

theorem test_training_fails :
    (trainAt 5).overrun 15625002 = true ∧
    (after (.trainingComplete 0 false) (when (portIn 1 { train := some (trainAt 5) }) 15625002)).linkState 0 = 0 ∧
    (after (.trainingComplete 0 false) (when (portIn 1 { train := some (trainAt 5) }) 15625002)).rf (Reg.lnLinkStatus 0) 14 4 = 3 ∧
    ((after (.trainingComplete 0 false) (when (portIn 1 { train := some (trainAt 5) }) 15625002)).port 0).retrainAt =
      some (15625002 + 31250000) := by decide +kernel

/-- A module with its place in the fabric. -/
def placed (s : State) : State := s.w Reg.saFabricPosition 0x80000000

theorem test_link_up : (after (.linkUp 0) (placed (portIn (2 + 0x90)))).linkState 0 = 4 ∧ (portIn (2 + 0x90)).linkState 0 = 2 ∧
    (after (.linkUp 0) (portIn (2 + 0x90))).linkState 0 = 2 ∧
    (after (.linkUp 0) (placed (portIn (2 + 0xA0)))).linkState 0 = 2 := by decide +kernel

theorem test_enter_siding : (after (.enterSiding 0) (portIn (4 + 0x20))).linkState 0 = 3 ∧
    (after (.enterSiding 0) (portIn (4 + 0x20) { departs := [⟨5, 0, 0, 0, 5, 0, false, some 7⟩] })).linkState 0 = 3 := by decide +kernel

theorem test_silent_timeout : (after (.silentTimeout 0) (when (portIn 4) 2048)).linkState 0 = 0 ∧
    (after (.silentTimeout 0) (when (portIn 4) 2047)).linkState 0 = 4 := by decide +kernel

theorem test_error_window : (after (.errorWindowEnd 0) (when ((portIn 4).w (Reg.lnErrCount 0) 0x50003) 0x100000000)).linkState 0 = 4 ∧
    (after (.errorWindowEnd 0) (when (((portIn 4).w (Reg.lnErrCount 0) 0x50003).w (Reg.lnLinkCtrl 0) 0x700) 0x100000000)).linkState 0 =
      0 := by decide +kernel

theorem test_cable_removed : (after (.cableRemoved 0) (portIn 4)).linkState 0 = 0 ∧
    ((after (.cableRemoved 0) (portIn 4)).port 0).cable.present = false := by decide +kernel

/-- A cable record with its RECORD_CRC. -/
def goodRecord : BitVec 1024 := crBump (0x474E0000 + 9 <<< 32) 0 0

set_option maxRecDepth 100000 in
theorem test_cable_inserted : fld goodRecord 16 16 = 0x474E ∧ crGood goodRecord = true ∧
    (after (.cableInserted 0 goodRecord false true true) up).linkState 0 = 1 ∧
    (after (.cableInserted 0 goodRecord false true true) up).r (Reg.lnCableMating 0) = 1 := by decide +kernel

theorem test_cable_flat : (after (.cableInserted 0 0 true true true) up).rf (Reg.lnLinkStatus 0) 14 4 = 9 := by decide +kernel

theorem test_cmis_poll : (after (.cmisPoll 0 0 false) (portIn 4)).linkState 0 = 0 ∧
    bitAt ((after (.cmisPoll 0 0x200000000 true) (portIn 4)).r (Reg.lnLaneRxFailed 0)) 33 = true := by decide +kernel

/-- Port 0 UP on lanes 0 to 31, lane 32 a good spare, lane 5's signal lost since tick 8. -/
def lanes : State :=
  when (((portIn 4 { rxGood := 0x1FFFFFFFF, rxMap := List.range 32 }).w (Reg.lnLaneRxActive 0) 0xFFFFFFFF).setWatch 0 5 { lost := some 8 }) 40

theorem test_lane_failing : lanes.goodSpare 0 = some 32 ∧ (lanes.judgeLane 0 5 (.signal false)).2 = true ∧
    ((after (.laneFailing 0 5 (.signal false)) lanes).port 0).rxSwap = some { lane := 5, spare := 32 } ∧
    ((after (.laneFailing 0 5 (.signal false)) (when lanes 39)).port 0).rxSwap = none := by
  decide +kernel

theorem test_lane_markers : (lanes.judgeLane 0 5 (.marker (some (5, 3)))).2 = false ∧ (lanes.judgeLane 0 5 (.marker none)).2 = false ∧
    ((lanes.setWatch 0 5 { mark := some 3, missed := 1 }).judgeLane 0 5 (.marker none)).2 = true ∧
    ((lanes.setWatch 0 5 { mark := some 3, missed := 1 }).judgeLane 0 5 (.marker (some (5, 5)))).2 = false := by
  decide +kernel

theorem test_lane_switch :
    (after (.laneSwitch 0) (((portIn 4 { rxSwap := some { lane := 5, spare := 32, agreed := true } }).w (Reg.lnLaneRxActive 0) 0xFFFFFFFF))).r
      (Reg.lnLaneRxActive 0) = 0x1FFFFFFDF ∧
    (after (.laneSwitch 0) (((portIn 4 { txSwap := some { lane := 5, spare := 33 } }).w (Reg.lnLaneTxActive 0) 0xFFFFFFFF))).r
      (Reg.lnLaneTxActive 0) = 0x2FFFFFFDF := by decide +kernel

set_option maxRecDepth 100000 in
theorem test_cable_hours : (after (.cableHoursUpdate 0 true) (when (up.setPort 0
      { cable := { present := true, record := some goodRecord, txOnSince := some 0 } }) 90000000000000)).r (Reg.lnCableHours 0) = 8 := by
  decide +kernel

theorem test_port_reset : up.writable .sa (Reg.lnLinkCtrl 0) false ∧
    (after (.portReset .sa 0 1) (portIn 4)).linkState 0 = 0 ∧
    (after (.portReset .sa 0 1) ((portIn 4).setByte (portBank 0 true + 0x3FFFFF) 9)).byte (portBank 0 true + 0x3FFFFF) = 0 ∧
    (after (.portReset .sa 0 1) ((portIn 4).setByte (portBank 1 false) 9)).byte (portBank 1 false) = 9 := by decide +kernel

theorem test_retrain : (after (.retrain .sa 0 2) (portIn 4)).linkState 0 = 1 := by decide +kernel

theorem test_recheck : ((after (.recheck .sa 0 4) (portIn 3)).port 0).recheck = true ∧
    (after (.recheck .sa 0 4) (portIn 3)).linkState 0 = 3 := by decide +kernel

theorem test_hold_down : (after (.holdDown .sa 0 8) (portIn 4)).linkState 0 = 0 ∧
    (after (.holdDown .sa 0 8) (portIn 4)).rf (Reg.lnLinkStatus 0) 14 4 = 8 := by decide +kernel

/-! ## Newts, stops and events -/

theorem test_routed_newt_here : (after (.routedNewt 0 (newtOf 0x20 1 0 0 9 0 5 7)) up).notes = [⟨2, 9, 255, 7⟩] := by decide +kernel

theorem test_routed_newt_on : routed.newtPort 1 = some 0 ∧
    ((after (.routedNewt 1 (newtOf 0x20 1 1 0 9 0 5 7)) routed).port 0).newtsRouted.map nwTtl = [4] := by decide +kernel

theorem test_routed_newt_drops : (after (.routedNewt 1 (newtOf 0x20 1 1 0 9 0 1 7)) routed).rf (Reg.lnNewtDrop 1) 0 32 = 1 ∧
    routed.newtPort 9 = none ∧ (after (.routedNewt 1 (newtOf 0x20 1 9 0 9 0 5 7)) routed).rf (Reg.lnNewtDrop 1) 0 32 = 1 := by decide +kernel

theorem test_broadcast_newt : routed.newtNew 1 (newtOf 0x11 2 0 0 9 1 5 0) = true ∧
    ((after (.broadcastNewt 1 (newtOf 0x11 2 0 0 9 1 5 0)) routed).port 0).newtsBcast.map nwTtl = [4] := by decide +kernel

/-- Version 1 of the routes is valid. -/
def twoVersions : State := routed.w (Reg.saRouteExt 1) 0x80001082

/-- An EPOCH_SET newt to version 1 at tick 8,192. -/
def epochNewt : Newt := newtOf 0x11 2 0 0 9 1 5 (8192 + 2 ^ 64)

theorem test_epoch_set : twoVersions.newtNew 6 epochNewt = true ∧ twoVersions.versionBusy 1 = false ∧
    (after (.epochSet 0 epochNewt) twoVersions).rf Reg.saRouteCtrl 1 1 = 1 ∧
    (after (.epochSet 0 epochNewt) (when twoVersions 1)).rf Reg.saRouteCtrl 1 1 = 0 := by decide +kernel

theorem test_epoch_flip : (after .epochFlip (when ((up.w Reg.saRouteCtrl 2).w Reg.saRouteFlipFtc 8192) 8192)).injectEpoch = 1 := by
  decide +kernel

theorem test_epoch_cmd : twoVersions.writable .sa Reg.saEpochCmd false ∧
    (after (.epochCmd .sa 3) (twoVersions.w Reg.saEpochCmdFtc 8192)).rf Reg.saRouteCtrl 1 1 = 1 ∧
    (after (.epochCmd .sa 3) (twoVersions.w Reg.saEpochCmdFtc 8192)).nseq = 1 := by decide +kernel

/-- Partition 0 of `owned` runs, with job key 5. -/
def running : State := (owned.w (Reg.saPartJobKey 0) 5).setPartState 0 3

/-- ALLSTOP_CMD with GO, for partition 0 alone. -/
def told : State := after (.allstopCmd .sa 4) running

theorem test_allstop_cmd : running.writable .sa Reg.saAllstopCmd false ∧ running.stoppable 0 ∧
    ((told.die 0).queue.map fun x => (x.code, x.stops)) = [(Ev.allstopCommand, [⟨0, Ev.allstopCommand, .part⟩])] ∧
    told.partState 0 = 3 := by decide +kernel

theorem test_allstop_reported : told.arbiterFree = true ∧ findRate Ev.allstopCommand 0 0 told.rates = none ∧ told.stoppable 0 ∧
    (after (.eventReport 0) told).partState 0 = 5 ∧ ((after (.eventReport 0) told).tile 191).state = 5 ∧
    ((after (.eventReport 0) told).tile 192).state = 0 := by decide +kernel

theorem test_all_stop_relayed : ((after (.allStopNewt 1 (newtOf 0x10 2 0 0 9 1 5 (2 * 2 ^ 32)))
      (routed.withLastNseq [(6 * 4096 + 9, 1)])).port 0).newtsStop.map nwTtl = [4] ∧
    (routed.withLastNseq [(6 * 4096 + 9, 1)]).newtNew 6 (newtOf 0x10 2 0 0 9 1 5 (2 * 2 ^ 32)) = false := by decide +kernel

theorem test_all_stop_newt : running.newtNew 6 (newtOf 0x10 2 0 0 9 1 1 (2 ^ 32 + 5 * 2 ^ 48 + 0x305 * 2 ^ 64)) = true ∧
    (after (.allStopNewt 1 (newtOf 0x10 2 0 0 9 1 1 (2 ^ 32 + 5 * 2 ^ 48 + 0x305 * 2 ^ 64))) running).rf (Reg.saStopStatus 0) 16 16 =
      0x305 := by decide +kernel

theorem test_event_report : (after (.eventReport 3) (up.setDie 3 { queue := [{ code := 0x102, die := 3 }] })).rf Reg.saEvlogHead 0 32 = 1 ∧
    (after (.eventReport 3) ((up.setDie 3 { queue := [{ code := 0x102, die := 3 }] }).w Reg.saEvlogHead 0xFFFFFFFF)).rf Reg.saEvlogHead 0 32 =
      0 := by decide +kernel

theorem test_event_stops : (after (.eventReport 3) (running.setDie 3 { queue := [{ code := Ev.lineLate, die := 3, part := 0, stop := true }] })).partState
      0 = 5 := by decide +kernel

/-- A report inside its interval is counted and left out (R463, R465). -/
theorem test_event_withheld :
    (after (.eventReport 3) ((up.setDie 3 { queue := [{ code := 0x102, die := 3, every := 9 }] }).withRates [⟨0x102, 3, 0, 0, 1⟩])).rates =
      [⟨0x102, 3, 0, 0, 2⟩] ∧ up.arbiterFree = true ∧
    (after (.eventReport 3) ((up.setDie 3 { queue := [{ code := 0x102, die := 3, every := 9 }] }).withRates [⟨0x102, 3, 0, 0, 1⟩])).rf
      Reg.saEvlogHead 0 32 = 0 := by decide +kernel

theorem test_clear_first : up.writable .sa Reg.saEvlogCtrl false ∧
    (after (.clearFirst .sa 1) (up.w Reg.saFirstError 9)).r Reg.saFirstError = 0 := by decide +kernel

theorem test_die_poll : ((after (.diePoll 3 true false) (up.setDie 3 { powered := true, missed := 4 })).die 3).missed = 0 ∧
    ((after (.diePoll 3 false false) (up.setDie 3 { powered := true, missed := 14 })).die 3).missed = 15 ∧
    bitAt ((after (.diePoll 3 false false) (up.setDie 3 { powered := true, missed := 15 })).r Reg.saDieFailed) 3 = true ∧
    (up.setDie 3 { powered := true }).overrun 3 = false ∧
    bitAt ((after (.diePoll 3 true true) (up.setDie 3 { powered := true })).r Reg.saDieFailed) 3 = true := by decide +kernel

theorem test_heartbeat : up.writable .sa Reg.sbSaHeartbeat false ∧ (after (.saHeartbeat .sa 0) (when up 9)).power.heartbeat = 9 := by
  decide +kernel

set_option maxRecDepth 100000 in
theorem test_sa_watchdog : (after (.saWatchdogFired true) (portIn 4)).power.down = true ∧
    (after (.saWatchdogFired true) (portIn 4)).linkState 0 = 0 ∧ (after (.saWatchdogFired false) (portIn 4)).power.down = false := by
  decide +kernel

theorem test_stream_entry : (((after (.streamEntry 0 1) (up.withWalkers
      [(walkKey 10 1 0, { state := 1, dispatched := [⟨1, 5, 1, 64, [0, 0, 0, 0], false, 0, 0, none⟩] })])).strm 0).map (·.start)) = [64] := by
  decide +kernel

/-- M-die 0 has one stream of one cell for partition 0 from 0 to tile `d`, an external cycle at hand. -/
def streaming (moving : Bool) (thresh : Nat := 0) (d : Nat := 0) (n : Nat := 1) (bufs : List Granule := []) : State :=
  ((((owned.w (Reg.saPartQuarters 0) 0xF000F).w (Reg.cnLct 0) 7).w (Reg.cnLct 1) 7).withStreams [(0, [{
    owner := 1
    entry := BitVec.ofNat 256 (1 + 100 * 2 ^ 33 + (0x1000000000 + d * 0x8000) * 2 ^ 104 + 3 * 2 ^ 168 + 9 * 2 ^ 182 + thresh * 2 ^ 212 + (n - 1) * 2 ^ 144)
    idx := 5, iters := [0, 0, 0, 0], start := 0, bank := false, moving := moving, bufs := bufs }])]).setByte 255 7

theorem test_stream_ready : ((after (.streamReadyTest 0 1) (streaming false)).strm 0).map (·.moving) = [true] ∧
    (after (.streamReadyTest 0 1) (streaming false 1)).rf (Reg.mnStreamLate 0) 0 32 = 1 := by decide +kernel

theorem test_stream_complete : (after (.streamComplete 0 1 5 [(0, .ok)]) (streaming true)).byte 0x1000000000FF = 7 ∧
    (after (.streamComplete 0 1 5 [(0, .ok)]) (streaming true)).tokOps = [⟨3, false, 9, 0⟩] ∧
    (after (.streamComplete 0 1 5 [(0, .ok)]) (when (streaming true) 101)).tokOps = [] := by decide +kernel

/-- Of two granules the first is read and written at once: what the clause asks holds of the stream. -/
theorem test_stream_at_once :
    (((streaming true 0 0 2).strm 0).map fun x =>
      let s := streaming true 0 0 2
      let h : Granule := { g := 0, data := BitVec.ofNat 2048 (s.load 0 256) }
      let y := { x with bufs := x.bufs ++ [h] }
      x.open_ 0 && s.tickRoom 0 4 && (s.setStrm 0 []).served x 0 && (y.way 0 h).isNone &&
        ((((s.setStrm 0 []).takeTick 0).usePath 0).countHbm false 0 256).served y 0x100000000000) = [true] ∧
    (streaming true).streamBar 0 0 = none ∧ (streaming true).streamBar 0 0x100000000000 = none ∧ (streaming true).stackDead 0 = false ∧
    ((after (.streamComplete 0 1 5 [(0, .ok)]) (streaming true 0 0 2)).strm 0).map (·.done) = [[0]] := by decide +kernel

/-- A granule that has been read is written. -/
theorem test_stream_writes : (((streaming true 0 0 1 [⟨0, 7, 0⟩]).strm 0).map fun x =>
      (x.open_ 0, x.way 0 ⟨0, 7, 0⟩, ((streaming true 0 0 1 [⟨0, 7, 0⟩]).setStrm 0 []).served x 0x100000000000)) = [(true, none, true)] ∧
    (streaming true).partOfToken 3 = some 0 ∧
    (after (.streamComplete 0 1 5 [(0, .ok)]) (streaming true 0 0 1 [⟨0, 7, 0⟩])).byte 0x100000000000 = 7 := by decide +kernel

theorem test_stream_deadline : (after (.streamDeadline 0 1 5) (when (streaming true) 100)).rf (Reg.mnStreamLate 0) 0 32 = 1 ∧
    (after (.streamDeadline 0 1 5) (when (streaming true) 100)).strm 0 = [] := by decide +kernel

/-- Stack 0 is active. -/
def stacked : State := (up.w (Reg.mnStackStatus 0 0) 1).w Reg.saStackActive 1

theorem test_hbm_refresh : stacked.stackAwake 0 = true ∧ (after (.hbmRefresh 0 85) stacked).rf (Reg.mnStackStatus 0 0) 3 1 = 0 ∧
    (after (.hbmRefresh 0 86) stacked).rf (Reg.mnStackStatus 0 0) 3 1 = 1 := by decide +kernel

theorem test_hbm_scrub : (stacked.w (Reg.mnScrubCtrl 0) 0x10000).streamWants (pathOf 0) = false ∧
    ((after (.hbmScrub 0 .ok) (stacked.w (Reg.mnScrubCtrl 0) 0x10000)).stack 0).scrubAt = 1 ∧
    (after (.hbmScrub 0 .ok) ((stacked.w (Reg.mnScrubCtrl 0) 0x10000).setStack 0 { scrubAt := stackWords - 1 })).rf
      (Reg.mnScrubDone 0 0) 0 32 = 1 := by
  decide +kernel

theorem test_stack_retired : bitAt ((after (.stackRetired 0 true true) (stacked.w Reg.saStackRetireReq 1)).r Reg.saStackActive) 0 = false := by
  decide +kernel

theorem test_st_ind_data : up.writable .sa (Reg.mnStIndData 0) true ∧ up.readable .sa (Reg.mnStIndData 0) true ∧
    (after (.stIndDataAccess .sa 0 true false true 7) up).byte (streamBank 0 true) = 7 ∧
    (after (.stIndDataAccess .sa 0 true false false 0) (up.setByte (streamBank 0 true) 7)).got .sa = 7 := by decide +kernel

/-! ## Host rings and host commands -/

/-- The PCIe link is up with one VF; ring 0 of the PF runs with 64 entries at `head` and `jobs` in flight. -/
def hosted (jobs : List Job := []) (tail : Nat := 0) (ctrl : Nat := 0x26) (s : State := owned) : State :=
  ((((s.withPcieUp true).withVfs 1).w (Reg.rgSqCtrl 0 0) (BitVec.ofNat 64 ctrl)).w (Reg.rgSqStatus 0 0) 1).w (Reg.rgCqCtrl 0 0) 0x726
    |>.setRing 0 { tail := tail, jobs := jobs }

/-- A descriptor of 64-bit words. -/
def descOf : List Nat → Desc
  | [] => 0
  | w :: ws => BitVec.ofNat 512 w ||| (descOf ws <<< 64)

/-- The state after command `c` of ring 0, whose one descriptor is `d`. -/
def ran (c : Instr) (d : Desc) (s : State := owned) : State := after c (hosted [⟨7, d, 0, 0, 0, 0, 0, 0, 0, [], [], none⟩] 0 0x26 s)

/-- How that descriptor ended: CLASS, CODE, DETAIL0, RESULT, none while it goes on. -/
def ended (c : Instr) (d : Desc) (s : State := owned) : Option (Nat × Nat × Nat × Nat) :=
  match ((ran c d s).ring 0).jobs with
  | [j] => if j.phase = 2 then some (j.cls, j.code, j.d0, j.result) else none
  | _ => none

theorem test_doorbell : hosted.fnUp 0 = true ∧ hosted.fnUp 2 = false ∧ ((after (.doorbell 0 0 63) hosted).ring 0).tail = 63 ∧
    (after (.doorbell 0 0 64) hosted).sqState 0 0 = 2 ∧ ((after (.doorbell 0 0 3) (hosted [] 4)).ring 0).tail = 4 := by decide +kernel

theorem test_shadow_poll : ((after (.shadowPoll 0 0 (some 5)) (when (hosted [] 0 0x66) 3125)).ring 0).tail = 5 ∧
    ((after (.shadowPoll 0 0 (some 5)) (when (hosted [] 0 0x66) 3124)).ring 0).tail = 0 := by decide +kernel

theorem test_ring_enable : (after (.ringEnable 1 0 0x26) hosted).sqState 1 0 = 1 ∧ (after (.ringEnable 1 0 0x25) hosted).sqState 1 0 = 0 ∧
    (after (.ringEnable 1 3 0x30) hosted).sqSize 1 3 = 65536 ∧ (after (.ringEnable 1 4 0x2C) hosted).rf (Reg.rgCqTail 1 0) 16 1 = 1 := by
  decide +kernel

theorem test_ring_disable : (after (.ringDisable 0 0 0x06) hosted).sqState 0 0 = 0 ∧
    (after (.ringDisable 0 0 0x06) (hosted [⟨7, 0, 0, 0, 0, 0, 0, 0, 0, [], [], none⟩])).sqState 0 0 = 3 := by decide +kernel

theorem test_dispatch : (hosted [] 1).ringWaits 0 0 = true ∧ (hosted [] 1).ringTurn 0 0 = true ∧ (hosted [] 1).fenced 0 0 (descOf [0]) = false ∧ (hosted [] 1).descRefusal 0 (descOf [0]) = none ∧
    ((after (.descriptorDispatch 0 0 (some (descOf [0]))) (hosted [] 1)).ring 0).jobs.map (·.phase) = [0] ∧
    (after (.descriptorDispatch 0 0 (some (descOf [0]))) (hosted [] 1)).rf (Reg.rgSqHead 0 0) 0 16 = 1 ∧
    (hosted [] 1).descRefusal 0 (descOf [0x7]) = some Ev.descReserved ∧
    ((after (.descriptorDispatch 0 0 (some (descOf [0x7]))) (hosted [] 1)).ring 0).jobs.map (fun j => (j.phase, j.cls, j.code)) =
      [(2, 1, Ev.descReserved)] := by decide +kernel

theorem test_completion : (after (.completionWrite 0 0 true) (hosted [⟨7, descOf [0x0000001200000000], 2, 2, 0x501, 3, 9, 4, 0, [], [], none⟩])).hostOut.map (fun w => (w.addr, w.bytes.take 12)) =
    [(0, [0x12, 0, 0, 0, 0, 0, 0, 2, 1, 5, 0, 0])] ∧
    (after (.completionWrite 0 0 true) (hosted [⟨7, descOf [0], 2, 0, 0, 0, 0, 0, 0, [], [], none⟩])).rf (Reg.rgCqTail 0 0) 0 16 = 1 := by decide +kernel

theorem test_completion_token : (after (.completionWrite 0 0 true) (hosted [⟨7, descOf [0, 0x4_0000_8003], 2, 0, 0, 0, 0, 0, 0, [], [], none⟩])).tokOps =
      [⟨3, false, 4, 4⟩] ∧
    (after (.completionWrite 0 0 true) (hosted [⟨7, descOf [0, 0x4_0000_8003], 2, 0, 0, 0, 0, 0, 0, [], [], none⟩])).hostOut = [] := by decide +kernel

theorem test_cq_head : (after (.cqHeadWrite 0 0 2) (hosted.w (Reg.rgCqTail 0 0) 2)).rf (Reg.rgCqHead 0 0) 0 16 = 2 ∧
    (after (.cqHeadWrite 0 0 3) (hosted.w (Reg.rgCqTail 0 0) 2)).rf (Reg.rgCqHead 0 0) 0 16 = 0 := by decide +kernel

/-- MSI-X of the PF is on, and its vectors 7 and 9 are not masked. -/
def msix (s : State) : State := s.setPcieFn 0 { msixOn := true, table := [(31, 0), (39, 0)] }

theorem test_irq_delay : (msix hosted).signals 0 7 ∧ ¬ hosted.signals 0 7 ∧
    (after (.irqDelayExpiry 0 0) (((when (msix hosted) 3125).w (Reg.rgCqCtrl 0 0) 0x1000726).setRing 0 { irqFirst := some 0, irqPend := 1 })).irqs =
      [(0, 7)] ∧
    (after (.irqDelayExpiry 0 0) (((when (msix hosted) 3124).w (Reg.rgCqCtrl 0 0) 0x1000726).setRing 0 { irqFirst := some 0, irqPend := 1 })).irqs =
      [] := by decide +kernel

/-- The PF's notify ring with an entry due. -/
def noting : State := ((msix hosted).w (Reg.rgNrCtrl 0) 0x926).withNotes [⟨2, 9, 255, 7⟩]

theorem test_notify : noting.signals 0 9 ∧ (after (.notifyEntry true true) noting).irqs = [(0, 9)] ∧
    (after (.notifyEntry true true) noting).rf (Reg.rgNrTail 0) 0 16 = 1 ∧
    (after (.notifyEntry true true) noting).hostOut.map (fun w => (w.addr, w.relaxed, w.bytes.take 1)) = [(0, false, [2])] := by decide +kernel

/-- A masked vector pends, and is signalled when it is unmasked (R371). -/
theorem test_masked_vector : ((after (.notifyEntry true true) (noting.setPcieFn 0 { msixOn := true })).pcieFn 0).pend = 512 ∧
    (after (.registerWrite .pf (.page 0) 0x809C .w32 0 0 0 0 0 0) (noting.setPcieFn 0 { msixOn := true, pend := 512 })).irqs = [(0, 9)] := by
  decide +kernel

theorem test_notify_head : (after (.cqHeadWrite 0 4 1) ((hosted.w (Reg.rgNrCtrl 0) 0x926).w (Reg.rgNrTail 0) 1)).rf (Reg.rgNrHead 0) 0 16 = 1 := by
  decide +kernel

theorem test_ping : ended (.ping 0 0) (descOf [0]) (when owned 5) = some (0, 0, 1, 5) := by decide +kernel

theorem test_wait : ended (.wait 0 0) (descOf [0x0A, 0, 0x8002_0000_0003]) (owned.setToken 2 { val := 3 }) = some (0, 0, 0, 3) ∧
    ended (.wait 0 0) (descOf [0x0A, 0, 0x8002_0000_0004]) (owned.setToken 2 { val := 3 }) = none := by decide +kernel

theorem test_wait_timeout : ended (.wait 0 0) (descOf [0x0A, 0, 0x8002_0000_0004, 0, 2]) (when (owned.setToken 2 { val := 3 }) 6250) =
      some (3, Ev.waitTimeout, 0, 3) ∧
    ended (.wait 0 0) (descOf [0x0A, 0, 0x8002_0000_0004, 0, 2]) (when (owned.setToken 2 { val := 3 }) 6249) = none := by decide +kernel

theorem test_newt : ended (.newt 0 0) (descOf [0x0C, 1]) = some (2, Ev.newtDrop, 0, 0) ∧
    (hosted [⟨7, descOf [0x0C, 1], 0, 0, 0, 0, 0, 0, 0, [], [], none⟩] 0 0x26 routed).newtPort 1 = some 0 ∧
    ((ran (.newt 0 0) (descOf [0x0C, 1, 0xAB]) routed).port 0).newtsRouted.map (fun n => fld n 128 64) = [0xAB] := by decide +kernel

/-- A STOP of `running`'s partition has begun. -/
def stopping : State := ran (.stop 0 0) (descOf [0x11]) running

theorem test_stop : (stopping.ring 0).jobs.map (·.phase) = [1] ∧ (stopping.die 0).queue.map (·.code) = [Ev.hostStop] ∧
    stopping.stoppable 0 ∧ stopping.arbiterFree = true ∧
    ((after (.eventReport 0) (when stopping 8)).ring 0).jobs.map (fun j => (j.phase, j.cls, j.result)) = [(2, 0, 8)] ∧
    (after (.eventReport 0) stopping).partState 0 = 5 := by decide +kernel

theorem test_query : (ran (.query 0 0 true) (descOf [0x12, 0, 0x100]) (when running 6)).hostOut.map (fun w => (w.addr, w.bytes.take 10)) =
    [(0x100, [6, 0, 0, 0, 0, 0, 0, 0, 0, 4]), (0x180, List.replicate 10 0)] := by decide +kernel

theorem test_rings_reset : (after (.flrVf 0) (hosted.w (Reg.rgSqStatus 1 2) 1)).sqState 1 2 = 0 ∧
    (after (.flrVf 1) (hosted.w (Reg.rgSqStatus 2 2) 1)).sqState 2 2 = 1 ∧
    (after .flrPf (hosted.w (Reg.rgSqStatus 1 2) 1)).sqState 1 2 = 1 ∧ (after .flrPf hosted).sqState 0 0 = 0 ∧
    (after .hotReset (hosted.w (Reg.rgSqStatus 1 2) 1)).sqState 1 2 = 0 ∧ (after .pcieLinkDown hosted).pcieUp = false := by decide +kernel

/-! ## Loads, launches, rotas and binds -/

/-- An image of floor L3 whose programs stand on port 0. -/
def image0 : Image := { header := 3 <<< 72, digest := 5, units := [0] }

/-- Partition 0 holds `image0` loaded, the standby bank of port 0 in state `v`; time is SYNCED. -/
def loaded (v : Nat := 3) (s : State := owned) : State :=
  ((s.w Reg.sbTimeStatus 2).w (Reg.lnTtBank 0) (BitVec.ofNat 64 (2 * v))).setPart 0 { standby := some image0, tileStandby := 3 }

theorem test_launch_at : (ran (.launchAt 0 0) (descOf [0x04, 0, 8192]) loaded).bankStandby 0 = 4 ∧
    (ran (.launchAt 0 0) (descOf [0x04, 0, 8192]) loaded).partState 0 = 2 ∧
    (ran (.launchAt 0 0) (descOf [0x04, 0, 8192]) loaded).r (armFtcReg 0) = 8192 ∧
    (((ran (.launchAt 0 0) (descOf [0x04, 0, 8192]) loaded).part 0).armed.map (·.tick)) = [8192] := by decide +kernel

theorem test_launch_refused : ended (.launchAt 0 0) (descOf [0x04, 0, 8193]) loaded = some (1, Ev.launchMisaligned, 0, 0) ∧
    ended (.launchAt 0 0) (descOf [0x04, 0, 8192]) = some (1, Ev.launchNoTime, 0, 0) ∧
    ended (.launchAt 0 0) (descOf [0x04, 0, 4096]) loaded = some (1, Ev.launchLate, 0, 0) ∧
    ended (.launchAt 0 0) (descOf [0x04, 0, 2 ^ 38 + 4096]) loaded = some (1, Ev.launchTooFar, 0, 0) ∧
    ended (.launchAt 0 0) (descOf [0x04, 0, 2 ^ 38]) (loaded 2) = some (1, Ev.ttStandbyBusy, 0, 0) := by decide +kernel

theorem test_changeover : (ran (.changeover 0 0) (descOf [0x05, 0, 8192, 0x100]) loaded).bankStandby 0 = 4 ∧
    (ran (.changeover 0 0) (descOf [0x05, 0, 8192, 0]) loaded).bankStandby 0 = 3 := by decide +kernel

/-- An accepted launch for tick 8,192. -/
def arming0 : Armed := { tick := 8192, units := [0], launch := true, restart := true, ctx := 0, grants := 0, ports := 0, prev := 1 }

/-- `loaded` with `arming0`. -/
def armed0 : State :=
  (((loaded 4).w (armFtcReg 0) 8192).setPartState 0 2).setPart 0 { standby := some image0, tileStandby := 4, armed := [arming0] }

theorem test_cancel : (ran (.cancel 0 0) (descOf [0x06, 0, 8192]) armed0).bankStandby 0 = 3 ∧
    ended (.cancel 0 0) (descOf [0x06, 0, 8192]) armed0 = some (0, 0, 0, 0) ∧
    ended (.cancel 0 0) (descOf [0x06, 0, 8192]) (when armed0 4096) = some (1, Ev.ttArmLate, 0, 0) := by decide +kernel

theorem test_changeover_tick :
    (let u := after .changeoverTick (when armed0 8192)
     (u.partState 0, (u.tile 191).state, (u.tile 191).bank, (u.tile 192).state, u.bankActive 0)) = (3, 1, true, 0, true) ∧
    (after .changeoverTick (when armed0 8191)).partState 0 = 2 := by decide +kernel

theorem test_changeover_ready : (when armed0 8192).busyWalkers 0 arming0 =
    [] := by decide +kernel

theorem test_bank_drain : (after (.bankDrainEnd 25) (up.setStandby 25 1)).bankStandby 25 = 0 ∧ (up.setStandby 25 1).bankInForce 25 = false := by
  decide +kernel

/-- A rota image of two slices of two frames, contexts 0 and 1. -/
def rota0 : Image := { image0 with rotaMode := true, rota := [0x200, 0x201] }

/-- Partition 0 runs `rota0` in slice 0 from FTC 0. -/
def inRota (x : Rota) : State :=
  ((((owned.w (Reg.saRotaStatus 0) 0x4000).setPartState 0 3).w (Reg.lnTtBank 0) 6).w Reg.sbTimeStatus 2).setPart 0 { active := some rota0, rota := some x }

theorem test_rota_fill : (((after (.rotaFillDone 0) (inRota { mirrored := true, nextOn := false, x := 8192 })).part 0).armed.map (·.tick)).length = 1 ∧
    (inRota { nextOn := false }).rotaRuns 0 = true ∧ (inRota { x := 8192 }).nextSlice 0 { x := 8192 } = 16384 := by decide +kernel

/-- Slice 1's context is enabled, and its tile 0 has a program of one word. -/
def rotaOn : State := (inRota { mirrored := true, nextOn := true }).updPart 0 fun q => { q with progs := [⟨1, 0, [5]⟩] }

theorem test_rota_fill_on : fld (rotaOn.rotaEntry 0 1) 0 6 = 1 ∧
    (((after (.rotaFillDone 0) rotaOn).part 0).armed.map (·.restart)) = [true] ∧
    ((after (.rotaFillDone 0) rotaOn).part 0).tileStandby = 4 ∧ (tileAfter (.rotaFillDone 0) rotaOn).stbyLen = 1 := by decide +kernel

theorem test_rota_late : (inRota {}).nextSlice 0 {} = 8192 ∧
    (((after (.rotaFillLate 0) (inRota {})).die 0).queue.map (·.code)) = [Ev.rotaFillLate] ∧
    (((after (.rotaFillLate 0) (inRota { filled := true })).die 0).queue.map (·.code)) = [] := by decide +kernel

theorem test_rota_swap : ((after (.rotaSwapStart 0) (when (inRota { filled := true, on := false, nextOn := false }) 8192)).part 0).rota.map (·.swapped) =
      some true ∧
    ((after (.rotaSwapStart 0) (inRota { on := false, nextOn := false })).part 0).rota.map (·.swapped) = some false := by decide +kernel

/-- The outgoing context is saved; the incoming one begins its first slice with zeros and its token at 0 (R415). -/
def swapping : State :=
  (when ((inRota { filled := true, on := true, nextOn := true }).setToken 3 { val := 9 }) 8192).setByte (tileAddr 0 5) 7

theorem test_rota_restore : ((after (.rotaSwapStart 0) swapping).part 0).rota.map (·.saved) = some [0] ∧
    ((after (.rotaSwapStart 0) swapping).token 3).val = 0 := by decide +kernel

theorem test_rota_halt : (inRota {}).writable .pf (Reg.saRotaCtrl 0) false ∧
    (after (.rotaHalt .sa 0 1) (inRota {})).rf (Reg.saRotaStatus 0) 14 2 = 2 := by decide +kernel

theorem test_scrubbed : (owned.w (Reg.saPartStatus 3) 8).scrubbing 3 = true ∧
    (after .partScrubbed (owned.w (Reg.saPartStatus 3) 8)).scrubbing 3 = false := by decide +kernel

theorem test_mirror : (owned.setByte (unitBank 6 false + 9) 7).bankBusy 6 = false ∧
    (ran (.mirror 0 0) (descOf [0x02, 0, 0x100]) (owned.setByte (unitBank 6 false + 9) 7)).byte (unitBank 6 true + 9) = 7 ∧
    (ran (.mirror 0 0) (descOf [0x02, 0, 0x100]) owned).bankStandby 6 = 3 ∧ (ran (.mirror 0 0) (descOf [0x02, 0, 0x100]) owned).bankStandby 7 = 0 := by
  decide +kernel

/-- Partition 0 holds 256 tokens and no quarter; token 3 is `v`. -/
def tokensOnly (v : W32) : State := (up.w (Reg.cnTokenBlock 0 0) 0x80000000).setToken 3 { val := v }

/-- What a CHECKPOINT of it writes. -/
def ckptBytes : List Byte :=
  (ran (.checkpoint 0 0 [] none none []) (descOf [0x10, 0, 0x5000]) (tokensOnly 9)).hostOut.flatMap fun w => w.bytes

set_option maxRecDepth 100000 in
theorem test_checkpoint : ckptBytes.length = 4096 + 4 * 256 ∧ (ckptBytes.drop 4108).take 2 = [9, 0] ∧
    ((ran (.checkpoint 0 0 [] none none []) (descOf [0x10, 0, 0x5000]) (tokensOnly 9)).hostOut.map (·.addr)).take 2 = [0x5000, 0x5080] := by
  decide +kernel

set_option maxRecDepth 100000 in
theorem test_restore : ended (.checkpoint 0 0 ckptBytes none none []) (descOf [0x10, 0, 0x5000, 1]) (tokensOnly 0) = some (0, 0, 0, 0) := by
  decide +kernel

theorem test_dma_in : ((ran (.dma 0 0 0 0 [] none []) (descOf [0x08, 0, 0, 0x40, 4 + 2 ^ 33 * 0, 0]) up).ring 0).jobs.map (·.phase) = [2] ∧
    owned.isLocal 0x40 = true ∧ owned.dmaCheck 0 ⟨7, descOf [0x08, 0, 0, 0x40, 0x2_0000_0004, 0], 0, 0, 0, 0, 0, 0, 0, [], [], none⟩ = none ∧
    (after (.dma 0 0 0 0 [1, 2, 3, 4, 5] none []) (hosted [⟨7, descOf [0x08, 0, 0, 0x40, 0x2_0000_0004, 0], 1, 0, 0, 0, 0, 0, 0, [], [], none⟩])).bytes 0x40 5 = [1, 2, 3, 4, 0] := by
  decide +kernel

theorem test_load_refused : ended (.load 0 0 [] [] [] 0 none none []) (descOf [0x01, 0, 0, 0, 0, 0, 0, 0]) = some (1, Ev.imageFormat, 0, 0) := by
  decide +kernel

/-- Partition 0 holds its root over no region. -/
def rooted : State := owned.setPart 0 { root := BitVec.ofNat 256 (ofBytesLE (owned.weightsRoot [])) }

theorem test_rehash : ((ran (.rehash 0 0 none []) (descOf [0x13]) rooted).ring 0).jobs.map (·.phase) = [1] ∧
    ((after (.rehash 0 0 none []) (ran (.rehash 0 0 none []) (descOf [0x13]) rooted)).ring 0).jobs.map (fun j => (j.phase, j.cls)) =
      [(2, 0)] ∧
    ((after (.rehash 0 0 none []) (ran (.rehash 0 0 none []) (descOf [0x13]) owned)).ring 0).jobs.map (fun j => (j.cls, j.code)) =
      [(2, Ev.weightsChanged)] := by decide +kernel

/-- A bind of 4 input and 4 output bytes. -/
def oneBind : List Byte := bytesLE 32 (0x1000 + 4 * 2 ^ 64 + 0x2000 * 2 ^ 128 + 4 * 2 ^ 192)

theorem test_bind : ((ran (.bind 0 0 (some oneBind) none []) (descOf [0x03, 0, 0x1_0001_0000_0005, 0, 3, 0x3000]) owned).part 0).binds.map (fun b => (b.sub, b.ins, b.outs, b.token, b.rec_)) =
    [(5, [(0x1000, 4)], [(0x2000, 4)], 3, 0x3000)] := by decide +kernel

/-- An image of one section of free content, the byte 5 at offset 4,096, for the partition of `owned`. -/
def smallImage : List Byte :=
  bytesLE 512 (0x4D494648 + 2 ^ 32 + 2 ^ 48 + 4 * 2 ^ 64 + 3 * 2 ^ 72 + 0xF * 2 ^ 96 + 2 ^ 208) ++
    bytesLE 64 (8 + 4096 * 2 ^ 64 + 2 ^ 128 + 99176158055483306396246157158638779861628463040179687123489837191189961014247 * 2 ^ 256) ++ List.replicate 3520 0 ++ [5]

/-- The LOAD of `smallImage`. -/
def loadDesc : Desc := descOf [0x01, 0, 0x10000, 4097]

set_option maxRecDepth 100000 in
theorem test_load_form : owned.imageForm smallImage = none := by decide +kernel

set_option maxRecDepth 100000 in
theorem test_load_steps : fld loadDesc 192 64 = 4097 ∧ takeBytes 4097 smallImage = smallImage ∧
    owned.imageOwner 0 true smallImage 0 = none ∧ owned.imageUnitsOk smallImage = none ∧
    (owned.placeAll smallImage 1).bankSteps smallImage 1 = none ∧ usesExcluded smallImage = false := by decide +kernel

theorem test_load_programs : progCheck smallImage = none := by decide +kernel

/-- The state in which the checks of that LOAD are made. -/
def loading : State :=
  let j : Job := ⟨7, loadDesc, 0, 0, 0, 0, 0, 0, 0, [], [], none⟩
  match (hosted [j]).bulk [] [] (loadMoves smallImage) with
  | some s => (s.reachHost 0 (fld loadDesc 128 64) 4097).reachHost 0 (fld loadDesc 256 64) 0
  | none => State.reset

set_option maxRecDepth 100000 in
theorem test_load_first_steps : loading.firstSteps 0 true smallImage 0 = none ∧
    (loading.placeAll smallImage 1).rotaCheck smallImage (imageOf smallImage) 1 = none := by decide +kernel

/-- A LOAD without regions whose checks have passed. -/
def heldLoad : Job := { id := 7, desc := loadDesc, phase := 1, load := some ⟨smallImage, [], none, [], 0⟩ }

theorem test_load_done : ((after (.load 0 0 [] [] [] 0 none none []) (hosted [heldLoad])).ring 0).jobs.map (fun j => (j.phase, j.cls)) = [(2, 0)] ∧
    (((after (.load 0 0 [] [] [] 0 none none []) (hosted [heldLoad])).part 0).standby.map (·.header)) = some (headerOf smallImage) := by
  decide +kernel

/-- A bind of partition 0 whose token 3 is at its threshold. -/
def metBind : Bind := { sub := 5, ins := [], outs := [(0, 4)], token := 3, thresh := 1, rec_ := 0x3000, inDigest := 0, fn := 0, begun := 0, level := 0, traced := false }

theorem test_bind_done : (owned.setToken 3 { val := 1 }).bindMet 0 metBind = true ∧ owned.bindMet 0 metBind = false ∧
    (after (.bindDone 0 0 none [] true) ((owned.setToken 3 { val := 1 }).setPart 0 { binds := [metBind] })).notes.map (·.type) = [3] := by
  decide +kernel

/-! ## Levels, supplies, module states, resets and power -/

/-- SB's level, target and effective floor are L3. -/
def atL3 : State := up.w Reg.sbPlStatus 0x6F

theorem test_level_request : atL3.writable .sa Reg.saPlRequest false ∧ atL3.floorEff = 3 ∧ atL3.level = 3 ∧
    fld (after (.plRequestWrite .sa 1) atL3).plStatus 2 2 = 1 ∧ fld (after (.plRequestWrite .sa 3) atL3).plStatus 2 2 = 3 ∧
    (after (.plRequestWrite .sa 1) atL3).power.change = some { level := 1, left := [0, 1, 2, 3].map coreRail } ∧
    (after (.plRequestWrite .sa 3) atL3).power.change = none := by decide +kernel

/-- Level L1 is in force. -/
def atL1 : State := up.w Reg.sbPlStatus 0x6D

theorem test_level_lower : atL1.level = 1 ∧ atL1.rf Reg.sbPlStatus 8 4 = 0 ∧ atL3.runningC = [0, 1, 2, 3] ∧
    bitAt (atL3.r Reg.sbAvsStatus) 3 = false ∧
    (after (.plRequestWrite .sa 3) atL1).power.change = some { level := 3, left := [] } := by decide +kernel

theorem test_level_switch : (after .levelSwitch ((when atL3 61440).withPower { up.power with change := some ⟨1, [], [], false⟩ })).level = 1 ∧
    (after .levelSwitch ((when atL3 61439).withPower { up.power with change := some ⟨1, [], [], false⟩ })).level = 3 ∧
    (let u := after .levelSwitch ((when atL1 61440).withPower { up.power with change := some ⟨3, [], [], false⟩ })
     (u.level, u.power.change)) = (3, some ⟨3, [0, 1, 2, 3].map coreRail, [], true⟩) := by decide +kernel

theorem test_power_sample : (let u := after .powerSample (up.withPower { up.power with railMv := [(0, 1000)], railCa := [(0, 500)] })
     (u.rf Reg.sbPowerNow 0 16, u.power.samples)) = (5, [5]) ∧
    (after .powerSample ((when up 1).withPower { up.power with railMv := [(0, 1000)], railCa := [(0, 500)] })).power.samples = [] := by decide +kernel

/-- C-die 1 is powered. -/
def warm : State := up.updDie 3 fun x => { x with powered := true }

theorem test_thermal_sample : (let u := after (.thermalSample [(3, 600 :: List.replicate 63 20)]) warm
     (u.r (Reg.sbTemp 3), u.r (Reg.sbTempSensorFailed 3))) = (600, 0) ∧
    (let u := after (.thermalSample [(3, 601 :: List.replicate 63 20)]) warm
     (u.r (Reg.sbTemp 3), u.r (Reg.sbTempSensorFailed 3))) = (20, 1) := by decide +kernel

theorem test_voltage : ((railDies 0).any warm.sensedDies.contains) = false ∧
    (let s := (up.updDie 2 fun x => { x with powered := true }).withMon { up.mon with lowRun := [(0, 5)] }
     (((railDies 0).any s.sensedDies.contains), 2 * s.railTarget 0, (after (.voltageSense 0 1500) s).mon.lowRun,
      (after (.voltageSense 0 1499) s).mon.lowRun)) = (true, 1600, [], [(0, 6)]) := by decide +kernel

/-- A request outstanding on master 0. -/
def asked (t : Nat) (again : Bool := false) : State := (when up t).setAvsQ 0 [⟨3, 0, 700, 0, again, none⟩]

theorem test_avs : (after (.avsResponse 0 0 1 none) (asked 5)).volt 0 = 700 ∧
    ((after (.avsTimeout 0) (asked 156250)).avsQ 0).map (·.retried) = [true] ∧
    ((after (.avsTimeout 0) (asked 156249)).avsQ 0).map (·.retried) = [false] ∧
    (after (.avsTimeout 0) (asked 156250 true)).rf Reg.sbAvsStatus 0 1 = 1 ∧
    ((after (.avsStatusPoll 0) (when (up.w Reg.sbAvsStatus 1) 3125000)).avsQ 0).map (·.kind) = [7] ∧
    (after (.avsStatusPoll 0) (when (up.w Reg.sbAvsStatus 1) 3124999)).avsQ 0 = [] := by decide +kernel

theorem test_telemetry : (after (.avsResponse 0 0 812 none) ((when up 5).setAvsQ 0 [⟨5, 3, 0, 0, false, none⟩])).power.railMv = [(3, 812)] ∧
    (after (.avsResponse 0 0 77 none) ((when up 5).setAvsQ 0 [⟨6, 3, 0, 0, false, none⟩])).power.railCa = [(3, 77)] := by decide +kernel

theorem test_droop : up.coreRuns 0 = true ∧ (after (.droopFire 0 2) up).mon.owed = [(0, 4)] := by decide +kernel

/-- C-die 0 lost `n` of `m` core cycles in the window that ends. -/
def drooped (n m : Nat) : State := (when up 312500).withMon { up.mon with removed := [(0, n)], cycles := [(0, m)] }

theorem test_droop_sustained : bitAt ((after (.droopSustained 0) (drooped 51 800)).r Reg.saMarginCtrl) 1 = true ∧
    (let u := after (.droopSustained 0) (drooped 50 800); (u.mon.removed, u.mon.cycles, u.r Reg.saMarginCtrl)) = ([], [], 0) := by decide +kernel

theorem test_replan : up.writable .sa Reg.saMarginCtrl false ∧ (after (.replan false .sa 1) up).mon.planBusy = true ∧
    (let u := after (.replan true .sa 0) ((up.w Reg.saOperHours 1000).withMon { up.mon with planBusy := true })
     (u.mon.planDue, u.prot.planHours)) = (true, 1000) := by decide +kernel

theorem test_plan_ready : (after (.marginPlanReady []) (when (up.withMon { up.mon with planBusy := true }) 312500000)).planPending = true ∧
    (after (.marginPlanReady []) (when (up.withMon { up.mon with planBusy := true }) 312499999)).planPending = false := by decide +kernel

theorem test_plan_waits :
    (after .marginPlanPending (when (up.withMon { up.mon with pending := some ([], 0) }) 1890000000000001)).mon.pendLogged =
      1890000000000001 ∧
    (after .marginPlanPending (when (up.withMon { up.mon with pending := some ([], 0) }) 1890000000000000)).mon.pendLogged = 0 := by
  decide +kernel

theorem test_pm_request : up.writable .sa Reg.saPmRequest false ∧ (after (.pmRequestWrite .sa 2) up).rf Reg.saPmRequest 0 3 = 2 := by
  decide +kernel

theorem test_waitm : (up.w Reg.saModulePmode 4).entryRefused 4 = none ∧ (after .waitm (up.w Reg.saModulePmode 4)).power.entering = some 4 ∧
    (after .waitm (running.w Reg.saModulePmode 1)).power.entering = none ∧ (after .waitm (up.w Reg.saModulePmode 5)).power.entering = none := by
  decide +kernel

/-- The module sleeps in state `k`, or enters it. -/
def sleeping (k : Nat) (entering : Option Nat := none) (wake : Option (Nat × Bool) := none) : State :=
  up.withPower { up.power with mode := k, entering := entering, wake := wake }

theorem test_pm_entered : (after (.pmEntered 0) (sleeping 0 (some 1))).power.mode = 1 ∧
    (let s := sleeping 0 (some 3)
     let s := s.withPower { s.power with begun := true }
     (after (.pmEntered 0) s).power.mode) = 3 ∧
    (let s := sleeping 0 (some 4)
     let s := s.withPower { s.power with begun := true }
     (after (.pmEntered 0) s).power.down) = true := by decide +kernel

set_option maxRecDepth 100000 in
theorem test_pm_begins : (let u := after (.pmEntered 0) ((sleeping 0 (some 2)).updDie 16 fun x => { x with powered := true })
     (u.power.begun, u.power.offWalk, u.ready 16)) = (true, [16], false) := by decide +kernel

theorem test_walk_down : (let s := when (sleeping 0 (some 2)) (2 ^ 40)
     let s := s.withPower { s.power with begun := true, offWalk := [16] }
     ((after (.readyChainStep 16 true true 0 0 []) s).avsQ (dieRail 16 / 16)).map (·.kind)) = [4] := by decide +kernel

theorem test_wake_sources : (after .wakeAlarm (when ((sleeping 1).w Reg.saWakeAlarmFtc 9) 9)).power.wake = some (4, false) ∧
    (after .wakeAlarm (when ((sleeping 1).w Reg.saWakeAlarmFtc 9) 8)).power.wake = none ∧
    (after .wakePin ((sleeping 3).w Reg.saPmCtrl 2)).power.wake = some (6, false) ∧
    (after .ethWakeFrame (sleeping 2)).power.wake = some (3, false) := by decide +kernel

theorem test_module_wake : (sleeping 1 none (some (4, false))).awake = true ∧
    (after (.moduleWake [] 15) (sleeping 1 none (some (4, false)))).power.mode = 0 ∧
    (after (.moduleWake [] 15) (sleeping 3 none (some (6, true)))).r Reg.saLastWakeSource = 6 + 48 + 128 := by decide +kernel

theorem test_pcie_up : (after (.pcieConfigurationWrite 0 (.vfs 16)) up).fnUp 16 = true ∧
    ((after (.pcieConfigurationWrite 2 (.control false 1)) up).pcieFn 2).payload = 1 ∧
    ((after (.pcieConfigurationWrite 2 (.msix true false)) up).pcieFn 2).msixOn = true ∧
    ((after (.pcieConfigurationWrite 2 (.ats true)) up).pcieFn 2).ats = true ∧
    ((after (.pcieConfigurationWrite 2 (.power true)) up).pcieFn 2).d3 = true ∧
    (after (.pcieConfigurationWrite 2 .other) up).pcieFn 2 = up.pcieFn 2 := by decide +kernel

/-- Die 7 stands at step `k` of its ready chain. -/
def chain (k : Nat) : State := State.reset.setSeq 7 k

set_option maxRecDepth 100000 in
theorem test_ready_chain : (chain 1).walking = true ∧ (chain 1).overrun 7 = false ∧ (chain 1).railAsked 7 = false ∧
    (after (.readyChainStep 7 true true 0 0 []) (chain 1)).seqStep 7 = 2 ∧
    (after (.readyChainStep 7 true true 0 0 []) (chain 2)).seqStep 7 = 3 ∧
    (after (.readyChainStep 7 true true 0 0 []) (chain 3)).seqStep 7 = 4 ∧
    (after (.readyChainStep 0 true true 0 0 []) State.reset).seqStep 0 = 1 := by decide +kernel

theorem test_ready_chain_ends : (after (.readyChainStep 7 true true 0 0 []) ((chain 4).updDie 7 fun x => { x with ringRead := true })).ready 7 = true := by decide +kernel

set_option maxRecDepth 100000 in
theorem test_ready_chain_fails : bitAt ((after (.readyChainStep 7 true false 0 0 []) (chain 1)).r Reg.saDieFailed) 7 = true ∧
    (when (chain 2) 625001).overrun 7 = true ∧
    bitAt ((after (.readyChainStep 7 true true 0 0 []) (when (chain 2) 625001)).r Reg.saDieFailed) 7 = true := by decide +kernel

/-- A write of SA.RESET_CMD: KIND, GO, TARGET. -/
def resetWord (kind target : Nat) : W32 := BitVec.ofNat 32 (kind + 8 + 16 * target)

theorem test_partition_reset : running.writable .sa Reg.saResetCmd false ∧
    (let u := after (.partitionReset .sa (resetWord 4 0)) (running.setTile 5 { pc := 9 })
     (u.partState 0, u.tile 5, u.power.resets)) = (0, {}, [(4, 0)]) ∧
    (after (.partitionReset .sa (resetWord 4 16)) running).power.resets = [] := by decide +kernel

theorem test_tile_reset : ((after (.tileReset .sa (resetWord 5 767)) (up.setTile 767 { state := 6, pc := 9, bank := true })).tile 767) = { bank := true } ∧
    ((after (.tileReset .sa (resetWord 5 767)) (up.setTile 767 { state := 1, pc := 9 })).tile 767).pc = 9 := by decide +kernel

theorem test_port_reset_cmd : (after (.resetCmdPort .sa (resetWord 6 0)) (portIn 4)).linkState 0 = 0 ∧
    (after (.resetCmdPort .sa (resetWord 6 5)) (portIn 4)).linkState 0 = 4 := by decide +kernel

theorem test_compute_reset : (after (.computeReset .sa (resetWord 3 0)) ((up.setToken 5 { val := 1 }).setByte 0x100000000000 7)).tokens = [] ∧
    (after (.computeReset .sa (resetWord 3 0)) (up.setByte 0x10000000000F 7)).byte 0x10000000000F = 0 := by decide +kernel

set_option maxRecDepth 100000 in
theorem test_warm_reset : (let u := after (.warmReset .sa (resetWord 2 0) 15) (running.setToken 5 { val := 1 })
     (u.tokens, u.partState 0, u.power.resets)) = ([], 0, [(2, 0)]) := by decide +kernel

theorem test_cold_reset : (let u := after (.coldReset true .sa 0 15) (when running 9)
     (u.now, u.partState 0, u.power.resets, u.rf Reg.saResetStatus 0 3)) = (0, 0, [(1, 0)], 1) ∧
    (let u := after (.coldReset false .sa (resetWord 1 0) 15) (when running 9); (u.now, u.power.resets)) = (0, [(1, 0)]) := by decide +kernel

theorem test_reset_done : (up.resetComplete (3, 0) = true ∧ State.reset.resetComplete (4, 0) = true) ∧
    (after .resetDone (up.withPower { up.power with resets := [(3, 0)] })).power.resets = [] := by decide +kernel

theorem test_pins : (after (.powerOn 15) (up.withPins { up.pins with powerOn := false })).pins.powerOn = true ∧
    (after .powerOnFall up).power.mode = 4 ∧
    (let u := after .powerOnFall (up.updDie 7 fun x => { x with powered := true })
     (u.power.mode, u.power.offWalk, u.ready 7, (u.avsQ (dieRail 7 / 16)).map (·.kind))) = (0, [7], false, [4]) ∧ (after (.auxPowerLost false 0) up).pins.aux = false ∧
    (after (.auxPowerLost true 0) (up.withPins { up.pins with aux := false, powerOn := false })).pins.aux = true ∧
    (after .refclkLost up).pins.faultN = false := by decide +kernel

/-! ## Transactions, fuses, lock-step, observation and register access -/

/-- A transaction of SA's firmware with these entries. -/
def opened (es : List TxnEntry) (t : Nat := 0) : State := (when up t).withTxn (some { id := 3, owner := Iface.sa.code, entries := es })

/-- An entry that names SA.WAKE_ALARM_FTC. -/
def alarmEntry : TxnEntry := ⟨0x300000000000 + Reg.saWakeAlarmFtc, true, 9⟩

theorem test_txn_begin : up.writable .sa Reg.saTxnCtrl false ∧ ((after (.txnBegin .sa 1) up).txn.map (·.id)) = some 1 ∧
    (after (.txnBegin .sa 1) (opened [])).rf Reg.saTxnStatus 48 16 = Ev.txnBusy := by decide +kernel

theorem test_txn_append_half : (opened []).writable .sa (Reg.saTxnEntryData + 4) false ∧
    ((after (.txnAppend .sa false true 9) ((opened []).w Reg.saTxnEntryAddr (BitVec.ofNat 64 (alarmEntry.addr + 2 ^ 48)))).txn.map (·.entries)) =
      some [{ alarmEntry with data := 9 * 2 ^ 32 }] := by decide +kernel

theorem test_txn_append : (opened []).writable .sa Reg.saTxnEntryData true ∧ entryRefusal .sa alarmEntry = none ∧
    ((after (.txnAppend .sa true false 9) ((opened []).w Reg.saTxnEntryAddr (BitVec.ofNat 64 (alarmEntry.addr + 2 ^ 48)))).txn.map (·.entries)) = some [alarmEntry] ∧
    entryRefusal .sa ⟨0x300030000000, true, 0⟩ = some Ev.addrUnmapped ∧
    (after (.txnAppend .sa true false 9) ((opened []).w Reg.saTxnEntryAddr 0)).rf Reg.saTxnStatus 48 16 = Ev.txnEntryRefused := by decide +kernel

set_option maxRecDepth 100000 in
theorem test_txn_seal : ((after (.txnSeal .sa 8) (opened [alarmEntry] 5)).txn.map fun x => (x.sealed, x.mode, x.sealedAt)) = some (true, 1, 5) ∧
    (after (.txnSeal .sa 8) (opened [alarmEntry])).freeCtr = 1 := by decide +kernel

theorem test_txn_commit : (after (.txnCommit .sa 0 0) (opened [])).txn = none ∧
    ((after (.txnCommit .sa 8 0) ((opened []).w Reg.saTxnCommitFtc 8192)).armedTxns.map (·.tick)) = [8192] ∧
    (after (.txnCommit .sa 8 0) ((opened []).w Reg.saTxnCommitFtc 4096)).armedTxns = [] ∧
    (after (.txnCommit .sa 0 0) (up.withTxn (some { id := 3, owner := Iface.sa.code, entries := [alarmEntry], protected_ := true }))).rf Reg.saTxnStatus 48 16 = Ev.txnSealed := by
  decide +kernel

set_option maxRecDepth 100000 in
theorem test_txn_entry : (((opened [alarmEntry]).reached .sa).write32 Reg.saTxnCtrl (setFld (3 : W32) 0 3 3)).stepSeven
      { id := 3, owner := Iface.sa.code, entries := [alarmEntry] } 0 = none ∧
    (after (.txnCommit .sa 3 0) (opened [alarmEntry])).r Reg.saWakeAlarmFtc = 9 ∧
    (let x : Txn := { id := 3, owner := 0, mode := 1, tick := 8192, entries := [alarmEntry] }
     ((when up 8192).withArmedTxns []).stepSeven x 0) = none := by decide +kernel

theorem test_txn_rollback : (after (.txnRollback .sa 0x30000) (opened [])).txn = none ∧
    (after (.txnRollback .pf 0x30000) (opened [])).rf Reg.saTxnStatus 48 16 = Ev.txnNotOwner := by decide +kernel

theorem test_txn_apply : (after (.txnApply 0) ((when up 8192).withArmedTxns [{ id := 3, owner := 0, mode := 1, tick := 8192 }])).armedTxns = [] ∧
    ((after (.txnApply 0) ((when up 8191).withArmedTxns [{ id := 3, owner := 0, mode := 1, tick := 8192 }])).armedTxns.map (·.tick)) = [8192] ∧
    (after (.txnApply 0) ((when up 8192).withArmedTxns [{ id := 3, owner := 0, mode := 1, tick := 8192, entries := [alarmEntry] }])).r Reg.saWakeAlarmFtc = 9 := by
  decide +kernel

theorem test_txn_timeout : (after .txnTimeout (opened [] 187500000000)).txn = none ∧
    ((after .txnTimeout (opened [] 187499999999)).txn.map (·.id)) = some 3 ∧
    ((after .txnTimeout ((when up 187500000000).withTxn (some { id := 3, owner := 0, sealed := true }))).txn.map (·.id)) = some 3 ∧
    (after .txnTimeout ((when up 187500000001).withTxn (some { id := 3, owner := 0, sealed := true }))).txn = none := by decide +kernel

theorem test_fuse : (after (.fuseBurn true) ((up.withProt { up.prot with burning := [15] }).w (Reg.saFuseReq 15) 0x75)).rf Reg.saFuseStatus 8 8 = 7 ∧
    (after (.fuseBurn false) (up.withProt { up.prot with burning := [15] })).rf Reg.saFuseStatus 16 16 = Ev.fuseBurnFailed := by decide +kernel

set_option maxRecDepth 100000 in
theorem test_stage : up.writable .sa Reg.saStageData true ∧
    (after (.stageWrite .sa false true 0x0102) up).byte (stageBase up.stageTarget + 5) = 1 ∧ (after (.stageWrite .sa true false 0x0102) up).byte (stageBase up.stageTarget + 1) = 1 ∧
    (after (.stageWrite .sa true false 0x0102) (up.w Reg.saStageAddr 0x7FFFF8)).rf Reg.saStageAddr 0 23 = 0 ∧
    (after (.stageErase .sa 2 0 0) (up.setByte (stageBase 1 + 0x7FFFFF) 9)).byte (stageBase 1 + 0x7FFFFF) = 0 ∧ up.writable .sa Reg.saStageCtrl false ∧
    bitAt ((after (.stageVerify .sa 4 0 5) up).r Reg.saFwStatus) 2 = true := by decide +kernel

theorem test_cert : up.readable .sa Reg.saIdCertData true ∧ (after (.idCertRead .sa true false) up).rf Reg.saIdCertAddr 0 14 = 8 ∧
    (after (.idCertRead .sa false false) up).r Reg.saIdCertAddr = up.r Reg.saIdCertAddr := by decide +kernel

/-- Partition 0 runs in lock-step with `t` from module 9, in state `v`. -/
def inStep (v : Nat) (x : LockStep) (t : Nat := 4096) : State :=
  ((when running t).w (Reg.saLsStatus 0) (BitVec.ofNat 64 v)).setLs 0 { x with ctrl := BitVec.ofNat 64 (1 + 0x77 * 2 ^ 16 + 9 * 2 ^ 32) }

/-- A LOCKSTEP newt of kind `k` from module 9 for frame `f`. -/
def stepNewt (k f : Nat) (rest : Nat := 0) : Newt := newtOf 0x21 1 0 0 9 1 5 (k + 0x77 * 2 ^ 16 + f * 2 ^ 32 + rest * 2 ^ 96)

theorem test_frame_send : (inStep 1 {}).jobActive = true ∧ (((after (.lockstepFrameSend 0) (inStep 1 {})).ls 0).own.map (·.f)) = [0] ∧
    (((after (.lockstepFrameSend 0) (inStep 1 {} 4095)).ls 0).own) = [] := by decide +kernel

theorem test_start : (inStep 1 {}).lsMatches 0 (stepNewt 3 0) = true ∧ (after (.lockstepNewt (stepNewt 3 0)) (inStep 1 {})).lsState 0 = 2 ∧
    (after (.lockstepNewt (stepNewt 3 0 1)) (inStep 1 {})).lsState 0 = 0 := by decide +kernel

theorem test_equal_frame : (let u := after (.lockstepNewt (stepNewt 1 4)) (inStep 2 { own := [⟨4, 0, 0⟩] })
     ((u.ls 0).own, u.rf (Reg.saLsStatus 0) 32 32)) = ([], 1) := by decide +kernel

theorem test_differing_frame : (let u := after (.lockstepNewt (stepNewt 1 4 1)) (inStep 2 { own := [⟨4, 0, 0⟩] })
     ((u.ls 0).own, u.r (Reg.saLsDivFrame 0), u.rf (Reg.saLsGaps 0) 32 32)) = ([], 4, 1) := by decide +kernel

theorem test_no_partner : (after (.lockstepNoPartner 0) (inStep 1 {} 1048575)).lsState 0 = 1 ∧
    (after (.lockstepNoPartner 0) (inStep 1 {} 1048576)).lsState 0 = 0 := by decide +kernel

theorem test_snapshot_go : up.writable .sa Reg.saCtrSnapCmd false ∧ (after (.ctrSnapGo .sa 1) (up.w Reg.saCtrSnapFtc 4097)).snapAt = some 8192 ∧
    (after (.ctrSnapGo .sa 1) ((when up 4097).w Reg.saCtrSnapFtc 1)).snapAt = some 8192 := by decide +kernel

/-- A snapshot is armed for tick 4,096. -/
def snapArmed (t : Nat) : State := (when up t).withSnapAt (some 4096)

theorem test_snapshot : (snapArmed 4096).snapAt = some 4096 ∧ 4096 ≤ (snapArmed 4096).now ∧
    (after .ctrSnapshot (snapArmed 4095)).snapAt = some 4096 := by decide +kernel

theorem test_trace_switch : up.writable .sa (Reg.cnTraceCtrl 1) false ∧ (after (.traceEnable .sa 1 1) up).traceState 1 = 1 ∧
    (after (.traceDisable .sa 1 0) (up.w (Reg.cnTraceCtrl 1) 1)).traceOn 1 = false ∧
    ((after (.traceTrigger .sa 1 0x11) (up.w (Reg.cnTraceCtrl 1) 1)).tr 1).trigs = [(3, 0xFFFFFFFF, 0)] := by decide +kernel

/-- The trace unit of C-die 1 captures, with these records. -/
def tracing (ctrl : Nat) (x : Trace) : State :=
  (((up.w (Reg.cnTraceCtrl 1) (BitVec.ofNat 64 ctrl)).w (Reg.cnTraceStatus 1) 1).w (Reg.cnTraceSpillBase 1) 0x1000).w (Reg.cnTraceSpillLen 1) 0x10000 |>.setTr 1 x

theorem test_trace_write : (tracing 1 {}).traceMatch 1 5 = false ∧ (tracing 1 {}).traceMode 1 = 0 ∧
    (after (.traceRecordWrite 1 none) (tracing 1 { queue := [5] })).traceHeld 1 = 1 := by decide +kernel

theorem test_trace_spill : (tracing 9 {}).traceCap 1 = 2048 ∧ (tracing 9 {}).alone (whoTrace 1) ∧
    (after (.traceSpill 1) (tracing 9 { staged := List.replicate 8 5 })).load 0x10E0 32 = 5 := by decide +kernel

theorem test_trace_read : up.readable .sa (Reg.cnTraceRdData 1 3) true ∧
    (after (.traceRead .sa 1 false false .ok) up).rf (Reg.cnTraceRdIndex 1) 0 32 = 0 ∧
    (after (.traceRead .sa 1 true false .ok) up).rf (Reg.cnTraceRdIndex 1) 0 32 = 1 := by decide +kernel

/-- Partition 0 stopped with the debug dump enabled. -/
def dumpable : State := (up.w Reg.saDebugEn 8).w (Reg.saStopStatus 0) 1

theorem test_dump : up.writable .sa Reg.saDumpCtrl false ∧ ((after (.stopDump .sa 1) dumpable).dump.map (·.part)) = some 0 ∧
    (after (.stopDump .sa 1) up).rf Reg.saDumpStatus 16 16 = Ev.dumpDisabled ∧
    (after (.stopDump .sa 0x11) dumpable).rf Reg.saDumpStatus 16 16 = Ev.dumpNotStopped := by decide +kernel

theorem test_dump_fails : (after (.dumpDone (some 0)) (up.withDump (some ⟨0, false, false, 0, 0⟩))).rf Reg.saDumpStatus 0 2 = 3 := by decide +kernel

theorem test_graph : up.writable .sa Reg.saWfgCtrl false ∧ (after (.wfgBuild false .sa 1) up).rf Reg.saWfgStatus 0 2 = 1 ∧
    (after .wfgBuilt (up.withWfg { building := some (0, 0) })).rf Reg.saWfgStatus 0 2 = 2 ∧
    (after (.wfgRelease .sa 4) (up.withWfg { words := [1] })).wfg.words = [] ∧ up.readable .sa Reg.saWfgRdData true ∧
    (after (.wfgRead .sa false true) ((up.withWfg { words := [6, 7 * 2 ^ 32] }).w Reg.saWfgRdIndex 1)).got .sa = 7 ∧
    (after (.wfgRead .sa true false) ((up.withWfg { words := [6, 7] }).w Reg.saWfgRdIndex 1)).got .sa = 7 := by decide +kernel

theorem test_register_write : up.writable .pf Reg.saWakeAlarmFtc true ∧ (BitVec.ofNat 48 Reg.saWakeAlarmFtc).toNat = Reg.saWakeAlarmFtc ∧
    (after (.registerWrite .pf .regs (BitVec.ofNat 48 Reg.saWakeAlarmFtc) .w64 9 0 0 0 0 0) up).r Reg.saWakeAlarmFtc = 9 := by decide +kernel

theorem test_register_read : up.readable .pf Reg.saWakeAlarmFtc true ∧
    (after (.registerRead .pf .regs (BitVec.ofNat 48 Reg.saWakeAlarmFtc) .w64 .ok false) (up.w Reg.saWakeAlarmFtc 9)).got .pf = 9 := by
  decide +kernel

theorem test_register_barred : up.offline .pf = false ∧ ((up.barred .pf 0x2FFFFFF8 true).map (·.1)) ≠ none ∧
    bitAt ((after (.registerWrite .pf .regs 0x2FFFFFF8 .w64 9 0 0 0 0 0) up).r Reg.saRegFault) 63 = true := by decide +kernel

theorem test_misaligned : (after (.registerWrite .pf .regs 0x4 .w64 9 0 0 0 0 0) up).regs.length = up.regs.length + 2 ∧
    (((after (.registerWrite .pf .regs 0x4 .w64 9 0 0 0 0 0) up).die 0).queue.map (·.items)) = [[0x300000000004]] ∧
    (after (.registerRead .pf .regs 0x2 .w32 .ok false) up).got .pf = 0 := by decide +kernel

theorem test_rearm : up.writable .sa Reg.saRegFault true ∧
    (after (.regFaultRearm .sa true) (up.w Reg.saRegFault 0x8000000000000005)).r Reg.saRegFault = 5 := by decide +kernel

theorem test_i3c : up.writable .i3cSa Reg.saWakeAlarmFtc true ∧
    (after (.i3cWrite false (bytesLE 1 1 ++ bytesLE 6 (0x300000000000 + Reg.saWakeAlarmFtc) ++ bytesLE 8 9) 0 0 0 0 0) up).r Reg.saWakeAlarmFtc = 9 ∧
    (after (.i3cWrite false [1, 2] 0 0 0 0 0) up).rf Reg.saRegFault 50 4 = 6 ∧
    ((after (.i3cReadSetup true 0 false 0x300001004000 []) up).i3cT 1).readAddr = some (0x1004000, false) := by decide +kernel

theorem test_i3c_read : (after (.i3cRead false .ok false) ((up.w Reg.saWakeAlarmFtc 9).setI3cT 0 { up.i3cT 0 with readAddr := some (Reg.saWakeAlarmFtc, true) })).got .i3cSa = 9 ∧
    ((after (.dynamicAddress true 5) up).i3cT 1).dyn = some 5 := by decide +kernel

theorem test_line_stop : (after (.lineStopFailed 3 23) up).rf (Reg.cnRowMap 3 23) 9 1 = 1 ∧
    bitAt (after (.lineStopFailed 3 23) up).failedQuarters 15 = true := by decide +kernel

theorem test_ats : SMap.get (fun _ => []) (after (.atsInvalidation 0 0x1000 0x1000) (hosted.withAts [(0, [0, 1, 2])])).ats 0 = [0, 2] ∧
    (after (.atsInvalidation 0 0x1000 0x1000) hosted).atsDone = [0] := by decide +kernel

/-! ## Steps -/

theorem test_step_front : (match step ((owned.withPending [.powerOnFall, .refclkLost])) with | .next u => (u.pending, u.pins.powerOn, u.pins.refclk) | _ => ([], true, true)) =
    ([.refclkLost], false, true) := by decide +kernel

theorem test_step_idle : step up = .next up := rfl

theorem test_reset : State.reset.r Reg.saDieReady = 1 ∧ State.reset.rf (Reg.cnRowMap 3 23) 0 4 = 8 ∧ Memory.wf State.reset.mem = true := by
  decide +kernel

theorem test_arrive_saturates : (let u := after (.tokenUpdateCycle 0) ((up.setToken 3 { val := 0xFFFFFFFF }).withTokOps [⟨3, false, 1, 4⟩])
     ((u.token 3).val, (u.token 3).sat)) = (0xFFFFFFFF, true) ∧
    ((after (.tokenUpdateCycle 0) ((up.setToken 3 { val := 0xFFFFFFFE }).withTokOps [⟨3, false, 1, 4⟩])).token 3).sat = false ∧
    ((after (.tokenUpdateCycle 0) ((up.setToken 3 { val := 9, sat := true }).withTokOps [⟨3, true, 1, 4⟩])).token 3).sat = false := by decide +kernel

theorem test_pps_stamp : (after .ppsInEdge ((when up 77).w Reg.sbTimeCtrl 0x400)).r Reg.sbPpsInFtc = 77 := by decide +kernel

/-! ## Further cases -/

/-- What `delivers` asks, for a packet that C-die `d` owns. -/
theorem delivers_of {s : State} {src list k op : Nat} {q : Queued} (d : Nat)
    (h : (let c := setFld q.cell 9 2 3
      let a := (pktPlace c).1
      let n := (pktPlace c).2
      (s.buf src list)[k]? = some q ∧ pkOp c = op ∧ s.landsHere src list q = true ∧
        (src < 6 → s.packetOld c = false ∧ s.routable (cellEpoch c) (fld c 13 15) = true) ∧
        (ownerCdie op a (pkToken c) = some d ∧ s.destOff d = false) ∧ s.pktRefused c a n = none ∧
        s.stopped (s.pktPart c a n) = false ∧ s.landRoom c = true ∧ (op ≠ 4 → s.deadIn a n = none) ∧
        (s.crossPacket src ((ownerCdie op a (pkToken c)).getD 0) q).isSome = true)) : s.delivers src list k op q := by
  obtain ⟨h1, h2, h3, h4, ⟨h5, h6⟩, h7⟩ := h
  refine ⟨h1, h2, h3, h4, fun e he => ?_, h7⟩
  rw [h5] at he
  exact Option.some.inj he ▸ h6

theorem test_write_lands : (packet 0 0x100000000100 4).delivers 6 0 0 0 (packetOf 0 0x100000000100 4) :=
  delivers_of 0 (by decide +kernel)

theorem test_mailbox_lands : (packet 1 0x100000000100 4).delivers 6 0 0 1 (packetOf 1 0x100000000100 4) :=
  delivers_of 0 (by decide +kernel)

theorem test_read_resp_lands : (packet 3 0x100000000100 4).delivers 6 0 0 3 (packetOf 3 0x100000000100 4) :=
  delivers_of 0 (by decide +kernel)

theorem test_token_arrive_lands : (packet 4 0 4).delivers 6 0 0 4 (packetOf 4 0 4) := delivers_of 0 (by decide +kernel)

/-- The read request of `packet` in port 0's receive buffer. -/
def readPacket : State :=
  (((packet 2 0x100000000100 16).setInj 0 {}).w (Reg.saRouteExt 0) 0x80001082).setPort 0 { vcs := [packetOf 2 0x100000000100 16] }

theorem test_read_req_lands : readPacket.delivers 0 0 0 2 (packetOf 2 0x100000000100 16) ∧
    ((after (.readReq 0 0 0 []) readPacket).port 0).vcs = [] :=
  ⟨delivers_of 0 (by decide +kernel), by decide +kernel⟩

theorem test_packet_route : (routed.setInj 0 { cells := [⟨BitVec.ofNat 2112 (2 ^ 13 + 3 * 2 ^ 9), 0, 6, 0, false, false⟩] }).hopsOn 6 0
      ⟨BitVec.ofNat 2112 (2 ^ 13 + 3 * 2 ^ 9), 0, 6, 0, false, false⟩ = true ∧
    (match routed.hopOf (BitVec.ofNat 2112 (2 ^ 13 + 3 * 2 ^ 9)) true with | (.go p _ _, _) => p | _ => 9) = 0 ∧
    (routed.crossPacket 6 4 ⟨BitVec.ofNat 2112 (2 ^ 13 + 3 * 2 ^ 9), 0, 6, 0, false, false⟩).isSome = true := by decide +kernel

/-- A packet of SA's injection unit has waited for its route since tick 0. -/
def stuck (n : Nat) : State :=
  when (routed.setInj 0 { cells := [⟨BitVec.ofNat 2112 (2 ^ 13 + 3 * 2 ^ 9), 0, 6, 0, false, false⟩] }) n

theorem test_unit_stalls : (stuck 9).atDest (BitVec.ofNat 2112 (2 ^ 13 + 3 * 2 ^ 9)) = false ∧
    ((after (.unschedStall 6 0) (stuck ((stuck 9).progressLimit 0))).rf (Reg.lnUnschedStalls 0) 0 32 = 1) ∧
    ((after (.unschedStall 6 0) (stuck ((stuck 9).progressLimit 0 - 1))).inj 0).stalled = false := by decide +kernel

theorem test_token_slot_width :
    ((after (.tokenSlotArrive 1 .w64 2) up).die 0).queue.map (·.code) = [Ev.addrAccessClass] := by decide +kernel

/-- Tile 0 waits to send a cell of its SRAM, in an external cycle. -/
def reading : State :=
  ((up.w (Reg.cnLct 0) 7).withSramReads [{ tile := 0, addr := 0x100, move := { owner := 1, src := 0, dst := 4, lo := 0, hi := 99, cell := 0, cargo := .depart 0 9 }, held := 7 }]).setByte 0x100000000100 7

theorem test_external_read : reading.externalNow 0 = true ∧ 0 < reading.extRoom 0 ∧ reading.unarrived 0 0x100 = none ∧
    (after (.externalCycle 0 [.ok]) reading).sramReads = [] ∧
    (after (.externalCycle 0 [.ok]) reading).transits.map (fun x => fld x.cell 0 8) = [7] := by decide +kernel

theorem test_stream_read : (after (.streamComplete 0 1 5 [(0, .ok)]) (streaming true 0 192)).byte 0x1000600000FF = 0 ∧
    ((after (.streamComplete 0 1 5 [(0, .ok)]) (streaming true 0 192)).strm 0).map (fun x => x.bufs.map (·.leg)) = [[0]] := by
  decide +kernel

/-- A DMA of 5 bytes from host address 0 to 0x40. -/
def dmaJob : Desc := descOf [0x08, 0, 0, 0x40, 0x2_0000_0005, 0]

theorem test_dma_start : owned.dmaCheck 0 ⟨7, dmaJob, 0, 0, 0, 0, 0, 0, 0, [], [], none⟩ = none ∧
    ((ran (.dma 0 0 0 0 [] none []) dmaJob).ring 0).jobs.map (·.phase) = [1] := by decide +kernel

theorem test_dma_cell : (owned.dmaPass .host .here 0 0x40 5).isSome = true ∧
    (after (.dma 0 0 0 0 [1, 2, 3, 4, 5] none []) (hosted [⟨7, dmaJob, 1, 0, 0, 0, 0, 0, 0, [], [], none⟩])).bytes 0x40 5 = [1, 2, 3, 4, 5] ∧
    (((after (.dma 0 0 0 0 [1, 2, 3, 4, 5] none []) (hosted [⟨7, dmaJob, 1, 0, 0, 0, 0, 0, 0, [], [], none⟩])).ring 0).jobs.map (·.phase)) = [2] := by
  decide +kernel

theorem test_droop_margins : (after (.droopFire 0 0xFF) up).mon.owed = [] ∧
    (after (.droopFire 0 8) (up.w (Reg.cnDroopCtrl 0) 9)).mon.owed = [(0, 1)] ∧
    (after (.droopFire 0 4) (up.w (Reg.cnDroopCtrl 0) 9)).mon.owed = [(0, 2)] ∧
    (after (.droopFire 0 2) (up.w (Reg.cnDroopCtrl 0) 9)).mon.owed = [(0, 4)] := by decide +kernel

theorem test_replan_hours : (after (.replan true .sa 0) (up.w Reg.saOperHours 1000)).mon.planBusy = true ∧
    (after (.replan true .sa 0) (up.w Reg.saOperHours 999)).mon.planBusy = false := by decide +kernel

theorem test_other_width : (after (.registerRead .pf .regs 0 .other .ok false) up).got .pf = 0 ∧
    widthOk .other 0 = false ∧
    (((after (.registerWrite .pf .regs 0 .other 9 0 0 0 0 0) up).die 0).queue.map (·.code)) = [Ev.regAccessAlign] := by decide +kernel

theorem test_dropped_stop : (after (.eventReport 3) (running.setDie 3 { queue := [{ code := Ev.eventsDropped, die := 3, items := [1], stops := [⟨0, Ev.lineLate, .fault⟩] }] })).partState
    0 = 5 := by decide +kernel

theorem test_bind_outlives_reset : ((((owned.setToken 3 { val := 1 }).setPart 0 { binds := [metBind] }).dropBinds 0).part 0).binds.map (·.met.isSome) =
    [true] := by decide +kernel

/-! ## Well-formed commands -/

theorem test_words_refused_a : ([
  .salu 0 (0xFF#64 <<< 56), .salui 0 (0xFF#64 <<< 56), .scmp 0 (0xFF#64 <<< 56), .scmpi 0 (0xFF#64 <<< 56),
  .plog 0 (0xFF#64 <<< 56), .li 0 (0xFF#64 <<< 56), .lui 0 (0xFF#64 <<< 56), .br 0 (0xFF#64 <<< 56), .jal 0 (0xFF#64 <<< 56),
  .jr 0 (0xFF#64 <<< 56), .endCmd 0 (0xFF#64 <<< 56), .nop 0 (0xFF#64 <<< 56), .mfcr 0 (0xFF#64 <<< 56),
  .mtcr 0 (0xFF#64 <<< 56), .sld 0 (0xFF#64 <<< 56) .ok, .sst 0 (0xFF#64 <<< 56), .vfp 0 (0xFF#64 <<< 56) false,
  .vfps 0 (0xFF#64 <<< 56) false, .vint 0 (0xFF#64 <<< 56) false, .vints 0 (0xFF#64 <<< 56) false,
  .vmov 0 (0xFF#64 <<< 56) false, .vcvt 0 (0xFF#64 <<< 56) false, .vred 0 (0xFF#64 <<< 56) false] : List Instr).all (fun c => !c.wellFormed) = true := by
  decide +kernel

theorem test_words_accepted_a : ([
  .salu 0 (0x00#64 <<< 56), .salui 0 (0x01#64 <<< 56), .scmp 0 (0x02#64 <<< 56), .scmpi 0 (0x03#64 <<< 56),
  .plog 0 (0x04#64 <<< 56), .li 0 (0x05#64 <<< 56), .lui 0 (0x06#64 <<< 56), .br 0 (0x20#64 <<< 56), .jal 0 (0x21#64 <<< 56),
  .jr 0 (0x22#64 <<< 56), .endCmd 0 (0x23#64 <<< 56), .nop 0 (0x24#64 <<< 56), .mfcr 0 (0x28#64 <<< 56),
  .mtcr 0 (0x29#64 <<< 56), .sld 0 (0x30#64 <<< 56) .ok, .sst 0 (0x31#64 <<< 56), .vfp 0 (0x40#64 <<< 56) false,
  .vfps 0 (0x41#64 <<< 56) false, .vint 0 (0x42#64 <<< 56) false, .vints 0 (0x43#64 <<< 56) false,
  .vmov 0 (0x44#64 <<< 56) false, .vcvt 0 (0x48#64 <<< 56) false, .vred 0 (0x50#64 <<< 56) false] : List Instr).all Instr.wellFormed = true := by
  decide +kernel

theorem test_words_refused_b : ([
  .vlacc 0 (0xFF#64 <<< 56) false, .vld 0 (0xFF#64 <<< 56) .ok, .vst 0 (0xFF#64 <<< 56), .gather 0 (0xFF#64 <<< 56) .ok false,
  .scatter 0 (0xFF#64 <<< 56) false, .scataddi 0 (0xFF#64 <<< 56) .ok false, .lexp 0 (0xFF#64 <<< 56) false,
  .lmrg 0 (0xFF#64 <<< 56) .ok false, .vsort 0 (0xFF#64 <<< 56) false, .vtopk 0 (0xFF#64 <<< 56) false,
  .vrand 0 (0xFF#64 <<< 56) false, .mma 0 (0xFF#64 <<< 56) .ok [], .drain 0 (0xFF#64 <<< 56), .drainv 0 (0xFF#64 <<< 56),
  .lsend 0 (0xFF#64 <<< 56) .ok, .arrive 0 (0xFF#64 <<< 56), .setCmd 0 (0xFF#64 <<< 56), .msend 0 (0xFF#64 <<< 56) .ok,
  .waitt 0 (0xFF#64 <<< 56), .waitf 0 (0xFF#64 <<< 56), .waitps 0 (0xFF#64 <<< 56), .rdtime 0 (0xFF#64 <<< 56),
  .tmark 0 (0xFF#64 <<< 56)] : List Instr).all (fun c => !c.wellFormed) = true := by
  decide +kernel

theorem test_words_accepted_b : ([
  .vlacc 0 (0x52#64 <<< 56) false, .vld 0 (0x60#64 <<< 56) .ok, .vst 0 (0x61#64 <<< 56), .gather 0 (0x62#64 <<< 56) .ok false,
  .scatter 0 (0x63#64 <<< 56) false, .scataddi 0 (0x64#64 <<< 56) .ok false, .lexp 0 (0x65#64 <<< 56) false,
  .lmrg 0 (0x66#64 <<< 56) .ok false, .vsort 0 (0x70#64 <<< 56) false, .vtopk 0 (0x71#64 <<< 56) false,
  .vrand 0 (0x78#64 <<< 56) false, .mma 0 (0x80#64 <<< 56) .ok [], .drain 0 (0x81#64 <<< 56), .drainv 0 (0x82#64 <<< 56),
  .lsend 0 (0x90#64 <<< 56) .ok, .arrive 0 (0x91#64 <<< 56), .setCmd 0 (0x92#64 <<< 56), .msend 0 (0x94#64 <<< 56) .ok,
  .waitt 0 (0x98#64 <<< 56), .waitf 0 (0x99#64 <<< 56), .waitps 0 (0x9A#64 <<< 56), .rdtime 0 (0x9C#64 <<< 56),
  .tmark 0 (0x9E#64 <<< 56)] : List Instr).all Instr.wellFormed = true := by
  decide +kernel

theorem test_operands_refused : ([
  .timeXferReceive 0 (newtOf 0xFF 0 0 0 0 0 0 0) 0 0, .timeXferReceive 0 (newtOf 0x01 3 0 0 0 0 0 0) 0 0,
  .routedNewt 0 (newtOf 1 0 0 0 0 0 0 0), .broadcastNewt 0 (newtOf 0xFF 2 0 0 0 0 0 0),
  .broadcastNewt 0 (newtOf 0x11 3 0 0 0 0 0 0), .epochSet 0 (newtOf 0xFF 2 0 0 0 0 0 0),
  .epochSet 0 (newtOf 0x11 3 0 0 0 0 0 0), .allStopNewt 0 (newtOf 0xFF 2 0 0 0 0 0 0),
  .allStopNewt 0 (newtOf 0x10 3 0 0 0 0 0 0), .ringEnable 0 0 0, .ringDisable 0 0 0x20, .marginPlanReady [],
  .thermalSample [(0, [])], .thermalSample [(0, List.replicate 65 0)], .coldReset false .sa 7 0, .warmReset .sa 7 0,
  .computeReset .sa 7, .partitionReset .sa 7, .tileReset .sa 7, .resetCmdPort .sa 7, .txnBegin .sa 7, .txnSeal .sa 7,
  .txnCommit .sa 7 0, .txnRollback .sa 7, .lockstepNewt (newtOf 0xFF 1 0 0 0 0 0 0), .lockstepNewt (newtOf 0x21 3 0 0 0 0 0 0),
  .traceEnable .sa 0 0, .traceDisable .sa 0 1, .i3cWrite false [] 0 0 0 0 0, .i3cWrite false (List.replicate 16 0) 0 0 0 0 0] : List Instr).all (fun c => !c.wellFormed) = true := by
  decide +kernel

theorem test_operands_accepted : ([
  .timeXferReceive 0 (newtOf 0x01 0 0 0 0 0 0 0) 0 0, .routedNewt 0 (newtOf 1 1 0 0 0 0 0 0),
  .broadcastNewt 0 (newtOf 0x11 2 0 0 0 0 0 0), .epochSet 0 (newtOf 0x11 2 0 0 0 0 0 0),
  .allStopNewt 0 (newtOf 0x10 2 0 0 0 0 0 0), .ringEnable 0 0 0x20, .ringDisable 0 0 0,
  .marginPlanReady (List.replicate 32 ⟨[], []⟩), .thermalSample [(0, [5])], .coldReset false .sa 1 0, .warmReset .sa 2 0,
  .computeReset .sa 3, .partitionReset .sa 4, .tileReset .sa 5, .resetCmdPort .sa 6, .txnBegin .sa 1, .txnSeal .sa 2,
  .txnCommit .sa 3 0, .txnRollback .sa 4, .lockstepNewt (newtOf 0x21 1 0 0 0 0 0 0), .traceEnable .sa 0 1,
  .traceDisable .sa 0 0, .i3cWrite false [1] 0 0 0 0 0] : List Instr).all Instr.wellFormed = true := by
  decide +kernel

end Sys2Proof.Tests
end

section
/-!
SUPPORT. Register accesses that are not carried out: what the capture of R591, a wake condition and the report leave alone, and
that an access of R10's other kinds comes to no more than these.
-/
namespace Sys2Proof.Machine
open Sys2Proof

/-! ## What a refused access leaves alone -/

/-- `u` has the memory, tokens, tiles, open transaction and event queues of `s`, and its registers but for the two of a fault
capture (R590). -/
structure State.Unaffected (s u : State) : Prop where
  mem : u.mem = s.mem
  tokens : u.tokens = s.tokens
  tiles : u.tiles = s.tiles
  txn : u.txn = s.txn
  dies : u.dies = s.dies
  regs : ∀ k, k ≠ Reg.saRegFault → k ≠ Reg.saRegFaultCount → u.r k = s.r k

theorem State.Unaffected.refl (s : State) : s.Unaffected s := ⟨rfl, rfl, rfl, rfl, rfl, fun _ _ _ => rfl⟩

theorem State.Unaffected.trans {s t u : State} (h : s.Unaffected t) (h' : t.Unaffected u) : s.Unaffected u where
  mem := h'.mem.trans h.mem
  tokens := h'.tokens.trans h.tokens
  tiles := h'.tiles.trans h.tiles
  txn := h'.txn.trans h.txn
  dies := h'.dies.trans h.dies
  regs k hf hc := (h'.regs k hf hc).trans (h.regs k hf hc)

theorem State.unaffected_wakeBy (s : State) (code : Nat) : s.Unaffected (s.wakeBy code) := by
  constructor <;> simp

theorem State.unaffected_reached (s : State) (i : Iface) : s.Unaffected (s.reached i) := by
  constructor <;> simp

/-- A write as a wake source (R499) changes nothing but the module state machine. -/
theorem State.unaffected_wakeWrite (s : State) (i : Iface) (xs : List (Nat × RegRow × Nat × W64)) :
    s.Unaffected (s.wakeWrite i xs) := by
  simp only [State.wakeWrite]
  split_ifs
  · exact s.unaffected_wakeBy 7
  · exact s.unaffected_wakeBy 2
  · exact s.unaffected_wakeBy 1
  · exact .refl s

theorem State.unaffected_w_saRegFault (s : State) (v : W64) : s.Unaffected (s.w Reg.saRegFault v) where
  mem := rfl
  tokens := rfl
  tiles := rfl
  txn := rfl
  dies := rfl
  regs k hf _ := s.r_w_ne _ v k hf

theorem State.unaffected_w_saRegFaultCount (s : State) (v : W64) : s.Unaffected (s.w Reg.saRegFaultCount v) where
  mem := rfl
  tokens := rfl
  tiles := rfl
  txn := rfl
  dies := rfl
  regs k _ hc := s.r_w_ne _ v k hc

theorem State.unaffected_withSetNow (s : State) (x : SMap W64) : s.Unaffected (s.withSetNow x) :=
  ⟨rfl, rfl, rfl, rfl, rfl, fun _ _ _ => rfl⟩

/-- A capture (R590, R591) counts the fault and, where none is held, holds it; nothing else changes. -/
theorem State.unaffected_capture (s : State) (i : Iface) (key cause : Nat) (write wide : Bool) :
    s.Unaffected (s.capture i key cause write wide) := by
  have hcount : s.Unaffected (s.inc Reg.saRegFaultCount) := s.unaffected_w_saRegFaultCount _
  simp only [State.capture]
  split_ifs
  · exact .refl s
  · exact hcount
  · exact hcount.trans ((State.unaffected_w_saRegFault _ _).trans
      ((State.unaffected_w_saRegFault _ _).trans (State.unaffected_withSetNow _ _)))

/-- A report changes the queue of its die alone, and there by what the queue holds. -/
theorem State.Unaffected.note {s u : State} (h : s.Unaffected u) (die code : Nat) (items : List Nat) :
    (u.note die code items).mem = s.mem ∧ (u.note die code items).tokens = s.tokens ∧
      (u.note die code items).tiles = s.tiles ∧ (u.note die code items).txn = s.txn ∧
      (∀ k, k ≠ Reg.saRegFault → k ≠ Reg.saRegFaultCount → (u.note die code items).r k = s.r k) ∧
      (u.note die code items).dies = (s.note die code items).dies := by
  refine ⟨h.mem, h.tokens, h.tiles, h.txn, h.regs, ?_⟩
  simp only [State.note, State.report, State.updDie, State.setDie, State.die, State.withDies, h.dies]

theorem State.denyReg_eq_note (s : State) (i : Iface) (key : Nat) (write wide : Bool) (cause : Nat) {code : Nat}
    (h : code ≠ 0) : s.denyReg i key write wide cause code =
      (s.capture i key cause write wide).note 0 code [(0x300000000000 + key) % 2 ^ 48] := if_neg h

/-! ## Accesses of other widths and alignments (R10) -/

/-- Alignment is judged before anything else. -/
theorem State.barred_misaligned (s : State) (i : Iface) {key : Nat} {wide : Bool}
    (h : key % (if wide then 8 else 4) ≠ 0) : s.barred i key wide = some (1, Ev.regAccessAlign, 0) := if_pos h

/-- A barred access asks no die for an answer. -/
theorem State.unanswered_of_barred {s : State} {i : Iface} {key : Nat} {wide : Bool} {x : Nat × Nat × W64}
    (h : s.barred i key wide = some x) (silent : Bool) : s.unanswered i key wide silent = false := by
  simp [State.unanswered, h]

theorem State.envWrite_misaligned (s : State) (i : Iface) (e : WriteEnv) (quiet : Fin 3) {key : Nat} {wide : Bool} (v : W64)
    (ho : s.offline i = false) (h : key % (if wide then 8 else 4) ≠ 0) :
    s.envWrite i e quiet key wide v =
      (s.wakeWrite i (regParts key wide v)).denyReg i key true wide 1 Ev.regAccessAlign := by
  simp [State.envWrite, State.busWrite, State.unanswered_of_barred (s.barred_misaligned i h), State.barred_misaligned _ i h, ho]

theorem State.envRead_misaligned (s : State) (i : Iface) (silent : Bool) {key : Nat} {wide : Bool} (ecc : Ecc)
    (ho : s.offline i = false) (h : key % (if wide then 8 else 4) ≠ 0) :
    s.envRead i silent key wide ecc = (s.denyReg i key false wide 1 Ev.regAccessAlign).answer i 0 := by
  simp [State.envRead, State.busRead, State.unanswered_of_barred (s.barred_misaligned i h), s.barred_misaligned i h, ho]

/-- A write that R10 does not admit is at most a wake source before it is refused. -/
theorem State.spaceWrite_misaligned (s : State) (i : Iface) (e : WriteEnv) (quiet : Fin 3) {key : Nat} {x : Width} (v : W64)
    (ho : s.offline i = false) (h : widthOk x key = false) :
    ∃ t, s.Unaffected t ∧
      s.spaceWrite i e quiet key x v = t.denyReg i key true (decide (x = .w64)) 1 Ev.regAccessAlign := by
  cases x with
  | w32 => exact ⟨_, s.unaffected_wakeWrite i _, s.envWrite_misaligned i e quiet v ho (by simpa [widthOk] using h)⟩
  | w64 => exact ⟨_, s.unaffected_wakeWrite i _, s.envWrite_misaligned i e quiet v ho (by simpa [widthOk] using h)⟩
  | other => exact ⟨_, s.unaffected_reached i, by simp [State.spaceWrite, State.oddAccess, State.reached, ho]⟩

theorem State.spaceRead_misaligned (s : State) (i : Iface) (silent : Bool) {key : Nat} {x : Width} (ecc : Ecc)
    (ho : s.offline i = false) (h : widthOk x key = false) :
    s.spaceRead i silent key x ecc = (s.denyReg i key false (decide (x = .w64)) 1 Ev.regAccessAlign).answer i 0 := by
  cases x with
  | w32 => exact s.envRead_misaligned i silent ecc ho (by simpa [widthOk] using h)
  | w64 => exact s.envRead_misaligned i silent ecc ho (by simpa [widthOk] using h)
  | other => simp [State.spaceRead, State.oddAccess, ho]

/-! ## The commands -/

@[simp] theorem State.got_withPending (s : State) (x : List Instr) (i : Iface) : (s.withPending x).got i = s.got i := rfl

theorem exec_registerWrite_regs (i : Iface) (key : BitVec 48) (w : Width) (v : W64) (boot : BitVec 4) (full : BitVec 16)
    (cause : Fin 3) (version : BitVec 16) (quiet : Fin 3) (s : State) :
    Sys2Proof.Machine.exec (.registerWrite i .regs key w v boot full cause version quiet) s =
      s.act (s.spaceWrite i ⟨boot, full, cause, version⟩ quiet key.toNat w v) := rfl

theorem exec_registerRead_regs (i : Iface) (key : BitVec 48) (w : Width) (ecc : Ecc) (silent : Bool) (s : State) :
    Sys2Proof.Machine.exec (.registerRead i .regs key w ecc silent) s =
      s.act (s.spaceRead i silent key.toNat w ecc) := rfl

end Sys2Proof.Machine

namespace Sys2Proof
open Sys2Proof.Machine

/-- Settles O55: alignment bars the access before any die is asked and before any register is reached, so that nothing but a wake
condition, the capture and the report is left of it. -/
theorem misalignedAccesses : Obligations.MisalignedAccesses := by
  refine ⟨fun s i key w v boot full cause version quiet ho hw => ?_, fun s i key w silent ecc ho hw => ?_⟩
  · obtain ⟨t, ht, he⟩ := s.spaceWrite_misaligned i ⟨boot, full, cause, version⟩ quiet v ho hw
    rw [State.denyReg_eq_note _ _ _ _ _ _ (by decide)] at he
    exact ⟨_, (exec_registerWrite_regs ..).trans (congrArg s.act he), (ht.trans (t.unaffected_capture ..)).note ..⟩
  · have he := s.spaceRead_misaligned i silent ecc ho hw
    rw [State.denyReg_eq_note _ _ _ _ _ _ (by decide)] at he
    exact ⟨_, (exec_registerRead_regs ..).trans (congrArg s.act he), by rw [State.got_withPending, State.got_answer],
      (s.unaffected_capture ..).note ..⟩

end Sys2Proof
end

section
/-!
SUPPORT. The 1PPS input: the stamp of the wall time as one word, and what a stamped edge writes and leaves alone.
-/
namespace Sys2Proof.Machine
open Sys2Proof

/-! ## The stamp of the wall time -/

/-- Nanoseconds and their fraction take the low 48 bits of `SB.WTB_NS` (R75). -/
theorem State.wtbNsWord_lt (s : State) : s.wtbNsWord.toNat < 2 ^ 48 := by
  have hfrac := s.time.wtbFrac.isLt
  have hns := s.time.wtbNs.isLt
  rw [State.wtbNsWord, BitVec.toNat_ofNat]
  omega

/-- The wall time in one word, as `SB.PPS_IN_WTB` holds it (R75): nanoseconds and fraction under the low 16 bits of the seconds. -/
def State.wtbStamp (s : State) : W64 :=
  BitVec.ofNat 64 (s.wtbNsWord.toNat + (s.r Reg.sbWtbSec).toNat % 65536 * 2 ^ 48)

theorem State.toNat_wtbStamp (s : State) :
    s.wtbStamp.toNat = s.wtbNsWord.toNat + (s.r Reg.sbWtbSec).toNat % 65536 * 2 ^ 48 := by
  have hns := s.wtbNsWord_lt
  rw [State.wtbStamp, BitVec.toNat_ofNat]
  omega

theorem State.fld_wtbStamp_ns (s : State) : fld s.wtbStamp 0 48 = fld s.wtbNsWord 0 48 := by
  rw [fld, fld, s.toNat_wtbStamp]
  omega

theorem State.fld_wtbStamp_sec (s : State) : fld s.wtbStamp 48 16 = s.rf Reg.sbWtbSec 0 16 := by
  have hns := s.wtbNsWord_lt
  rw [State.rf, fld, fld, s.toNat_wtbStamp]
  omega

theorem State.wtbStamp_w_ne (s : State) (k : Nat) (v : W64) (h : Reg.sbWtbSec ≠ k) : (s.w k v).wtbStamp = s.wtbStamp := by
  rw [State.wtbStamp, State.r_w_ne _ _ _ _ h, State.wtbNsWord, State.w_time, State.wtbStamp, State.wtbNsWord]

/-! ## The edge -/

/-- The state once an edge is seen, stamped or not (R75). -/
def State.ppsSeen (s : State) : State := s.withTime { s.time with ppsLast := some s.clk }

@[simp] theorem State.rf_ppsSeen (s : State) (k lo w : Nat) : s.ppsSeen.rf k lo w = s.rf k lo w := rfl
@[simp] theorem State.wtbNsWord_ppsSeen (s : State) : s.ppsSeen.wtbNsWord = s.wtbNsWord := rfl

/-- The stamps and the count of one edge (R70). -/
def State.stampPps (s : State) : State :=
  let t := s.w Reg.sbPpsInFtc (s.r Reg.sbFtc)
  let t := t.w Reg.sbPpsInWtb t.wtbStamp
  t.wf Reg.sbPpsCount 0 32 (t.rf Reg.sbPpsCount 0 32 + 1)

theorem exec_ppsInEdge (s : State) :
    Sys2Proof.Machine.exec .ppsInEdge s =
      s.act (if s.ppsSeen.rf Reg.sbTimeCtrl 10 1 = 0 then s.ppsSeen else s.ppsSeen.stampPps) := rfl

/-- No register that a stamp is taken from is one that an earlier write of the same edge has changed. -/
theorem State.stampPps_eq (s : State) :
    s.stampPps = ((s.w Reg.sbPpsInFtc (s.r Reg.sbFtc)).w Reg.sbPpsInWtb s.wtbStamp).w Reg.sbPpsCount
      (setFld (s.r Reg.sbPpsCount) 0 32 (s.rf Reg.sbPpsCount 0 32 + 1)) := by
  have hcount (x y : W64) : ((s.w Reg.sbPpsInFtc x).w Reg.sbPpsInWtb y).r Reg.sbPpsCount = s.r Reg.sbPpsCount := by
    rw [State.r_w_ne _ _ _ _ (by decide), State.r_w_ne _ _ _ _ (by decide)]
  rw [State.stampPps, State.wtbStamp_w_ne _ _ _ (by decide), State.wf_eq, State.rf, hcount, State.rf]

theorem State.r_stampPps_count (s : State) :
    s.stampPps.r Reg.sbPpsCount = setFld (s.r Reg.sbPpsCount) 0 32 (s.rf Reg.sbPpsCount 0 32 + 1) := by
  rw [s.stampPps_eq, State.r_w_same]

theorem State.r_stampPps_wtb (s : State) : s.stampPps.r Reg.sbPpsInWtb = s.wtbStamp := by
  rw [s.stampPps_eq, State.r_w_ne _ _ _ _ (by decide), State.r_w_same]

theorem State.r_stampPps_ftc (s : State) : s.stampPps.r Reg.sbPpsInFtc = s.r Reg.sbFtc := by
  rw [s.stampPps_eq, State.r_w_ne _ _ _ _ (by decide), State.r_w_ne _ _ _ _ (by decide), State.r_w_same]

theorem State.r_stampPps_ne (s : State) (k : Nat) (hftc : k ≠ Reg.sbPpsInFtc) (hwtb : k ≠ Reg.sbPpsInWtb)
    (hcount : k ≠ Reg.sbPpsCount) : s.stampPps.r k = s.r k := by
  rw [s.stampPps_eq, State.r_w_ne _ _ _ _ hcount, State.r_w_ne _ _ _ _ hwtb, State.r_w_ne _ _ _ _ hftc]

theorem State.stampPps_mem (s : State) : s.stampPps.mem = s.mem := by simp only [s.stampPps_eq, State.w_mem]
theorem State.stampPps_tokens (s : State) : s.stampPps.tokens = s.tokens := by simp only [s.stampPps_eq, State.w_tokens]
theorem State.stampPps_dies (s : State) : s.stampPps.dies = s.dies := by simp only [s.stampPps_eq, State.w_dies]
theorem State.stampPps_pending (s : State) : s.stampPps.pending = s.pending := by simp only [s.stampPps_eq, State.w_pending]

theorem exec_ppsInEdge_enabled (s : State) (h : s.rf Reg.sbTimeCtrl 10 1 = 1) :
    Sys2Proof.Machine.exec .ppsInEdge s = .next s.ppsSeen.stampPps := by
  have hen : ¬ s.ppsSeen.rf Reg.sbTimeCtrl 10 1 = 0 := by simp [h]
  rw [exec_ppsInEdge, if_neg hen]
  exact s.act_eq _ s.ppsSeen.stampPps_pending

end Sys2Proof.Machine

namespace Sys2Proof
open Sys2Proof.Machine

/-- Settles O53: the edge writes the three registers of its stamp and no other, so the FTC keeps its value; the wall time's stamp
is taken apart at bit 48, where its seconds begin. -/
theorem ppsInputIsStamped : Obligations.PpsInputIsStamped := by
  intro s h
  refine ⟨_, exec_ppsInEdge_enabled s h, State.r_stampPps_ftc _, ?_, ?_, State.r_stampPps_ne _ _ (by decide) (by decide) (by decide),
    ?_, State.stampPps_mem _, State.stampPps_tokens _, State.stampPps_dies _, State.r_stampPps_ne _⟩
  · rw [State.rf, State.r_stampPps_wtb, State.fld_wtbStamp_ns, State.wtbNsWord_ppsSeen]
  · rw [State.rf, State.r_stampPps_wtb, State.fld_wtbStamp_sec, State.rf_ppsSeen]
  · rw [State.rf, State.r_stampPps_count, fld_setFld_same _ _ _ _ (by decide), State.rf_ppsSeen]

end Sys2Proof
end

section
/-!
SUPPORT. One core cycle of a C-die with one token operation waiting: what the operation comes to, and that the comparisons after it
change no token, register, memory or event queue.
-/
namespace Sys2Proof.Machine
open Sys2Proof

/-! ## The comparisons of a cycle -/

/-- `u` has the token operations, tokens, registers, memory and event queues of `s`: what a comparison with a token leaves alone. -/
structure State.SameTokens (s u : State) : Prop where
  tokOps : u.tokOps = s.tokOps
  tokens : u.tokens = s.tokens
  regs : u.regs = s.regs
  mem : u.mem = s.mem
  dies : u.dies = s.dies

theorem State.SameTokens.refl (s : State) : s.SameTokens s := ⟨rfl, rfl, rfl, rfl, rfl⟩

theorem State.SameTokens.trans {s t u : State} (h : s.SameTokens t) (h' : t.SameTokens u) : s.SameTokens u where
  tokOps := h'.tokOps.trans h.tokOps
  tokens := h'.tokens.trans h.tokens
  regs := h'.regs.trans h.regs
  mem := h'.mem.trans h.mem
  dies := h'.dies.trans h.dies

theorem State.SameTokens.token {s u : State} (h : s.SameTokens u) (j : Nat) : u.token j = s.token j :=
  congrArg (fun ts => SMap.get (fun _ => ({} : Token)) ts j) h.tokens

theorem State.sameTokens_each {f : α → State → State} (hf : ∀ x t, State.SameTokens t (f x t)) (l : List α) :
    ∀ s : State, s.SameTokens (s.each f l) := by
  induction l with
  | nil => exact State.SameTokens.refl
  | cons x xs ih => exact fun s => (hf x s).trans (ih (f x s))

theorem State.sameTokens_updTile (s : State) (t : Nat) (f : Tile → Tile) : s.SameTokens (s.updTile t f) :=
  ⟨rfl, rfl, rfl, rfl, rfl⟩

theorem State.sameTokens_updPart (s : State) (p : Nat) (f : Part → Part) : s.SameTokens (s.updPart p f) :=
  ⟨rfl, rfl, rfl, rfl, rfl⟩

theorem State.sameTokens_withPending (s : State) (cs : List Instr) : s.SameTokens (s.withPending cs) :=
  ⟨rfl, rfl, rfl, rfl, rfl⟩

theorem State.sameTokens_noteBinds (s : State) : s.SameTokens s.noteBinds :=
  State.sameTokens_each (fun p t => t.sameTokens_updPart p _) _ s

/-- The waiters of C-die `c` compare, and the binds of every partition (R96, R391). -/
def State.compareWaits (s : State) (c : Nat) : State :=
  (s.each (fun p s => if p.1 / 192 = c then s.compareWait p.1 else s) s.tiles).noteBinds

theorem State.sameTokens_compareWaits (s : State) (c : Nat) : s.SameTokens (s.compareWaits c) := by
  refine (State.sameTokens_each (fun p t => ?_) s.tiles s).trans (State.sameTokens_noteBinds _)
  split
  · exact t.sameTokens_updTile p.1 _
  · exact .refl t

/-! ## The one operation of a cycle -/

/-- The state once its one waiting operation `x` has been applied (R96, R97). -/
def State.applyOp (s : State) (x : TokOp) : State :=
  let t := (s.withTokOps []).withRecent []
  if x.set then t.setToken x.token { val := x.amount } else t.applyArrive x.token x

theorem exec_tokenUpdateCycle_one {s : State} {c : Fin 4} {x : TokOp} (hops : s.tokOps = [x]) (hx : s.tokenReaches c x = true) :
    Sys2Proof.Machine.exec (.tokenUpdateCycle c) s = s.act ((s.applyOp x).compareWaits c) := by
  have hexec : Sys2Proof.Machine.exec (.tokenUpdateCycle c) s = execTokenUpdateCycle c s := rfl
  have htaken : s.tokOps.filter (s.tokenReaches c) = [x] := by simp [hops, hx]
  have hleft : (s.tokOps.filter fun y => !s.tokenReaches c y) = [] := by simp [hops, hx]
  have hdedup : [x.token].eraseDups = [x.token] := by simp [List.eraseDups_cons]
  rw [hexec, execTokenUpdateCycle, htaken, hleft]
  cases hset : x.set <;> simp [hdedup, hset, State.each, State.applySets, State.applyOp, State.compareWaits]

theorem exec_tokenUpdateCycle_sameTokens {s : State} {c : Fin 4} {x : TokOp} (hops : s.tokOps = [x])
    (hx : s.tokenReaches c x = true) :
    ∃ u, Sys2Proof.Machine.exec (.tokenUpdateCycle c) s = .next u ∧ (s.applyOp x).SameTokens u :=
  ⟨_, exec_tokenUpdateCycle_one hops hx,
    ((s.applyOp x).sameTokens_compareWaits c).trans (State.sameTokens_withPending _ _)⟩

/-- A set leaves nothing of the token's earlier state: neither SATURATED nor that it was recorded (R97). -/
theorem State.applyOp_set (s : State) (k src : Nat) (v : W32) :
    s.applyOp ⟨k, true, v, src⟩ = ((s.withTokOps []).withRecent []).setToken k { val := v } := rfl

/-- Token `k` is full, its operation gone from the queue. -/
def State.saturated (s : State) (k : Nat) : State :=
  ((s.withTokOps []).withRecent []).setToken k { val := 0xFFFFFFFF, sat := true, logged := true }

theorem State.token_saturated_same (s : State) (k : Nat) :
    (s.saturated k).token k = { val := 0xFFFFFFFF, sat := true, logged := true } := State.token_setToken_same _ _ _

theorem State.token_saturated_ne (s : State) (k : Nat) {j : Nat} (h : j ≠ k) : (s.saturated k).token j = s.token j :=
  State.token_setToken_ne _ _ _ _ h

/-- An arrive beyond the greatest value saturates its token, and reports where none has been recorded since the last set (R97);
the report adds to an event queue, by what the queue holds. -/
theorem State.applyOp_arrive_saturated (s : State) (k src : Nat) (a : W32)
    (h : 0xFFFFFFFF < (s.token k).val.toNat + a.toNat) :
    s.applyOp ⟨k, false, a, src⟩ = (s.saturated k).withDies
      (if (s.token k).logged = true then s.dies
        else (s.noteP (cDie (k / 4096)) (partNum (s.partOfToken k)) Ev.tokenSaturated [k]).dies) := by
  have hover : ¬ (s.token k).val.toNat + a.toNat < 2 ^ 32 := by omega
  refine (if_neg hover).trans ?_
  by_cases hlogged : (s.token k).logged = true
  · rw [if_pos hlogged]
    exact if_pos hlogged
  · rw [if_neg hlogged]
    exact if_neg hlogged

end Sys2Proof.Machine

namespace Sys2Proof
open Sys2Proof.Machine

/-- Settles O54: the cycle applies the one operation, and the comparisons after it touch nothing that the statement speaks of. An
arrive that saturates reports by the token's record alone, and a set writes the token afresh. -/
theorem arrivesSaturate : Obligations.ArrivesSaturate := by
  refine ⟨fun s c k src a hops hx hsum => ?_, fun s c k src v hops hx => ?_⟩
  · obtain ⟨u, hu, h⟩ := exec_tokenUpdateCycle_sameTokens hops hx
    rw [s.applyOp_arrive_saturated k src a hsum] at h
    have htoken : ∀ j, u.token j = (s.saturated k).token j := h.token
    have hk := (htoken k).trans (s.token_saturated_same k)
    have hj : ∀ j, j ≠ k → u.token j = s.token j := fun j hj => (htoken j).trans (s.token_saturated_ne k hj)
    exact ⟨u, hu, h.tokOps, h.regs, h.mem, by rw [hk], by rw [hk], by rw [hk], hj, h.dies⟩
  · obtain ⟨u, hu, h⟩ := exec_tokenUpdateCycle_sameTokens hops hx
    rw [s.applyOp_set k src v] at h
    have hk : u.token k = { val := v } := (h.token k).trans (State.token_setToken_same _ _ _)
    have hj : ∀ j, j ≠ k → u.token j = s.token j := fun j hj => (h.token j).trans (State.token_setToken_ne _ _ _ _ hj)
    exact ⟨u, hu, h.tokOps, h.regs, h.mem, h.dies, by rw [hk], by rw [hk], by rw [hk], hj⟩

end Sys2Proof
end
